-- ==== Sys2Proof/Word.lean ====
section
/-! DEFINITION. Bytes, little-endian fields, bit ranges and keyed lists: the plainest arithmetic the model
rests on (spec 00: R9–R14, R31). -/

namespace Sys2Proof

/-- One byte. -/
abbrev Byte := BitVec 8

/-- The value of a little-endian field: the byte at the lowest address holds the low bits (R12). -/
def leNat : List Byte → Nat
  | [] => 0
  | b :: bs => b.toNat + 256 * leNat bs

/-- `n` bytes of the value `v`, little-endian (R12); the low `8 n` bits are kept (R31). -/
def leBytes : Nat → Nat → List Byte
  | 0, _ => []
  | n + 1, v => BitVec.ofNat 8 v :: leBytes n (v / 256)

/-- `n` bytes from offset `off` of a byte list. -/
def slice (b : List Byte) (off n : Nat) : List Byte := (b.drop off).take n

/-- The field of `n` bytes at byte `off` (R14). -/
def fld (b : List Byte) (off n : Nat) : Nat := leNat (slice b off n)

/-- Bits `[hi:lo]` of a value (R13): an unsigned value of `hi - lo + 1` bits. -/
def bits (v hi lo : Nat) : Nat := (v / 2 ^ lo) % 2 ^ (hi + 1 - lo)

/-- Bit `i` of a value. -/
def bit (v i : Nat) : Bool := v.testBit i

/-- `⌈a / b⌉`. -/
def ceilDiv (a b : Nat) : Nat := (a + b - 1) / b

/-- `a` rounded up to a multiple of `b`. -/
def roundUp (a b : Nat) : Nat := ceilDiv a b * b

/-- The truth value as a 1-bit field. -/
def b2n (b : Bool) : Nat := if b then 1 else 0

/-- The two's-complement value of the low `w` bits of `v` (R31). -/
def toSigned (w v : Nat) : Int :=
  let u := v % 2 ^ w
  if u < 2 ^ (w - 1) then (u : Int) else (u : Int) - (2 : Int) ^ w

/-- The low `w` bits of an integer, as an unsigned value (R31). -/
def ofSigned (w : Nat) (v : Int) : Nat := (v % ((2 : Int) ^ w)).toNat

/-- `n` zero bytes. -/
def zeros (n : Nat) : List Byte := List.replicate n 0

/-- The bytes fit `n`: cut, or filled with zeros. -/
def fit (n : Nat) (b : List Byte) : List Byte := (b ++ zeros n).take n

/-- Replace every element that satisfies `p` by its image. -/
def mapIf {α : Type} (p : α → Bool) (f : α → α) (l : List α) : List α :=
  l.map fun x => if p x then f x else x

/-- Drop every element that satisfies `p`. -/
def dropIf {α : Type} (p : α → Bool) (l : List α) : List α :=
  l.filter fun x => !p x

/-- Replace the element with `x`'s key, or add `x` at the end. -/
def upsert {α κ : Type} [DecidableEq κ] (key : α → κ) (x : α) (l : List α) : List α :=
  if l.any fun y => key y = key x then mapIf (fun y => key y = key x) (fun _ => x) l else l ++ [x]

/-- Add a number to a set kept as a list with no repeats. -/
def setAdd {α : Type} [DecidableEq α] (x : α) (l : List α) : List α :=
  if x ∈ l then l else l ++ [x]

/-- The elements in order of first appearance, without repeats. -/
def uniq {α : Type} [DecidableEq α] (l : List α) : List α := l.foldl (fun acc x => setAdd x acc) []

/-- Put an element before the first one that it may stand before. -/
def putBy {α : Type} (le : α → α → Bool) (x : α) : List α → List α
  | [] => [x]
  | y :: ys => if le x y then x :: y :: ys else y :: putBy le x ys

/-- A list in order; elements that are equal in it keep theirs. -/
def sortBy {α : Type} (le : α → α → Bool) (l : List α) : List α := l.foldr (putBy le) []

/-- Sum of a list of numbers. -/
def sumNat (l : List Nat) : Nat := l.foldl (· + ·) 0

/-- Largest of a list of numbers, 0 for none. -/
def maxNat (l : List Nat) : Nat := l.foldl max 0

/-- The numbers `a, a+1, …` of which there are `n`. -/
def span (a n : Nat) : List Nat := (List.range n).map (a + ·)

/-- Ranges `[a, a+n)` and `[b, b+m)` share a number. -/
def overlaps (a n b m : Nat) : Bool := decide (a < b + m ∧ b < a + n ∧ 0 < n ∧ 0 < m)

/-- Range `[a, a+n)` lies inside `[b, b+m)`. -/
def inside (a n b m : Nat) : Bool := decide (b ≤ a ∧ a + n ≤ b + m)

/-- Unsigned 64-bit wrap. -/
def u64 (v : Nat) : Nat := v % 2 ^ 64

/-- Unsigned 32-bit wrap. -/
def u32 (v : Nat) : Nat := v % 2 ^ 32

/-- A fraction of natural numbers, kept in lowest terms by its operations; a denominator is never 0. -/
structure Frac where
  num : Nat
  den : Nat
  deriving DecidableEq, Repr

/-- Lowest terms. -/
def Frac.mk' (n d : Nat) : Frac :=
  let g := Nat.gcd n d
  if d = 0 then ⟨0, 1⟩ else ⟨n / g, d / g⟩

/-- A natural number as a fraction. -/
def Frac.ofNat (n : Nat) : Frac := ⟨n, 1⟩
def Frac.add (a b : Frac) : Frac := Frac.mk' (a.num * b.den + b.num * a.den) (a.den * b.den)
/-- Difference, 0 where it would be negative. -/
def Frac.sub (a b : Frac) : Frac := Frac.mk' (a.num * b.den - b.num * a.den) (a.den * b.den)
def Frac.mul (a b : Frac) : Frac := Frac.mk' (a.num * b.num) (a.den * b.den)
/-- Quotient; 0 where the divisor is 0. -/
def Frac.div (a b : Frac) : Frac := Frac.mk' (a.num * b.den) (a.den * b.num)
def Frac.le (a b : Frac) : Bool := decide (a.num * b.den ≤ b.num * a.den)
def Frac.lt (a b : Frac) : Bool := decide (a.num * b.den < b.num * a.den)
def Frac.sum (l : List Frac) : Frac := l.foldl Frac.add ⟨0, 1⟩
/-- Rounded up to a whole number. -/
def Frac.ceil (a : Frac) : Nat := ceilDiv a.num a.den
def Frac.max (a b : Frac) : Frac := if a.le b then b else a
def Frac.min (a b : Frac) : Frac := if a.le b then a else b

end Sys2Proof
end

