-- ==== Sys2Proof/Syntax.lean ====
section
/-! DEFINITION. The commands of the block: the forms in which they reach it, as the spec's tables lay them out,
and `Instr`, one constructor per row of spec/opcode_table.json. -/

namespace Sys2Proof

/-- A channel that carries Relas commands (Table 03-1): a mailbox of a host port, a control channel of a jetty,
a TLS session, or a MAILBOX message of another shore (R155, R572). -/
inductive Channel where
  | mailbox (port box : Nat)
  | sxf (bundle chan : Nat)
  | tls (session : Nat)
  | shore (shore : Nat)
  deriving DecidableEq, Repr

/-- A Relas command: the channel that carries it and all its bytes, header first (Table 03-3). -/
structure RelasCmd where
  chan : Channel
  bytes : List Byte
  deriving DecidableEq, Repr

/-- OPCODE, bytes 0–1. -/
def RelasCmd.opcode (c : RelasCmd) : Nat := fld c.bytes 0 2
/-- SEQUENCE, bytes 2–3. -/
def RelasCmd.seq (c : RelasCmd) : Nat := fld c.bytes 2 2
/-- LENGTH, bytes 4–5. -/
def RelasCmd.len (c : RelasCmd) : Nat := fld c.bytes 4 2
/-- FLAGS, bytes 6–7. -/
def RelasCmd.flags (c : RelasCmd) : Nat := fld c.bytes 6 2
/-- FLAGS bit 0 STAGE. -/
def RelasCmd.stage (c : RelasCmd) : Bool := bit c.flags 0
/-- FLAGS bit 1 NOTIFY. -/
def RelasCmd.notify (c : RelasCmd) : Bool := bit c.flags 1
/-- FLAGS bits [15:8] SET_ID. -/
def RelasCmd.setId (c : RelasCmd) : Nat := fld c.bytes 7 1
/-- CREDENTIAL bits [15:0]: guest ID. -/
def RelasCmd.guest (c : RelasCmd) : Nat := fld c.bytes 8 2
/-- CREDENTIAL bits [31:16]: guest epoch. -/
def RelasCmd.epoch (c : RelasCmd) : Nat := fld c.bytes 10 2
/-- The 16 B header. -/
def RelasCmd.header (c : RelasCmd) : List Byte := slice c.bytes 0 16
/-- A field of `n` bytes at byte `off` of the command. -/
def RelasCmd.f (c : RelasCmd) (off n : Nat) : Nat := fld c.bytes off n

/-- An SXF message: the bundle it arrives on, its traffic class, the 128 bits of unit 0 (Tables 14-6, 14-7) and the
bytes that follow unit 0 (the data of its units, or of its train). -/
structure SxfMsg where
  via : Nat
  tc : Nat
  unit0 : Nat
  units : List Byte
  deriving DecidableEq, Repr

namespace SxfMsg
/-- OPCODE [7:0]. -/
def op (m : SxfMsg) : Nat := bits m.unit0 7 0
/-- Bit 8: ORDERED of a request, FLAG of a response. -/
def ordered (m : SxfMsg) : Bool := bit m.unit0 8
/-- Bit 9 POISON. -/
def poison (m : SxfMsg) : Bool := bit m.unit0 9
/-- Bits [13:10], reserved in requests and responses. -/
def rsv (m : SxfMsg) : Nat := bits m.unit0 13 10
/-- SRC_SHORE [22:14]. -/
def src (m : SxfMsg) : Nat := bits m.unit0 22 14
/-- TAG [38:23]. -/
def tag (m : SxfMsg) : Nat := bits m.unit0 38 23
/-- GUEST [54:39] of a request. -/
def guest (m : SxfMsg) : Nat := bits m.unit0 54 39
/-- AGENT [70:55] of a request. -/
def agent (m : SxfMsg) : Nat := bits m.unit0 70 55
/-- GPA [127:71] of a request. -/
def gpa (m : SxfMsg) : Nat := bits m.unit0 127 71
/-- DEST [127:119]. -/
def dest (m : SxfMsg) : Nat := bits m.unit0 127 119
/-- STATUS [46:39] of a response. -/
def status (m : SxfMsg) : Nat := bits m.unit0 46 39
/-- CAUSE [54:47] of a response. -/
def cause (m : SxfMsg) : Nat := bits m.unit0 54 47
/-- VALUE [118:55] of a response. -/
def value (m : SxfMsg) : Nat := bits m.unit0 118 55
/-- The class of the opcode, bits [7:5] (R567). -/
def cls (m : SxfMsg) : Nat := bits m.unit0 7 5
/-- A field of `n` bytes at byte `off` of the bytes after unit 0. -/
def f (m : SxfMsg) (off n : Nat) : Nat := fld m.units off n
/-- The message carries one of the response-kind opcodes (Table 14-8, KIND). -/
def isResponse (m : SxfMsg) : Bool :=
  m.cls == 2 || m.cls == 5 || [0x61, 0x65, 0x68, 0x6E].contains m.op

/-- Unit 0 of a request (Table 14-6). -/
def reqUnit (op : Nat) (ordered poison : Bool) (src tag guest agent gpa : Nat) : Nat :=
  op % 2 ^ 8 + b2n ordered * 2 ^ 8 + b2n poison * 2 ^ 9 + (src % 2 ^ 9) * 2 ^ 14 + (tag % 2 ^ 16) * 2 ^ 23 +
    (guest % 2 ^ 16) * 2 ^ 39 + (agent % 2 ^ 16) * 2 ^ 55 + (gpa % 2 ^ 57) * 2 ^ 71

/-- Unit 0 of a response (Table 14-7). -/
def rspUnit (op : Nat) (flag poison : Bool) (src tag status cause value dest : Nat) : Nat :=
  op % 2 ^ 8 + b2n flag * 2 ^ 8 + b2n poison * 2 ^ 9 + (src % 2 ^ 9) * 2 ^ 14 + (tag % 2 ^ 16) * 2 ^ 23 +
    (status % 2 ^ 8) * 2 ^ 39 + (cause % 2 ^ 8) * 2 ^ 47 + (value % 2 ^ 64) * 2 ^ 55 + (dest % 2 ^ 9) * 2 ^ 119

/-- The message with another TAG and SRC_SHORE: the ingress shore replaces an endpoint's tag (R577). -/
def retag (m : SxfMsg) (src tag : Nat) : SxfMsg :=
  let lowPart := m.unit0 % 2 ^ 14
  let highPart := m.unit0 / 2 ^ 39
  { m with unit0 := lowPart + (src % 2 ^ 9) * 2 ^ 14 + (tag % 2 ^ 16) * 2 ^ 23 + highPart * 2 ^ 39 }
end SxfMsg

/-- Who makes a register access: a CPU on a host port, an agent on a jetty (R796), or the Wayfarer monitor. -/
inductive View where
  | host (port : Nat)
  | jetty (bundle : Nat)
  | wayfarer
  deriving DecidableEq, Repr

/-- A register access: who makes it, the agent it comes from (0 for a host port), the BAR (0 is BAR0 and 1 is BAR2, R796), the byte
offset, the width in bytes, whether it writes and, for a write, the data. -/
structure RegAccess where
  view : View
  agent : Nat
  bar : Nat
  off : Nat
  width : Nat
  write : Bool
  data : Nat
  deriving DecidableEq, Repr


/-- The commands of the block, one constructor per row of spec/opcode_table.json. -/
inductive Instr where
  /-- `GUEST_CREATE` (R141). Relas command that makes a guest active on the shore with its quotas, translation
  source and weight. -/
  | guestCreate (c : RelasCmd)
  /-- `GUEST_DESTROY` (R142). Relas command that removes a guest, aborts its work, closes its snapshots, clears its
  key slots and removes its grants and bindings. -/
  | guestDestroy (c : RelasCmd)
  /-- `GUEST_SET` (R143). Relas command that changes the guest fields that SET_MASK selects. -/
  | guestSet (c : RelasCmd)
  /-- `GUEST_SYNC_XLATE` (R76). Relas command that ends once all earlier-translated descriptors of the guest have
  completed, then discards the guest's cached non-leaf entries. -/
  | guestSyncXlate (c : RelasCmd)
  /-- `GUEST_QUERY` (R150). Relas command that returns a guest's settings in the GUEST_CREATE layout. -/
  | guestQuery (c : RelasCmd)
  /-- `COVE_CREATE` (R144). Relas command that creates a cove with its attributes over a free range of cove space.
  -/
  | coveCreate (c : RelasCmd)
  /-- `COVE_DESTROY` (R145). Relas command that runs hand-over steps 1 to 6, sets the cove RETIRING, zero-fills and
  releases its range. -/
  | coveDestroy (c : RelasCmd)
  /-- `COVE_SET` (R146). Relas command that changes the cove attributes that SET_MASK selects. -/
  | coveSet (c : RelasCmd)
  /-- `COVE_GRANT` (R147). Relas command that sets or removes one guest's grant entry on a cove. -/
  | coveGrant (c : RelasCmd)
  /-- `COVE_HANDOVER` (R148). Relas command that passes a cove to a new owner through the steps of Table 02-13. -/
  | coveHandover (c : RelasCmd)
  /-- `HANDOVER_STEP` (R111). The next step of a hand-over begins once the previous step has finished. -/
  | handoverStep (cove : Nat)
  /-- `COVE_QUERY` (R149). Relas command that returns a cove's attributes, state and grant count, or the shore's
  totals for COVE_ID 0xFFFF. -/
  | coveQuery (c : RelasCmd)
  /-- `PLACE_SET` (R104). Relas command that records a placement class for a cove or sub-range, as ADVISE does. -/
  | placeSet (c : RelasCmd)
  /-- `PLACE_QUERY` (R101). Relas command that returns a cove's overrides and the granules still to move. -/
  | placeQuery (c : RelasCmd)
  /-- `PULL_ADD` (R113). Relas command that registers a pull range on the reading shore and has the home record the
  holder. -/
  | pullAdd (c : RelasCmd)
  /-- `PULL_REMOVE` (R113). Relas command that removes a pull range. -/
  | pullRemove (c : RelasCmd)
  /-- `HARBOUR_AREAS` (R87). Staged Relas command that sets the pin region, row cache and mirror area sizes at a
  turn. -/
  | harbourAreas (c : RelasCmd)
  /-- `QUEUE_CREATE` (R262). Relas command that creates an SQ or CQ in shore memory. -/
  | queueCreate (c : RelasCmd)
  /-- `QUEUE_DESTROY` (R274). Relas command that stops an SQ fetching and drains or aborts its descriptors in
  flight. -/
  | queueDestroy (c : RelasCmd)
  /-- `QUEUE_SET` (R275). Relas command that changes queue fields, or with QUEUE_ID 0xFFFF the shore's admission
  settings. -/
  | queueSet (c : RelasCmd)
  /-- `QUEUE_QUERY` (R276). Relas command that returns a queue's configuration, pointers, in-flight count and
  refusals. -/
  | queueQuery (c : RelasCmd)
  /-- `TABLE_CREATE` (R421). Relas command that creates an embedding table over its regions. -/
  | tableCreate (c : RelasCmd)
  /-- `TABLE_DESTROY` (R422). Relas command that stops new use of a table and ends when no descriptor naming it is
  in flight. -/
  | tableDestroy (c : RelasCmd)
  /-- `TABLE_QUERY` (R423). Relas command that returns a table's settings and slot usage. -/
  | tableQuery (c : RelasCmd)
  /-- `INDEX_CREATE` (R451). Relas command that creates a vector index, stages centroids and sets remote standing
  reservations. -/
  | indexCreate (c : RelasCmd)
  /-- `INDEX_DESTROY` (R453). Relas command that stops new use of an index and ends when its operations have
  drained. -/
  | indexDestroy (c : RelasCmd)
  /-- `INDEX_QUERY` (R454). Relas command that returns an index's settings and fill figures. -/
  | indexQuery (c : RelasCmd)
  /-- `KVSET_CREATE` (R495). Relas command that creates a KV set over its regions. -/
  | kvsetCreate (c : RelasCmd)
  /-- `KVSET_DESTROY` (R496). Relas command that stops new use of a KV set and ends when its descriptors have
  drained. -/
  | kvsetDestroy (c : RelasCmd)
  /-- `KVSET_QUERY` (R497). Relas command that returns a KV set's settings and free pages, blocks and sequences. -/
  | kvsetQuery (c : RelasCmd)
  /-- `BOLLARD_ALLOC` (R525). Relas command that allocates a run of bollards and optionally attaches one to an SQ.
  -/
  | bollardAlloc (c : RelasCmd)
  /-- `BOLLARD_FREE` (R526). Relas command that frees a run of bollards. -/
  | bollardFree (c : RelasCmd)
  /-- `BOLLARD_SIGNAL_CMD` (R527). Relas command that performs a SIGNAL on a bollard and returns the old value. -/
  | bollardSignalCmd (c : RelasCmd)
  /-- `BOLLARD_WAIT_CMD` (R527). Relas command that registers a pending wait with a ticket ending when satisfied or
  timed out. -/
  | bollardWaitCmd (c : RelasCmd)
  /-- `BOLLARD_TRY_WAIT` (R527). Relas command that tests a bollard condition at once and returns VALUE and
  SATISFIED. -/
  | bollardTryWait (c : RelasCmd)
  /-- `BUNDLE_SET` (R562). Staged Relas command that defines a bundle as causeway, jetty or none at a turn. -/
  | bundleSet (c : RelasCmd)
  /-- `BUNDLE_OPEN` (R563). Relas command that opens a bundle and reports its links that are up. -/
  | bundleOpen (c : RelasCmd)
  /-- `BUNDLE_CLOSE` (R562). A bundle set to KIND NONE closes once none of its transactions is outstanding. -/
  | bundleClose (bundle : Nat)
  /-- `LINK_QUERY` (R565). Relas command that returns a link's state, lanes, counters and per-wavelength figures. -/
  | linkQuery (c : RelasCmd)
  /-- `LINK_RECAL` (R566). Relas command that recalibrates a link's rings in service or retrains the link. -/
  | linkRecal (c : RelasCmd)
  /-- `FABRIC_SET` (R564). Staged Relas command that sets shore ID, torus size and profile at a turn. -/
  | fabricSet (c : RelasCmd)
  /-- `FAULT_READ` (R676). Relas command that reads records from the Relas-compatible ring. -/
  | faultRead (c : RelasCmd)
  /-- `UNIT_RETIRE` (R677). Relas command that retires a unit, announced or at once. -/
  | unitRetire (c : RelasCmd)
  /-- `WEATHER_QUERY` (R671). Relas command that returns a unit's weathering score and inputs. -/
  | weatherQuery (c : RelasCmd)
  /-- `LOGBOOK_READ` (R675). Relas command that reads Logbook entries. -/
  | logbookRead (c : RelasCmd)
  /-- `QUARANTINE_RELEASE` (R678). Relas command that ends a guest's quarantine on this shore. -/
  | quarantineRelease (c : RelasCmd)
  /-- `MAILBOX_BIND` (R695). Relas command that binds or unbinds a channel to a guest and epoch. -/
  | mailboxBind (c : RelasCmd)
  /-- `KEY_SLOT_LOAD` (R690). Relas command that loads a key slot in clear or ECDH-wrapped form. -/
  | keySlotLoad (c : RelasCmd)
  /-- `KEY_SLOT_CLEAR` (R691). Relas command that zeroes and empties a key slot no cove refers to. -/
  | keySlotClear (c : RelasCmd)
  /-- `DEBUG_UNLOCK_NONCE` (R705). DEBUG_UNLOCK phase 1, which returns a fresh 60 s nonce. -/
  | debugUnlockNonce (c : RelasCmd)
  /-- `DEBUG_UNLOCK_GRANT` (R706). DEBUG_UNLOCK phase 2, which verifies the signature and sets debug-state bits
  until EXPIRY. -/
  | debugUnlockGrant (c : RelasCmd)
  /-- `DEBUG_EXPIRY` (R706). A debug unlock's EXPIRY passes and its scope bits clear. -/
  | debugExpiry
  /-- `TICKET_STATUS` (R138). Relas command that returns a ticket's state, final result, end time and progress. -/
  | ticketStatus (c : RelasCmd)
  /-- `TICKET_END` (R138). A PENDING command's work reaches its stated end and its ticket records the final result.
  -/
  | ticketEnd (ticket : Nat)
  /-- `TICKET_EXPIRY` (R138). An ended ticket's status stops being readable after 10 s or 1,024 later ended tickets.
  -/
  | ticketExpiry (ticket : Nat)
  /-- `COUNTER_READ` (R749). Relas command that latches and returns counters of one group and instance. -/
  | counterRead (c : RelasCmd)
  /-- `EVENT_RING_CONFIGURE` (R753). EVENT_RING_SET CONFIGURE, which sets the stream's severity, collector and key.
  -/
  | eventRingConfigure (c : RelasCmd)
  /-- `EVENT_RING_READ` (R753). EVENT_RING_SET READ, which returns events from the event ring. -/
  | eventRingRead (c : RelasCmd)
  /-- `TRACE_CONFIGURE` (R756). TRACE_SET CONFIGURE, which sets Innkeeper instruction trace pairs, mode and filter.
  -/
  | traceConfigure (c : RelasCmd)
  /-- `TRACE_READ` (R756). TRACE_SET READ, which returns bytes of the trace buffer. -/
  | traceRead (c : RelasCmd)
  /-- `TOLL_READ` (R732). Relas command that returns Tollhouse records or STATUS from the mirror ring. -/
  | tollRead (c : RelasCmd)
  /-- `CONFIG_OPEN` (R820). Staging command that opens a new empty configuration set. -/
  | configOpen (c : RelasCmd)
  /-- `CONFIG_DISCARD` (R153). Staging command that discards a set. -/
  | configDiscard (c : RelasCmd)
  /-- `CONFIG_CHECK` (R154). Staging command that applies the set to a copy of running state and marks it CHECKED or
  reports the failing index. -/
  | configCheck (c : RelasCmd)
  /-- `CONFIG_TURN` (R156). Staging command that schedules a checked set for TURN_TIME. -/
  | configTurn (c : RelasCmd)
  /-- `CONFIG_CANCEL` (R159). Staging command that vetoes a scheduled set and sends a veto. -/
  | configCancel (c : RelasCmd)
  /-- `CONFIG_QUERY` (R820). Staging command that returns a set's state, turn time, count and failing index. -/
  | configQuery (c : RelasCmd)
  /-- `STAGE_COMMAND` (R152). A command issued with STAGE = 1 is checked and appended to its set without effect. -/
  | stageCommand (c : RelasCmd)
  /-- `TURN_VERIFY` (R157). At TURN_TIME less 800,000 ticks the shore verifies a scheduled set and vetoes on
  failure. -/
  | turnVerify (set : Nat)
  /-- `TURN` (R157). At TURN_TIME the shore applies a verified, unvetoed set as one change. -/
  | turn (set : Nat)
  /-- `VETO` (R158). SXF veto message that withholds the turn of a set with the same FABRIC_TAG. -/
  | veto (m : SxfMsg)
  /-- `POWER_CAP_SET` (R779). Relas command that sets a package power cap taking effect at START. -/
  | powerCapSet (c : RelasCmd)
  /-- `THERMAL_QUERY` (R780). Relas command that returns junction temperatures and the capping fractions. -/
  | thermalQuery (c : RelasCmd)
  /-- `STATE_SET` (R771). Relas command that moves the device toward STRICT, SERVICE or DRAINING, optionally
  OFFLINE. -/
  | stateSet (c : RelasCmd)
  /-- `STATE_REACHED` (R771). The last blocking descriptor completes and a pending STATE_SET enters its target
  state. -/
  | stateReached
  /-- `OFFLINE_HALT` (R771). An OFFLINE drain with nothing in flight stops credits, writes records, sends SELF and
  enters HALTED. -/
  | offlineHalt
  /-- `FW_WRITE` (R161). Relas command that writes image data into the non-running firmware slot. -/
  | fwWrite (c : RelasCmd)
  /-- `FW_VERIFY` (R162). Relas command that checks a slot's image and signature. -/
  | fwVerify (c : RelasCmd)
  /-- `FW_ACTIVATE` (R164). Relas command that activates a verified slot live or at reset. -/
  | fwActivate (c : RelasCmd)
  /-- `FW_QUERY` (R150). Relas command that returns firmware slot information. -/
  | fwQuery (c : RelasCmd)
  /-- `FW_SELF_CHECK_PASS` (R165). A newly started image passes its self-check and the slot is marked, raising the
  fused SVN with COMMIT_SVN. -/
  | fwSelfCheckPass
  /-- `FW_SELF_CHECK_TIMEOUT` (R165). The new image fails to pass its self-check within 500 ms and the previous
  image restarts. -/
  | fwSelfCheckTimeout
  /-- `BAD_REGISTER_ACCESS` (R26). A register access of a disallowed width or alignment has no effect, reads all
  ones and is counted. -/
  | badRegisterAccess (a : RegAccess)
  /-- `REGISTER_WRITE` (R21). A write to a register without its own row acts on its fields by their access codes. -/
  | registerWrite (a : RegAccess)
  /-- `TIDETIME_LOW_READ` (R736). A 4 B read of TIDETIME's low half returns it and latches the high half for that
  requester. -/
  | tidetimeLowRead (a : RegAccess)
  /-- `BAD_ACCESS_READ` (R795). A read of BAD_ACCESS returns it and clears its RC count. -/
  | badAccessRead (a : RegAccess)
  /-- `DOORBELL_DENIED_READ` (R795). A read of DOORBELL_DENIED returns it and clears its RC count. -/
  | doorbellDeniedRead (a : RegAccess)
  /-- `INT_STATUS_WRITE` (R799). A write to INT_STATUS clears the bits written as 1. -/
  | intStatusWrite (a : RegAccess)
  /-- `INT_ENABLE_WRITE` (R799). A write to INT_ENABLE sets the enables and sends vector 0 if a status bit becomes
  enabled. -/
  | intEnableWrite (a : RegAccess)
  /-- `INT_SET_WRITE` (R799). A write to INT_SET sets status bits and sends vector 0 for newly enabled bits. -/
  | intSetWrite (a : RegAccess)
  /-- `SQ_TAIL` (R804). Doorbell write that makes SQ slots available for fetch or withdraws unfetched ones. -/
  | sqTail (a : RegAccess)
  /-- `CQ_HEAD` (R805). Doorbell write that frees consumed CQ slots. -/
  | cqHead (a : RegAccess)
  /-- `ERR_HEAD` (R805). Doorbell write that frees consumed error-ring entries. -/
  | errHead (a : RegAccess)
  /-- `ERR_HEAD_RESUME` (R272). ERR_HEAD write with RESUME set, which restarts a stopped SQ after applying HEAD. -/
  | errHeadResume (a : RegAccess)
  /-- `REG_READ` (R796). SXF message that reads a register through SXF control space. -/
  | regRead (m : SxfMsg)
  /-- `REG_WRITE` (R796). SXF message that writes a register through SXF control space. -/
  | regWrite (m : SxfMsg)
  /-- `DESCRIPTOR_FETCH` (R268). The queue engine fetches the next descriptor when the SQ's fetch conditions hold,
  translates it and admits or refuses it. -/
  | descriptorFetch (queue : Nat)
  /-- `PAGE_RESPONSE` (R573). SXF page response arrives and the device walks the table again. -/
  | pageResponse (m : SxfMsg)
  /-- `PAGE_REQUEST_TIMEOUT` (R83). A page request gets no response within the guest's timeout and the walk fails
  with TIMEOUT. -/
  | pageRequestTimeout (tag : Nat)
  /-- `DESCRIPTOR_START` (R296). An admitted descriptor's first booked slot begins, once its fences allow, and its
  work starts. -/
  | descriptorStart (d : Nat)
  /-- `CALENDAR_SLOT` (R286). A 1 µs calendar slot ends, a new slot opens at the far end and merged CQ notifications
  are sent. -/
  | calendarSlot
  /-- `SHARE_RECOMPUTE` (R298). Every 100 µs Breakwater recomputes shares, offered loads, headroom and allowances.
  -/
  | shareRecompute
  /-- `DESCRIPTOR_BOOKING_END` (R326). A descriptor's booked end passes while it waits and it completes on time with
  OK_PARTIAL. -/
  | descriptorBookingEnd (d : Nat)
  /-- `COPY` (R310). Descriptor that copies a range chunk by chunk over Porter channels. -/
  | copy (d : Nat)
  /-- `FILL` (R312). Descriptor that fills a range with a repeated pattern. -/
  | fill (d : Nat)
  /-- `STAGE_IN` (R320). Descriptor that copies memory into a scratchpad, claiming free blocks. -/
  | stageIn (d : Nat)
  /-- `STAGE_OUT` (R321). Descriptor that copies scratchpad bytes to memory and optionally releases blocks. -/
  | stageOut (d : Nat)
  /-- `PACED_COPY` (R326). Descriptor that copies on one channel, pausing and resuming on a level word. -/
  | pacedCopy (d : Nat)
  /-- `PACED_COPY_POLL` (R326). A paused paced copy's POLL interval ends and it reads the level word again. -/
  | pacedCopyPoll (d : Nat)
  /-- `PORTER_RETRY` (R330). 250 ns after a bus error the channel retries the sector access or halts when attempts
  run out. -/
  | porterRetry (channel : Nat)
  /-- `PORTER_CHANNEL_RETIRE` (R650). 100 ms after its announcement a failing Porter channel is retired. -/
  | porterChannelRetire (channel : Nat)
  /-- `ADVISE` (R104). Descriptor that records a placement class over a range, optionally queueing migration. -/
  | advise (d : Nat)
  /-- `PREFETCH` (R106). Descriptor that fills every non-resident granule of a range. -/
  | prefetch (d : Nat)
  /-- `REDUCE_OPEN` (R386). REDUCE_CONTRIB with MODE OPEN, which opens a reduction group slot. -/
  | reduceOpen (d : Nat)
  /-- `REDUCE_CLOSE` (R387). REDUCE_CONTRIB with MODE CLOSE, which closes a group and discards its state. -/
  | reduceClose (d : Nat)
  /-- `REDUCE_CONTRIBUTE` (R389). REDUCE_CONTRIB with MODE CONTRIBUTE, which adds a range piece by piece into tile
  instances. -/
  | reduceContribute (d : Nat)
  /-- `RED` (R391). SXF RED message whose contribution is added to a resident instance and kept. -/
  | red (m : SxfMsg)
  /-- `INSTANCE_EXPIRY` (R378). A tile instance not COMPLETE by its first arrival plus EXPIRY becomes FAILED. -/
  | instanceExpiry (group round tile : Nat)
  /-- `REDUCE_READ` (R397). Consumer descriptor that rounds COMPLETE instances and writes outputs. -/
  | reduceRead (d : Nat)
  /-- `UPDATE_SGDM` (R403). Consumer descriptor that applies an SGD-momentum step in place. -/
  | updateSgdm (d : Nat)
  /-- `UPDATE_ADAMW` (R403). Consumer descriptor that applies an AdamW step in place. -/
  | updateAdamw (d : Nat)
  /-- `CONVERT` (R368). Descriptor that converts a vector between number formats. -/
  | convert (d : Nat)
  /-- `GATHER_ROWS` (R432). Descriptor that reads table rows, pools them and writes outputs. -/
  | gatherRows (d : Nat)
  /-- `SCATTER_ADD_ROWS` (R437). Descriptor that adds contributions exactly into rows and commits new slots. -/
  | scatterAddRows (d : Nat)
  /-- `REPLACE_ROWS` (R441). Descriptor that replaces or deletes rows by record. -/
  | replaceRows (d : Nat)
  /-- `ROW_READ` (R570). SXF request at the shard's shore that reads one row and answers with ROW_DATA. -/
  | rowRead (m : SxfMsg)
  /-- `ROW_DATA` (R428). SXF response carrying a remote row, shadow or MISSING to the gathering shore. -/
  | rowData (m : SxfMsg)
  /-- `SEARCH` (R472). Descriptor that runs a vector search at its shard and coordinates the other shards. -/
  | search (d : Nat)
  /-- `SEARCH_REQUEST` (R481). SXF SEARCH train at a shard that runs the queries and returns SEARCH_RESULT. -/
  | searchRequest (m : SxfMsg)
  /-- `SEARCH_RESULT` (R483). SXF response from a shard that the coordinator merges into query outputs. -/
  | searchResult (m : SxfMsg)
  /-- `CARAVAN_DEPART` (R478). A caravan departs when full, its window ends or a member's booking requires, and
  scans its list once. -/
  | caravanDepart (index list mark : Nat)
  /-- `INSERT_VEC` (R462). Descriptor that appends vectors to their lists' driftlines. -/
  | insertVec (d : Nat)
  /-- `DELETE_VEC` (R465). Descriptor that appends tombstones to driftlines. -/
  | deleteVec (d : Nat)
  /-- `MERGE_DRIFTLINE` (R466). Descriptor that merges lists' driftlines into new main parts. -/
  | mergeDriftline (d : Nat)
  /-- `DRIFTLINE_AUTO_MERGE` (R469). Background merge of a list whose driftline or the pool reaches 75 %. -/
  | driftlineAutoMerge (index list : Nat)
  /-- `KV_APPEND` (R502). Descriptor that appends tokens to a sequence and commits its length. -/
  | kvAppend (d : Nat)
  /-- `KV_GATHER` (R507). Descriptor that reads a sequence's pages and writes them in the requested layout. -/
  | kvGather (d : Nat)
  /-- `KV_FORK` (R504). KV_FORK with MODE FORK, which shares a prefix with a new sequence. -/
  | kvFork (d : Nat)
  /-- `KV_TRUNCATE` (R505). KV_FORK with MODE TRUNCATE, which cuts a sequence back. -/
  | kvTruncate (d : Nat)
  /-- `BOLLARD_SIGNAL` (R523). Descriptor that performs a SIGNAL on a bollard. -/
  | bollardSignal (d : Nat)
  /-- `BOLLARD_WAIT` (R523). Descriptor that waits on or tries a bollard condition. -/
  | bollardWait (d : Nat)
  /-- `BOLLARD_ARRIVE` (R523). Descriptor that arrives at a barrier bollard and completes with its phase. -/
  | bollardArrive (d : Nat)
  /-- `BOLLARD` (R528). SXF bollard message answered at the bollard's home. -/
  | bollard (m : SxfMsg)
  /-- `BOLLARD_WAIT_TIMEOUT` (R523). A pending wait or arrive reaches its timeout or deadline and is answered as
  timed out. -/
  | bollardWaitTimeout (wait : Nat)
  /-- `SNAP_OPEN` (R242). Descriptor that opens a snapshot, alias or remote hold on a tidemark. -/
  | snapOpen (d : Nat)
  /-- `SNAP_CLOSE` (R246). Descriptor that closes a snapshot handle. -/
  | snapClose (d : Nat)
  /-- `PUBLISH` (R247). Descriptor that publishes a new tidemark at once or schedules a timed publish point. -/
  | publish (d : Nat)
  /-- `PUBLISH_POINT` (R248). A timed PUBLISH reaches PUBLISH_TIME and the new tidemark is published with its carry.
  -/
  | publishPoint (d : Nat)
  /-- `REMOTE_HOLD` (R249). SXF message that opens or closes a remote hold at the home shore. -/
  | remoteHold (m : SxfMsg)
  /-- `HOLD_BROKEN` (R249). SXF message that tells the reading shore its remote hold broke, making its snapshot
  BROKEN. -/
  | holdBroken (m : SxfMsg)
  /-- `IMAGE_FREE` (R224). Background freeing of an unreferenced retained image. -/
  | imageFree (cove granule lo : Nat)
  /-- `MARK` (R751). Descriptor that records a mark instant and optionally latched consumption. -/
  | mark (d : Nat)
  /-- `NOP` (R280). Descriptor that completes OK as soon as its fences allow. -/
  | nop (d : Nat)
  /-- `READ` (R64). SXF plain read, routed toward its home or served at the home. -/
  | read (m : SxfMsg)
  /-- `WRITE` (R91). SXF plain write, routed toward its home or applied at the home. -/
  | write (m : SxfMsg)
  /-- `WRITE_MASKED` (R660). SXF byte-masked sector write, including parity deltas at protection members. -/
  | writeMasked (m : SxfMsg)
  /-- `ATOMIC` (R532). SXF fabric atomic performed at the home and answered with the old value. -/
  | atomic (m : SxfMsg)
  /-- `FENCE_RW` (R185). SXF fence ordering reads and writes at the ingress shore. -/
  | fenceRw (m : SxfMsg)
  /-- `FENCE_WW` (R185). SXF fence ordering writes at the ingress shore. -/
  | fenceWw (m : SxfMsg)
  /-- `FENCE_RR` (R185). SXF fence ordering reads at the ingress shore. -/
  | fenceRr (m : SxfMsg)
  /-- `HOME_FENCE` (R190). SXF shore-to-home fence that orders a home's accesses from one agent. -/
  | homeFence (m : SxfMsg)
  /-- `DATA` (R176). SXF read response arriving at the shore on its way to the requester. -/
  | data (m : SxfMsg)
  /-- `DONE` (R176). SXF status response arriving at the shore on its way to the requester. -/
  | done (m : SxfMsg)
  /-- `PERFORMED` (R189). SXF response from the home that releases a kept posted Pilot write at the ingress shore.
  -/
  | performed (m : SxfMsg)
  /-- `ATOMIC_OLD` (R531). SXF atomic response arriving at the shore on its way to the requester. -/
  | atomicOld (m : SxfMsg)
  /-- `BOLLARD_VALUE` (R528). SXF bollard response arriving at the shore on its way to the requester. -/
  | bollardValue (m : SxfMsg)
  /-- `CTL_ACK` (R158). SXF acknowledgement of a control message such as a veto or TAKEOVER. -/
  | ctlAck (m : SxfMsg)
  /-- `INVALIDATE` (R118). SXF message at a holder that removes a pull range and acknowledges once its reads are
  done. -/
  | invalidate (m : SxfMsg)
  /-- `INVALIDATE_ACK` (R117). SXF acknowledgement at the home; the last one clears the holder map. -/
  | invalidateAck (m : SxfMsg)
  /-- `SPAN_STATE` (R578). SXF message that updates a ring's span map and is passed on. -/
  | spanState (m : SxfMsg)
  /-- `TIME_ANNOUNCE` (R743). TIME message ANNOUNCE from which the shore chooses headland and upstream. -/
  | timeAnnounce (m : SxfMsg)
  /-- `TIME_SYNC` (R737). TIME message SYNC that the shore answers with a REPLY. -/
  | timeSync (m : SxfMsg)
  /-- `TIME_REPLY` (R738). TIME message REPLY from which the requester computes its offset and steers its rate. -/
  | timeReply (m : SxfMsg)
  /-- `ANNOUNCE_TIMER` (R737). Every 1 ms the shore sends ANNOUNCE on every open causeway's time link. -/
  | announceTimer
  /-- `SYNC_TIMER` (R737). Every 125 µs a non-headland shore sends SYNC upstream. -/
  | syncTimer
  /-- `SYNC_LOST` (R739). A SYNC without a REPLY within 80,000 ticks is dropped and counted. -/
  | syncLost (seq : Nat)
  /-- `ANNOUNCE_AGE_OUT` (R743). An ANNOUNCE not heard again within 3 ms drops out of the headland choice. -/
  | announceAgeOut (bundle : Nat)
  /-- `HEADLAND_LOCK` (R745). A headland's lock time of Table 20-2 passes and it becomes locked. -/
  | headlandLock
  /-- `HOLDOVER_EXPIRY` (R746). After 100 ms in holdover the shore clears LOCKED and reports a clock fault. -/
  | holdoverExpiry
  /-- `PTP_MESSAGE` (R742). A PTP message on a management port steers a class-1 headland. -/
  | ptpMessage (tai : Nat) (late : Bool)
  /-- `TIDE_1PPS_EDGE` (R816). A rising 1PPS edge marks a whole second of tidetime at a class-0 headland. -/
  | tide1ppsEdge
  /-- `TAKEOVER_DECLARE` (R663). TAKEOVER DECLARE marks a shore dead in the home map and is flooded on. -/
  | takeoverDeclare (m : SxfMsg)
  /-- `TAKEOVER_SELF` (R663). TAKEOVER SELF from a shore entering HALTED marks it dead. -/
  | takeoverSelf (m : SxfMsg)
  /-- `TAKEOVER_REBUILT` (R666). TAKEOVER REBUILT records that a serving shore finished rebuilding a dead shore's
  granules. -/
  | takeoverRebuilt (m : SxfMsg)
  /-- `TAKEOVER_CAPACITY` (R658). TAKEOVER CAPACITY announces a member's usable capacity to its protection set. -/
  | takeoverCapacity (m : SxfMsg)
  /-- `TAKEOVER_MARK` (R661). TAKEOVER MARK sets or clears a granule's protected bit at a parity member. -/
  | takeoverMark (m : SxfMsg)
  /-- `TAKEOVER_STATE` (R662). TAKEOVER STATE replicates a protected cove's state change to its set. -/
  | takeoverState (m : SxfMsg)
  /-- `TAKEOVER_ATOMIC` (R662). TAKEOVER ATOMIC records an atomic's tag and old value at a parity member. -/
  | takeoverAtomic (m : SxfMsg)
  /-- `ATOMIC_RECORD_EXPIRY` (R662). A parity member's atomic record is dropped after 1 ms. -/
  | atomicRecordExpiry (src tag : Nat)
  /-- `SPAN_DEAD_DETECT` (R663). A ring neighbour finds every span of a shore down for 8 µs and declares it dead. -/
  | spanDeadDetect (shore : Nat)
  /-- `SELF_FENCE` (R664). A shore with no causeway up for 4 µs fences itself. -/
  | selfFence
  /-- `PROTECTION_REBUILD` (R666). Background rebuild of a dead shore's protected granules at a serving shore. -/
  | protectionRebuild (gpa : Nat)
  /-- `PROTECTION_UPDATE` (R661). Background delta and MARK sent when a granule enters or leaves protection. -/
  | protectionUpdate (granule : Nat)
  /-- `FRAME` (R547). A received link frame whose flits are accepted or discarded with a NAK, and whose trailer
  acks, credits and maintenance are acted on. -/
  | frame (link : Nat) (trailer : List Byte) (slots : List (Nat × List Byte)) (bad : List Nat) (corrected : Nat) (tagOk : Bool)
  /-- `REPLAY_TIMEOUT` (R548). No acknowledgement for 10 µs and the sender replays from the last acknowledged flit.
  -/
  | replayTimeout (link : Nat)
  /-- `LANE_FAIL` (R552). A receiver fails a lane and the device fails it over, drops it or takes the link down. -/
  | laneFail (link lane : Nat)
  /-- `LANE_MAP_APPLY` (R553). At EFFECT_FRAME both ends apply the new lane map and replay. -/
  | laneMapApply (link : Nat)
  /-- `LIGHT_OUT_OF_RANGE` (R542). A wavelength's input light leaves range and is failed on all four links of the
  input. -/
  | lightOutOfRange (input wavelength : Nat)
  /-- `LINK_LOSS` (R554). A whole link goes down and its bundle continues on the rest. -/
  | linkLoss (link : Nat)
  /-- `LINK_TRAIN_STEP` (R557). A link finishes a training step and begins the next, up to IDENT. -/
  | linkTrainStep (link peer peerLink agent : Nat)
  /-- `LINK_TRAIN_TIMEOUT` (R557). A training step misses its bound and the link restarts from step 1 after 100 ms.
  -/
  | linkTrainTimeout (link : Nat)
  /-- `LINK_TRAIN_BATCH` (R558). The next batch of 8 links starts training. -/
  | linkTrainBatch (present : List Nat)
  /-- `KEY_GENERATION_ROLL` (R703). After 2^30 frames a direction moves to the next key generation and flips
  KEY_PHASE. -/
  | keyGenerationRoll (link : Nat)
  /-- `RING_RECAL` (R566). Background ring recalibration of a link every 200 ms. -/
  | ringRecal (link : Nat)
  /-- `HOST_MEM_READ` (R604). CXL.mem read on a host port decoded to an extent and served under its guest. -/
  | hostMemRead (port tag addr : Nat) (secure : Bool)
  /-- `HOST_MEM_WRITE` (R604). CXL.mem write on a host port decoded to an extent and applied under its guest. -/
  | hostMemWrite (port tag addr : Nat) (data : List Byte) (mask : Nat) (poison secure : Bool)
  /-- `HOST_SHARED_READ` (R196). Host shared read of a SHARED_HDM_DB line handled by the directory. -/
  | hostSharedRead (port tag addr : Nat) (secure : Bool)
  /-- `HOST_OWNERSHIP_READ` (R196). Host ownership read of a SHARED_HDM_DB line, recalling other copies. -/
  | hostOwnershipRead (port tag addr : Nat) (secure : Bool)
  /-- `HOST_WRITE_BACK` (R196). Host write-back of modified data to a SHARED_HDM_DB line. -/
  | hostWriteBack (port tag addr : Nat) (data : List Byte) (kept poison secure : Bool)
  /-- `HOST_CLEAN_EVICTION` (R196). Host clean eviction that removes the host from a line's holders. -/
  | hostCleanEviction (port addr : Nat)
  /-- `BI_RESPONSE` (R200). Back-invalidate response from a host that ends a recall. -/
  | biResponse (port line : Nat) (kept : Bool) (data : List Byte)
  /-- `SNOOP_TIMEOUT` (R201). A host fails to answer a back-invalidate snoop within 50 µs and the recall ends
  without it. -/
  | snoopTimeout (port line : Nat)
  /-- `HOST_LINK_DOWN` (R593). A host port leaves L0 and its unanswered requests are discarded and its E lines
  poisoned. -/
  | hostLinkDown (port : Nat)
  /-- `PERST` (R765). PERST# assertion or release on a host port resets domain HOST p. -/
  | perst (port : Nat) (asserted : Bool)
  /-- `FLR` (R592). Function level reset of a host port. -/
  | flr (port : Nat)
  /-- `EXTENT_OFFER` (R596). The device offers a dynamic-capacity extent once guest ownership and grant first hold
  together. -/
  | extentOffer (port cove guest : Nat)
  /-- `EXTENT_FORCED_RELEASE` (R600). An extent not released 1 s after the request is force-released. -/
  | extentForcedRelease (port extent : Nat)
  /-- `HDM_DECODER_COMMIT` (R603). A host commits an HDM decoder, which the device accepts or marks Error Not
  Committed. -/
  | hdmDecoderCommit (port index base size dpa : Nat) (bi : Bool)
  /-- `ATS_COMPLETION` (R611). ATS translation completion from the host continues or retries a walk. -/
  | atsCompletion (port tag hpa len : Nat) (r w : Bool)
  /-- `PRI_RESPONSE` (R611). PRI page response from the host continues or fails a walk. -/
  | priResponse (port tag code : Nat)
  /-- `ATS_INVALIDATION` (R612). ATS invalidation request, answered once descriptors holding overlapping
  translations complete. -/
  | atsInvalidation (port tag pasid gva len : Nat)
  /-- `SPDM_MESSAGE` (R700). SPDM request on DOE or MCTP served by the device's responder. -/
  | spdmMessage (responder object code session arg : Nat)
  /-- `MARGINING_COMMAND` (R591). Lane margining command answered with Table 15-2 values. -/
  | marginingCommand (port item : Nat)
  /-- `IDENTIFY_MEMORY_DEVICE` (R614). CXL mailbox command reporting zero static capacity. -/
  | identifyMemoryDevice (port : Nat)
  /-- `GET_SUPPORTED_LOGS` (R614). CXL mailbox command listing the command effects log. -/
  | getSupportedLogs (port : Nat)
  /-- `GET_LOG` (R614). CXL mailbox command returning the command effects log. -/
  | getLog (port off len : Nat)
  /-- `GET_EVENT_RECORDS` (R614). CXL mailbox command returning dynamic-capacity and media events. -/
  | getEventRecords (port : Nat)
  /-- `CLEAR_EVENT_RECORDS` (R614). CXL mailbox command clearing event records. -/
  | clearEventRecords (port number : Nat)
  /-- `GET_DYNAMIC_CAPACITY_CONFIGURATION` (R595). CXL mailbox command returning the three regions. -/
  | getDynamicCapacityConfiguration (port : Nat)
  /-- `GET_DYNAMIC_CAPACITY_EXTENT_LIST` (R598). CXL mailbox command returning accepted extents with their tags. -/
  | getDynamicCapacityExtentList (port : Nat)
  /-- `ADD_DYNAMIC_CAPACITY_RESPONSE` (R599). Host response accepting or rejecting an offered extent. -/
  | addDynamicCapacityResponse (port extent : Nat) (accept : Bool)
  /-- `RELEASE_DYNAMIC_CAPACITY` (R600). Host releases an extent, ending its service and any RELEASING alias. -/
  | releaseDynamicCapacity (port extent : Nat)
  /-- `GET_POISON_LIST` (R609). CXL mailbox command returning poisoned sectors of accepted extents. -/
  | getPoisonList (port : Nat)
  /-- `GET_HEALTH_INFO` (R614). CXL mailbox command returning state, weathering and temperatures. -/
  | getHealthInfo (port : Nat)
  /-- `SET_TIMESTAMP` (R614). CXL mailbox command accepted without changing tidetime. -/
  | setTimestamp (port ns : Nat)
  /-- `GET_TIMESTAMP` (R614). CXL mailbox command returning the timestamp. -/
  | getTimestamp (port : Nat)
  /-- `HARBOUR_FILL` (R45). A miss entry's fill data arrives, the granule is written and waiting accesses are served
  in order. -/
  | harbourFill (granule : Nat)
  /-- `WAY_AVAILABLE` (R93). A way of a full set becomes a candidate and an open miss entry's granule takes it. -/
  | wayAvailable (granule : Nat)
  /-- `WRITE_BACK` (R46). A dirty victim granule moves into the deep-tier write queue. -/
  | writeBack (granule sub block : Nat)
  /-- `MIGRATION_GRANULE` (R100). Background copy and switch of one granule to its new area. -/
  | migrationGranule (granule : Nat) (overtaken : Bool) (sub block : Nat)
  /-- `MIRROR_WRITE_BACK` (R94). Background write-back of the oldest dirty mirrored granules when the mirror area
  reaches 75 %. -/
  | mirrorWriteBack (sub block : Nat)
  /-- `HARBOUR_SCRUB` (R301). Background scrub of Harbour stacks. -/
  | harbourScrub (granule corrected : Nat) (bad : List Nat)
  /-- `NAND_READ_DONE` (R629). A NAND page read and transfer completes and the page is decoded, escalating on
  failure. -/
  | nandReadDone (granule path : Nat) (valid : Bool)
  /-- `NAND_PROGRAM_DONE` (R621). A page program completes and the map moves to it unless a newer write sequence
  holds. -/
  | nandProgramDone (granule seq : Nat) (ok : Bool) (sub block : Nat)
  /-- `NAND_ERASE_DONE` (R637). A block erase completes or fails and the block is freed or retired. -/
  | nandEraseDone (die block : Nat) (ok : Bool)
  /-- `NAND_SUSPEND` (R628). A read reaches a die running a program or erase, which is suspended after its 4 µs
  minimum. -/
  | nandSuspend (die : Nat)
  /-- `NAND_RESUME` (R628). A die's read queue empties and its suspended operation resumes. -/
  | nandResume (die : Nat)
  /-- `GRANULE_LOST` (R632). 150 µs after ingress without valid data the granule is poisoned and waiting accesses
  answered. -/
  | granuleLost (granule : Nat)
  /-- `NAND_UNIT_FAIL` (R634). A die or channel fails and its capacity leaves admission with restriping started. -/
  | nandUnitFail (unit : Nat)
  /-- `RECLAIM` (R636). Background reclaim of blocks with fewest valid pages. -/
  | reclaim (granule sub block : Nat)
  /-- `WEAR_LEVELLING` (R636). Background moves from least-erased to most-erased blocks. -/
  | wearLevelling (granule sub block : Nat)
  /-- `RETENTION_REFRESH` (R636). Background scan and rewrite of written blocks at their refresh interval. -/
  | retentionRefresh (granule : Nat) (weak still : Bool) (sub block : Nat)
  /-- `RESTRIPING` (R627). Background rewrite of stripes into the current or a full form. -/
  | restriping (granule sub block : Nat)
  /-- `WEAR_RECORD_WRITE` (R624). Rewrite of a die's wear record at most every 10 minutes. -/
  | wearRecordWrite (die : Nat)
  /-- `RESERVE_RAISE` (R302). A background debt exceeds its limit and Innkeeper stages a reserve raise. -/
  | reserveRaise (task resource debt limit : Nat)
  /-- `RESERVE_LOWER` (R302). After 100 ms with debts within limit a turn lowers the reserve by one point. -/
  | reserveLower (resource : Nat)
  /-- `CAPACITY_REDUCTION_EFFECT` (R303). An announced capacity reduction takes effect at its start. -/
  | capacityReductionEffect
  /-- `HBM_CHANNEL_FAIL` (R643). An HBM channel fails or weathers out and is retired into row redundancy. -/
  | hbmChannelFail (stack channel : Nat)
  /-- `HBM_STACK_RETIRE` (R644). A second channel failure or announced retirement takes a whole stack out of
  service. -/
  | hbmStackRetire (stack : Nat)
  /-- `ARRAY_FAIL` (R645). A shoal array fails and is replaced by the die's spare, or its logical number is lost. -/
  | arrayFail (array : Nat)
  /-- `DIRECTORY_ENTRY_ERROR` (R647). An uncorrectable directory entry makes the slice recall the line. -/
  | directoryEntryError (line : Nat)
  /-- `HOST_PORT_FENCE` (R648). A host port is fenced after a snoop timeout, IDE violation or error burst. -/
  | hostPortFence (port : Nat) (ide : Bool)
  /-- `LOCKSTEP_MISMATCH` (R649). An Innkeeper lockstep pair mismatches and restarts. -/
  | lockstepMismatch (pair : Nat) (started : Bool)
  /-- `WEATHER_RECOMPUTE` (R671). Every 10 s every unit's weathering score is recomputed and thresholds raise
  events. -/
  | weatherRecompute (margins : List (Nat × Nat × Nat))
  /-- `EVENT_DATAGRAM` (R674). A management datagram of events is sent within 1 ms of its first event or when it
  holds 16. -/
  | eventDatagram
  /-- `LOGBOOK_WRITE` (R675). Every 10 min with changes, the Logbook is written to the boot NOR. -/
  | logbookWrite
  /-- `TLS_SESSION_OPEN` (R748). A TLS handshake completes and the session gets a number and binding. -/
  | tlsSessionOpen (chains manager : Bool)
  /-- `TLS_SESSION_CLOSE` (R748). A TLS session closes and its number is freed. -/
  | tlsSessionClose (session : Nat)
  /-- `RAIL_GOOD` (R760). A rail becomes good, releasing domains and at last rail good starting WAKING. -/
  | railGood (rail : Nat)
  /-- `RAIL_FAULT` (R776). A good rail leaves its range and the device acts per Table 21-8. -/
  | railFault (rail : Nat)
  /-- `SHORE_RST_N` (R766). Assertion or release of the package reset input. -/
  | shoreRstN (asserted : Bool)
  /-- `WAKING_COMPLETE` (R770). Innkeeper booted, stacks trained and population fixed, the device enters STRICT. -/
  | wakingComplete (parts : List (Nat × Nat × Nat × Nat × Nat)) (badStacks : List Nat)
  /-- `CLOCK_FAULT` (R768). A PLL loses lock or SYS_REFCLK deviates above 200 ppm, halting the device. -/
  | clockFault (domain : Nat) (refclk : Bool)
  /-- `THERMAL_SAMPLE` (R781). Every 1 ms the sensors are read and f_thermal is announced, cut, raised or a trip
  taken. -/
  | thermalSample (temps : List Int) (projected : Bool)
  /-- `POWER_CAP_EFFECT` (R778). An announced change of f takes effect at its start slot. -/
  | powerCapEffect
  /-- `ACTIVITY_FRAME` (R717). A valid activity frame closes a Tollhouse interval and its energy is apportioned. -/
  | activityFrame (crcOk : Bool) (number us : Nat) (energy : List Nat) (counts : List (Nat × List Nat)) (below : Bool)
  /-- `INTERVAL_TIMEOUT` (R717). No valid frame within 15 ms closes the interval as UNATTRIBUTED. -/
  | intervalTimeout (energy : List Nat) (below : Bool)
  /-- `PERIOD_END` (R720). A Tollhouse period ends and guest, shore and signature records are written. -/
  | periodEnd
  /-- `SEAL_BREAK` (R728). A seal cause occurs and the Tollhouse writes its last signed records, erases its key and
  blows the fuse. -/
  | sealBreak (cause : Nat)
  /-- `VTOLL_LOSS` (R726). VTOLL falls and the Tollhouse writes its accumulators and POWER_DOWN. -/
  | vtollLoss
  /-- `TOLLHOUSE_POWER_UP` (R710). VTOLL reaches range and the Tollhouse starts measuring and writes POWER_UP. -/
  | tollhousePowerUp (cause : Nat)
  /-- `TOLL_STATUS_MIRROR` (R731). Every 1 s the Tollhouse sends a STATUS payload on the mirror link. -/
  | tollStatusMirror
  /-- `TOLL_MIRROR_TIMEOUT` (R731). No STATUS for 3 s or a SEQUENCE gap makes Innkeeper raise a Tollhouse fault. -/
  | tollMirrorTimeout
  /-- `TOLL_STATUS` (R729). Tollhouse port command returning status. -/
  | tollStatus (frame : List Byte)
  /-- `TOLL_PORT_READ` (R730). Tollhouse port READ returning stored records. -/
  | tollPortRead (frame : List Byte)
  /-- `TOLL_ACK` (R730). Tollhouse port ACK that frees acknowledged records. -/
  | tollAck (frame : List Byte)
  /-- `TOLL_CERT` (R723). Tollhouse port command returning a certificate chunk. -/
  | tollCert (frame : List Byte)
  /-- `TOLL_INSTANT` (R713). Tollhouse port command returning instantaneous rail figures. -/
  | tollInstant (frame : List Byte)
  /-- `TOLL_ATTEST` (R729). Tollhouse port command returning a signed status with the nonce. -/
  | tollAttest (frame : List Byte)
  /-- `COMMISSION` (R730). Tollhouse port command that enrols the collector key once. -/
  | commission (frame : List Byte)
  /-- `SET_BAUD` (R729). Tollhouse port command that sets the UART rate. -/
  | setBaud (frame : List Byte)
  /-- `WAYFARER_HELP` (R758). Wayfarer command listing commands. -/
  | wayfarerHelp (line : List Byte)
  /-- `WAYFARER_VERSION` (R758). Wayfarer command reporting revisions and serial. -/
  | wayfarerVersion (line : List Byte)
  /-- `WAYFARER_STATE` (R758). Wayfarer command reporting device state and cause. -/
  | wayfarerState (line : List Byte)
  /-- `WAYFARER_TIME` (R758). Wayfarer command reporting tidetime and lock figures. -/
  | wayfarerTime (line : List Byte)
  /-- `WAYFARER_BOOT` (R758). Wayfarer command reporting boot messages. -/
  | wayfarerBoot (line : List Byte)
  /-- `WAYFARER_BAUD` (R759). Wayfarer command changing the UART rate. -/
  | wayfarerBaud (line : List Byte)
  /-- `WAYFARER_COUNT` (R759). Wayfarer command listing a counter group. -/
  | wayfarerCount (line : List Byte)
  /-- `WAYFARER_EVENTS` (R759). Wayfarer command listing recent events. -/
  | wayfarerEvents (line : List Byte)
  /-- `WAYFARER_WEATHER` (R759). Wayfarer command reporting a unit's score. -/
  | wayfarerWeather (line : List Byte)
  /-- `WAYFARER_LINKS` (R759). Wayfarer command listing link states. -/
  | wayfarerLinks (line : List Byte)
  /-- `WAYFARER_REG` (R795). Wayfarer command reading a register without clearing RC fields. -/
  | wayfarerReg (line : List Byte)
  /-- `WAYFARER_TRACE` (R759). Wayfarer command dumping trace buffer bytes. -/
  | wayfarerTrace (line : List Byte)
  /-- `MBX_DOORBELL` (R122). A write to MBX_DOORBELL copies the command and sets BUSY, or while BUSY is ignored and
  sets OVERRUN. -/
  | mbxDoorbell (a : RegAccess)
  /-- `MAILBOX` (R572). SXF MAILBOX message carrying one Relas command on a jetty control channel or between shores.
  -/
  | mailbox (m : SxfMsg)
  /-- `MAILBOX_RSP` (R155). SXF MAILBOX_RSP carrying another shore's answer to a fabric-scope CONFIG_CHECK query. -/
  | mailboxRsp (m : SxfMsg)
  /-- `FABRIC_CHECK_TIMEOUT` (R155). A shore queried by a fabric-scope CONFIG_CHECK gives no answer within 1 ms and
  the check fails with CONFLICT. -/
  | fabricCheckTimeout (tag : Nat)
  /-- `INNKEEPER_BOOT` (R696). The mask ROM finishes verifying and starting the firmware image, opening WAKING
  command service and link training, or enters HALTED with BOOT_FAILED. -/
  | innkeeperBoot (okA okB : Bool)
  /-- `QUAY_ERROR` (R640). An ECC or parity error in the Quay poisons carried data or, on control state, halts the
  device. -/
  | quayError (unit : Nat) (control : Bool) (sectors : List Nat)
  /-- `HOST_LINK_UP` (R589). A host port's link reaches L0 after training or retraining, fixing its width and ending
  a fence. -/
  | hostLinkUp (port width : Nat) (bi ats pri d3hot : Bool)
  /-- `HOST_LINK_WIDTH_DROP` (R589). A host port's link width drops without the device choosing it, an unannounced
  capacity reduction. -/
  | hostLinkWidthDrop (port width : Nat)
  /-- `ATS_COMPLETION_TIMEOUT` (R611). An ATS translation request gets no completion within the Device Control 2
  timeout and the walk fails with TIMEOUT. -/
  | atsCompletionTimeout (tag : Nat)
  /-- `PORTER_BUS_TIMEOUT` (R329). A Porter access gets no response within 5 µs and counts as a BUS_TIMEOUT bus
  error. -/
  | porterBusTimeout (tag : Nat)
  /-- `TIDE_REFERENCE_CHANGE` (R743). The 10 MHz/1PPS or PTP reference appears or leaves range, changing the shore's
  class and its ANNOUNCE within 10 µs. -/
  | tideReferenceChange (tide ptp : Bool)
  /-- `REDFISH_REQUEST` (R694). A Redfish request over HTTPS, such as installing fabric trust anchors through the
  certificate service. -/
  | redfishRequest (manager : Bool) (anchor : List Byte)
  /-- `JTAG_INSTRUCTION` (R704). A JTAG instruction on the TAP, limited by the debug state, such as IDCODE or EXTEST
  under reset. -/
  | jtagInstruction (code : Nat)
  /-- `MSIX_UNMASK` (R613). A write that unmasks an MSI-X vector sends the one merged message pending on it. -/
  | msixUnmask (port vector : Nat)
  deriving DecidableEq, Repr

end Sys2Proof
end

