-- ==== Sys2Proof/Config.lean ====
section
/-! DEFINITION. What the spec leaves open, as constants without a body: nothing in Lean can evaluate them or prove a
value of them. Each is named in a row of notes/assumptions. -/

namespace Sys2Proof.Config

/-- Free value: the result of a draw, by the number of draws made so far (a random number, a nonce, a time that only an
implementation fixes). Log entry 2. -/
opaque drawn : Nat → Nat

/-- The Harbour set of a granule (R89 gives the associativity, no rule gives the index function). Log entry 5. -/
opaque harbourSet : Nat → Nat

/-- Whether a granule of another shore lies in a Pilot cove, as the ingress shore knows it (R188, R581). Log entry 6. -/
opaque remotePilot : Nat → Bool

/-- PREP_TICKS of a configuration set: no fixed figure, within the bounds of R819. Log entry 7. -/
opaque prepTicks : List Byte → Nat

/-- Whether a deep-tier read of a granule, wanted at a tidetime for a deadline, is late (R103). Log entry 8. -/
opaque tierLate : Nat → Nat → Nat → Bool

/-- Cryptographic functions (digests, signatures, cipher text) of their input, which the spec names by standard and does
not restate. Log entry 9. -/
opaque crypto : List Byte → Nat

/-- Whether a signature, certificate or image, given with what it signs, verifies. Log entry 9. -/
opaque verifies : List Byte → Bool

/-- Facts of the unit (serial number, fuses, vendor identifier and the like), by number. Log entry 10. -/
opaque unit : Nat → Nat

end Sys2Proof.Config
end

