-- ==== Sys2Proof/Machine/Flags.lean ====
section
/-! DEFINITION. The code points of the spec: descriptor statuses (Table 06-4), CAUSE values (Tables 02-12, 05-6, 06-7,
07-6, 09-10 and the chapters' own), Relas results (Table 03-5), SXF opcodes (Table 14-8), the status a register access
or a flag field gives. -/

namespace Sys2Proof.Machine

/-! Status codes of Table 06-4. -/
namespace Status
/-- ok: 0x00. -/
abbrev ok : Nat := 0x00
/-- okDegraded: 0x01. -/
abbrev okDegraded : Nat := 0x01
/-- okPartial: 0x02. -/
abbrev okPartial : Nat := 0x02
/-- okLateFault: 0x03. -/
abbrev okLateFault : Nat := 0x03
/-- refusedBusy: 0x10. -/
abbrev refusedBusy : Nat := 0x10
/-- refusedDeadline: 0x11. -/
abbrev refusedDeadline : Nat := 0x11
/-- refusedRights: 0x12. -/
abbrev refusedRights : Nat := 0x12
/-- refusedFormat: 0x13. -/
abbrev refusedFormat : Nat := 0x13
/-- refusedNotReady: 0x14. -/
abbrev refusedNotReady : Nat := 0x14
/-- refusedQuarantine: 0x15. -/
abbrev refusedQuarantine : Nat := 0x15
/-- faultPoison: 0x20. -/
abbrev faultPoison : Nat := 0x20
/-- faultTranslation: 0x21. -/
abbrev faultTranslation : Nat := 0x21
/-- faultBus: 0x22. -/
abbrev faultBus : Nat := 0x22
/-- faultDeadTarget: 0x23. -/
abbrev faultDeadTarget : Nat := 0x23
/-- faultTier: 0x24. -/
abbrev faultTier : Nat := 0x24
/-- faultIncompleteGroup: 0x25. -/
abbrev faultIncompleteGroup : Nat := 0x25
/-- abortedTeardown: 0x30. -/
abbrev abortedTeardown : Nat := 0x30
/-- abortedBySoftware: 0x31. -/
abbrev abortedBySoftware : Nat := 0x31
/-- internal: 0x3F. -/
abbrev internal : Nat := 0x3F
end Status

/-! CAUSE values. -/
namespace Cause
/-- invalid: 0x01. -/
abbrev invalid : Nat := 0x01
/-- rights: 0x02. -/
abbrev rights : Nat := 0x02
/-- malformed: 0x03. -/
abbrev malformed : Nat := 0x03
/-- timeout: 0x04. -/
abbrev timeout : Nat := 0x04
/-- hdmMiss: 0x05. -/
abbrev hdmMiss : Nat := 0x05
/-- reserved: 0x06. -/
abbrev reserved : Nat := 0x06
/-- alignment: 0x07. -/
abbrev alignment : Nat := 0x07
/-- extentLimit: 0x08. -/
abbrev extentLimit : Nat := 0x08
/-- remote: 0x09. -/
abbrev remote : Nat := 0x09
/-- placementLimit: 0x0A. -/
abbrev placementLimit : Nat := 0x0A
/-- noGrant: 0x0B. -/
abbrev noGrant : Nat := 0x0B
/-- pinQuota: 0x0C. -/
abbrev pinQuota : Nat := 0x0C
/-- kind: 0x0D. -/
abbrev kind : Nat := 0x0D
/-- pullLimit: 0x0E. -/
abbrev pullLimit : Nat := 0x0E
/-- stalePull: 0x0F. -/
abbrev stalePull : Nat := 0x0F
/-- notVersioned: 0x10. -/
abbrev notVersioned : Nat := 0x10
/-- snapLimit: 0x11. -/
abbrev snapLimit : Nat := 0x11
/-- badHandle: 0x12. -/
abbrev badHandle : Nat := 0x12
/-- notRetained: 0x13. -/
abbrev notRetained : Nat := 0x13
/-- snapBroken: 0x14. -/
abbrev snapBroken : Nat := 0x14
/-- publishTime: 0x15. -/
abbrev publishTime : Nat := 0x15
/-- tidemarkExhausted: 0x16. -/
abbrev tidemarkExhausted : Nat := 0x16
/-- aliasLimit: 0x17. -/
abbrev aliasLimit : Nat := 0x17
/-- overShare: 0x18. -/
abbrev overShare : Nat := 0x18
/-- capacity: 0x19. -/
abbrev capacity : Nat := 0x19
/-- inflight: 0x1A. -/
abbrev inflight : Nat := 0x1A
/-- infeasible: 0x1B. -/
abbrev infeasible : Nat := 0x1B
/-- past: 0x1C. -/
abbrev past : Nat := 0x1C
/-- badOpcode: 0x1D. -/
abbrev badOpcode : Nat := 0x1D
/-- cls: 0x1E. -/
abbrev cls : Nat := 0x1E
/-- size: 0x1F. -/
abbrev size : Nat := 0x1F
/-- state: 0x20. -/
abbrev state : Nat := 0x20
/-- urgentCap: 0x21. -/
abbrev urgentCap : Nat := 0x21
/-- queueAbort: 0x22. -/
abbrev queueAbort : Nat := 0x22
/-- overlap: 0x23. -/
abbrev overlap : Nat := 0x23
/-- length: 0x24. -/
abbrev length : Nat := 0x24
/-- scratchRange: 0x25. -/
abbrev scratchRange : Nat := 0x25
/-- scratchOwner: 0x26. -/
abbrev scratchOwner : Nat := 0x26
/-- paceParam: 0x27. -/
abbrev paceParam : Nat := 0x27
/-- busTransport: 0x28. -/
abbrev busTransport : Nat := 0x28
/-- busTimeout: 0x29. -/
abbrev busTimeout : Nat := 0x29
/-- busParity: 0x2A. -/
abbrev busParity : Nat := 0x2A
/-- retryBooking: 0x2B. -/
abbrev retryBooking : Nat := 0x2B
/-- format: 0x2C. -/
abbrev format : Nat := 0x2C
/-- groupState: 0x2D. -/
abbrev groupState : Nat := 0x2D
/-- groupClosed: 0x2E. -/
abbrev groupClosed : Nat := 0x2E
/-- tag: 0x2F. -/
abbrev tag : Nat := 0x2F
/-- notSlice: 0x30. -/
abbrev notSlice : Nat := 0x30
/-- participant: 0x31. -/
abbrev participant : Nat := 0x31
/-- round: 0x32. -/
abbrev round : Nat := 0x32
/-- scale: 0x33. -/
abbrev scale : Nat := 0x33
/-- notResident: 0x34. -/
abbrev notResident : Nat := 0x34
/-- keepFull: 0x35. -/
abbrev keepFull : Nat := 0x35
/-- expired: 0x36. -/
abbrev expired : Nat := 0x36
/-- excess: 0x37. -/
abbrev excess : Nat := 0x37
/-- released: 0x38. -/
abbrev released : Nat := 0x38
/-- rebuild: 0x39. -/
abbrev rebuild : Nat := 0x39
/-- scratchFull: 0x3A. -/
abbrev scratchFull : Nat := 0x3A
/-- keep: 0x3B. -/
abbrev keep : Nat := 0x3B
/-- badTable: 0x3C (R445). -/
abbrev badTable : Nat := 0x3C
/-- badIndex: 0x3D (R486). -/
abbrev badIndex : Nat := 0x3D
/-- filter: 0x3E (R486). -/
abbrev filter : Nat := 0x3E
/-- probe: 0x3F (R486). -/
abbrev probe : Nat := 0x3F
/-- badKvset: 0x40 (Table 12-10). -/
abbrev badKvset : Nat := 0x40
/-- seq: 0x41. -/
abbrev seq : Nat := 0x41
/-- dstNotEmpty: 0x42. -/
abbrev dstNotEmpty : Nat := 0x42
/-- shortSource: 0x43. -/
abbrev shortSource : Nat := 0x43
/-- noPage: 0x45. -/
abbrev noPage : Nat := 0x45
/-- refsFull: 0x46. -/
abbrev refsFull : Nat := 0x46
/-- seqFull: 0x47. -/
abbrev seqFull : Nat := 0x47
/-- beyondLength: 0x48. -/
abbrev beyondLength : Nat := 0x48
/-- badBollard: 0x49. -/
abbrev badBollard : Nat := 0x49
/-- noParties: 0x4A. -/
abbrev noParties : Nat := 0x4A
/-- waitTable: 0x4B. -/
abbrev waitTable : Nat := 0x4B
/-- noQueueBollard: 0x4C. -/
abbrev noQueueBollard : Nat := 0x4C
/-- unreachable: 0x4D. -/
abbrev unreachable : Nat := 0x4D
/-- deadHome: 0x4E. -/
abbrev deadHome : Nat := 0x4E
/-- badAgent: 0x4F. -/
abbrev badAgent : Nat := 0x4F
/-- tagInUse: 0x50. -/
abbrev tagInUse : Nat := 0x50
end Cause

/-! Relas result codes of Table 03-5. -/
namespace Result
/-- done: 0x0000. -/
abbrev done : Nat := 0x0000
/-- pending: 0x0001. -/
abbrev pending : Nat := 0x0001
/-- badOpcode: 0x0100. -/
abbrev badOpcode : Nat := 0x0100
/-- badLength: 0x0101. -/
abbrev badLength : Nat := 0x0101
/-- badField: 0x0102. -/
abbrev badField : Nat := 0x0102
/-- denied: 0x0200. -/
abbrev denied : Nat := 0x0200
/-- noResource: 0x0300. -/
abbrev noResource : Nat := 0x0300
/-- conflict: 0x0400. -/
abbrev conflict : Nat := 0x0400
/-- notReady: 0x0500. -/
abbrev notReady : Nat := 0x0500
/-- busy: 0x0600. -/
abbrev busy : Nat := 0x0600
/-- internal: 0x0FFF. -/
abbrev internal : Nat := 0x0FFF
end Result

/-! SXF opcodes of Table 14-8. -/
namespace Sxf
/-- read: 0x20. -/
abbrev read : Nat := 0x20
/-- write: 0x28. -/
abbrev write : Nat := 0x28
/-- writeMasked: 0x2F. -/
abbrev writeMasked : Nat := 0x2F
/-- atomic: 0x30. -/
abbrev atomic : Nat := 0x30
/-- fenceRw: 0x31. -/
abbrev fenceRw : Nat := 0x31
/-- fenceWw: 0x32. -/
abbrev fenceWw : Nat := 0x32
/-- fenceRr: 0x33. -/
abbrev fenceRr : Nat := 0x33
/-- homeFence: 0x34. -/
abbrev homeFence : Nat := 0x34
/-- bollard: 0x35. -/
abbrev bollard : Nat := 0x35
/-- rowRead: 0x36. -/
abbrev rowRead : Nat := 0x36
/-- search: 0x37. -/
abbrev search : Nat := 0x37
/-- data: 0x40. -/
abbrev data : Nat := 0x40
/-- done: 0x41. -/
abbrev done : Nat := 0x41
/-- performed: 0x42. -/
abbrev performed : Nat := 0x42
/-- atomicOld: 0x43. -/
abbrev atomicOld : Nat := 0x43
/-- bollardValue: 0x44. -/
abbrev bollardValue : Nat := 0x44
/-- rowData: 0x45. -/
abbrev rowData : Nat := 0x45
/-- searchResult: 0x46. -/
abbrev searchResult : Nat := 0x46
/-- mailbox: 0x60. -/
abbrev mailbox : Nat := 0x60
/-- mailboxRsp: 0x61. -/
abbrev mailboxRsp : Nat := 0x61
/-- regRead: 0x62. -/
abbrev regRead : Nat := 0x62
/-- regWrite: 0x63. -/
abbrev regWrite : Nat := 0x63
/-- pageRequest: 0x64. -/
abbrev pageRequest : Nat := 0x64
/-- pageResponse: 0x65. -/
abbrev pageResponse : Nat := 0x65
/-- veto: 0x66. -/
abbrev veto : Nat := 0x66
/-- invalidate: 0x67. -/
abbrev invalidate : Nat := 0x67
/-- invalidateAck: 0x68. -/
abbrev invalidateAck : Nat := 0x68
/-- remoteHold: 0x69. -/
abbrev remoteHold : Nat := 0x69
/-- holdBroken: 0x6A. -/
abbrev holdBroken : Nat := 0x6A
/-- time: 0x6B. -/
abbrev time : Nat := 0x6B
/-- takeover: 0x6C. -/
abbrev takeover : Nat := 0x6C
/-- spanState: 0x6D. -/
abbrev spanState : Nat := 0x6D
/-- ctlAck: 0x6E. -/
abbrev ctlAck : Nat := 0x6E
/-- red: 0x80. -/
abbrev red : Nat := 0x80
/-- cqNotify: 0xA0. -/
abbrev cqNotify : Nat := 0xA0
/-- ticketNotice: 0xA1. -/
abbrev ticketNotice : Nat := 0xA1
/-- cont: 0xE0. -/
abbrev cont : Nat := 0xE0
end Sxf

end Sys2Proof.Machine
end

