-- ==== Sys2Proof/Machine/Operands.lean ====
section
/-! DEFINITION. The operand forms of the work descriptors: number formats, decoding, the one rounding function, the
stochastic-rounding generator, MX blocks, dot products and the exact accumulator (spec 08). -/

namespace Sys2Proof.Machine

/-- Element formats (Tables 08-1, 08-2). `mxint8` is the element of an MXINT8 block (R348). -/
inductive Elem where
  | fp32 | fp16 | bf16 | e4m3 | e5m2 | e3m2 | e2m3 | e2m1 | int8 | int4 | mxint8
  deriving DecidableEq, Repr

/-- A format: its element format and whether blocks of 32 share a scale (R346). -/
structure Format where
  elem : Elem
  mx : Bool
  deriving DecidableEq, Repr

/-- Table 08-1; PQ8 (0x10) names no numeric format (R341) and gives none. -/
def formatOf (code : Nat) : Option Format :=
  match code with
  | 0x00 => some ⟨.fp32, false⟩
  | 0x01 => some ⟨.fp16, false⟩
  | 0x02 => some ⟨.bf16, false⟩
  | 0x03 => some ⟨.e4m3, false⟩
  | 0x04 => some ⟨.e5m2, false⟩
  | 0x05 => some ⟨.int8, false⟩
  | 0x06 => some ⟨.int4, false⟩
  | 0x08 => some ⟨.e4m3, true⟩
  | 0x09 => some ⟨.e5m2, true⟩
  | 0x0A => some ⟨.e3m2, true⟩
  | 0x0B => some ⟨.e2m3, true⟩
  | 0x0C => some ⟨.e2m1, true⟩
  | 0x0D => some ⟨.mxint8, true⟩
  | _ => none

/-- Element bits (Table 08-1). -/
def Elem.width : Elem → Nat
  | .fp32 => 32 | .fp16 => 16 | .bf16 => 16 | .e4m3 => 8 | .e5m2 => 8 | .e3m2 => 6 | .e2m3 => 6 | .e2m1 => 4
  | .int8 => 8 | .int4 => 4 | .mxint8 => 8

/-- The format is a two's complement integer (R345, R348). -/
def Elem.isInt : Elem → Bool
  | .int8 => true | .int4 => true | .mxint8 => true | _ => false

/-- Exponent bits of a floating-point element (Table 08-2); 0 for an integer. -/
def Elem.expBits : Elem → Nat
  | .fp32 => 8 | .fp16 => 5 | .bf16 => 8 | .e4m3 => 4 | .e5m2 => 5 | .e3m2 => 3 | .e2m3 => 2 | .e2m1 => 2 | _ => 0

/-- Exponent bias (Table 08-2). -/
def Elem.bias : Elem → Nat
  | .fp32 => 127 | .fp16 => 15 | .bf16 => 127 | .e4m3 => 7 | .e5m2 => 15 | .e3m2 => 3 | .e2m3 => 1 | .e2m1 => 1
  | _ => 0

/-- Mantissa width m (Table 08-2). -/
def Elem.man : Elem → Nat
  | .fp32 => 23 | .fp16 => 10 | .bf16 => 7 | .e4m3 => 3 | .e5m2 => 2 | .e3m2 => 2 | .e2m3 => 3 | .e2m1 => 1 | _ => 0

/-- The format has infinities (Table 08-2). -/
def Elem.hasInf : Elem → Bool
  | .fp32 => true | .fp16 => true | .bf16 => true | .e5m2 => true | _ => false

/-- The largest finite encoding without sign (Table 08-2). -/
def Elem.maxEnc : Elem → Nat
  | .fp32 => 0x7F7FFFFF | .fp16 => 0x7BFF | .bf16 => 0x7F7F | .e4m3 => 0x7E | .e5m2 => 0x7B | .e3m2 => 0x1F
  | .e2m3 => 0x1F | .e2m1 => 0x7 | _ => 0

/-- The canonical NaN (Table 08-2); 0 where the format has none (Table 08-4). -/
def Elem.nanEnc : Elem → Nat
  | .fp32 => 0x7FC00000 | .fp16 => 0x7E00 | .bf16 => 0x7FC0 | .e4m3 => 0x7F | .e5m2 => 0x7E | _ => 0

/-- emax of R349. -/
def Elem.emax : Elem → Int
  | .e4m3 => 8 | .e5m2 => 15 | .e3m2 => 4 | .e2m3 => 2 | .e2m1 => 2 | _ => 0

/-- An exact value: NaN, an infinity, or a signed rational; a zero keeps its sign (R351, R355). -/
inductive Num where
  | nan
  | inf (neg : Bool)
  | fin (neg : Bool) (num den : Nat)
  deriving DecidableEq, Repr

namespace Num

/-- The value is neither NaN nor an infinity. -/
def isFinite : Num → Bool
  | .fin _ _ _ => true
  | _ => false

def isZero : Num → Bool
  | .fin _ n _ => n == 0
  | _ => false

/-- The exact rational of a sign, a magnitude and a power of two. -/
def scaled (neg : Bool) (n : Nat) (e : Int) : Num :=
  if e < 0 then .fin neg n (2 ^ (-e).toNat) else .fin neg (n * 2 ^ e.toNat) 1

/-- Exact product by 2^k (R353, R368). -/
def scale (x : Num) (k : Int) : Num :=
  match x with
  | .fin s n d => if k < 0 then .fin s n (d * 2 ^ (-k).toNat) else .fin s (n * 2 ^ k.toNat) d
  | y => y

def neg : Num → Num
  | .nan => .nan
  | .inf s => .inf (!s)
  | .fin s n d => .fin (!s) n d

/-- Product, with the IEEE rules for NaN and infinities (R359). -/
def mul : Num → Num → Num
  | .nan, _ => .nan
  | _, .nan => .nan
  | .inf s, .inf t => .inf (s != t)
  | .inf s, .fin t n _ => if n = 0 then .nan else .inf (s != t)
  | .fin s n _, .inf t => if n = 0 then .nan else .inf (s != t)
  | .fin s n d, .fin t m e => .fin (s != t) (n * m) (d * e)

/-- Sum, with the IEEE rules for NaN, infinities and the sign of a zero sum (R359). -/
def add : Num → Num → Num
  | .nan, _ => .nan
  | _, .nan => .nan
  | .inf s, .inf t => if s = t then .inf s else .nan
  | .inf s, .fin _ _ _ => .inf s
  | .fin _ _ _, .inf t => .inf t
  | .fin s n d, .fin t m e =>
    if s = t then .fin s (n * e + m * d) (d * e)
    else if n * e = m * d then .fin false 0 1
    else if n * e > m * d then .fin s (n * e - m * d) (d * e)
    else .fin t (m * d - n * e) (d * e)

def sub (x y : Num) : Num := x.add y.neg

/-- Quotient, with the IEEE rules for NaN, infinities and zero divisors (R359, R403). -/
def div : Num → Num → Num
  | .nan, _ => .nan
  | _, .nan => .nan
  | .inf _, .inf _ => .nan
  | .inf s, .fin t _ _ => .inf (s != t)
  | .fin s _ _, .inf t => .fin (s != t) 0 1
  | .fin s n d, .fin t m e =>
    if m = 0 then (if n = 0 then .nan else .inf (s != t)) else .fin (s != t) (n * e) (d * m)

/-- A comparison of finite magnitudes: |x| ≤ |y|. -/
def magLe : Num → Num → Bool
  | .fin _ n d, .fin _ m e => n * e ≤ m * d
  | _, _ => false

/-- floor(log2 |x|) of a finite value that is not zero. -/
def floorLog2 (n d : Nat) : Int :=
  let k : Int := (Nat.log2 n : Int) - (Nat.log2 d : Int)
  let ge : Bool := if k < 0 then n * 2 ^ (-k).toNat ≥ d else n ≥ d * 2 ^ k.toNat
  if ge then k else k - 1

/-- Strictly less, on finite values and infinities; false with a NaN. -/
def lt : Num → Num → Bool
  | .nan, _ => false
  | _, .nan => false
  | .inf s, .inf t => s && !t
  | .inf s, .fin _ _ _ => s
  | .fin _ _ _, .inf t => !t
  | .fin s n d, .fin t m e =>
    let a : Int := if s then -((n * e : Nat) : Int) else ((n * e : Nat) : Int)
    let b : Int := if t then -((m * d : Nat) : Int) else ((m * d : Nat) : Int)
    a < b

end Num

/-- The value of an element encoding (R342–R348). -/
def decodeElem (f : Elem) (w : Nat) : Num :=
  let u := w % 2 ^ f.width
  if f.isInt then
    let v := toSigned f.width u
    Num.scaled (v < 0) v.natAbs (if f = .mxint8 then -6 else 0)
  else
    let neg := bit u (f.width - 1)
    let mag := u % 2 ^ (f.width - 1)
    let e := mag / 2 ^ f.man
    let m := mag % 2 ^ f.man
    if f = .e4m3 ∧ mag = 0x7F then .nan
    else if f.hasInf ∧ e = 2 ^ f.expBits - 1 then (if m = 0 then .inf neg else .nan)
    else if e = 0 then Num.scaled neg m (1 - (f.bias : Int) - f.man)
    else Num.scaled neg (2 ^ f.man + m) ((e : Int) - f.bias - f.man)

/-- RMODE bits [1:0] ROUND (Table 08-3). -/
inductive Rounding where | rne | rtz | sr
  deriving DecidableEq, Repr

structure RMode where
  infinity : Bool
  round : Rounding
  deriving DecidableEq, Repr

/-- Table 08-3; a reserved value gives none. -/
def rmodeOf (b : Nat) : Option RMode :=
  if b / 8 ≠ 0 then none
  else match b % 4 with
    | 0 => some ⟨bit b 2, .rne⟩
    | 1 => some ⟨bit b 2, .rtz⟩
    | 2 => some ⟨bit b 2, .sr⟩
    | _ => none

/-- 0x04: round to nearest even with overflow to infinity (R350). -/
def rmodeDefault : RMode := ⟨true, .rne⟩

/-- The sign bit of an encoding. -/
def signBit (f : Elem) (neg : Bool) : Nat := if neg then 2 ^ (f.width - 1) else 0

/-- Overflow results of Table 08-4. -/
def overflowEnc (f : Elem) (neg : Bool) (rm : RMode) : Nat :=
  if f.isInt then (if neg then 2 ^ (f.width - 1) else 2 ^ (f.width - 1) - 1)
  else if rm.infinity ∧ rm.round ≠ .rtz ∧ f.hasInf then signBit f neg + (2 ^ f.expBits - 1) * 2 ^ f.man
  else if rm.infinity ∧ rm.round ≠ .rtz ∧ f = .e4m3 then 0x7F
  else signBit f neg + f.maxEnc

/-- Results for an infinite input (Table 08-4). -/
def infEnc (f : Elem) (neg : Bool) (rm : RMode) : Nat :=
  if f.isInt then (if neg then 2 ^ (f.width - 1) else 2 ^ (f.width - 1) - 1)
  else if f.hasInf then signBit f neg + (2 ^ f.expBits - 1) * 2 ^ f.man
  else if f = .e4m3 then (if rm.infinity then 0x7F else signBit f neg + f.maxEnc)
  else signBit f neg + f.maxEnc

/-- The step n of round_to: floor(a / q), and its increment under the rounding mode (R351). -/
def roundStep (num den : Nat) (rm : RMode) (r : Nat) : Nat :=
  let n := num / den
  let rest := num % den
  match rm.round with
  | .rne => if 2 * rest > den ∨ (2 * rest = den ∧ n % 2 = 1) then n + 1 else n
  | .rtz => n
  | .sr => if r < rest * 2 ^ 32 / den then n + 1 else n

/-- round_to (R351): the encoding, and whether the element counts as overflowed under R371. -/
def roundTo (f : Elem) (x : Num) (rm : RMode) (r : Nat) : Nat × Bool :=
  match x with
  | .nan => (f.nanEnc, true)
  | .inf neg => (infEnc f neg rm, true)
  | .fin neg num den =>
    if num = 0 then (if f.isInt then 0 else signBit f neg, false)
    else if f.isInt then
      let n := roundStep (if f = .mxint8 then num * 64 else num) den rm r
      let lim := if neg then 2 ^ (f.width - 1) else 2 ^ (f.width - 1) - 1
      if n > lim then (overflowEnc f neg rm, true)
      else (if neg then (2 ^ f.width - n) % 2 ^ f.width else n, false)
    else
      let e := max (Num.floorLog2 num den) (1 - (f.bias : Int))
      let t := e - f.man
      let n := if t < 0 then roundStep (num * 2 ^ (-t).toNat) den rm r else roundStep num (den * 2 ^ t.toNat) rm r
      let enc := ((e + f.bias - 1).toNat) * 2 ^ f.man + n
      if enc > f.maxEnc then (overflowEnc f neg rm, true) else (signBit f neg + enc, false)

/-- round_to(FP32, x, 0x04) as a value: the fp32 of R358 and R403. -/
def fp32 (x : Num) : Num := decodeElem .fp32 (roundTo .fp32 x rmodeDefault 0).1

/-- The exact square root of a value, rounded to FP32 (R403). -/
def fp32Sqrt (x : Num) : Num :=
  match x with
  | .nan => .nan
  | .inf neg => if neg then .nan else .inf false
  | .fin neg num den =>
    if num = 0 then .fin neg 0 1
    else if neg then .nan
    else
      -- sqrt(num/den) = sqrt(num * den) / den; scaled by 2^200 so that the FP32 step is far coarser
      let sq := num * den * 2 ^ 400
      let root := Nat.sqrt sq
      -- a non-zero remainder is kept as a sticky half unit below the last place
      let sticky := if root * root = sq then 0 else 1
      fp32 (.fin false (2 * root + sticky) (den * 2 ^ 201))

/-- sr_bits (R356): the 32-bit random value of a seed, a stream and an index. -/
def srBits (seed stream index : Nat) : Nat :=
  let rnd (x : Nat) : Nat :=
    let x := x ^^^ (x / 2 ^ 31)
    let x := u64 (x * 0xBF58476D1CE4E5B9)
    let x := x ^^^ (x / 2 ^ 29)
    let x := u64 (x * 0x94D049BB133111EB)
    x ^^^ (x / 2 ^ 32)
  let x := u64 seed ^^^ u64 (stream * 0x9E3779B97F4A7C15) ^^^ u64 (index * 0xD1B54A32D192ED03)
  rnd (rnd (rnd x)) % 2 ^ 32

/-- The shared exponent of an E8M0 scale byte; none for the NaN scale (R346). -/
def scaleExp (b : Nat) : Option Int := if b = 0xFF then none else some ((b : Int) - 127)

/-- An MX element's value with its block's scale (R348). -/
def decodeMx (f : Elem) (w scale : Nat) : Num :=
  match scaleExp scale with
  | none => .nan
  | some k => (decodeElem f w).scale k

/-- The largest magnitude of a list of finite values. -/
def maxMag (xs : List Num) : Num := xs.foldl (fun a x => if a.magLe x then x else a) (.fin false 0 1)

/-- R349: a block of 32 values in an MX format, with `r i` the random value of element i: the scale byte and the
elements with their overflow counts. -/
def encodeMx (f : Elem) (xs : List Num) (rm : RMode) (r : Nat → Nat) : Nat × List (Nat × Bool) :=
  if xs.any (fun x => !x.isFinite) then (0xFF, xs.map fun x => (0, !x.isFinite))
  else if xs.all Num.isZero then
    (0, xs.map fun x => ((roundTo f x rm 0).1, false))
  else
    match maxMag xs with
    | .fin _ num den =>
      let raw := Num.floorLog2 num den - f.emax
      let shared := max (-127) (min 127 raw)
      let one (p : Num × Nat) := roundTo f (p.1.scale (-shared)) ⟨false, rm.round⟩ (r p.2)
      ((shared + 127).toNat, (xs.zip (List.range xs.length)).map one)
    | _ => (0, [])

/-- The bits of element `j` of a packed element array (R347). -/
def elemBits (f : Elem) (j : Nat) (b : List Byte) : Nat :=
  match f.width with
  | 4 => bits (fld b (j / 2) 1) (4 * (j % 2) + 3) (4 * (j % 2))
  | 6 => bits (fld b (24 * (j / 32)) 24) (6 * (j % 32) + 5) (6 * (j % 32))
  | w => fld b (j * (w / 8)) (w / 8)

/-- Bytes that `n` elements of a format take, scales apart (R347). -/
def elemBytes (f : Elem) (n : Nat) : Nat := ceilDiv (n * f.width) 8

/-- Pack element encodings (R347). -/
def packElems (f : Elem) (es : List Nat) : List Byte :=
  leBytes (elemBytes f es.length)
    (es.foldr (fun e acc => e % 2 ^ f.width + acc * 2 ^ f.width) 0)

/-- Decode `n` elements from their bytes and, for an MX format, their scale bytes. -/
def decodeVec (fm : Format) (n : Nat) (b scales : List Byte) : List Num :=
  (List.range n).map fun j =>
    if fm.mx then decodeMx fm.elem (elemBits fm.elem j b) (fld scales (j / 32) 1) else decodeElem fm.elem (elemBits fm.elem j b)

/-- Encode a list of values from element number `first`: element bytes, scale bytes and the overflow count (R349, R353,
R371). `r j` is the random value of absolute element j. -/
def encodeVec (fm : Format) (xs : List Num) (rm : RMode) (r : Nat → Nat) : List Byte × List Byte × Nat :=
  if fm.mx then
    let rec blocks (fuel base : Nat) (rest : List Num) : List (Nat × List (Nat × Bool)) :=
      match fuel with
      | 0 => []
      | k + 1 => if rest.isEmpty then [] else
          encodeMx fm.elem (rest.take 32) rm (fun i => r (base + i)) :: blocks k (base + 32) (rest.drop 32)
    let bs := blocks (ceilDiv xs.length 32) 0 xs
    let es := (bs.map (·.2)).flatten
    (packElems fm.elem (es.map (·.1)), bs.map (fun p => BitVec.ofNat 8 p.1), (es.filter (·.2)).length)
  else
    let es := (xs.zip (List.range xs.length)).map fun p => roundTo fm.elem p.1 rm (r p.2)
    (packElems fm.elem (es.map (·.1)), [], (es.filter (·.2)).length)

/-- The pairwise tree of R358: five halvings of 32 terms, each sum an fp32. -/
def treeSum : Nat → List Num → Num
  | 0, p => p.headD (.fin false 0 1)
  | k + 1, p =>
    let rec pairs : List Num → List Num
      | a :: b :: t => fp32 (a.add b) :: pairs t
      | l => l
    treeSum k (pairs p)

/-- An operand vector of a dot product: element values without their scale, and the shared exponent per group of 32. -/
structure Operand where
  elems : List Num
  exps : List Int
  mx : Bool
  deriving DecidableEq, Repr

/-- The operand form of R358: an MX element without its scale, NaN in a block with the NaN scale. -/
def operandOf (fm : Format) (n : Nat) (b scales : List Byte) : Operand :=
  let ex := (List.range (ceilDiv n 32)).map fun g => if fm.mx then scaleExp (fld scales g 1) else some 0
  { elems := (List.range n).map fun j =>
      if fm.mx ∧ (ex.getD (j / 32) none).isNone then .nan else decodeElem fm.elem (elemBits fm.elem j b)
    exps := ex.map (fun o => o.getD 0)
    mx := fm.mx }

/-- dot(a, b, K) (R358). -/
def dot (a b : Operand) (k : Nat) : Num :=
  (List.range (ceilDiv k 32)).foldl (fun acc g =>
    let p := (List.range 32).map fun i =>
      let j := 32 * g + i
      if j < k then fp32 ((a.elems.getD j .nan).mul (b.elems.getD j .nan)) else .fin false 0 1
    let s := treeSum 5 p
    let s := if a.mx || b.mx then fp32 (s.scale (a.exps.getD g 0 + b.exps.getD g 0)) else s
    fp32 (acc.add s)) (.fin false 0 1)

/-- The squared distance (R359): scales applied exactly before the difference. -/
def dist2 (a b : Operand) (k : Nat) : Num :=
  let val (o : Operand) (j : Nat) := (o.elems.getD j .nan).scale (o.exps.getD (j / 32) 0)
  (List.range (ceilDiv k 32)).foldl (fun acc g =>
    let p := (List.range 32).map fun i =>
      let j := 32 * g + i
      if j < k then
        let d := fp32 ((val a j).sub (val b j))
        fp32 (d.mul d)
      else .fin false 0 1
    fp32 (acc.add (treeSum 5 p))) (.fin false 0 1)

/-- An exact accumulator (Table 08-5) with the poison mark of R380. V wraps at 320 bits. -/
structure Accum where
  v : Int
  nan : Bool
  posInf : Bool
  negInf : Bool
  poison : Bool
  deriving DecidableEq, Repr

/-- The reset state of an accumulator (Table 08-5). -/
def Accum.zero : Accum := ⟨0, false, false, false, false⟩

/-- V as a signed 320-bit value. -/
def wrap320 (v : Int) : Int := ((v + 2 ^ 319) % 2 ^ 320) - 2 ^ 319

/-- acc_add (R362). -/
def Accum.add (a : Accum) (x : Num) : Accum :=
  match x with
  | .nan => { a with nan := true }
  | .inf false => { a with posInf := true }
  | .inf true => { a with negInf := true }
  | .fin s n d =>
    let k : Int := ((n * 2 ^ 149 / d : Nat) : Int)
    { a with v := wrap320 (a.v + (if s then -k else k)) }

/-- The value of an accumulator times SCALE (R364, R394), before its one rounding. -/
def Accum.value (a : Accum) (scale : Num) : Num :=
  let neg := match scale with
    | .fin s _ _ => s
    | _ => false
  if a.nan || (a.posInf && a.negInf) then .nan
  else if a.posInf then .inf neg
  else if a.negInf then .inf (!neg)
  else if a.v = 0 then .fin false 0 1
  else (Num.fin (a.v < 0) a.v.natAbs (2 ^ 149)).mul scale

end Sys2Proof.Machine
end

