-- ==== Sys2Proof/Machine/State.lean ====
section
/-! DEFINITION. The state of the block as plain data: every piece of state the spec gives it (INVENTORY.md, ## State
names each with its rule), the queue of waiting commands, what the block has sent out, and the machine right after
reset. -/

namespace Sys2Proof.Machine

/-! ### Memory and coves (spec 02, 05) -/

/-- Shore memory: the bytes of the shore offsets that differ from zero, addresses strictly rising. An unlisted
byte reads as zero, which is what R59 gives a granule that has never been written. -/
abbrev Memory := List Host.Cell

inductive CoveKind where | data | translation
  deriving DecidableEq, Repr
/-- Placement classes (Table 02-8). -/
inductive Cls where | pin | prefer | stream | cold
  deriving DecidableEq, Repr
inductive CoveOrder where | chart | pilot
  deriving DecidableEq, Repr
inductive Coherence where | noncoherent | sharedHdmDb
  deriving DecidableEq, Repr
inductive Protection where | none | critical | guarded
  deriving DecidableEq, Repr
inductive CoveState where | active | handingOver | retiring
  deriving DecidableEq, Repr

/-- One grant entry (Table 02-2 GRANTS). -/
structure Grant where
  guest : Nat
  r : Bool
  w : Bool
  a : Bool
  deriving DecidableEq, Repr

/-- One placement override of a cove (R95). -/
structure Override where
  base : Nat
  size : Nat
  cls : Cls
  deriving DecidableEq, Repr

/-- One retained image of a granule of a versioned cove (R224): the tidemarks `lo..hi` it belongs to, its
non-zero bytes by offset within the granule, and its poisoned sectors. -/
structure Image where
  granule : Nat
  lo : Nat
  hi : Nat
  mem : Memory
  poisoned : List Nat
  deriving DecidableEq, Repr

/-- The versions of a versioned cove (R219–R225). -/
structure Versions where
  latest : Nat
  points : List (Nat × Nat)
  images : List Image
  touched : List Nat
  scheduled : List (Nat × Nat)
  deriving DecidableEq, Repr

/-- A cove (R60, R61, Table 02-2), with its overrides, its holder map and its versions. -/
structure Cove where
  id : Nat
  base : Nat
  size : Nat
  owner : Nat
  kind : CoveKind
  grants : List Grant
  cls : Cls
  order : CoveOrder
  coherence : Coherence
  versioned : Bool
  keySlot : Nat
  protection : Protection
  pullable : Bool
  state : CoveState
  overrides : List Override
  holders : List Nat
  versions : Option Versions
  deriving DecidableEq, Repr

/-- A hand-over or a destruction in progress (Table 02-13, R145): the step in progress. -/
structure Handover where
  cove : Nat
  step : Nat
  destroy : Bool
  zero : Bool
  newOwner : Nat
  newGrants : List Grant
  began : Nat
  waitDescs : List Nat
  waitAcks : List Nat
  ticket : Nat
  deriving DecidableEq, Repr

/-- A pull range of this shore (R113): a GPA range of another shore. -/
structure PullRange where
  index : Nat
  gpa : Nat
  len : Nat
  confirmed : Bool
  ticket : Nat
  deriving DecidableEq, Repr

/-- A pulled granule held here (R115, R119): its remote GPA, class, tidemark (0: current) and its bytes. -/
structure Pulled where
  gpa : Nat
  tidemark : Nat
  mem : Memory
  poisoned : List Nat
  deriving DecidableEq, Repr

/-- A pulled granule on its way from its home (R115): its GPA and tidemark, the tags of the sectors still missing, what has
come, and the plain reads and descriptors that wait for it. -/
structure PullFetch where
  gpa : Nat
  tidemark : Nat
  tags : List (Nat × Nat)
  mem : Memory
  poisoned : List Nat
  waiters : List SxfMsg
  deriving DecidableEq, Repr

/-- A cove command that waits for the acknowledgements of R117 before it takes hold. -/
structure Inval where
  cove : Nat
  waiting : List Nat
  cmd : RelasCmd
  deriving DecidableEq, Repr

/-- A snapshot handle (R244–R254). -/
inductive SnapState where | opened | broken | releasing
  deriving DecidableEq, Repr
structure Snapshot where
  handle : Nat
  cove : Nat
  guest : Nat
  tidemark : Nat
  state : SnapState
  released : Bool
  remote : Option (Nat × Nat)
  holder : Option Nat
  gpa : Nat
  len : Nat
  deriving DecidableEq, Repr

/-- A change of placement that has granules still to move (R99–R101). -/
structure Moving where
  granule : Nat
  target : Cls
  copies : Nat
  deriving DecidableEq, Repr

/-- A granule held by the Harbour's cache or pin region (R89): class, age stamp, dirty sectors, and whether a
write-back of it is in progress. -/
structure Way where
  gpa : Nat
  cls : Cls
  pinned : Bool
  stamp : Nat
  oldest : Bool
  dirty : List Nat
  writeBack : Bool
  deriving DecidableEq, Repr

/-- An access that waits on a miss entry, in order of arrival (R45), with the data its place in the order gives. -/
inductive Waiter where
  | plain (m : SxfMsg) (data : List Byte)
  | host (port tag guest addr : Nat) (data : List Byte)
  | work (desc : Nat)
  | fill
  deriving DecidableEq, Repr

/-- An open miss entry (R45, R90, R93). -/
structure Miss where
  granule : Nat
  began : Nat
  waiters : List Waiter
  held : List Nat
  allocate : Bool
  oldest : Bool
  filled : Bool
  deriving DecidableEq, Repr

/-- The Harbour (R87–R94): area sizes in GiB, resident granules, open misses, granules in the deep-tier write queue,
and the mirrored dirty granules in the order in which they became dirty. -/
structure Harbour where
  pinGib : Nat
  rowGib : Nat
  mirrorGib : Nat
  ways : List Way
  misses : List Miss
  stamp : Nat
  mirror : List Nat
  deriving DecidableEq, Repr

/-- Shore memory with all that says who may use it and where it lies. -/
structure Store where
  mem : Memory
  poison : List Nat
  capacity : Nat
  coves : List Cove
  handovers : List Handover
  invals : List Inval
  pulls : List PullRange
  pulled : List Pulled
  pulling : List PullFetch
  snaps : List Snapshot
  moving : List Moving
  harbour : Harbour
  deriving DecidableEq, Repr

/-! ### Innkeeper and Relas (spec 03) -/

/-- Translation sources (Table 02-4). -/
inductive XlateMode where | table | tablePr | ats | identity
  deriving DecidableEq, Repr

/-- A guest (Table 03-8), with its cached non-leaf entries (R75). -/
structure Guest where
  id : Nat
  epoch : Nat
  weight : Nat
  mode : XlateMode
  ownerJetty : Bool
  ownerPort : Nat
  ownerId : Nat
  root : Nat
  prTimeout : Nat
  pinQuota : Nat
  queueQuota : Nat
  keyQuota : Nat
  cached : List (Nat × Nat)
  quarantined : Bool
  deriving DecidableEq, Repr

/-- A response kept for retransmissions (R125). -/
structure Kept where
  header : List Byte
  response : List Byte
  deriving DecidableEq, Repr

/-- A channel that has a binding, a command outstanding or kept responses (R125, R130). -/
structure Chan where
  chan : Channel
  bound : Option (Nat × Nat)
  tag : Nat
  outstanding : List (List Byte)
  kept : List Kept
  deriving DecidableEq, Repr

/-- A mailbox window of a host port (Table 03-2, Table 23-16). -/
structure Mailbox where
  port : Nat
  box : Nat
  cmd : List Byte
  rsp : List Byte
  busy : Bool
  done : Bool
  overrun : Bool
  mute : Bool
  vector : Nat
  notify : Bool
  deriving DecidableEq, Repr

/-- What the work of a PENDING command waits for. -/
inductive Work where
  | xlateSync (guest : Nat) (descs : List Nat)
  | handover (cove : Nat)
  | pullAdd (index : Nat)
  | pullRemove (index : Nat)
  | queueDestroy (cq : Bool) (id : Nat)
  | tableDestroy (id : Nat)
  | indexDestroy (id : Nat)
  | kvDestroy (id : Nat)
  | bollardWait (wait : Nat)
  | linkRecal (link : Nat)
  | retire (cls unit : Nat)
  | turn (set time : Nat)
  | stateSet
  | fwVerify (slot : Nat)
  | fwActivate (slot : Nat)
  | none
  deriving DecidableEq, Repr

/-- How a ticket ended (Table 03-6). -/
structure Ended where
  result : Nat
  detail : Nat
  time : Nat
  deriving DecidableEq, Repr

/-- A ticket (R138, R139). -/
structure Ticket where
  id : Nat
  chan : Channel
  guest : Nat
  epoch : Nat
  notify : Bool
  opcode : Nat
  work : Work
  progress : Nat
  ended : Option Ended
  deriving DecidableEq, Repr

inductive SetState where
  | opened | checked | scheduled | turned | vetoed | failed | discarded
  deriving DecidableEq, Repr

/-- A configuration set (R151–R160, R820). -/
structure ConfigSet where
  id : Nat
  state : SetState
  staged : List RelasCmd
  turnTime : Nat
  tag : Nat
  parts : List Nat
  prep : Nat
  failing : Option Nat
  verified : Bool
  vetoer : Option Nat
  ticket : Nat
  deriving DecidableEq, Repr

/-- A fabric-scope CONFIG_CHECK that waits for other shores' answers (R155). -/
structure FabricCheck where
  cmd : RelasCmd
  waiting : List (Nat × Nat × Nat)
  failing : List Nat
  began : Nat
  deriving DecidableEq, Repr

/-- A firmware slot (R161–R165). -/
structure FwSlot where
  bytes : List Host.Cell
  verified : Bool
  deriving DecidableEq, Repr

/-- Firmware: the two slots, the running slot, the slot of the next reset, and an activation in progress. -/
structure Firmware where
  slotA : FwSlot
  slotB : FwSlot
  running : Nat
  next : Nat
  activating : Option Nat
  started : Nat
  actTicket : Nat
  refusing : Bool
  deriving DecidableEq, Repr

/-- Innkeeper (spec 03). -/
structure Innkeeper where
  booted : Bool
  guests : List Guest
  chans : List Chan
  boxes : List Mailbox
  tickets : List Ticket
  nextTicket : Nat
  sets : List ConfigSet
  checks : List FabricCheck
  fw : Firmware
  deriving DecidableEq, Repr

/-! ### Ordering and the directory (spec 04) -/

/-- An access of an agent that is outstanding at this ingress shore (R177, R185, R189): the shore tag, the endpoint's
tag, what the access was, whether its response has already gone to the agent (a posted Pilot write), the descriptor that
made it, and when it was sent. -/
structure Outstanding where
  tag : Nat
  bundle : Nat
  agent : Nat
  epTag : Nat
  dest : Nat
  msg : SxfMsg
  pilot : Bool
  posted : Bool
  desc : Option Nat
  sent : Nat
  deriving DecidableEq, Repr

/-- Requests of one agent that wait at its jetty port (R185). -/
structure HeldAgent where
  bundle : Nat
  agent : Nat
  queue : List SxfMsg
  deriving DecidableEq, Repr

inductive LineState where
  | shared (ports : List Nat)
  | owned (port : Nat)
  deriving DecidableEq, Repr

/-- A directory entry (R193). -/
structure DirEntry where
  line : Nat
  st : LineState
  age : Nat
  deriving DecidableEq, Repr

/-- An event that waits for a line (R194). -/
inductive DirEvent where
  | sharedRead (port tag guest line : Nat)
  | ownRead (port tag guest line : Nat)
  | hostWrite (port tag guest line : Nat) (data : List Byte) (mask : Nat) (poison kept : Bool)
  | devRead (m : SxfMsg)
  | devWrite (m : SxfMsg)
  deriving DecidableEq, Repr

/-- A recall in progress on a line (R197–R201): the ports that have not answered, whether it invalidates, when the
snoops were sent, and the event it serves. -/
structure Recall where
  line : Nat
  inval : Bool
  waiting : List Nat
  began : Nat
  event : Option DirEvent
  deriving DecidableEq, Repr

structure Directory where
  entries : List DirEntry
  recalls : List Recall
  waiting : List DirEvent
  age : Nat
  deriving DecidableEq, Repr

structure Ordering where
  outstanding : List Outstanding
  held : List HeldAgent
  nextTag : Nat
  deriving DecidableEq, Repr

/-! ### Work queues and Breakwater (spec 06) -/

/-- A submission queue (Table 06-1, R262–R276). -/
structure Sq where
  id : Nat
  guest : Nat
  ring : Nat
  depth : Nat
  cq : Nat
  maxClass : Nat
  errGpa : Nat
  errDepth : Nat
  maxInflight : Nat
  headGpa : Nat
  ordered : Bool
  stopOnRefusal : Bool
  head : Nat
  tail : Nat
  refusals : Nat
  stopped : Bool
  errWrite : Nat
  errPhase : Bool
  errHead : Nat
  badDoorbells : Nat
  bollard : Option Nat
  closing : Bool
  nextSeq : Nat
  fetched : Nat
  markLatch : List Nat
  deriving DecidableEq, Repr

/-- A completion queue (Table 06-1, R269–R273). -/
structure Cq where
  id : Nat
  guest : Nat
  ring : Nat
  depth : Nat
  notifyKind : Nat
  notifyPort : Nat
  vector : Nat
  agent : Nat
  write : Nat
  phase : Bool
  head : Nat
  reserved : Nat
  merged : Nat
  badDoorbells : Nat
  deriving DecidableEq, Repr

/-- A translated extent (R78): GPA range with its rights. -/
structure Extent where
  gpa : Nat
  len : Nat
  r : Bool
  w : Bool
  a : Bool
  deriving DecidableEq, Repr

/-- A booking on the calendar (R295): its descriptor, guest and class, first slot, number of slots, tail in ticks, and the
demand per resource, spread evenly over the slots. -/
structure Booking where
  desc : Nat
  guest : Nat
  cls : Nat
  first : Nat
  slots : Nat
  tail : Nat
  demand : List (Nat × Nat)
  deriving DecidableEq, Repr

/-- A read that a descriptor has sent to another shore and the bytes that came back. -/
structure RemoteRead where
  tag : Nat
  gpa : Nat
  len : Nat
  data : Option (List Byte)
  poisoned : Bool
  deriving DecidableEq, Repr

/-- How far a descriptor is. -/
inductive DescPhase where
  | admitted | running | waiting | finished
  deriving DecidableEq, Repr

/-- A completion that is held back (R282 ORDERED_COMPLETION) or ready to be recorded. -/
structure Completion where
  status : Nat
  reason : Nat
  result0 : Nat
  result1 : Nat
  cause : Nat
  deriving DecidableEq, Repr

/-- An ATS result held with the descriptor that obtained it (R81): GVA, host physical address, length, R and W. -/
structure AtsEntry where
  gva : Nat
  hpa : Nat
  len : Nat
  r : Bool
  w : Bool
  deriving DecidableEq, Repr

/-- The status of an index position of a gather (R432), and of a distinct row of a scatter. -/
inductive RowState where | pending | invalid | overBudget | primary | shadow | missing
  deriving DecidableEq, Repr

/-- One index position of a gather, or one distinct row of a scatter (R432, R437): its position, its row, its weight, the tag of
the row read that has not been answered, whether the row lies on another shore, its status, its map entry, its stored bytes or
its shadow's once they are at hand, and their poisoned sectors. -/
structure RowRead where
  pos : Nat
  row : Nat
  weight : Nat
  tag : Option Nat
  remote : Bool
  st : RowState
  entry : Nat
  got : Bool
  data : List Byte
  bad : List Nat
  deriving DecidableEq, Repr

/-- A search result (R458, Table 11-9): its distance as an FP32 encoding, vector ID, list and shard. -/
structure Hit where
  dist : Nat
  vec : Nat
  list : Nat
  shard : Nat
  deriving DecidableEq, Repr

/-- A shard's answer for a query (R472, R571): its results in order, whether it stopped with BUDGET, whether it went past its first
step, the lists probed, those skipped as late and as poisoned, and the entries left out for a NaN distance. -/
structure Find where
  shard : Nat
  query : Nat
  hits : List Hit
  stop : Bool
  wide : Bool
  probed : Nat
  late : Nat
  bad : Nat
  nans : Nat
  deriving DecidableEq, Repr

/-- A descriptor in flight (R282–R285, R295). `progress` is how far its work has gone and `base` how far that was when its writes were
last all performed (R335). -/
structure Desc where
  id : Nat
  queue : Nat
  slot : Nat
  seq : Nat
  bytes : List Byte
  guest : Nat
  strict : Bool
  ranges : List (List Extent)
  admitted : Nat
  deadline : Nat
  start : Nat
  bookEnd : Nat
  demand : List (Nat × Nat)
  binding : Option (Nat × Nat)
  snap : Option Nat
  phase : DescPhase
  progress : Nat
  base : Nat
  count : Nat
  remote : List RemoteRead
  awaiting : List Nat
  done : Option Completion
  stamp : Nat
  scratch : List Nat
  bytesBuf : List Byte
  wake : Nat
  faults : List (Nat × Nat)
  latch : List Nat
  fail : Option (Nat × Nat)
  failAt : Nat
  aux : List Nat
  ats : List AtsEntry
  rows : List RowRead
  finds : List Find
  deriving DecidableEq, Repr

/-- What a walk waits for: an SXF page response, a PRI page response, an ATS completion, or a place among the outstanding
page requests (R83, R84, R611). -/
inductive PageKind where | sxf | pri | ats | place
  deriving DecidableEq, Repr

/-- A fetched descriptor whose translation waits (R82–R86, R611): its queue, first slot and bytes, the address and rights
asked for, the pages already asked for once, and the ATS results so far. -/
structure PageRequest where
  tag : Nat
  queue : Nat
  guest : Nat
  slot : Nat
  bytes : List Byte
  gva : Nat
  rights : Nat
  range : Nat
  level : Nat
  kind : PageKind
  port : Nat
  sent : Nat
  asked : List Nat
  ats : List AtsEntry
  deriving DecidableEq, Repr

structure Queues where
  sqs : List Sq
  cqs : List Cq
  descs : List Desc
  nextDesc : Nat
  pageReqs : List PageRequest
  nextPage : Nat
  deriving DecidableEq, Repr

/-- A descriptor of a guest in the last 1 ms (R298): when it was fetched, and its size once it was admitted or refused. -/
structure Load where
  guest : Nat
  time : Nat
  size : Frac
  deriving DecidableEq, Repr

/-- A guest's share figures as last recomputed (R298): share, whether it is over it, allowance per µs and tokens. -/
structure Share where
  guest : Nat
  share : Frac
  beyond : Bool
  allowance : Frac
  tokens : Frac
  asOf : Nat
  deriving DecidableEq, Repr

/-- A standing reservation of a plain-traffic pool (R287, Table 06-9): per slot, in each resource's unit. -/
structure Standing where
  pool : Nat
  demand : List (Nat × Nat)
  deriving DecidableEq, Repr

/-- A sample of the measured miss ratio (R290): object kind and number, time, granules read and NAND reads issued. -/
structure MissSample where
  kind : Nat
  object : Nat
  time : Nat
  reads : Nat
  misses : Nat
  deriving DecidableEq, Repr

/-- A reserve in force above the configured one, from a slot on (R302). -/
structure Raise where
  resource : Nat
  fromSlot : Nat
  pct : Nat
  deriving DecidableEq, Repr

/-- An announced reduction of a resource's capacity (R303). -/
structure Reduction where
  resource : Nat
  start : Nat
  capacity : Nat
  deriving DecidableEq, Repr

/-- Breakwater (R285–R303): the last slot that has ended, the configured reserve in percent, raises, standing reservations,
bookings, loads, shares, background debts by task and resource, since when debts have been within their limits, announced
reductions and miss samples. -/
structure Breakwater where
  slot : Nat
  reservePct : Nat
  raises : List Raise
  standing : List Standing
  bookings : List Booking
  loads : List Load
  shares : List Share
  debts : List (Nat × Nat × Nat)
  calmSince : List (Nat × Nat)
  reductions : List Reduction
  samples : List MissSample
  recomputed : Nat
  deriving DecidableEq, Repr

/-! ### The fabric (spec 14) -/

/-- A flit (R545): the pool it belongs to and its 256 bytes. -/
structure Flit where
  tc : Nat
  vc : Nat
  rsp : Bool
  fin : Bool
  bytes : List Byte
  deriving DecidableEq, Repr

inductive LinkState where | dark | training | up | down
  deriving DecidableEq, Repr

/-- An optical link (R539–R560, R565): flits that wait for a credit or for room in the replay buffer, each with the message
it completes; the replay buffer; credits held and flits freed per pool of Table 14-2. -/
structure Link where
  id : Nat
  state : LinkState
  step : Nat
  stepBegan : Nat
  retryAt : Nat
  laneMap : List Nat
  spare : Option Nat
  failedWaves : List Nat
  peerShore : Nat
  peerLink : Nat
  peerAgent : Nat
  heldIdent : Bool
  sendSeq : Nat
  replay : List (Nat × Flit)
  ackedAt : Nat
  recvSeq : Nat
  nakSent : Bool
  waiting : List (Flit × Option (Nat × SxfMsg))
  credits : List (Nat × Nat)
  freed : List (Nat × Nat)
  txFrames : Nat
  rxPhase : Bool
  txPhase : Bool
  effectFrame : Option (Nat × Nat)
  maint : List (Nat × Nat)
  sent : Nat
  accepted : Nat
  replays : Nat
  corrected : Nat
  undecodable : Nat
  tagFails : Nat
  recalAt : Nat
  replayTimes : List Nat
  tagTimes : List Nat
  retrain : Bool
  recalTicket : Nat
  keyGenTx : Nat
  keyGenRx : Nat
  genFrames : Nat
  deriving DecidableEq, Repr

inductive BundleKind where | causeway | jetty
  deriving DecidableEq, Repr

/-- A bundle (R561–R563). -/
structure Bundle where
  id : Nat
  kind : BundleKind
  direction : Nat
  fwdPct : Nat
  peer : Nat
  agents : List (Nat × Nat)
  links : List Nat
  opened : Bool
  closing : Bool
  forwarded : Nat
  deriving DecidableEq, Repr

/-- Redundancy profiles (Table 00-4). -/
inductive Profile where | s | m | l | xl
  deriving DecidableEq, Repr

/-- The fabric settings (R564), bundles, links, and the spans known to be down: ring (0 X, 1 Y, 2 Z) and the lower
coordinate of the span (R578). -/
structure Fabric where
  set : Bool
  shoreId : Nat
  dimX : Nat
  dimY : Nat
  dimZ : Nat
  profile : Profile
  links : List Link
  bundles : List Bundle
  spansDown : List (Nat × Nat)
  spanCount : Nat
  spanSeen : List (Nat × Nat × Nat)
  batch : Nat
  batchBegan : Nat
  discarded : Nat
  deriving DecidableEq, Repr

/-! ### Porter and the scratchpads (spec 07) -/

inductive ChannelState where | idle | running (desc : Nat) | retired
  deriving DecidableEq, Repr

/-- An access that a channel retries (R330): its tag and request, the retries made, when it last failed, and whether its next
retry is due. -/
structure Retry where
  tag : Nat
  msg : SxfMsg
  attempts : Nat
  failedAt : Nat
  waiting : Bool
  deriving DecidableEq, Repr

/-- A Porter channel (R308, R329–R332): the accesses it retries, when it halted, and the retirement announced for it. -/
structure PorterChannel where
  id : Nat
  st : ChannelState
  retries : List Retry
  halts : List Nat
  announced : Option Nat
  deriving DecidableEq, Repr

/-- A scratch block that a guest owns (R319–R324): array, block number, owner, its non-zero bytes, poisoned sectors,
the block offset, GPA and length of each source extent of the last STAGE_IN, and whether a reduction group holds it (R380). -/
structure ScratchBlock where
  array : Nat
  block : Nat
  owner : Nat
  mem : Memory
  poison : List Nat
  source : List (Nat × Nat × Nat)
  group : Option Nat
  deriving DecidableEq, Repr

structure Porter where
  channels : List PorterChannel
  blocks : List ScratchBlock
  deriving DecidableEq, Repr

/-! ### Reductions (spec 09) -/

/-- States of a tile instance (Table 09-1); a released instance is kept only as a number in the group. -/
inductive InstState where | filling | complete | failed
  deriving DecidableEq, Repr

/-- A resident tile instance (R376–R378). -/
structure Inst where
  round : Nat
  tile : Nat
  state : InstState
  count : Nat
  first : Option Nat
  accs : List Accum
  deriving DecidableEq, Repr

/-- A record of the keep area (R382): the instance it belongs to, its bytes (256 for a copy, 32 for a reference),
and what it adds: format, first element, and either the kept payload or the source GPA. -/
structure KeepRec where
  round : Nat
  tile : Nat
  size : Nat
  fmt : Nat
  elem : Nat
  count : Nat
  payload : List Byte
  poison : Bool
  source : List Extent
  deriving DecidableEq, Repr

/-- A reduction group (R373–R387, R401): `opened` from its OPEN's completion on; every round before `base` has been released,
and `released` holds the instances released since; the next instance to join the prefix of R401. -/
structure Group where
  id : Nat
  guest : Nat
  tag : Nat
  participants : Nat
  firstRound : Nat
  base : Nat
  opened : Bool
  total : Nat
  sliceFirst : Nat
  sliceCount : Nat
  keep : List Extent
  keepSize : Nat
  expiry : Nat
  ready : Option Nat
  scale : Nat
  tileShift : Nat
  slots : Nat
  blocks : Nat
  insts : List Inst
  released : List (Nat × Nat)
  keeps : List KeepRec
  readyRound : Nat
  readyTile : Nat
  deriving DecidableEq, Repr

structure Reductions where
  groups : List Group
  excess : Nat
  deriving DecidableEq, Repr

/-! ### Bollards (spec 13) -/

/-- What waits on a bollard, and how it is answered (R530). -/
inductive WaitBy where
  | desc (id : Nat)
  | sxf (m : SxfMsg)
  | ticket (id : Nat)
  deriving DecidableEq, Repr

/-- A pending wait or arrive (R519, R522): condition 0 GE, 1 EQ, 2 NE; for an arrive, the old value and its position in the phase. -/
structure Wait where
  id : Nat
  bollard : Nat
  guest : Nat
  cond : Nat
  operand : Nat
  arrive : Option (Nat × Nat)
  expires : Nat
  waiter : WaitBy
  deriving DecidableEq, Repr

/-- An allocated bollard (R514). -/
structure Bollard where
  id : Nat
  value : BitVec 64
  parties : Nat
  owner : Nat
  also : List Nat
  deriving DecidableEq, Repr

structure Bollards where
  list : List Bollard
  waits : List Wait
  nextWait : Nat
  deriving DecidableEq, Repr

/-! ### What the block sends out -/

/-- Everything the block sends to the world outside it, in order. -/
inductive Output where
  | relas (chan : Channel) (bytes : List Byte)
  | sxf (bundle link vc : Nat) (m : SxfMsg)
  | irq (port vector : Nat)
  | reg (view : View) (value : Nat)
  | cxlData (port tag : Nat) (data : List Byte) (poison : Bool)
  | cxlDone (port tag : Nat)
  | cxlAbort (port tag : Nat)
  | snoop (port line : Nat) (inval : Bool)
  | ats (port tag guest gva : Nat)
  | pri (port tag guest gva rights : Nat)
  | atsInvalidated (port tag : Nat)
  | cxl (port : Nat) (bytes : List Byte)
  | extentOffer (port handle : Nat)
  | extentRelease (port handle : Nat)
  | frame (link : Nat) (trailer : List Byte) (slots : List (Nat × Flit))
  | uart (bytes : List Byte)
  | toll (bytes : List Byte)
  | spdm (bytes : List Byte)
  | margin (port value : Nat)
  | datagram (bytes : List Byte)
  | https (status : Nat)
  | mctp (bytes : List Byte)
  | nor (bytes : List Byte)
  | jtag (value : Nat)
  | ptp (bytes : List Byte)
  | vcore (millivolts : Nat)
  | pin (name : String) (level : Bool)
  deriving DecidableEq, Repr

/-! ### Time, power, observation (spec 20, 21, 23): first part -/

inductive DevState where | off | waking | strict | service | draining | halted
  deriving DecidableEq, Repr

/-- An ANNOUNCE heard on a causeway (R737, R743). -/
structure Heard where
  bundle : Nat
  headland : Nat
  cls : Nat
  hops : Nat
  locked : Bool
  epoch : Nat
  time : Nat
  deriving DecidableEq, Repr

/-- A SYNC that has no REPLY yet (R738, R739). -/
structure SyncOut where
  seq : Nat
  t1 : Nat
  bundle : Nat
  deriving DecidableEq, Repr

/-- The tidetime counter and its discipline (R733–R746): tidetime, fraction and rate correction in 2⁻³² tick, lock, what
was heard, SYNCs out, consecutive small offsets, last offset in 1/256 tick, since when this shore has been headland,
holdover, EPOCH_TAI, references in range, the first-lock step, when ANNOUNCE and SYNC were last sent, the ANNOUNCE content
last sent, and the latched high halves of R736. -/
structure Clock where
  tidetime : Nat
  fraction : Nat
  rate : Int
  locked : Bool
  everLocked : Bool
  heard : List Heard
  syncs : List SyncOut
  nextSync : Nat
  good : Nat
  offset : Int
  headSince : Option Nat
  holdover : Option Nat
  epochTai : Nat
  classZero : Bool
  classOne : Bool
  step : Int
  lockSequence : Option Nat
  announced : Nat
  synced : Nat
  said : List Nat
  latches : List (View × Nat × Nat)
  deriving DecidableEq, Repr

/-- A STATE_SET that waits (R771): its target (0 STRICT, 1 SERVICE, 2 DRAINING with OFFLINE) and its ticket. -/
structure StateGoal where
  target : Nat
  ticket : Nat
  deriving DecidableEq, Repr

/-- Supplies, device state and capping (spec 21): state, cause and time of the last transition, the hold, a STATE_SET that waits and
whether OFFLINE is under way, the rails that are good, SHORE_RST_N, the cap in force and the next one with its START, f_thermal in
hundredths and the next one with its start, the 26 temperatures in 0.125 °C, since when every junction has been cool, when f_thermal
last changed or was announced, THERM_TRIP_N, and the VCORE setpoint in mV. -/
structure Power where
  state : DevState
  cause : Nat
  stateTime : Nat
  hold : Bool
  goal : Option StateGoal
  offline : Bool
  rails : List Nat
  resetHeld : Bool
  capW : Nat
  capNext : Option (Nat × Nat)
  fThermal : Nat
  thermalNext : Option (Nat × Nat)
  temps : List Int
  coolSince : Option Nat
  stepAt : Nat
  tripped : Bool
  vcore : Nat
  deriving DecidableEq, Repr

/-- One counter (Table 20-3): group, index of the object it belongs to, number within the group, value. -/
structure Counter where
  group : Nat
  index : Nat
  number : Nat
  value : Nat
  deriving DecidableEq, Repr

/-- A native event (Table 17-9). -/
structure Event where
  kind : Nat
  severity : Nat
  cls : Nat
  action : Nat
  unit : Nat
  guest : Nat
  time : Nat
  seq : Nat
  address : Nat
  count : Nat
  temp : Nat
  volt : Nat
  weather : Nat
  shore : Nat
  detail : Nat
  deriving DecidableEq, Repr

/-- CORRECTED events of one unit on their way to one merged event (R673). -/
structure Merging where
  cls : Nat
  unit : Nat
  action : Nat
  time : Nat
  count : Nat
  deriving DecidableEq, Repr

/-- Occurrences of a unit in the last 24 h, by severity, for its score (R671). -/
structure Sample where
  cls : Nat
  unit : Nat
  severity : Nat
  time : Nat
  count : Nat
  deriving DecidableEq, Repr

/-- A unit's weathering score and its margin term in thousandths (R671). -/
structure Score where
  cls : Nat
  unit : Nat
  score : Nat
  margin : Nat
  deriving DecidableEq, Repr

/-- A Logbook entry (Table 17-10). -/
structure LogEntry where
  cls : Nat
  unit : Nat
  flags : Nat
  corrected : Nat
  recovered : Nat
  uncorrected : Nat
  failures : Nat
  weatherMax : Nat
  weatherNow : Nat
  first : Nat
  last : Nat
  powerUps : Nat
  deriving DecidableEq, Repr

/-- The management stream (Table 20-7, R754) and the events of the datagram under way. -/
structure Stream where
  on : Bool
  minSeverity : Nat
  udpPort : Nat
  collector : List Byte
  key : Option (List Byte)
  waiting : List Event
  since : Nat
  deriving DecidableEq, Repr

/-- Innkeeper's instruction trace (R755, Table 20-8): its settings, and whether the buffer may hold packets; what they hold comes from
Innkeeper's own instructions and is free (log entry 48). -/
structure Trace where
  pairs : Nat
  mode : Nat
  filter : Nat
  low : Nat
  high : Nat
  dirty : Bool
  deriving DecidableEq, Repr

/-- Observation: counters, the event ring, the Relas-compatible ring with what it has overwritten, occurrences per unit and
kind, merging and scores, the Logbook in memory and as last written, the stream, the trace, the Wayfarer rate and line, and when
scores were last recomputed. -/
structure Observe where
  counters : List Counter
  events : List Event
  nextSeq : Nat
  overwritten : Nat
  records : List (List Byte)
  recordNext : Nat
  recordLost : Nat
  kinds : List (Nat × Nat × Nat × Nat)
  merging : List Merging
  samples : List Sample
  scores : List Score
  log : List LogEntry
  logWritten : List LogEntry
  logTime : Nat
  stream : Stream
  trace : Trace
  baud : Nat
  boot : List Nat
  weighed : Nat
  deriving DecidableEq, Repr

/-- The state of a protected cove as its home replicates it to its set (R662). -/
structure Replica where
  shore : Nat
  cove : Nat
  base : Nat
  size : Nat
  attrs : Nat
  grants : List Grant
  mark : Nat
  publishTime : Nat
  handles : List Nat
  deriving DecidableEq, Repr

/-- An atomic recorded at a parity member (R662). -/
structure AtomicRecord where
  src : Nat
  tag : Nat
  old : Nat
  time : Nat
  deriving DecidableEq, Repr

/-- A granule of a dead shore that this shore serves in place of a parity granule (R665). -/
structure Taken where
  gpa : Nat
  mem : Memory
  poisoned : List Nat
  lost : Bool
  deriving DecidableEq, Repr

/-- A rebuild in progress: reads of live members still missing as tag, GF(2⁸) coefficient and sector, and who waits. -/
structure Rebuild where
  gpa : Nat
  scale : Nat
  tags : List (Nat × Nat × Nat)
  mem : Memory
  waiters : List SxfMsg
  deriving DecidableEq, Repr

/-- A response that waits for parity deltas to be performed (R660). -/
structure DeltaWait where
  tags : List Nat
  reply : Option SxfMsg
  via : Nat
  host : Option (Nat × Nat)
  deriving DecidableEq, Repr

/-- Faults, redundancy and failover (spec 17): dead shores, self-fence, since when no causeway has been up, since when every
span of a ring neighbour has been down, shores whose serving shores have finished, announced capacities, replicas, atomic
records, protected granules of this shore, the protected bits of its parity granules, deltas owed and awaited, granules
served here, rebuilds, retired HBM channels and stacks, spares in use with the logical number they took (R36), lost arrays, retired links, dies and other units,
announced retirements, and lockstep restarts. -/
structure Faults where
  dead : List Nat
  selfFenced : Bool
  causewaysDown : Option Nat
  neighbourDown : List (Nat × Nat)
  rebuilt : List (Nat × Nat)
  capacities : List (Nat × Nat)
  replicas : List Replica
  atomics : List AtomicRecord
  guarded : List Nat
  parityBits : List (Nat × Nat)
  owed : List (Nat × List Byte)
  deltas : List DeltaWait
  taken : List Taken
  rebuilds : List Rebuild
  channelsOut : List (Nat × Nat)
  stacksOut : List Nat
  sparesUsed : List (Nat × Nat)
  arraysLost : List Nat
  retired : List (Nat × Nat)
  announced : List (Nat × Nat × Nat × Nat)
  restarts : List Nat
  directoryBad : List Nat
  deriving DecidableEq, Repr

/-! ### Embedding tables (spec 10) -/

/-- A table (R412–R420): the fields of Table 10-4, the slots that commits have left unused with the descriptors that still hold
them (R257), and whether its destruction is under way. -/
structure Table where
  id : Nat
  guest : Nat
  placement : Nat
  shadowFmt : Nat
  tag : Nat
  rows : Nat
  perShard : Nat
  shards : List Nat
  shardIndex : Nat
  dim : Nat
  cached : Bool
  shadowMask : Nat
  classFmt : List Nat
  region : Nat
  regionSize : Nat
  shadow : Nat
  shadowSize : Nat
  slots : List Nat
  held : List (Nat × Nat × List Nat)
  dying : Bool
  deriving DecidableEq, Repr

/-- A row-cache entry (R424, R426): its key, the shore offset and bytes of its slot, its row, and the tidetime of its last hit. -/
structure RowEntry where
  tag : Nat
  cls : Nat
  slot : Nat
  off : Nat
  len : Nat
  row : Nat
  hit : Nat
  deriving DecidableEq, Repr

/-- The tables, the row cache, and the frequency sketch: counters that are not zero, by row of the sketch and number, and the
bumps since the counters were last halved (R425). -/
structure Tables where
  list : List Table
  cache : List RowEntry
  sketch : List (Nat × Nat × Nat)
  bumps : Nat
  deriving DecidableEq, Repr

/-! ### Vector indices (spec 11) -/

/-- An entry or a tombstone of a list (R447, R459, R465): vector ID, attribute word, stamp, commit position, whether it is a
tombstone, whether it lies in the main part, its code, whether it holds poison, and the tidemark from which on a merge has dropped
it. -/
structure VecItem where
  vec : Nat
  attr : Nat
  birth : Nat
  pos : Nat
  tomb : Bool
  main : Bool
  code : List Byte
  bad : Bool
  drop : Option Nat
  deriving DecidableEq, Repr

/-- A list that holds something. -/
structure VecList where
  number : Nat
  items : List VecItem
  deriving DecidableEq, Repr

/-- An index (R446–R454): the fields of Table 11-3, its lists, the next commit position, the miss ratios in 64ths that remote shards
have reported (R485), and whether its destruction is under way. -/
structure Index where
  id : Nat
  guest : Nat
  kind : Nat
  metric : Nat
  tag : Nat
  dim : Nat
  vfmt : Nat
  centFmt : Nat
  lists : Nat
  pqM : Nat
  inMemory : Bool
  caravanUs : Nat
  maxVectors : Nat
  driftCap : Nat
  driftPool : Nat
  region : Nat
  regionSize : Nat
  shards : List Nat
  shardIndex : Nat
  coordinators : Nat
  remoteDeep : Nat
  remoteArray : Nat
  remoteHbm : Nat
  content : List VecList
  nextPos : Nat
  ratios : List (Nat × Nat)
  dying : Bool
  deriving DecidableEq, Repr

/-- A caravan (R478): its key, its visits and when it opened. -/
structure Caravan where
  index : Nat
  list : Nat
  mark : Nat
  visits : Nat
  opened : Nat
  deriving DecidableEq, Repr

structure Indices where
  list : List Index
  caravans : List Caravan
  deriving DecidableEq, Repr

/-! ### KV sets (spec 12) -/

/-- A KV set (R488–R497): the fields of Table 12-4, the pages and table blocks that are free but still held by descriptors (R493),
and whether its destruction is under way. -/
structure KvSet where
  id : Nat
  guest : Nat
  fmt : Nat
  shadowed : Bool
  shift : Nat
  layers : Nat
  heads : Nat
  headDim : Nat
  maxSeqs : Nat
  poolPages : Nat
  tableBlocks : Nat
  region : Nat
  shadow : Nat
  heldPages : List (Nat × List Nat)
  heldBlocks : List (Nat × List Nat)
  dying : Bool
  deriving DecidableEq, Repr

/-- A granule's entry in the deep-tier map (R620, R621): the die and block of its page, its write sequence and its stripe; a
granule with no entry is zero-fill (R59). -/
structure MapEntry where
  granule : Nat
  die : Nat
  block : Nat
  seq : Nat
  stripe : Nat
  deriving DecidableEq, Repr

/-- A granule in the deep-tier write queue, whose page is being programmed (R46, R621). -/
structure WriteBack where
  granule : Nat
  seq : Nat
  die : Nat
  block : Nat
  stripe : Nat
  deriving DecidableEq, Repr

/-- A granule read under way (R629–R632): the page it was issued to, its stripe, whether its hard decode and its soft step have
failed, and whether valid data is at hand. -/
structure DeepRead where
  granule : Nat
  die : Nat
  block : Nat
  stripe : Nat
  hardFailed : Bool
  softFailed : Bool
  ready : Bool
  deriving DecidableEq, Repr

/-- A stripe (R625): its number, group and form, and the dies of its pages by channel position. -/
structure NandStripe where
  number : Nat
  group : Nat
  dual : Bool
  dies : List (Nat × Nat)
  deriving DecidableEq, Repr

/-- What has happened on a die since power-up (R624, R628, R637): the block under erase, whether its program or erase is
suspended and when it was last resumed, erases by block, blocks retired, and when its wear record was last written, with what it
then held. -/
structure Die where
  number : Nat
  erasing : Option Nat
  suspended : Bool
  resumedAt : Nat
  erases : List (Nat × Nat)
  retired : List Nat
  wearAt : Option Nat
  savedErases : List (Nat × Nat)
  savedRetired : List Nat
  deriving DecidableEq, Repr

/-- The deep tier (spec 16): the population as fixed at WAKING (populated groups, LUNs and chip enables, raw capacity, the part's
rated cycles), the last write sequence, the map, the write queue, reads under way, stripes with the next number, dies, failed
units by their numbers of Table 17-1, and granules whose pages a soft step marked for refresh. -/
structure Deep where
  groups : List Nat
  luns : Nat
  enables : Nat
  raw : Nat
  rated : Nat
  lastSeq : Nat
  map : List MapEntry
  queue : List WriteBack
  reads : List DeepRead
  stripes : List NandStripe
  nextStripe : Nat
  dies : List Die
  failed : List Nat
  refresh : List Nat
  deriving DecidableEq, Repr

/-- How far a dynamic-capacity extent is (R596–R600, R605): held until region 1 can serve, offered, accepted, or asked back
since a tidetime. -/
inductive ExtentState where
  | held | offered | accepted
  | releasing (since : Nat) (was : Bool)
  deriving DecidableEq, Repr

/-- A dynamic-capacity extent of a host port (R596, Table 15-5): region, DPA base, size, cove, guest, the alias's snapshot
handle and tidemark, and the rights at offer time. -/
structure HostExtent where
  port : Nat
  id : Nat
  region : Nat
  dpa : Nat
  size : Nat
  cove : Nat
  guest : Nat
  snap : Option Nat
  tidemark : Nat
  rights : Nat
  st : ExtentState
  deriving DecidableEq, Repr

/-- A committed HDM decoder (R603, R604). -/
structure Decoder where
  index : Nat
  base : Nat
  size : Nat
  dpa : Nat
  bi : Bool
  deriving DecidableEq, Repr

/-- An event of a port's CXL event log (R614): its number, kind (0 extent added, 1 release asked for, 2 forced release,
3 poison), time, DPA, length, tag of the extent and region. -/
structure CxlEvent where
  number : Nat
  kind : Nat
  time : Nat
  dpa : Nat
  size : Nat
  tag : List Byte
  region : Nat
  deriving DecidableEq, Repr

/-- An ATS invalidation that waits for descriptors and for held walks, named by their queues (R612). -/
structure Invalidation where
  tag : Nat
  descs : List Nat
  walks : List Nat
  deriving DecidableEq, Repr

/-- A host port (R588–R614): link, trained and present width, fence, D3hot, back-invalidation, PRI, ATS and MSI-X state, decoders and those
in error, secure streams, pairs whose extent the host rejected, the CXL event log and the timestamp. -/
structure HostPort where
  id : Nat
  up : Bool
  width : Nat
  active : Nat
  fenced : Bool
  d3hot : Bool
  biEnabled : Bool
  atsEnabled : Bool
  priEnabled : Bool
  completionTimeout : Nat
  unmasked : List Nat
  msixPending : List Nat
  decoders : List Decoder
  badDecoders : List Nat
  memSecure : Bool
  ioSecure : Bool
  rejected : List (Nat × Nat)
  invalidations : List Invalidation
  events : List CxlEvent
  nextEvent : Nat
  timestamp : Nat
  timestampAt : Nat
  fenceErrors : List Nat
  perst : Bool
  deriving DecidableEq, Repr

structure HostPorts where
  ports : List HostPort
  extents : List HostExtent
  nextExtent : Nat
  deriving DecidableEq, Repr

/-! ### Isolation and trust (spec 18) -/

/-- A loaded key slot (R687): its holder, its 512-bit key, and whether its holder is gone and it is kept for coves only (R692). -/
structure KeySlot where
  slot : Nat
  holder : Nat
  key : List Byte
  orphan : Bool
  deriving DecidableEq, Repr

/-- An open debug nonce (R705): its value, when it was given and the scope asked for. -/
structure Nonce where
  value : Nat
  time : Nat
  scope : Nat
  deriving DecidableEq, Repr

/-- Trust (spec 18): key slots that hold a key, fabric trust anchors, debug grants as scope and EXPIRY, the open nonce, the raise of
the fused minimum SVN, coves whose key slot a JTAG unlock cleared (R706), TLS sessions with the fabric-manager role (R694), SPDM
sessions by responder (0–3 a port's DOE mailbox, 4 MCTP), live activations and pair restarts since power-up (Table 18-5). -/
structure Trust where
  slots : List KeySlot
  anchors : List (List Byte)
  grants : List (Nat × Nat)
  nonce : Option Nonce
  svnRaised : Nat
  keyless : List Nat
  managers : List Nat
  spdm : List (Nat × Nat)
  liveActivations : Nat
  pairRestarts : Nat
  deriving DecidableEq, Repr

/-! ### The Tollhouse (spec 19) -/

/-- A guest's account (R721, R722): guest and epoch; nWh credited since FIRST, and of the period the dynamic part and each rail's; the
µWh and capacity written in its last record; capacity since FIRST and of the period and the pin weight of the period in 2 MiB·µs;
whether it has a record, was in the last frame, and the START of its next record. -/
structure Account where
  guest : Nat
  epoch : Nat
  total : Nat
  dynamic : Nat
  rails : List Nat
  written : Nat
  capacity : Nat
  capacityWas : Nat
  pin : Nat
  recorded : Bool
  present : Bool
  start : Nat
  carried : Bool
  deriving DecidableEq, Repr

/-- The Tollhouse (R709–R730): power and seal, the record store with the next SEQUENCE and the first one not acknowledged, the last record,
records since the last signature, accounts; rail energies and UNATTRIBUTED of the period and the shore's total in nWh; the period's
start and whether it has GAP, estimated times or a rail below its class, its END once it is over and not yet written, and the start
of a shore record that could not be written; the last valid frame's number, tidetime and shore; whether frames are lost; TOLL_TIME and
the period's length in crystal µs at the last interval's end; the collector key's digest; the UART's rate code; and whether guest
records, or all records, have stopped. -/
structure Toll where
  powered : Bool
  broken : Bool
  store : List (List Byte)
  nextSeq : Nat
  acked : Nat
  last : List Byte
  unsigned : List (List Byte)
  accounts : List Account
  rails : List Nat
  unattributed : Nat
  shoreTotal : Nat
  began : Nat
  gap : Bool
  estimated : Bool
  below : Bool
  ended : Option Nat
  shoreSince : Option Nat
  frame : Option Nat
  frameTime : Nat
  shore : Nat
  lost : Bool
  time : Nat
  periodTime : Nat
  collector : Option (List Byte)
  baud : Nat
  guestsStopped : Bool
  stopped : Bool
  deriving DecidableEq, Repr

/-- What Innkeeper holds of the Tollhouse (R731): the ring of mirrored records, the SEQUENCE it expects next, the last STATUS payload,
when it came, and whether its absence has been reported. -/
structure TollMirror where
  ring : List (List Byte)
  expected : Option Nat
  status : List Byte
  statusAt : Nat
  late : Bool
  deriving DecidableEq, Repr

/-! ### Registers (spec 23) -/

/-- A view's own registers (R795): INT_STATUS, INT_ENABLE, BAD_ACCESS and DOORBELL_DENIED with the fields of their last counted access,
as they stand in bits [63:32] of Table 23-15. -/
structure ViewRegs where
  view : View
  status : Nat
  enable : Nat
  badCount : Nat
  badLast : Nat
  deniedCount : Nat
  deniedLast : Nat
  deriving DecidableEq, Repr

/-- A stop of the machine. No command of this block stops it: the spec answers, ignores or counts whatever reaches the
block, so no constructor is ever raised by `exec`. -/
inductive Fault where
  /-- Raised by no meaning; safe. -/
  | none
  deriving DecidableEq, Repr

/-- A command without a meaning. -/
inductive Refusal where
  /-- Raised by an arm of `exec` whose command has no meaning yet; safe. -/
  | notModelled (mnemonic : String)
  deriving DecidableEq, Repr

/-- The state of the block: everything the spec gives it, the commands that wait (first in, first out), what it has
sent out, and `free`, the model's own counter of free values drawn (no state of the spec). -/
structure State where
  pending : List Instr
  out : List Output
  free : Nat
  clock : Clock
  power : Power
  store : Store
  inn : Innkeeper
  ord : Ordering
  dir : Directory
  queues : Queues
  brk : Breakwater
  fabric : Fabric
  porter : Porter
  red : Reductions
  boll : Bollards
  tables : Tables
  indices : Indices
  kv : List KvSet
  deep : Deep
  host : HostPorts
  obs : Observe
  faults : Faults
  trust : Trust
  toll : Toll
  mirror : TollMirror
  regs : List ViewRegs
  deriving DecidableEq, Repr

/-- A dark link (R558). -/
def Link.dark (id : Nat) : Link where
  id := id
  state := .dark
  step := 0
  stepBegan := 0
  retryAt := 0
  laneMap := []
  spare := none
  failedWaves := []
  peerShore := 0x3FF
  peerLink := 0
  peerAgent := 0
  heldIdent := false
  sendSeq := 0
  replay := []
  ackedAt := 0
  recvSeq := 0
  nakSent := false
  waiting := []
  credits := []
  freed := []
  txFrames := 0
  rxPhase := false
  txPhase := false
  effectFrame := none
  maint := []
  sent := 0
  accepted := 0
  replays := 0
  corrected := 0
  undecodable := 0
  tagFails := 0
  recalAt := 0
  replayTimes := []
  tagTimes := []
  retrain := false
  recalTicket := 0
  keyGenTx := 0
  keyGenRx := 0
  genFrames := 0

/-- A host port that has not trained (R588). -/
def HostPort.fresh (id : Nat) : HostPort where
  id := id
  up := false
  width := 0
  active := 0
  fenced := false
  d3hot := false
  biEnabled := false
  atsEnabled := false
  priEnabled := false
  completionTimeout := 128000000
  unmasked := []
  msixPending := []
  decoders := []
  badDecoders := []
  memSecure := false
  ioSecure := false
  rejected := []
  invalidations := []
  events := []
  nextEvent := 0
  timestamp := 0
  timestampAt := 0
  fenceErrors := []
  perst := false

/-- The system guest after reset (R143): active with epoch 0, IDENTITY, weight 1. -/
def Guest.system : Guest where
  id := 0
  epoch := 0
  weight := 1
  mode := .identity
  ownerJetty := false
  ownerPort := 0
  ownerId := 0
  root := 0
  prTimeout := 1000
  pinQuota := 0
  queueQuota := 1024
  keyQuota := 4095
  cached := []
  quarantined := false

/-- Tidetime runs free from 0; the shore is its own headland (R734, Table 21-9). -/
def Clock.fresh : Clock where
  tidetime := 0
  fraction := 0
  rate := 0
  locked := false
  everLocked := false
  heard := []
  syncs := []
  nextSync := 0
  good := 0
  offset := 0
  headSince := some 0
  holdover := none
  epochTai := 0
  classZero := false
  classOne := false
  step := 0
  lockSequence := none
  announced := 0
  synced := 0
  said := []
  latches := []

/-- The ten rails other than VTOLL are good, and the device wakes (Table 21-6). -/
def Power.fresh : Power where
  state := .waking
  cause := 0
  stateTime := 0
  hold := false
  goal := none
  offline := false
  rails := List.range 10
  resetHeld := false
  capW := 1000
  capNext := none
  fThermal := 100
  thermalNext := none
  temps := List.replicate 26 0
  coolSince := none
  stepAt := 0
  tripped := false
  vcore := 800

/-- No cove; the Harbour's areas at their defaults (Table 02-7). -/
def Store.fresh : Store where
  mem := []
  poison := []
  capacity := 0
  coves := []
  handovers := []
  invals := []
  pulls := []
  pulled := []
  pulling := []
  snaps := []
  moving := []
  harbour := ⟨0, 8, 0, [], [], 0, []⟩

/-- No command object; mailbox 0 of each host port bound to the system guest (R130). -/
def Innkeeper.fresh : Innkeeper where
  booted := false
  guests := [Guest.system]
  chans := (List.range 4).map fun p => ⟨.mailbox p 0, some (0, 0), 0, [], []⟩
  boxes := []
  tickets := []
  nextTicket := 1
  sets := []
  checks := []
  fw := ⟨⟨[], false⟩, ⟨[], false⟩, 0, 0, none, 0, 0, false⟩

def Fabric.fresh : Fabric where
  set := false
  shoreId := 0x3FF
  dimX := 0
  dimY := 0
  dimZ := 0
  profile := .s
  links := (List.range 64).map Link.dark
  bundles := []
  spansDown := []
  spanCount := 0
  spanSeen := []
  batch := 0
  batchBegan := 0
  discarded := 0

def Observe.fresh : Observe where
  counters := []
  events := []
  nextSeq := 0
  overwritten := 0
  records := []
  recordNext := 0
  recordLost := 0
  kinds := []
  merging := []
  samples := []
  scores := []
  log := []
  logWritten := []
  logTime := 0
  stream := ⟨false, 0, 0, [], none, [], 0⟩
  trace := ⟨0, 0, 0, 0, 0, false⟩
  baud := 115200
  boot := []
  weighed := 0

def Faults.fresh : Faults where
  dead := []
  selfFenced := false
  causewaysDown := none
  neighbourDown := []
  rebuilt := []
  capacities := []
  replicas := []
  atomics := []
  guarded := []
  parityBits := []
  owed := []
  deltas := []
  taken := []
  rebuilds := []
  channelsOut := []
  stacksOut := []
  sparesUsed := []
  arraysLost := []
  retired := []
  announced := []
  restarts := []
  directoryBad := []

/-- Before WAKING has read the parts (R617): no population; every granule zero-fill (R623). -/
def Deep.fresh : Deep := ⟨[], 0, 0, 0, 0, 0, [], [], [], [], 0, [], [], []⟩

/-- Debug state 0, slots 1–4,095 empty (R687, R704). -/
def Trust.fresh : Trust := ⟨[], [], [], none, 0, [], [], [], 0, 0⟩

/-- A Tollhouse as manufactured, without VTOLL (R721). -/
def Toll.fresh : Toll where
  powered := false
  broken := false
  store := []
  nextSeq := 0
  acked := 0
  last := []
  unsigned := []
  accounts := []
  rails := List.replicate 11 0
  unattributed := 0
  shoreTotal := 0
  began := 0
  gap := false
  estimated := false
  below := false
  ended := none
  shoreSince := none
  frame := none
  frameTime := 0
  shore := 0x3FF
  lost := false
  time := 0
  periodTime := 0
  collector := none
  baud := 0
  guestsStopped := false
  stopped := false

/-- The block right after last rail good (R773, Table 21-9): WAKING, nothing created, no command waiting. -/
def State.reset : State where
  pending := []
  out := []
  free := 0
  clock := Clock.fresh
  power := Power.fresh
  store := Store.fresh
  inn := Innkeeper.fresh
  ord := ⟨[], [], 0⟩
  dir := ⟨[], [], [], 0⟩
  queues := ⟨[], [], [], 0, [], 0⟩
  brk := ⟨0, 4, [], [], [], [], [], [], [], [], [], 0⟩
  fabric := Fabric.fresh
  porter := ⟨(List.range 64).map fun i => ⟨i, .idle, [], [], none⟩, []⟩
  red := ⟨[], 0⟩
  boll := ⟨[], [], 0⟩
  tables := ⟨[], [], [], 0⟩
  indices := ⟨[], []⟩
  kv := []
  deep := Deep.fresh
  host := ⟨(List.range 4).map HostPort.fresh, [], 0⟩
  obs := Observe.fresh
  faults := Faults.fresh
  trust := Trust.fresh
  toll := Toll.fresh
  mirror := ⟨[], none, [], 0, false⟩
  regs := []

end Sys2Proof.Machine
end

