-- ==== Sys2Proof/Machine/Ops.lean ====
section
/-! DEFINITION. The named operations that the meanings share: memory bytes and poison, coves and rights, Harbour
residency, versions, counters, events and what the block sends out. -/

namespace Sys2Proof.Machine

/-! ### Memory -/

/-- The byte at an address of a canonical memory; an unlisted byte is zero (R59). -/
def Mem.get : Memory → Nat → Byte
  | [], _ => 0
  | (a, b) :: t, x => if a = x then b else if x < a then 0 else Mem.get t x

/-- Write one byte, keeping addresses rising and no zero listed. -/
def Mem.set : Memory → Nat → Byte → Memory
  | [], x, v => if v = 0 then [] else [(x, v)]
  | (a, b) :: t, x, v =>
    if x < a then (if v = 0 then (a, b) :: t else (x, v) :: (a, b) :: t)
    else if x = a then (if v = 0 then t else (x, v) :: t)
    else (a, b) :: Mem.set t x v

/-- The canonical form: addresses strictly rising, no listed zero. -/
def Mem.wf : Memory → Bool
  | [] => true
  | [(_, b)] => b != 0
  | (a, b) :: (a', b') :: t => b != 0 && decide (a < a') && Mem.wf ((a', b') :: t)

/-- `n` bytes from address `x`. -/
def Mem.read (m : Memory) (x n : Nat) : List Byte := (List.range n).map fun i => Mem.get m (x + i)

/-- Write bytes from address `x` upward. -/
def Mem.write : Memory → Nat → List Byte → Memory
  | m, _, [] => m
  | m, x, b :: bs => Mem.write (Mem.set m x b) (x + 1) bs

/-- The cells of `[x, x+n)`, addressed from `x`. -/
def Mem.cut (m : Memory) (x n : Nat) : Memory :=
  (m.filter fun c => decide (x ≤ c.1 ∧ c.1 < x + n)).map fun c => (c.1 - x, c.2)

/-- Clear `[x, x+n)`. -/
def Mem.clear (m : Memory) (x n : Nat) : Memory := m.filter fun c => decide (c.1 < x ∨ x + n ≤ c.1)

/-- Granule size, sector size (R58), 2 MiB. -/
abbrev granuleSize : Nat := 16384
abbrev sectorSize : Nat := 64
abbrev mib2 : Nat := 2097152

/-- The numbers of the blocks of size `k` that the range `[off, off+n)` touches. -/
def blocksOf (k off n : Nat) : List Nat :=
  if n = 0 then [] else span (off / k) ((off + n - 1) / k + 1 - off / k)

/-- Granules and sectors that a range touches. -/
def granulesOf (off n : Nat) : List Nat := blocksOf granuleSize off n
def sectorsOf (off n : Nat) : List Nat := blocksOf sectorSize off n

/-- How many sectors a range touches. -/
def sectorCount (off n : Nat) : Nat := if n = 0 then 0 else (off + n - 1) / sectorSize + 1 - off / sectorSize

/-- Sectors that a range covers whole. -/
def sectorsIn (off n : Nat) : List Nat :=
  let a := ceilDiv off sectorSize
  span a ((off + n) / sectorSize - a)

/-- A GPA's shore and offset (Table 02-1). -/
def gpaShore (g : Nat) : Nat := (g / 2 ^ 48) % 512
def gpaOffset (g : Nat) : Nat := g % 2 ^ 48
/-- The GPA of an offset of a shore. -/
def gpaOf (shore off : Nat) : Nat := 2 ^ 48 * shore + off

/-! ### State helpers: output, free values, counters, events -/

/-- Send something out. -/
def State.emit (s : State) (o : Output) : State := { s with out := s.out ++ [o] }

/-- The next free value. -/
def State.nextFree (s : State) : Nat := Config.drawn s.free

/-- One more free value has been drawn. -/
def State.drew (s : State) : State := { s with free := s.free + 1 }

/-- The tidetime. -/
def State.now (s : State) : Nat := s.clock.tidetime

/-- The shore's own ID as GPAs and messages carry it; before FABRIC_SET, when SHORE_ID reads 0x3FF, it is shore 0 of a torus of one
(DEDUCED, log entry 55). -/
def State.self (s : State) : Nat := if s.fabric.set then s.fabric.shoreId else 0

/-- The value of a counter; a counter never counted holds 0. -/
def Observe.counter (o : Observe) (group index number : Nat) : Nat :=
  match o.counters.find? fun c => c.group = group ∧ c.index = index ∧ c.number = number with
  | some c => c.value
  | none => 0

/-- Add to a counter, which wraps at 64 bits (spec 22). -/
def State.count (s : State) (group index number n : Nat) : State :=
  let v := u64 (s.obs.counter group index number + n)
  { s with obs := { s.obs with
      counters := upsert (fun c => (c.group, c.index, c.number)) ⟨group, index, number, v⟩ s.obs.counters } }

/-! ### Lookups -/

def State.cove (s : State) (id : Nat) : Option Cove := s.store.coves.find? fun c => c.id = id

/-- The cove that holds an offset. -/
def State.coveAt (s : State) (off : Nat) : Option Cove :=
  s.store.coves.find? fun c => decide (c.base ≤ off ∧ off < c.base + c.size)

def State.guestRec (s : State) (g : Nat) : Option Guest := s.inn.guests.find? fun x => x.id = g

def State.sq (s : State) (q : Nat) : Option Sq := s.queues.sqs.find? fun x => x.id = q

def State.cq (s : State) (q : Nat) : Option Cq := s.queues.cqs.find? fun x => x.id = q

def State.desc (s : State) (d : Nat) : Option Desc := s.queues.descs.find? fun x => x.id = d

def State.bundle (s : State) (b : Nat) : Option Bundle := s.fabric.bundles.find? fun x => x.id = b

def State.link (s : State) (l : Nat) : Option Link := s.fabric.links.find? fun x => x.id = l

def State.bollard (s : State) (b : Nat) : Option Bollard := s.boll.list.find? fun x => x.id = b

def State.group (s : State) (g : Nat) : Option Group := s.red.groups.find? fun x => x.id = g

def State.port (s : State) (p : Nat) : Option HostPort := s.host.ports.find? fun x => x.id = p

def State.setPort (s : State) (p : Nat) (f : HostPort → HostPort) : State :=
  { s with host := { s.host with ports := mapIf (fun x => x.id = p) f s.host.ports } }

/-- Send an MSI-X message of a port; one for a masked vector stays pending, merged (R613); D3hot and a link that is down
send none (R592). -/
def State.msix (s : State) (p vector : Nat) : State :=
  match s.port p with
  | none => s
  | some x =>
    if x.unmasked.contains vector && x.up && !x.d3hot then s.emit (.irq p vector)
    else s.setPort p fun x => { x with msixPending := setAdd vector x.msixPending }

/-- A view's own registers (R795). -/
def State.view (s : State) (v : View) : ViewRegs := (s.regs.find? fun x => x.view = v).getD ⟨v, 0, 0, 0, 0, 0, 0⟩

def State.setView (s : State) (x : ViewRegs) : State := { s with regs := upsert (·.view) x s.regs }

/-- INT_STATUS and INT_ENABLE of a host port take new values; vector 0 is sent where a bit becomes set in both (R799). -/
def State.setInt (s : State) (port status enable : Nat) : State :=
  let x := s.view (.host port)
  let before := x.status &&& x.enable
  let s := s.setView { x with status := status, enable := enable }
  if (status &&& enable) &&& (before ^^^ (status &&& enable)) ≠ 0 then s.msix port 0 else s

/-- An INT_STATUS bit of one port is set (R799). -/
def State.interruptOn (s : State) (port n : Nat) : State :=
  let x := s.view (.host port)
  s.setInt port (x.status ||| 2 ^ n) x.enable

/-- An event of Table 23-14: the bit is set in every view (R799). -/
def State.interrupt (s : State) (n : Nat) : State := (List.range 4).foldl (fun s p => s.interruptOn p n) s

/-- The debug state: bit 0 WAYFARER_FULL, bit 1 JTAG, bit 2 TRACE (R704). -/
def State.debug (s : State) : Nat := s.trust.grants.foldl (fun a g => a ||| g.1) 0

/-- The encoding of the device state (Table 21-4). -/
def DevState.code : DevState → Nat
  | .off => 0 | .waking => 1 | .strict => 2 | .service => 3 | .draining => 4 | .halted => 5

/-- DEV_STATE (Table 23-11); R798 takes bits [31:0] of it. -/
def State.devState (s : State) : Nat :=
  s.power.state.code + s.power.cause % 16 * 2 ^ 4 + b2n s.power.hold * 2 ^ 8 + b2n s.clock.locked * 2 ^ 9 +
    b2n s.power.offline * 2 ^ 10 + s.debug % 8 * 2 ^ 16

/-- The device changes its state (R769, R770): the cause and time are kept, and STATE is raised (Table 23-14). -/
def State.become (s : State) (st : DevState) (cause : Nat) : State :=
  ({ s with power := { s.power with state := st, cause := cause, stateTime := s.clock.tidetime } }).interrupt 1

/-- Plain requests are answered as in HALTED (R774): in it, and once an OFFLINE drain has no descriptor left in flight (R771). -/
def State.shut (s : State) : Bool :=
  s.power.state == .halted || (s.power.state == .draining && s.power.offline && s.queues.descs.isEmpty)

/-- Change one cove. -/
def State.setCove (s : State) (id : Nat) (f : Cove → Cove) : State :=
  { s with store := { s.store with coves := mapIf (fun c => c.id = id) f s.store.coves } }

def State.setGuest (s : State) (id : Nat) (f : Guest → Guest) : State :=
  { s with inn := { s.inn with guests := mapIf (fun g => g.id = id) f s.inn.guests } }

def State.setSq (s : State) (id : Nat) (f : Sq → Sq) : State :=
  { s with queues := { s.queues with sqs := mapIf (fun q => q.id = id) f s.queues.sqs } }

def State.setCq (s : State) (id : Nat) (f : Cq → Cq) : State :=
  { s with queues := { s.queues with cqs := mapIf (fun q => q.id = id) f s.queues.cqs } }

def State.setDesc (s : State) (id : Nat) (f : Desc → Desc) : State :=
  { s with queues := { s.queues with descs := mapIf (fun d => d.id = id) f s.queues.descs } }

def State.setLink (s : State) (id : Nat) (f : Link → Link) : State :=
  { s with fabric := { s.fabric with links := mapIf (fun l => l.id = id) f s.fabric.links } }

def State.setBundle (s : State) (id : Nat) (f : Bundle → Bundle) : State :=
  { s with fabric := { s.fabric with bundles := mapIf (fun b => b.id = id) f s.fabric.bundles } }

def State.setGroup (s : State) (id : Nat) (f : Group → Group) : State :=
  { s with red := { s.red with groups := mapIf (fun g => g.id = id) f s.red.groups } }

/-! ### Rights (R64, R65) -/

/-- The kinds of access that the rights check tells apart. -/
inductive Access where | read | write | atomic
  deriving DecidableEq, Repr

/-- The grant entry of a guest on a cove; no entry grants nothing. -/
def Cove.grant (c : Cove) (g : Nat) : Grant :=
  (c.grants.find? fun x => x.guest = g).getD ⟨g, false, false, false⟩

/-- The grant holds the right. -/
def Grant.has (x : Grant) : Access → Bool
  | .read => x.r
  | .write => x.w
  | .atomic => x.a

/-- The cove's state admits an access of the guest (R65). -/
def Cove.admits (c : Cove) (g : Nat) : Bool :=
  match c.state with
  | .active => true
  | .handingOver => g == 0
  | .retiring => false

/-- The rights check of R65 for a guest's access to `[off, off+n)` of this shore. -/
def State.allowed (s : State) (g off n : Nat) (a : Access) : Bool :=
  match s.coveAt off with
  | none => false
  | some c => inside off n c.base c.size && c.admits g && (c.grant g).has a

/-- Every byte of `[off, off+n)` lies in coves in which the guest holds the right; the range may span coves (a
descriptor range is checked per extent). -/
def State.allowedAll (s : State) (fuel g off n : Nat) (a : Access) : Bool :=
  match fuel with
  | 0 => n == 0
  | k + 1 =>
    if n = 0 then true
    else match s.coveAt off with
      | none => false
      | some c =>
        let m := min n (c.base + c.size - off)
        c.admits g && (c.grant g).has a && s.allowedAll k g (off + m) (n - m) a

/-- A failed rights check is counted against the guest (R67): group GUEST (0x01), number 3. -/
def State.countRights (s : State) (g : Nat) : State := s.count 1 g 3 1

/-! ### Placement and the Harbour (R87–R98) -/

/-- The class of an offset: the override that covers it, else the cove's (R95). -/
def Cove.clsAt (c : Cove) (off : Nat) : Cls :=
  match c.overrides.find? fun o => decide (o.base ≤ off ∧ off < o.base + o.size) with
  | some o => o.cls
  | none => c.cls

def State.clsAt (s : State) (off : Nat) : Cls :=
  match s.coveAt off with
  | some c => c.clsAt off
  | none => .prefer

/-- The stack that holds an offset (R88). -/
def stackOf (off : Nat) : Nat :=
  bits off 16 14 ^^^ bits off 19 17 ^^^ bits off 22 20 ^^^ bits off 25 23

/-- The stack that serves a stack's granules now (R644): the next one, in ascending order modulo 8, that is not retired. -/
def State.stackFrom (s : State) (k : Nat) : Nat :=
  (((List.range 8).map fun i => (k + i) % 8).find? fun x => !s.faults.stacksOut.contains x).getD (k % 8)

/-- The stack that holds an offset now (R88, R644). -/
def State.stackFor (s : State) (off : Nat) : Nat := s.stackFrom (stackOf off)

/-- The stack that mirrors a stack (R94, R644): four further on, or the next after it that is not retired. -/
def State.mirrorOf (s : State) (k : Nat) : Nat := s.stackFrom (k + 4)

/-- The pseudo-channel of an offset (R88). -/
def pseudoOf (off : Nat) : Nat := bits off 11 6

/-- The way that holds a granule, by its GPA granule number. -/
def Harbour.way (h : Harbour) (g : Nat) : Option Way := h.ways.find? fun w => w.gpa = g

/-- The granule is in the cache or pin region. -/
def Harbour.resident (h : Harbour) (g : Nat) : Bool := (h.way g).isSome

/-- An access touches a granule that is resident: newest age (R92's least recently used), sectors dirty after a write. -/
def Harbour.hit (h : Harbour) (g : Nat) (dirty : List Nat) : Harbour :=
  { h with
    stamp := h.stamp + 1
    ways := mapIf (fun w => w.gpa = g)
      (fun w => { w with stamp := h.stamp + 1, oldest := w.oldest && dirty.isEmpty, dirty := uniq (w.dirty ++ dirty) }) h.ways }

/-- R92's order of candidates: a smaller rank is taken first; none for a way that is no candidate. -/
def Way.rank (w : Way) : Option Nat :=
  if w.writeBack || w.pinned then none
  else match w.cls, w.dirty.isEmpty with
    | .stream, true => some 1 | .cold, true => some 1
    | .stream, false => some 2 | .cold, false => some 2
    | _, true => some 3
    | _, false => some 4

/-- The better of two candidates (R92): the lower rank, then the older. -/
def betterWay (a b : Way) : Way :=
  match a.rank, b.rank with
  | none, _ => b
  | _, none => a
  | some i, some j => if j < i ∨ (i = j ∧ b.stamp < a.stamp) then b else a

/-- The victim among the ways of a set (R92); none where no way is a candidate. -/
def victim (ws : List Way) : Option Way :=
  match ws with
  | [] => none
  | w :: t => let v := t.foldl betterWay w; if v.rank.isSome then some v else none

/-- What allocating a way for a granule finds. -/
inductive Allocation where
  | placed (h : Harbour)
  | waits (h : Harbour)

/-- Take a way for a granule (R92): an invalid way, or the place of a clean victim. A dirty victim starts its write-back
(R46) and the granule waits for a way (R93). -/
def Harbour.allocate (h : Harbour) (g : Nat) (cls : Cls) (oldest : Bool) (dirty : List Nat) : Allocation :=
  let w : Way := ⟨g, cls, cls = .pin, h.stamp + 1, oldest, dirty, false⟩
  let add (ws : List Way) : Harbour := { h with ways := ws ++ [w], stamp := h.stamp + 1 }
  if cls = .pin then .placed (add h.ways)
  else
    let inSet := h.ways.filter fun x => !x.pinned && stackOf (x.gpa * granuleSize) == stackOf (g * granuleSize)
    if inSet.length < 16 then .placed (add h.ways)
    else
      let set := inSet.filter fun x => Config.harbourSet x.gpa == Config.harbourSet g
      if set.length < 16 then .placed (add h.ways)
      else match victim set with
        | none => .waits h
        | some v =>
          if v.dirty.isEmpty then .placed (add (h.ways.filter fun x => x.gpa ≠ v.gpa))
          else .waits { h with ways := mapIf (fun x => x.gpa = v.gpa) (fun x => { x with writeBack := true }) h.ways }

/-- Bring a granule into the Harbour or, when its set has no candidate way, keep it in an open miss entry whose fill has
arrived (R93). -/
def Harbour.fill (h : Harbour) (now g : Nat) (cls : Cls) (oldest : Bool) (dirty : List Nat) : Harbour :=
  match h.allocate g cls oldest dirty with
  | .placed h' => h'
  | .waits h' =>
    if h'.misses.any fun m => m.granule = g then h'
    else { h' with misses := h'.misses ++ [⟨g, now, [], dirty, true, oldest, true⟩] }

/-- The granule needs a NAND read: it is not resident, not in the deep-tier write queue and not zero-fill (R46, R59). -/
def State.absent (s : State) (g : Nat) : Bool :=
  !s.store.harbour.resident g && !(s.deep.queue.any fun w => w.granule = g) &&
    !(s.store.harbour.misses.any fun m => m.granule = g ∧ m.filled) && s.deep.map.any fun e => e.granule = g

/-- The Harbour after a read of a granule has been served: a hit is the newest; a miss allocates by class (Table 02-8:
PREFER at the newest age; STREAM and COLD not at all). -/
def State.touchRead (s : State) (g : Nat) : State :=
  let h := s.store.harbour
  let s := if h.resident g then s.count 4 (s.stackFor (g * granuleSize)) 0 1 else s
  let h' := if h.resident g then h.hit g []
    else match s.clsAt (g * granuleSize) with
      | .prefer => h.fill s.now g .prefer false []
      | .pin => h.fill s.now g .pin false []
      | _ => h
  { s with store := { s.store with harbour := h' } }

/-- The Harbour after a write of some sectors of a granule (R90, R91, Table 02-8). -/
def State.touchWrite (s : State) (g : Nat) (sectors : List Nat) : State :=
  let h := s.store.harbour
  let c := s.clsAt (g * granuleSize)
  let s := s.count 4 (s.stackFor (g * granuleSize)) (if h.resident g then 0 else 1) 1
  let h' := if h.resident g then h.hit g sectors
    else h.fill s.now g c (c = .stream ∨ c = .cold) sectors
  { s with store := { s.store with harbour := h' } }

/-- The profile mirrors the cove (Table 17-4): its dirty sectors have a second copy in the mirror area (R94). -/
def State.mirrors (s : State) (c : Cove) : Bool :=
  match s.fabric.profile, c.protection with
  | .m, .critical => true
  | .l, _ => true
  | .xl, _ => true
  | _, _ => false

/-- Record a mirrored dirty granule, in order of first becoming dirty (R94). -/
def State.mirrorDirty (s : State) (g : Nat) : State :=
  match s.coveAt (g * granuleSize) with
  | some c =>
    if s.mirrors c then
      let s := s.count 4 (s.stackFor (g * granuleSize)) 3 1
      { s with store := { s.store with harbour := { s.store.harbour with mirror := setAdd g s.store.harbour.mirror } } }
    else s
  | none => s

/-! ### Versions (R219–R229) -/

/-- The tidemark range of the image that a write is about to replace starts after the last retained one. -/
def Versions.nextLo (v : Versions) (g : Nat) : Nat :=
  maxNat ((v.images.filter fun i => i.granule = g).map (·.hi)) + 1

/-- Copy-on-write (R225): the first write to a granule after a publish point retains its old image. -/
def Store.retain (st : Store) (g : Nat) : Store :=
  let off := g * granuleSize
  let keep (c : Cove) : Cove :=
    match c.versions with
    | none => c
    | some v =>
      if g ∈ v.touched then c
      else
        let img : Image := ⟨g, v.nextLo g, v.latest, Mem.cut st.mem off granuleSize,
          st.poison.filter fun p => decide (p / 256 = g)⟩
        { c with versions := some { v with images := v.images ++ [img], touched := v.touched ++ [g] } }
  { st with coves := mapIf (fun c => decide (c.base ≤ off ∧ off < c.base + c.size)) keep st.coves }

/-- The image of a granule at a tidemark, where it differs from the current version (R224). -/
def Versions.image (v : Versions) (g t : Nat) : Option Image :=
  v.images.find? fun i => decide (i.granule = g ∧ i.lo ≤ t ∧ t ≤ i.hi)

/-! ### Reads and writes of this shore's memory -/

/-- The current bytes of `[off, off+n)`. -/
def State.bytesAt (s : State) (off n : Nat) : List Byte := Mem.read s.store.mem off n

/-- A byte of a cove at a tidemark (R221, R236). -/
def State.byteAtMark (s : State) (cove t off : Nat) : Byte :=
  match s.cove cove with
  | some c =>
    match c.versions with
    | some v =>
      match v.image (off / granuleSize) t with
      | some i => Mem.get i.mem (off % granuleSize)
      | none => Mem.get s.store.mem off
    | none => Mem.get s.store.mem off
  | none => Mem.get s.store.mem off

/-- The bytes of `[off, off+n)` under a binding `(cove, tidemark)`: the tidemark's in that cove, the current ones
elsewhere (Table 05-1). -/
def State.bytesBound (s : State) (binding : Option (Nat × Nat)) (off n : Nat) : List Byte :=
  match binding with
  | none => s.bytesAt off n
  | some (cv, t) => (List.range n).map fun i =>
      match s.coveAt (off + i) with
      | some c => if c.id = cv then s.byteAtMark cv t (off + i) else Mem.get s.store.mem (off + i)
      | none => Mem.get s.store.mem (off + i)

/-- The sector lies in a cove whose key slot a JTAG unlock has cleared (R706): it reads as poison. -/
def State.keyless (s : State) (sec : Nat) : Bool :=
  !s.trust.keyless.isEmpty && (s.coveAt (sec * sectorSize)).any fun c => s.trust.keyless.contains c.id

/-- A sector reads as poison: it is marked, or its cove's key is gone. -/
def State.isPoison (s : State) (sec : Nat) : Bool := s.store.poison.contains sec || s.keyless sec

/-- A sector is poisoned under a binding. -/
def State.poisonedBound (s : State) (binding : Option (Nat × Nat)) (sec : Nat) : Bool :=
  match binding with
  | none => s.isPoison sec
  | some (cv, t) =>
    match s.coveAt (sec * sectorSize) with
    | some c =>
      if c.id = cv then
        match c.versions with
        | some v => match v.image (sec / 256) t with
          | some i => i.poisoned.contains sec || s.keyless sec
          | none => s.isPoison sec
        | none => s.isPoison sec
      else s.isPoison sec
    | none => s.isPoison sec

/-- Poisoned sectors that a range touches. -/
def State.poisonIn (s : State) (off n : Nat) : List Nat :=
  (sectorsOf off n).filter s.isPoison

/-- Parity members are owed the change of a protected granule (R660): old XOR new of the bytes written. -/
def State.owe (s : State) (off : Nat) (bs : List Byte) : State :=
  if s.faults.guarded.isEmpty then s
  else if (granulesOf off bs.length).any fun g => s.faults.guarded.contains g then
    { s with faults := { s.faults with
      owed := s.faults.owed ++ [(off, (s.bytesAt off bs.length).zipWith (· ^^^ ·) bs)] } }
  else s

/-- Row-cache entries of slots that a range touches are removed before the range is written (R427). -/
def State.dropRows (s : State) (off n : Nat) : State :=
  if s.tables.cache.isEmpty then s
  else { s with tables := { s.tables with cache := s.tables.cache.filter fun (e : RowEntry) => !overlaps e.off e.len off n } }

/-- Write bytes at an offset of this shore (R91): copy-on-write, Harbour residency, mirror order, and poison: a sector
written whole holds no poison afterwards; a partly written one keeps its mark (spec 17). -/
def State.writeAt (s : State) (off : Nat) (bs : List Byte) : State :=
  let n := bs.length
  let gs := granulesOf off n
  let st := gs.foldl Store.retain s.store
  let whole := sectorsIn off n
  let st := { st with mem := Mem.write st.mem off bs, poison := st.poison.filter fun p => !whole.contains p }
  let secs := sectorsOf off n
  let s := (s.owe off bs).dropRows off n
  gs.foldl (fun s g => (s.touchWrite g (secs.filter fun p => decide (p / 256 = g))).mirrorDirty g) { s with store := st }

/-- Mark sectors as poison: they count as written (R652: poison takes the place of the data). -/
def State.poisonSectors (s : State) (secs : List Nat) : State :=
  let st := (uniq (secs.map (· / 256))).foldl Store.retain s.store
  { s with store := { st with poison := uniq (st.poison ++ secs) } }

/-- A range of whole sectors is cleared of poison marks. -/
def State.unpoison (s : State) (secs : List Nat) : State :=
  { s with store := { s.store with poison := s.store.poison.filter fun p => !secs.contains p } }

/-- A 4 KiB, 8 B … word at an offset. -/
def State.word (s : State) (off n : Nat) : Nat := leNat (s.bytesAt off n)

end Sys2Proof.Machine
end

