-- ==== Sys2Proof/Machine/Message.lean ====
section
/-! DEFINITION. What an SXF request says: its size, its right, an atomic's fields, the data of a write (Table 13-7,
Table 14-8). -/

namespace Sys2Proof

open Sys2Proof.Machine

/-- The access size of READ and WRITE opcodes (Table 14-8). -/
def Machine.sxfSize (op : Nat) : Nat := 2 ^ (op % 8)

/-- OP, TYPE and WIDTH (in bytes) of an ATOMIC message (Table 13-7, unit 1). -/
def SxfMsg.atOp (m : SxfMsg) : Nat := bits (m.f 0 2) 1 0
def SxfMsg.atType (m : SxfMsg) : Nat := bits (m.f 0 2) 3 2
def SxfMsg.atWidth (m : SxfMsg) : Nat := if bit (m.f 0 2) 4 then 16 else 8

/-- Bytes that an access covers. -/
def SxfMsg.size (m : SxfMsg) : Nat :=
  if m.op = Sxf.atomic then m.atWidth else if m.op = Sxf.writeMasked then 64 else sxfSize m.op

/-- The right that an access needs (R64). -/
def SxfMsg.access (m : SxfMsg) : Access :=
  if m.op = Sxf.atomic then .atomic else if 0x20 ≤ m.op ∧ m.op ≤ 0x26 then .read else .write

/-- The data that a write carries, over the sector or the aligned bytes at its GPA; for WRITE_MASKED the enabled bytes
replace, the others stay (R174, Table 14-8). -/
def SxfMsg.writeData (m : SxfMsg) (old : List Byte) : List Byte :=
  if m.op = Sxf.writeMasked then
    (List.range 64).map fun i => if bit (m.f 0 8) i then (m.units.drop 16).getD i 0 else old.getD i 0
  else m.units.take (sxfSize m.op)

/-- Sectors of the granule covered whole by a write, for a miss entry's held writes (R90). -/
def SxfMsg.wholeSectors (m : SxfMsg) : List Nat :=
  if m.op = Sxf.writeMasked then (if m.f 0 8 = 2 ^ 64 - 1 then [gpaOffset m.gpa / 64] else [])
  else sectorsIn (gpaOffset m.gpa) (sxfSize m.op)

def SxfMsg.isRead (m : SxfMsg) : Bool := 0x20 ≤ m.op && m.op ≤ 0x26
def SxfMsg.isWrite (m : SxfMsg) : Bool := 0x28 ≤ m.op && m.op ≤ 0x2F
def SxfMsg.isAtomic (m : SxfMsg) : Bool := m.op == Sxf.atomic

def SxfMsg.isFence (m : SxfMsg) : Bool := m.op == Sxf.fenceRw || m.op == Sxf.fenceWw || m.op == Sxf.fenceRr

/-- ROW, TABLE_ID, LATEST_SLOT and SHADOW_OK of a ROW_READ (Table 14-9). -/
def SxfMsg.rowRow (m : SxfMsg) : Nat := bits m.unit0 101 62
def SxfMsg.rowTable (m : SxfMsg) : Nat := bits m.unit0 61 50
def SxfMsg.rowLatest (m : SxfMsg) : Nat := bits m.unit0 118 102
def SxfMsg.rowShadowOk (m : SxfMsg) : Bool := bit m.unit0 8

/-- Unit 0 of a ROW_READ (Table 14-9). -/
def SxfMsg.rowUnit (dest latest row table guest tag src : Nat) (shadowOk : Bool) : Nat :=
  Sxf.rowRead + b2n shadowOk * 2 ^ 8 + (src % 2 ^ 9) * 2 ^ 9 + (tag % 2 ^ 16) * 2 ^ 18 + (guest % 2 ^ 16) * 2 ^ 34 +
    (table % 2 ^ 12) * 2 ^ 50 + (row % 2 ^ 40) * 2 ^ 62 + (latest % 2 ^ 17) * 2 ^ 102 + (dest % 2 ^ 9) * 2 ^ 119

/-- A message with the requester, tag and destination of a ROW_READ at their places in Table 14-6; any other as it is. -/
def SxfMsg.norm (m : SxfMsg) : SxfMsg :=
  if m.op = Sxf.rowRead then
    let u := SxfMsg.reqUnit Sxf.rowRead false false (bits m.unit0 17 9) (bits m.unit0 33 18) (bits m.unit0 49 34) 0 (gpaOf m.dest 0)
    { m with unit0 := u }
  else m

/-- A response is a success (Table 06-4). -/
def SxfMsg.good (m : SxfMsg) : Bool := decide (m.status ≤ 3)

end Sys2Proof
end

