-- ==== Sys2Proof/Machine/Links.lean ====
section
/-! DEFINITION. Links: the choice of a link, flits, pools and credits, the replay buffer, and handing a message to a bundle
(spec 14: R545–R548, R568, R575, R576, R581). -/

namespace Sys2Proof.Machine

/-- The bundle number that stands for "no bundle": a message that starts on this shore. -/
abbrev noBundle : Nat := 64

/-- Links of a bundle that are up, ascending. -/
def State.upLinks (s : State) (b : Bundle) : List Nat :=
  b.links.filter fun l => match s.link l with
    | some x => x.state = .up
    | none => false

/-- The link of a message within a bundle (R581). `pilot` adds the sector of a request to a Pilot cove. -/
def State.pickLink (s : State) (b : Bundle) (m : SxfMsg) (pilot : Bool) : Nat :=
  let m := m.norm
  let up := s.upLinks b
  let who := if m.isResponse then m.tag else m.agent
  let key := m.src * 2 ^ 32 ||| who * 4 ||| m.tc
  let key := if pilot then key ^^^ (bits m.gpa 47 6 * 2 ^ 9) else key
  let i := (srBits 6 m.dest key % 2 ^ 16) % max up.length 1
  up.getD i 64

/-! ### Flits -/

/-- Units of 16 B of a list of flit bytes, padded with PAD (R545). -/
def padFlit (b : List Byte) : List Byte := fit 256 b

/-- Cut bytes into pieces of `n`. -/
def cutBytes (n : Nat) : Nat → List Byte → List (List Byte)
  | 0, _ => []
  | _ + 1, [] => []
  | f + 1, b => b.take n :: cutBytes n f (b.drop n)

/-- Unit 0 of a CONT flit (R568). -/
def contUnit (m : SxfMsg) (index : Nat) : List Byte :=
  leBytes 16 (Sxf.cont + m.src * 2 ^ 14 + m.tag * 2 ^ 23 + (index % 65536) * 2 ^ 39 + m.dest * 2 ^ 119)

/-- The flits of a message: one of at most 16 units is one flit; a train's first flit is followed by CONT flits of 240 B. The
model packs one message to a flit (log entry 18). -/
def flitsOf (m : SxfMsg) (vc : Nat) (fin : Bool) : List Flit :=
  let all := leBytes 16 m.unit0 ++ m.units
  let rest := cutBytes 240 (all.length / 240 + 1) (all.drop 256)
  ((all.take 256) :: (rest.zipIdx.map fun x => contUnit m (x.2 + 1) ++ x.1)).map fun b => ⟨m.tc, vc, m.isResponse, fin, padFlit b⟩

/-- The pool of a flit, as CREDITS numbers it (Table 14-2). -/
def Flit.pool (f : Flit) : Nat := f.tc * 8 + f.vc * 4 + b2n f.rsp * 2 + b2n f.fin

/-- Entries of a list of numbered counts. -/
def countOf (l : List (Nat × Nat)) (k : Nat) : Nat := ((l.find? fun x => x.1 = k).map (·.2)).getD 0
def setCount (l : List (Nat × Nat)) (k v : Nat) : List (Nat × Nat) := upsert (·.1) (k, v) l

/-- A sender holds at most 2,048 unacknowledged flits (R546). -/
abbrev replayTop : Nat := 2048

/-- Send the flits that may go, in order within each pool: against a credit, while the replay buffer has room (R546, R576). The
messages that are complete go out. -/
def Link.pump (l : Link) : Link × List (Nat × Nat × SxfMsg) :=
  let step (a : Link × List Nat × List (Nat × Nat × SxfMsg)) (x : Flit × Option (Nat × SxfMsg)) :
      Link × List Nat × List (Nat × Nat × SxfMsg) :=
    let (l, stopped, out) := a
    let p := x.1.pool
    if stopped.contains p ∨ countOf l.credits p = 0 ∨ l.replay.length ≥ replayTop then
      ({ l with waiting := l.waiting ++ [x] }, p :: stopped, out)
    else
      let l := { l with
        credits := setCount l.credits p (countOf l.credits p - 1)
        replay := l.replay ++ [(l.sendSeq, x.1)]
        sendSeq := (l.sendSeq + 1) % 4096
        sent := l.sent + 1 }
      (l, stopped, out ++ (match x.2 with
        | some (b, m) => [(b, x.1.vc, m)]
        | none => []))
  let (l', _, out) := l.waiting.foldl step ({ l with waiting := [] }, [], [])
  (l', out)

/-- Pump a link and let its complete messages go out. -/
def State.pumpLink (s : State) (link : Nat) : State :=
  match s.link link with
  | none => s
  | some l =>
    let (l', out) := l.pump
    out.foldl (fun s x => s.emit (.sxf x.1 link x.2.1 x.2.2)) (s.setLink link fun _ => l')

/-- Hand a message to a link of a bundle (R576, R581, R582); a bundle with no link up keeps nothing back: its message is
addressed to link 64. -/
def State.egress (s : State) (b : Bundle) (link vc : Nat) (fin : Bool) (m : SxfMsg) : State :=
  match s.link link with
  | none => s.emit (.sxf b.id link vc m)
  | some _ =>
    let fs := flitsOf m vc fin
    let marked : List (Flit × Option (Nat × SxfMsg)) := fs.zipIdx.map fun x => (x.1, if x.2 + 1 = fs.length then some (b.id, m) else none)
    (s.setLink link fun l => { l with waiting := l.waiting ++ marked }).pumpLink link

end Sys2Proof.Machine
end

