-- ==== Sys2Proof/Machine/Events.lean ====
section
/-! DEFINITION. Native events, the Relas-compatible ring, the Logbook in memory, the stream's waiting events, and
weathering (spec 17: R640, R641, R671–R676; spec 20: R752, R754). -/

namespace Sys2Proof.Machine

/-! Severities (R641). -/
abbrev sevCorrected : Nat := 0
abbrev sevRecovered : Nat := 1
abbrev sevUncorrected : Nat := 2
abbrev sevFailed : Nat := 3

/-! Kinds and actions of Table 17-9. -/
abbrev evFault : Nat := 0x01
abbrev evSpareSwitch : Nat := 0x02
abbrev evRetired : Nat := 0x03
abbrev evWeatherWarn : Nat := 0x04
abbrev evWeatherPlan : Nat := 0x05
abbrev evWeatherRetire : Nat := 0x06
abbrev evPoisonConsumed : Nat := 0x07
abbrev evQuarantine : Nat := 0x08
abbrev evQuarantineReleased : Nat := 0x09
abbrev evTeardown : Nat := 0x0A
abbrev evTakeover : Nat := 0x0B
abbrev evFenced : Nat := 0x0C
abbrev evCapacityReduced : Nat := 0x0D
abbrev evSnapshotBroken : Nat := 0x0E

/-- The weathering score of a unit; a unit without events has 0. -/
def State.score (s : State) (cls unit : Nat) : Nat :=
  ((s.obs.scores.find? fun x => x.cls = cls ∧ x.unit = unit).map (·.score)).getD 0

/-- The 64 bytes of a native event (Table 17-9). -/
def Event.bytes (e : Event) : List Byte :=
  leBytes 1 e.kind ++ leBytes 1 e.severity ++ leBytes 1 e.cls ++ leBytes 1 e.action ++ leBytes 2 e.unit ++ leBytes 2 e.guest ++
    leBytes 8 e.time ++ leBytes 8 e.seq ++ leBytes 8 e.address ++ leBytes 4 (min e.count (2 ^ 32 - 1)) ++ leBytes 2 e.temp ++
    leBytes 2 e.volt ++ leBytes 2 e.weather ++ leBytes 2 e.shore ++ leBytes 20 e.detail

/-- What an event says besides what the device adds: kind, severity, unit class, unit, action. -/
structure Report where
  kind : Nat
  severity : Nat
  cls : Nat
  unit : Nat
  action : Nat
  guest : Nat := 0
  address : Nat := 0
  detail : Nat := 0
  operation : Nat := 0
  deriving DecidableEq, Repr

/-- The Logbook entry of a unit after an event (Table 17-10). -/
def LogEntry.after (x : LogEntry) (r : Report) (now n : Nat) : LogEntry :=
  let up (v : Nat) : Nat := min (v + n) (2 ^ 32 - 1)
  let x := { x with last := now, first := if x.first = 0 then now else x.first }
  match r.severity with
  | 0 => { x with corrected := up x.corrected }
  | 1 => { x with recovered := up x.recovered, flags := if r.kind = evSpareSwitch then x.flags ||| 4 else x.flags }
  | 2 => { x with uncorrected := up x.uncorrected }
  | _ => { x with failures := up x.failures, flags := x.flags ||| (if r.kind = evRetired then 1 else 2) }

/-- The Logbook holds an entry for every unit that has ever had an event (R675). -/
def State.logEvent (s : State) (r : Report) (n : Nat) : State :=
  let old := (s.obs.log.find? fun x => x.cls = r.cls ∧ x.unit = r.unit).getD ⟨r.cls, r.unit, 0, 0, 0, 0, 0, 0, 0, 0, 0, 1⟩
  { s with obs := { s.obs with log := upsert (fun x => (x.cls, x.unit)) (old.after r s.now n) s.obs.log } }

/-- The 32 bytes of a Relas-compatible record (Table 17-11). -/
def recordOf (r : Report) (now temp volt count : Nat) : List Byte :=
  leBytes 1 0x22 ++ leBytes 1 r.severity ++ leBytes 1 r.cls ++ leBytes 1 r.kind ++ leBytes 2 r.unit ++ leBytes 2 r.operation ++
    leBytes 8 now ++ leBytes 2 temp ++ leBytes 2 volt ++ leBytes 2 (min count 65535) ++ leBytes 2 r.guest ++
    leBytes 8 (if r.address = 0 then r.detail else r.address)

/-- Occurrences of this unit and kind since power-up. -/
def State.occurrences (s : State) (r : Report) : Nat :=
  ((s.obs.kinds.find? fun x => x.1 = r.cls ∧ x.2.1 = r.unit ∧ x.2.2.1 = r.kind).map (·.2.2.2)).getD 0

/-- Put a record into the ring of 4,096, and send it over MCTP (R676). -/
def State.relasRecord (s : State) (r : Report) (temp volt : Nat) : State :=
  let b := recordOf r s.now temp volt (s.occurrences r)
  let rs := s.obs.records ++ [b]
  let s := { s with obs := { s.obs with
    records := rs.drop (rs.length - 4096)
    recordNext := s.obs.recordNext + 1
    recordLost := s.obs.recordLost + (rs.length - 4096) } }
  s.emit (.mctp b)

/-- The event enters the ring (R752) and, where the stream is on and its severity is high enough, the datagram under way
(R674, Table 20-7). -/
def State.ringEvent (s : State) (e : Event) : State :=
  let es := s.obs.events ++ [e]
  let st := s.obs.stream
  let st' := if st.on && decide (st.minSeverity ≤ e.severity) then
      { st with waiting := st.waiting ++ [e], since := if st.waiting.isEmpty then s.now else st.since }
    else st
  let lost := es.length - 65536
  let s := { s with obs := { s.obs with events := es.drop lost, nextSeq := s.obs.nextSeq + 1, overwritten := s.obs.overwritten + lost, stream := st' } }
  let s := s.count 0x0D 0 0 1
  if lost = 0 then s else s.count 0x0D 0 1 lost

/-- One native event of `n` occurrences (R673): it is stamped, and its temperature and voltage are what the device
measures, free values. Every event of severity RECOVERED or worse, and every WEATHER_PLAN, gives a record too (R676). -/
def State.event (s : State) (r : Report) (n : Nat) : State :=
  let e : Event := {
    kind := r.kind, severity := r.severity, cls := r.cls, action := r.action, unit := r.unit, guest := r.guest, time := s.now,
    seq := s.obs.nextSeq, address := r.address, count := n, temp := s.nextFree % 65536, volt := Config.drawn (s.free + 1) % 65536,
    weather := s.score r.cls r.unit, shore := s.self, detail := r.detail }
  let s := ((s.drew.drew).ringEvent e).interrupt 0
  let s := if r.severity ≥ sevUncorrected then s.interrupt 3 else s
  let s := if r.kind = evWeatherPlan ∨ r.kind = evWeatherRetire then s.interrupt 4 else s
  let s := { s with obs := { s.obs with
    kinds := upsert (fun x => (x.1, x.2.1, x.2.2.1)) (r.cls, r.unit, r.kind, s.occurrences r + n) s.obs.kinds } }
  if r.severity ≥ 1 ∨ r.kind = evWeatherPlan then s.relasRecord r e.temp e.volt else s

/-- A fault of a unit counts towards its score (R671) and its Logbook entry (R675). -/
def State.sampleUnit (s : State) (r : Report) (n : Nat) : State :=
  ({ s with obs := { s.obs with samples := s.obs.samples ++ [Sample.mk r.cls r.unit r.severity s.now n] } }).logEvent r n

/-- Report a fault, spare switch, retirement, quarantine, teardown or takeover (R641, R673): CORRECTED ones of a unit are
merged, one event per 10 s. An event of a guest or of a shore concerns no unit: it has class 0 and unit 0, and no unit's score or
Logbook entry takes it. -/
def State.report (s : State) (r : Report) : State :=
  let s := if r.cls = 0 then s else s.sampleUnit r 1
  if r.severity = sevCorrected ∧ r.kind = evFault then
    let old := s.obs.merging.find? fun x => x.cls = r.cls ∧ x.unit = r.unit
    let m : Merging := match old with
      | some x => { x with count := x.count + 1 }
      | none => ⟨r.cls, r.unit, r.action, s.now, 1⟩
    { s with obs := { s.obs with merging := upsert (fun x => (x.cls, x.unit)) m s.obs.merging } }
  else s.event r 1

/-! ### Weathering (R671, R672) -/

/-- N1, N2, N3 of a class (Table 17-8). -/
def weatherN (cls : Nat) : Nat × Nat × Nat :=
  match cls with
  | 0x1 => (10000, 100, 2)
  | 0x2 => (1000, 10, 1)
  | 0x3 => (1000000000, 1000, 100)
  | 0x4 => (1000, 10, 1)
  | 0x5 => (1000, 10, 1)
  | 0x8 => (1000, 10, 1)
  | 0x6 => (1000, 10000, 2)
  | 0x7 => (100, 1, 1)
  | 0x9 => (100, 4, 1)
  | _ => (10, 5, 1)

/-- Events of a unit and severity in the last 24 h. -/
def State.inDay (s : State) (cls unit sev : Nat) : Nat :=
  sumNat ((s.obs.samples.filter fun x => x.cls = cls ∧ x.unit = unit ∧ x.severity = sev ∧
    decide (s.now < x.time + 691200000000000)).map (·.count))

/-- r1, r2, r3 in millionths. -/
def State.ratios (s : State) (cls unit : Nat) : List Frac :=
  let n := weatherN cls
  [n.1, n.2.1, n.2.2].zipIdx.map fun (k, i) => Frac.mk' (min (s.inDay cls unit i) k) k

/-- The margin term r4 of a unit, in thousandths. -/
def State.marginOf (s : State) (cls unit : Nat) : Nat :=
  ((s.obs.scores.find? fun x => x.cls = cls ∧ x.unit = unit).map (·.margin)).getD 0

/-- The score of R671; a FAILED unit scores 1023. -/
def State.weigh (s : State) (cls unit : Nat) : Nat :=
  if s.faults.retired.contains (cls, unit) then 1023
  else
    let r := s.ratios cls unit
    let r4 := if cls ≤ 3 ∧ cls ≥ 1 then Frac.mk' (s.marginOf cls unit) 1000 else ⟨0, 1⟩
    let v := Frac.sum [(r.getD 0 ⟨0, 1⟩).mul ⟨200, 1⟩, (r.getD 1 ⟨0, 1⟩).mul ⟨250, 1⟩, (r.getD 2 ⟨0, 1⟩).mul ⟨400, 1⟩, r4.mul ⟨173, 1⟩]
    min 1023 (v.num / v.den)

/-- Recompute one unit's score and raise the events of the thresholds it has risen across (R672). -/
def State.reweigh (s : State) (cls unit : Nat) : State :=
  let old := s.score cls unit
  let new := s.weigh cls unit
  let s := { s with obs := { s.obs with
    scores := upsert (fun x => (x.cls, x.unit)) ⟨cls, unit, new, s.marginOf cls unit⟩ s.obs.scores
    log := mapIf (fun x => x.cls = cls && x.unit = unit) (fun x => { x with weatherNow := new, weatherMax := max x.weatherMax new }) s.obs.log } }
  let cross (t : Nat) : Bool := decide (old < t ∧ t ≤ new)
  let s := if cross 512 then s.event ⟨evWeatherWarn, 0, cls, unit, 0, 0, 0, 0, 0⟩ 1 else s
  let s := if cross 768 then s.event ⟨evWeatherPlan, 0, cls, unit, 0, 0, 0, 0, 0⟩ 1 else s
  if cross 1023 then s.event ⟨evWeatherRetire, 0, cls, unit, 0, 0, 0, 0, 0⟩ 1 else s

end Sys2Proof.Machine
end

