-- ==== Sys2Proof/Machine/Protection.lean ====
section
/-! DEFINITION. Torus coordinates, protection sets, stripes, serving shores and the arithmetic of cross-shore parity
(spec 14: R564; spec 17: R656–R660, R665). -/

namespace Sys2Proof.Machine

/-- Coordinates of a shore (R564). -/
def coordOf (dim shore : Nat) : Nat :=
  match dim with
  | 0 => shore % 8
  | 1 => shore / 8 % 8
  | _ => shore / 64

def Fabric.size (f : Fabric) (dim : Nat) : Nat :=
  match dim with
  | 0 => max 1 f.dimX
  | 1 => max 1 f.dimY
  | _ => max 1 f.dimZ

/-- Every coordinate of the shore is below its torus dimension (R583). -/
def Fabric.hasShore (f : Fabric) (shore : Nat) : Bool :=
  [0, 1, 2].all fun d => decide (coordOf d shore < f.size d)

/-- Parity members per stripe under the profile (R657); 0 where cross-shore parity is off. -/
def Fabric.parity (f : Fabric) : Nat :=
  match f.profile with
  | .s => 0
  | .m => 1
  | .l => 1
  | .xl => 2

/-- The ordinal of a shore, and the shore of an ordinal (R657). -/
def Fabric.ordinal (f : Fabric) (shore : Nat) : Nat := coordOf 0 shore + f.dimX * (coordOf 1 shore + f.dimY * coordOf 2 shore)
def Fabric.ofOrdinal (f : Fabric) (o : Nat) : Nat :=
  o % f.dimX + 8 * (o / f.dimX % f.dimY) + 64 * (o / (f.dimX * f.dimY))

/-- The protection set of an ordinal: its lowest ordinal and its size (R657); size 0 where there is none. -/
def Fabric.protSet (f : Fabric) (o : Nat) : Nat × Nat :=
  let n := f.dimX * f.dimY * f.dimZ
  let p := f.parity
  let n0 := 8 + p
  let q := n / n0
  let r := n % n0
  if p = 0 then (0, 0)
  else if r = 0 ∨ r ≥ p + 1 then
    (if o / n0 < q then (o / n0 * n0, n0) else (q * n0, r))
  else if q = 0 then (0, 0)
  else if o / n0 < q - 1 then (o / n0 * n0, n0) else ((q - 1) * n0, n0 + r)

/-- The members of a shore's protection set, by member index (R659). -/
def Fabric.members (f : Fabric) (shore : Nat) : List Nat :=
  let (a, n) := f.protSet (f.ordinal shore)
  (List.range n).map fun i => f.ofOrdinal (a + i)

/-- The member index of a shore in its set (R659). -/
def Fabric.memberIndex (f : Fabric) (shore : Nat) : Nat := f.ordinal shore - (f.protSet (f.ordinal shore)).1

/-- Data positions of a set (R657). -/
def Fabric.dataCount (f : Fabric) (shore : Nat) : Nat := (f.protSet (f.ordinal shore)).2 - f.parity

/-- This shore takes part in protection: its set has data positions, and its announced capacity is that of the set's lowest
ordinal (R658). -/
def State.takesPart (s : State) : Bool :=
  let ms := s.fabric.members s.self
  s.fabric.set && decide (0 < s.fabric.dataCount s.self) && match ms.head? with
    | some low => low == s.self || s.faults.capacities.contains (low, s.store.capacity)
    | none => false

/-- PROT_BASE of a set for a usable capacity (R658). -/
def Fabric.protBase (f : Fabric) (shore u : Nat) : Nat :=
  let n := (f.protSet (f.ordinal shore)).2
  (u * f.dataCount shore / n - granuleSize * f.parity) / mib2 * mib2

/-- Where the protection region of this shore starts; its usable capacity where parity is off (R658). -/
def State.protBase (s : State) : Nat := if s.takesPart then s.fabric.protBase s.self s.store.capacity else s.store.capacity

/-- The stripe of a granule of a member (R659): data position, P member and granule, Q member and granule; shores. -/
structure Stripe where
  pos : Nat
  pShore : Nat
  pIndex : Nat
  qShore : Nat
  qIndex : Nat
  data : List (Nat × Nat)
  deriving DecidableEq, Repr

/-- The stripe that granule `k` of a shore belongs to (R659), with the shore and granule of every data position. -/
def Fabric.stripe (f : Fabric) (shore k : Nat) : Stripe :=
  let ms := f.members shore
  let n := ms.length
  let p := f.parity
  let d := n - p
  let g := k / d
  let t := k % d
  let st := (f.memberIndex shore + 2 * n - p - t) % n
  { pos := t, pShore := ms.getD st 0, pIndex := g * p, qShore := ms.getD ((st + 1) % n) 0, qIndex := g * p + 1,
    data := (List.range d).map fun u => (ms.getD ((st + p + u) % n) 0, g * d + u) }

/-- The parity members of a stripe that are live, with the parity granule and whether it is Q. -/
def State.liveParity (s : State) (st : Stripe) : List (Nat × Nat × Bool) :=
  let all := if s.fabric.parity = 2 then [(st.pShore, st.pIndex, false), (st.qShore, st.qIndex, true)] else [(st.pShore, st.pIndex, false)]
  all.filter fun x => !s.faults.dead.contains x.1

/-- The serving shore of a GPA (R579, R665): its home, or the first live parity member of its stripe when the home is dead. -/
def State.servingFor (s : State) (gpa : Nat) : Nat :=
  let h := gpaShore gpa
  if !s.faults.dead.contains h || s.fabric.dataCount h = 0 then h
  else match s.liveParity (s.fabric.stripe h (gpaOffset gpa / granuleSize)) with
    | [] => h
    | x :: _ => x.1

/-- The home of a GPA is dead and no shore serves it (R583). -/
def State.deadFor (s : State) (gpa : Nat) : Bool := s.faults.dead.contains (s.servingFor gpa)

/-- Some serving shore of a dead shore has not finished its rebuild (R666). -/
def State.recovering (s : State) (h : Nat) : Bool :=
  s.faults.dead.contains h && decide (0 < s.fabric.dataCount h) &&
    (s.fabric.members h).any fun x => !s.faults.dead.contains x && !s.faults.rebuilt.contains (h, x)

/-! ### GF(2⁸) with polynomial 0x11D (R659) -/

/-- Multiply by 2. -/
def gfDouble (x : Nat) : Nat := if x ≥ 128 then (2 * x) ^^^ 0x11D else 2 * x

/-- 2 to a power. -/
def gfPow : Nat → Nat
  | 0 => 1
  | n + 1 => gfDouble (gfPow n)

/-- Product, bit by bit of the second factor from bit `n - 1` down. -/
def gfMulBits (a : Nat) : Nat → Nat → Nat
  | 0, _ => 0
  | n + 1, b => gfDouble (gfMulBits a n (b / 2)) ^^^ (if b % 2 = 1 then a else 0)
def gfMul (a b : Nat) : Nat := gfMulBits a 8 b

/-- The inverse of 2 to a power. -/
def gfInvPow (n : Nat) : Nat := gfPow ((255 - n % 255) % 255)

def gfScale (k : Nat) (bs : List Byte) : List Byte := bs.map fun b => BitVec.ofNat 8 (gfMul b.toNat k)

def xorBytes (a b : List Byte) : List Byte := a.zipWith (· ^^^ ·) b

/-- The cove is protected by cross-shore parity under the profile (Table 17-4). -/
def State.parityCovers (s : State) (c : Cove) : Bool :=
  s.takesPart && match s.fabric.profile, c.protection with
    | .s, _ => false
    | .m, .none => false
    | _, _ => true

end Sys2Proof.Machine
end

