-- ==== Sys2Proof/Machine/Fabric.lean ====
section
/-! DEFINITION. Routing and sending of SXF messages: coordinates, span maps, dimension order, virtual channels, the
choice of a link, agents of jetties, transaction tags (spec 14: R561, R564, R574–R585). -/

namespace Sys2Proof.Machine

/-- The spans that a walk of `k` steps from coordinate `a` crosses: each by its lower coordinate in the plus direction. -/
def spansOf (n a k : Nat) (plus : Bool) : List Nat :=
  (List.range k).map fun i => if plus then (a + i) % n else (a + n - 1 - i % n) % n

/-- Every span from `a` to `b` in a direction is up. -/
def Fabric.clear (f : Fabric) (dim a b : Nat) (plus : Bool) : Bool :=
  let n := f.size dim
  let k := if plus then (b + n - a) % n else (a + n - b) % n
  (spansOf n a k plus).all fun sp => !f.spansDown.contains (dim, sp)

/-- Where a message goes next (R579): a causeway direction (Table 14-5), here, or nowhere. -/
inductive Route where
  | here
  | direction (d : Nat)
  | unreachable
  deriving DecidableEq, Repr

/-- One dimension of route(self, dest) (R579); none when the coordinates agree. -/
def Fabric.routeDim (f : Fabric) (self dest dim : Nat) : Option Route :=
  let a := coordOf dim self
  let b := coordOf dim dest
  let n := f.size dim
  if a = b then none
  else
    let up := (b + n - a) % n
    let dirs : List Bool := if n = 2 then [true] else if up ≤ n - up then [true, false] else [false, true]
    match dirs.find? fun p => f.clear dim a b p with
    | some p => some (.direction (2 * dim + if p then 0 else 1))
    | none => some .unreachable

/-- route(self, dest) (R579). -/
def Fabric.route (f : Fabric) (self dest : Nat) : Route :=
  match f.routeDim self dest 0 with
  | some r => r
  | none => match f.routeDim self dest 1 with
    | some r => r
    | none => match f.routeDim self dest 2 with
      | some r => r
      | none => .here

/-- Hops from this shore to another: the coordinate distances in dimension order, each the shorter way (R41, R579). -/
def Fabric.hops (f : Fabric) (self dest : Nat) : Nat :=
  sumNat ([0, 1, 2].map fun d =>
    let n := f.size d
    let up := (coordOf d dest + n - coordOf d self) % max n 1
    min up (n - up))

/-- The open causeway in a direction. -/
def State.causeway (s : State) (d : Nat) : Option Bundle :=
  s.fabric.bundles.find? fun b => b.kind = .causeway ∧ b.direction = d ∧ b.opened

/-- The virtual channel on which a message leaves (R580): VC1 from the dateline on, VC0 when it enters a dimension. -/
def vcOut (f : Fabric) (self d inVc : Nat) (sameDim : Bool) : Nat :=
  let dim := d / 2
  let a := coordOf dim self
  let n := f.size dim
  let crosses := if d % 2 = 0 then decide (a + 1 = n) else decide (a = 0)
  if crosses then 1 else if sameDim then inVc else 0

/-- A request for memory, which a serving shore takes over (R579, R665, R667). -/
def forMemory (op : Nat) : Bool := (0x20 ≤ op && op ≤ 0x26) || (0x28 ≤ op && op ≤ 0x30)

/-- Where a message must go: memory requests by the serving shore of their GPA, a RED message, which names no offset, by that of
its home's offset 0, all others by DEST (R579, R407, R667). -/
def State.target (s : State) (m : SxfMsg) : Nat :=
  if forMemory m.op then s.servingFor m.gpa else if m.op = Sxf.red then s.servingFor (gpaOf m.dest 0) else m.dest

/-- The request's home is dead and no shore serves it (R583, R667). -/
def State.deadTarget (s : State) (m : SxfMsg) : Bool :=
  if forMemory m.op then s.deadFor m.gpa else if m.op = Sxf.red then s.deadFor (gpaOf m.dest 0) else s.faults.dead.contains m.dest

/-- Send a message on its way from this shore (R579–R581): on the causeway of its route; a message for which there is no
causeway goes nowhere. The answer tells whether it left. -/
def State.forward (s : State) (m : SxfMsg) : State × Bool :=
  match s.fabric.route s.self (s.target m) with
  | .direction d =>
    match s.causeway d with
    | some b =>
      let pilot := (m.cls = 1) && m.op != Sxf.rowRead && Config.remotePilot m.gpa
      let same := match s.bundle m.via with
        | some x => x.kind = .causeway && x.direction / 2 == d / 2
        | none => false
      (s.egress b (s.pickLink b m pilot) (vcOut s.fabric s.self d 0 same) (decide (b.peer = s.target m)) m, true)
    | none => (s, false)
  | _ => (s, false)

/-- Send a message that starts here, when it can leave. -/
def State.send (s : State) (m : SxfMsg) : State := (s.forward m).1

/-- Send a message to an endpoint on a jetty: its only virtual channel is VC0 (R575). -/
def State.sendJetty (s : State) (b : Nat) (m : SxfMsg) : State :=
  match s.bundle b with
  | some x => s.egress x (s.pickLink x m false) 0 true m
  | none => s

/-- The response to a request (Table 14-7). -/
def State.responseTo (s : State) (m : SxfMsg) (op status cause value : Nat) (flag poison : Bool) (data : List Byte) : SxfMsg :=
  ⟨noBundle, m.tc, SxfMsg.rspUnit op flag poison s.self m.tag status cause value m.src, data⟩

/-- Send a response back where its request came from: on the jetty, or toward SRC_SHORE (R567). -/
def State.sendBack (s : State) (via : Nat) (r : SxfMsg) : State :=
  match s.bundle via with
  | some b => if b.kind = .jetty then s.sendJetty b.id r else s.send r
  | none => s.send r

/-- Answer a request that arrived on bundle `m.via`. -/
def State.reply (s : State) (m : SxfMsg) (op status cause value : Nat) (flag poison : Bool) (data : List Byte) : State :=
  s.sendBack m.via (s.responseTo m op status cause value flag poison data)

/-- A request is answered with a status and cause in a DONE response. -/
def State.refuse (s : State) (m : SxfMsg) (status cause : Nat) : State :=
  s.reply m Sxf.done status cause 0 false false []

/-! ### What a message looks like when it arrives -/

/-- Bytes that must follow unit 0 (Table 14-8); none where the length is free. -/
def unitsLen (m : SxfMsg) : Option Nat :=
  let op := m.op
  if 0x20 ≤ op ∧ op ≤ 0x26 then some 0
  else if 0x28 ≤ op ∧ op ≤ 0x2E then some (16 * ceilDiv (sxfSize op) 16)
  else if op = Sxf.writeMasked then some 80
  else if op = Sxf.atomic then some 48
  else if op = Sxf.fenceRw ∨ op = Sxf.fenceWw ∨ op = Sxf.fenceRr ∨ op = Sxf.homeFence ∨ op = Sxf.rowRead then some 0
  else if op = Sxf.bollard then some 16
  else if op = Sxf.regRead then some 0
  else if op = Sxf.regWrite ∨ op = Sxf.pageRequest ∨ op = Sxf.invalidate ∨ op = Sxf.remoteHold ∨ op = Sxf.holdBroken ∨ op = Sxf.takeover then some 16
  else if op = Sxf.done ∨ op = Sxf.performed ∨ op = Sxf.bollardValue ∨ op = Sxf.pageResponse ∨ op = Sxf.veto ∨
      op = Sxf.invalidateAck ∨ op = Sxf.time ∨ op = Sxf.spanState ∨ op = Sxf.ctlAck ∨ op = Sxf.cqNotify ∨ op = Sxf.ticketNotice then some 0
  else if op = Sxf.atomicOld then some 16
  else none

/-- Reserved bits [13:10] of a request or response of Tables 14-6 and 14-7, and its length (R569); MAILBOX and MAILBOX_RSP hold
CHANNEL in [11:8] (R572). -/
def wellFramed (m : SxfMsg) : Bool :=
  (if m.op = Sxf.mailbox ∨ m.op = Sxf.mailboxRsp then bits m.unit0 13 12 else m.rsv) == 0 && match unitsLen m with
    | some n => m.units.length == n
    | none => true

/-- The agent of a jetty message is in the bundle's agent table with this guest (R584). -/
def Bundle.knows (b : Bundle) (agent guest : Nat) : Bool := b.agents.contains (agent, guest)

/-- The guest bound to an agent of a jetty. -/
def Bundle.guestOf (b : Bundle) (agent : Nat) : Option Nat := (b.agents.find? fun a => a.1 = agent).map (·.2)

/-- Requests of this shore's ports that wait here: for a bollard, a miss, a host's copy, a pull, or their order. -/
def State.waitingHere (s : State) : List SxfMsg :=
  (s.boll.waits.filterMap fun w => match w.waiter with
    | .sxf m => some m
    | _ => none) ++
  ((s.store.harbour.misses.map fun x => x.waiters.filterMap fun w => match w with
    | .plain m _ => some m
    | _ => none).flatten) ++
  ((s.dir.waiting ++ s.dir.recalls.filterMap (·.event)).filterMap fun e => match e with
    | .devRead m => some m
    | .devWrite m => some m
    | _ => none) ++
  (s.store.pulling.map (·.waiters)).flatten ++ (s.ord.held.map (·.queue)).flatten

/-- A bundle has a transaction under way with the tag (R562, R577). -/
def State.inUse (s : State) (bundle : Nat) (p : Nat → Bool) : Bool :=
  (s.ord.outstanding.any fun o => o.bundle == bundle && p o.epTag) || s.waitingHere.any fun m => m.via == bundle && p m.tag

/-- What a jetty or causeway port answers before a request goes further: R560 (bundle not open), R567 and R569 (form),
R584 (agent), R577 (tag in use), R583 (no such shore, dead home). -/
def State.portRefusal (s : State) (m : SxfMsg) : Option (Nat × Nat) :=
  match s.bundle m.via with
  | none => none
  | some b =>
    let newWork := m.cls = 1 ∨ m.cls = 3 ∨ m.cls = 4
    if newWork ∧ s.shut then some (Status.faultDeadTarget, Cause.deadHome)
    else if newWork ∧ (!b.opened ∨ b.closing ∧ m.cls ≠ 3) then some (Status.refusedNotReady, Cause.state)
    else if !wellFramed m then some (Status.refusedFormat, Cause.format)
    else if b.kind = .jetty ∧ (m.op = Sxf.homeFence ∨ 0x66 ≤ m.op ∧ m.op ≤ 0x6E) then some (Status.refusedFormat, Cause.format)
    else if b.kind = .jetty ∧ (m.cls = 1 ∨ m.cls = 4) ∧ !b.knows m.agent m.guest then some (Status.refusedRights, Cause.badAgent)
    else if b.kind = .jetty ∧ (m.cls = 1 ∨ m.cls = 4) ∧ s.inUse b.id (· == m.tag) then
      some (Status.refusedFormat, Cause.tagInUse)
    else none

/-- A response that has a wrong form, or comes from where it may not, is discarded and counted; such a request is answered (R569). -/
def State.badForm (s : State) (m : SxfMsg) (status cause : Nat) : State :=
  if m.isResponse then { s with fabric := { s.fabric with discarded := s.fabric.discarded + 1 } } else s.refuse m status cause

/-- A message between shores that its port admits (R567, R569). -/
def State.ported (s : State) (m : SxfMsg) (f : State → State) : State :=
  match s.portRefusal m with
  | some (st, ca) => s.badForm m st ca
  | none => f s

/-- A control message is for this shore, or goes on its way (R579). -/
def State.forSelf (s : State) (m : SxfMsg) (f : State → State) : State :=
  s.ported m fun s => if m.dest = s.self then f s else s.send m

/-- The next free shore tag (R577); none while all 65,536 are in use. -/
def State.freeTag (s : State) : Option Nat :=
  if s.ord.outstanding.length ≥ 65536 then none
  else ((List.range (s.ord.outstanding.length + 1)).find? fun i =>
    !s.ord.outstanding.any fun o => o.tag = (s.ord.nextTag + i) % 65536).map fun i => (s.ord.nextTag + i) % 65536

/-- Record a transaction that this shore has outstanding as requester. -/
def State.addOutstanding (s : State) (o : Outstanding) : State :=
  { s with ord := { s.ord with outstanding := s.ord.outstanding ++ [o], nextTag := (o.tag + 1) % 65536 } }

/-- The transaction of a shore tag. -/
def State.transaction (s : State) (tag : Nat) : Option Outstanding := s.ord.outstanding.find? fun o => o.tag = tag

def State.dropTransaction (s : State) (tag : Nat) : State :=
  { s with ord := { s.ord with outstanding := s.ord.outstanding.filter fun o => o.tag ≠ tag } }

end Sys2Proof.Machine
end

