-- ==== Sys2Proof/Machine/Relas.lean ====
section
/-! DEFINITION. The Relas command engine (spec 03): the catalogue of Table 03-10, the checks of R128 in their order,
responses, kept responses, tickets, staging, and the check of a configuration set on a copy of the running state. -/

namespace Sys2Proof.Machine

/-- The Stage column of Table 03-10. -/
inductive StageMark where | no | yes | only
  deriving DecidableEq, Repr

/-- A row of Table 03-10: opcode, whether its class is PENDING, its Stage mark, whether its Issuer includes "guest", and
whether it only reads (the commands that R156 lets pass). -/
structure CatRow where
  opcode : Nat
  pending : Bool
  stage : StageMark
  guest : Bool
  reads : Bool
  deriving DecidableEq, Repr

/-- Table 03-10 and Table 03-11. -/
def catalogue : List CatRow :=
  [⟨0x0101, false, .no, false, false⟩, ⟨0x0102, false, .no, false, false⟩, ⟨0x0103, false, .yes, false, false⟩,
   ⟨0x0104, true, .no, true, false⟩, ⟨0x0105, false, .no, true, true⟩,
   ⟨0x0201, false, .yes, false, false⟩, ⟨0x0202, true, .yes, false, false⟩, ⟨0x0203, false, .yes, false, false⟩,
   ⟨0x0204, false, .yes, false, false⟩, ⟨0x0205, true, .no, false, false⟩, ⟨0x0206, false, .no, true, true⟩,
   ⟨0x0301, false, .yes, false, false⟩, ⟨0x0302, false, .no, true, true⟩, ⟨0x0303, true, .yes, false, false⟩,
   ⟨0x0304, true, .yes, false, false⟩, ⟨0x0305, false, .only, false, false⟩,
   ⟨0x0401, false, .no, true, false⟩, ⟨0x0402, true, .no, true, false⟩, ⟨0x0403, false, .yes, true, false⟩,
   ⟨0x0404, false, .no, true, true⟩] ++
  [⟨0x0501, false, .yes, true, false⟩, ⟨0x0502, true, .yes, true, false⟩, ⟨0x0503, false, .no, true, true⟩,
   ⟨0x0601, false, .yes, true, false⟩, ⟨0x0602, true, .yes, true, false⟩, ⟨0x0603, false, .no, true, true⟩,
   ⟨0x0701, false, .yes, true, false⟩, ⟨0x0702, true, .yes, true, false⟩, ⟨0x0703, false, .no, true, true⟩,
   ⟨0x0801, false, .no, true, false⟩, ⟨0x0802, false, .no, true, false⟩, ⟨0x0803, false, .no, true, false⟩,
   ⟨0x0804, true, .no, true, false⟩, ⟨0x0805, false, .no, true, true⟩,
   ⟨0x0901, false, .only, false, false⟩, ⟨0x0902, false, .no, false, false⟩, ⟨0x0903, false, .no, false, true⟩,
   ⟨0x0904, true, .no, false, false⟩, ⟨0x0905, false, .only, false, false⟩] ++
  [⟨0x0A01, false, .no, false, true⟩, ⟨0x0A02, true, .no, false, false⟩, ⟨0x0A03, false, .no, false, true⟩,
   ⟨0x0A04, false, .no, false, true⟩, ⟨0x0A05, false, .no, false, false⟩,
   ⟨0x0B01, false, .no, false, false⟩, ⟨0x0B02, false, .no, true, false⟩, ⟨0x0B03, false, .no, true, false⟩,
   ⟨0x0B04, false, .no, false, false⟩,
   ⟨0x0C01, false, .no, true, true⟩, ⟨0x0C02, false, .no, true, true⟩, ⟨0x0C03, false, .yes, false, false⟩,
   ⟨0x0C04, false, .yes, false, false⟩, ⟨0x0C05, false, .no, false, true⟩,
   ⟨0x0D01, false, .no, false, false⟩, ⟨0x0D02, false, .no, false, false⟩, ⟨0x0D03, false, .no, false, false⟩,
   ⟨0x0D04, true, .no, false, false⟩, ⟨0x0D05, false, .no, false, false⟩, ⟨0x0D06, false, .no, false, true⟩,
   ⟨0x0E01, false, .yes, false, false⟩, ⟨0x0E02, false, .no, false, true⟩, ⟨0x0E03, true, .no, false, false⟩,
   ⟨0x0F01, false, .no, false, false⟩, ⟨0x0F02, true, .no, false, false⟩, ⟨0x0F03, true, .yes, false, false⟩,
   ⟨0x0F04, false, .no, false, true⟩]

/-- The row of an opcode; an opcode without one completes with BAD_OPCODE (R150). -/
def catRow (op : Nat) : Option CatRow := catalogue.find? fun r => r.opcode = op

/-- Objects that commands name (R156). -/
inductive Obj where
  | guest (id : Nat) | cove (id : Nat) | sq (id : Nat) | cq (id : Nat) | table (id : Nat) | index (id : Nat)
  | kvset (id : Nat) | bundle (id : Nat) | harbour | fabric | powerCap | events | trace | firmware (slot : Nat)
  | pull (id : Nat) | bollard (id : Nat) | settings | keySlot (id : Nat) | link (id : Nat)
  deriving DecidableEq, Repr

/-- What a command's effect answers: result, DETAIL, the response body, whether it took hold at this instant (EFFECT),
the work its ticket stands for, and whether the response comes later. -/
structure Reply where
  result : Nat
  detail : Nat
  body : List Byte
  tookHold : Bool
  work : Option Work
  later : Bool
  deriving DecidableEq, Repr

/-- DONE with an effect and no body. -/
def Reply.done : Reply := ⟨Result.done, 0, [], true, none, false⟩
/-- DONE, reading only. -/
def Reply.read (b : List Byte) : Reply := ⟨Result.done, 0, b, false, none, false⟩
/-- ACCEPTED_PENDING with its work. -/
def Reply.pending (w : Work) : Reply := ⟨Result.pending, 0, [], true, some w, false⟩

/-- One Relas command: the LENGTH it requires (none: any allowed one is right), the ownership check of R132, and the
checks of steps 6 to 9 of R128, each giving the DETAIL of its first failure; what it does, given the ticket number it
would use; the objects it changes with the byte offsets that name them; and the rule it must still meet in the final
state of a set (R154). -/
structure RelasOp where
  len : RelasCmd → Option Nat
  owns : RelasCmd → State → Bool := fun _ _ => true
  fields : RelasCmd → State → Option Nat := fun _ _ => none
  denied : RelasCmd → State → Bool := fun _ _ => false
  limits : RelasCmd → State → Option Nat := fun _ _ => none
  conflict : RelasCmd → State → Option Nat := fun _ _ => none
  effect : RelasCmd → Nat → State → State × Reply
  objects : RelasCmd → List (Obj × Nat) := fun _ => []
  consistent : RelasCmd → State → Bool := fun _ _ => true

/-- LENGTH must be exactly `n`. -/
def lenIs (n : Nat) (c : RelasCmd) : Option Nat := if c.len = n then none else some n

/-- The first failure of a list of checks, each with its DETAIL. -/
def firstBad (l : List (Bool × Nat)) : Option Nat := (l.find? (·.1)).map (·.2)

/-- The bytes `[off, off+n)` of a command are not all zero. -/
def nonzero (c : RelasCmd) (off n : Nat) : Bool := (slice c.bytes off n).any (· != 0)

/-! ### Channels and responses -/

def State.chanRec (s : State) (ch : Channel) : Chan :=
  (s.inn.chans.find? fun x => x.chan = ch).getD ⟨ch, none, 0, [], []⟩

def State.setChan (s : State) (x : Chan) : State :=
  { s with inn := { s.inn with chans := upsert (·.chan) x s.inn.chans } }

/-- Mailbox `m` of host port `p`; one that nothing has used is all zero (Table 23-16 resets). -/
def State.box (s : State) (p m : Nat) : Mailbox :=
  (s.inn.boxes.find? fun x => x.port = p ∧ x.box = m).getD ⟨p, m, [], [], false, false, false, false, 0, false⟩

def State.setBox (s : State) (b : Mailbox) : State :=
  { s with inn := { s.inn with boxes := upsert (fun x => (x.port, x.box)) b s.inn.boxes } }

/-- The channel has brought this command and waits for its response: the mailbox holds it and is BUSY (R122), the SXF
channel holds it (R124), the TLS session is open. -/
def State.delivered (s : State) (c : RelasCmd) : Bool :=
  s.inn.booted && match c.chan with
    | .mailbox p m => (s.box p m).busy && (s.chanRec c.chan).outstanding.contains c.bytes
    | .sxf _ _ => (s.chanRec c.chan).outstanding.contains c.bytes
    | .shore _ => (s.chanRec c.chan).outstanding.contains c.bytes
    | .tls _ => s.inn.chans.any fun x => x.chan = c.chan

/-- The bytes of a response (Table 03-4). -/
def response (c : RelasCmd) (result detail ticket effect : Nat) (body : List Byte) : List Byte :=
  leBytes 2 c.opcode ++ leBytes 2 c.seq ++ leBytes 2 (24 + body.length) ++ leBytes 2 result ++ leBytes 4 detail ++
    leBytes 4 ticket ++ leBytes 8 effect ++ body

/-- Unit 0 of a MAILBOX_RSP (R572): CHANNEL [11:8], TAG, LENGTH [54:39], DEST. -/
def mailboxRspUnit (chan tag len self dest : Nat) : Nat :=
  Sxf.mailboxRsp + (chan % 16) * 2 ^ 8 + (self % 512) * 2 ^ 14 + (tag % 2 ^ 16) * 2 ^ 23 + (len % 2 ^ 16) * 2 ^ 39 +
    (dest % 512) * 2 ^ 119

/-- Put a response on the channel: into MBX_RSP with DONE and the mailbox's notification (R122, Table 03-2; nowhere after
an FLR, R592), as a
MAILBOX_RSP message (R572; to another shore the tag is the command's SEQUENCE, log entry 12), or onto the TLS session. -/
def State.sendResponse (s : State) (ch : Channel) (rsp : List Byte) : State :=
  match ch with
  | .mailbox p m =>
    let b := s.box p m
    let s := s.setBox (if b.mute then ⟨p, m, [], [], false, false, false, false, 0, false⟩ else { b with rsp := rsp, busy := false, done := true })
    if b.notify && !b.mute then s.msix p b.vector else s
  | .sxf b k =>
    s.sendJetty b ⟨b, 3, mailboxRspUnit k (s.chanRec ch).tag rsp.length s.self 0, rsp⟩
  | .shore n =>
    s.send ⟨noBundle, 3, mailboxRspUnit 0 (fld rsp 2 2) rsp.length s.self n, rsp⟩
  | .tls _ => s.emit (.relas ch rsp)

/-- Answer a command: the response goes out, is kept among the channel's last 8 (R125), and the command is no longer
outstanding. -/
def State.answer (s : State) (c : RelasCmd) (rsp : List Byte) : State :=
  let x := s.chanRec c.chan
  let kept := (x.kept ++ [⟨c.header, rsp⟩])
  let s := s.setChan { x with outstanding := x.outstanding.filter (· != c.bytes), kept := kept.drop (kept.length - 8) }
  s.sendResponse c.chan rsp

/-- Answer a failure: no effect (R128). -/
def State.fail (s : State) (c : RelasCmd) (result detail : Nat) : State :=
  s.answer c (response c result detail 0 0 [])

/-! ### Device state (Table 03-7) -/

/-- Innkeeper starts a new image or a pair: commands are refused, for 30 ms at most (R164, R649). -/
def State.refusing (s : State) : Bool := s.inn.fw.refusing && decide (s.now < s.inn.fw.started + 240000000)

/-- The commands that DRAINING allows, staging commands aside. -/
def drainingAllows (op : Nat) : Bool :=
  [0x0105, 0x0206, 0x0302, 0x0404, 0x0503, 0x0603, 0x0703, 0x0903, 0x0102, 0x0202, 0x0402].contains op ||
    [0x0A, 0x0C, 0x0E, 0x0F].contains (op / 256)

/-- The configuration set with an identifier. -/
def State.set (s : State) (id : Nat) : Option ConfigSet := s.inn.sets.find? fun x => x.id = id

def State.setSet (s : State) (x : ConfigSet) : State :=
  { s with inn := { s.inn with sets := upsert (·.id) x s.inn.sets } }

/-- The device state allows the command (R140, Table 03-7). -/
def stateAllows (s : State) (c : RelasCmd) : Bool :=
  match s.power.state with
  | .off => false
  | .waking => [0x0C, 0x0F].contains (c.opcode / 256) || c.opcode == 0x0A01 || c.opcode == 0x0B01
  | .strict => true
  | .service => true
  | .draining =>
    if c.opcode / 256 = 0x0D then
      match s.set (c.f 16 1) with
      | some x => c.opcode == 0x0D06 || x.staged.all fun d => drainingAllows d.opcode
      | none => true
    else drainingAllows c.opcode
  | .halted => false

/-! ### Tickets (R138) -/

/-- Tickets still running. -/
def State.running (s : State) : List Ticket := s.inn.tickets.filter (·.ended.isNone)

/-- A further ticket would pass a limit of R138: the limit reached. -/
def State.ticketLimit (s : State) (c : RelasCmd) : Option Nat :=
  let run := s.running
  if run.length ≥ 256 then some 256
  else if (run.filter fun t => t.guest = c.guest ∧ t.epoch = c.epoch).length ≥ 16 then some 16
  else none

/-- The ticket counter, 32 bits, skips 0 (spec 22). -/
def nextTicketNo (n : Nat) : Nat := if u32 (n + 1) = 0 then 1 else u32 (n + 1)

/-- Open the ticket of a PENDING command. -/
def State.openTicket (s : State) (c : RelasCmd) (w : Work) : State :=
  let t : Ticket := ⟨s.inn.nextTicket, c.chan, c.guest, c.epoch, c.notify, c.opcode, w, 0, none⟩
  { s with inn := { s.inn with tickets := s.inn.tickets ++ [t], nextTicket := nextTicketNo s.inn.nextTicket } }

/-- The notice of a ticket's end (R139). -/
def State.ticketNotice (s : State) (t : Ticket) (e : Ended) : State :=
  if !t.notify then s
  else match t.chan with
    | .mailbox p m => let b := s.box p m; s.msix p b.vector
    | .sxf b k =>
      s.sendJetty b ⟨b, 3, Sxf.ticketNotice + s.self % 512 * 2 ^ 14 + (k % 16) * 2 ^ 71 + (t.id % 2 ^ 32) * 2 ^ 75, []⟩
    | .shore _ => s
    | .tls n =>
      if s.inn.chans.any fun x => x.chan = .tls n then
        s.emit (.relas t.chan (leBytes 2 0x0C01 ++ leBytes 2 0 ++ leBytes 2 48 ++ leBytes 2 0 ++ leBytes 4 0 ++
          leBytes 4 t.id ++ leBytes 8 0 ++ leBytes 2 1 ++ leBytes 2 e.result ++ leBytes 4 e.detail ++ leBytes 8 e.time ++
          leBytes 8 t.progress))
      else s

/-- End a ticket at the current tidetime (R138, R139); a ticket that has ended already stays as it is. -/
def State.endTicket (s : State) (id result detail progress : Nat) : State :=
  match s.inn.tickets.find? fun t => t.id = id ∧ t.ended.isNone with
  | none => s
  | some t =>
    let e : Ended := ⟨result, detail, s.now⟩
    let t' := { t with ended := some e, progress := progress }
    let s := { s with inn := { s.inn with
      tickets := (s.inn.tickets.filter fun (x : Ticket) => x.id ≠ id) ++ [t'] } }
    s.ticketNotice t' e

/-! ### Staged sets on a copy (R154) -/

/-- Steps 6 (the command's own fields) to 9 of R128: the first failure, as result and DETAIL. -/
def RelasOp.reject (op : RelasOp) (c : RelasCmd) (s : State) : Option (Nat × Nat) :=
  match op.fields c s with
  | some d => some (Result.badField, d)
  | none =>
    if op.denied c s then some (Result.denied, 0)
    else match op.limits c s with
      | some d => some (Result.noResource, d)
      | none => match op.conflict c s with
        | some d => some (Result.conflict, d)
        | none => none

/-- Apply staged commands in order to a copy: the state, or the index of the first that would not complete DONE. -/
def runSet (table : Nat → Option RelasOp) : List RelasCmd → Nat → State → Except Nat State
  | [], _, s => .ok s
  | c :: cs, i, s =>
    match table c.opcode with
    | none => .error i
    | some op =>
      match op.reject c s with
      | some _ => .error i
      | none => runSet table cs (i + 1) (op.effect c 0 s).1

/-- The staged commands whose rule for the whole set fails in the final copy, by index; with each, whether it failed already in the
copy that the command itself left. -/
def inconsistent (table : Nat → Option RelasOp) (final : State) : List RelasCmd → Nat → State → List (Nat × Bool)
  | [], _, _ => []
  | c :: cs, i, s =>
    match table c.opcode with
    | none => []
    | some op =>
      let s := (op.effect c 0 s).1
      let rest := inconsistent table final cs (i + 1) s
      if op.consistent c final then rest else (i, op.consistent c s) :: rest

/-- The check of a list of staged commands on a copy of a state (R154): the index of the first failing one. Where only the set as a
whole breaks a rule, it is the first command whose own copy breaks it, else the first whose rule is broken. -/
def checkCmds (table : Nat → Option RelasOp) (cs : List RelasCmd) (s : State) : Option Nat :=
  match runSet table cs 0 s with
  | .error i => some i
  | .ok final =>
    let bad := inconsistent table final cs 0 s
    ((bad.find? fun x => !x.2).or bad.head?).map (·.1)

/-- The copy after the sets that are scheduled to turn first: ascending TURN_TIME, then SET_ID (R154). -/
def copyAfter (table : Nat → Option RelasOp) (sets : List ConfigSet) (s : State) : State :=
  let order := sortBy (fun a b => decide (a.turnTime < b.turnTime ∨ (a.turnTime = b.turnTime ∧ a.id ≤ b.id))) sets
  order.foldl (fun s x => match runSet table x.staged 0 s with
    | .ok s' => s'
    | .error _ => s) s

/-- The scheduled sets. -/
def State.scheduled (s : State) : List ConfigSet := s.inn.sets.filter fun x => x.state = .scheduled

/-- An object of the command that a scheduled set touches: the offset that names it (R156). -/
def State.scheduledTouch (s : State) (table : Nat → Option RelasOp) (objs : List (Obj × Nat)) : Option Nat :=
  let touched : List Obj := (s.scheduled.map fun x => (x.staged.map fun c =>
    match table c.opcode with
    | some op => (op.objects c).map (·.1)
    | none => []).flatten).flatten
  (objs.find? fun o => touched.contains o.1).map (·.2)

/-- Every set that has passed its verification would still pass it (R157). -/
def State.verifiedHold (s : State) (table : Nat → Option RelasOp) : Bool :=
  (s.inn.sets.filter fun x => x.state = .scheduled ∧ x.verified).all fun x => (checkCmds table x.staged s).isNone

/-! ### The engine (R128) -/

/-- Step 6, header part: SEQUENCE 0 (R126), reserved FLAGS bits, STAGE against Table 03-10 (R150), SET_ID (R19, R151),
reserved header bytes. -/
def headerBad (r : CatRow) (c : RelasCmd) : Option Nat :=
  firstBad [(c.seq = 0, 2), (bits c.flags 7 2 ≠ 0, 6), (c.stage && r.stage == .no, 6), (!c.stage && r.stage == .only, 6),
    (!c.stage && c.setId != 0, 7), (c.stage && c.setId == 0, 7), (nonzero c 12 4, 12)]

/-- Bytes staged so far in a set (R151). -/
def ConfigSet.bytes (x : ConfigSet) : Nat := sumNat (x.staged.map (·.bytes.length))

/-- A checked command with STAGE = 1: the conflict of R820, the limits of R151, then the append of R152. -/
def State.stage (s : State) (c : RelasCmd) : State :=
  match s.set c.setId with
  | none => s.fail c Result.conflict 7
  | some x =>
    if x.staged.length ≥ 65536 then s.fail c Result.noResource 65536
    else if x.bytes + c.bytes.length > 1048576 then s.fail c Result.noResource 1048576
    else match x.state with
      | .scheduled => s.fail c Result.conflict 7
      | .turned => s.fail c Result.conflict 7
      | .discarded => s.fail c Result.conflict 7
      | _ =>
        let s := s.setSet { x with state := .opened, staged := x.staged ++ [c], failing := none, verified := false, vetoer := none }
        s.answer c (response c Result.done 0 0 0 [])

/-- A command is counted (Table 20-3, group CONTROL). -/
def State.countCommand (s : State) (ch : Channel) : State :=
  let s := s.count 0x0C 0 0 1
  match ch with
  | .tls n => s.count 0x0C (n + 1) 0 1
  | _ => s

/-- Serve a command that its channel has brought (R125, R128): a retransmission gets its kept response; the checks run
in order and the first failure is answered; a staged command joins its set; otherwise the command has its effect, and a
PENDING one opens its ticket. -/
def relas (table : Nat → Option RelasOp) (op : RelasOp) (c : RelasCmd) (s : State) : State :=
  if !s.delivered c then s
  else
    let s := s.countCommand c.chan
    match (s.chanRec c.chan).kept.find? fun k => k.header = c.header with
    | some k =>
      let x := s.chanRec c.chan
      (s.setChan { x with outstanding := x.outstanding.filter (· != c.bytes) }).sendResponse c.chan k.response
    | none =>
      let badLen := decide (c.len % 8 ≠ 0 ∨ c.len < 16 ∨ c.len > 4096 ∨ c.bytes.length ≠ c.len)
      match catRow c.opcode with
      | none => if badLen then s.fail c Result.badLength 4096 else s.fail c Result.badOpcode 0
      | some r =>
        if badLen then s.fail c Result.badLength ((op.len c).getD 4096)
        else match op.len c with
        | some n => s.fail c Result.badLength n
        | none =>
          if (s.chanRec c.chan).bound ≠ some (c.guest, c.epoch) ∨ (c.guest ≠ 0 ∧ (!r.guest ∨ !op.owns c s)) then
            s.fail c Result.denied 0
          else if !stateAllows s c then s.fail c Result.notReady s.devState
          else if s.refusing ∨ (s.chanRec c.chan).outstanding.length > 8 then
            ((s.count 0x0C 0 1 1).fail c Result.busy (s.nextFree % 2 ^ 32)).drew
          else match headerBad r c with
          | some d => s.fail c Result.badField d
          | none =>
            match op.fields c s with
            | some d => s.fail c Result.badField d
            | none =>
              if c.stage then s.stage c
              else if op.denied c s then s.fail c Result.denied 0
              else match op.limits c s with
              | some d => s.fail c Result.noResource d
              | none =>
                match (if r.pending then s.ticketLimit c else none) with
                | some d => s.fail c Result.noResource d
                | none =>
                  match op.conflict c s with
                  | some d => s.fail c Result.conflict d
                  | none =>
                    match (if r.reads then none else s.scheduledTouch table (op.objects c)) with
                    | some d => s.fail c Result.conflict d
                    | none =>
                      let (s', rep) := op.effect c s.inn.nextTicket s
                      if !r.reads ∧ s.verifiedHold table ∧ !s'.verifiedHold table then
                        (s.fail c Result.conflict (s.nextFree % 2 ^ 32)).drew
                      else if rep.later then s'
                      else
                        let eff := if rep.tookHold then s.now else 0
                        match rep.work with
                        | some w =>
                          (s'.openTicket c w).answer c (response c rep.result rep.detail s.inn.nextTicket eff rep.body)
                        | none => s'.answer c (response c rep.result rep.detail 0 eff rep.body)

end Sys2Proof.Machine
end

