-- ==== Sys2Proof/Machine/Guests.lean ====
section
/-! DEFINITION. The guest commands but GUEST_DESTROY (spec 03: R141, R143, R76; Table 03-8). -/

namespace Sys2Proof.Machine

/-- Bytes of TRANSLATION coves (R77). -/
def State.translationBytes (s : State) : Nat :=
  sumNat ((s.store.coves.filter fun c => c.kind = .translation).map (·.size))

/-- The sum of pin quotas of the guests other than one. -/
def State.pinQuotas (s : State) (but : Nat) : Nat :=
  sumNat ((s.inn.guests.filter fun g => g.id ≠ but).map (·.pinQuota))

/-- The pin region in bytes. -/
def State.pinBytes (s : State) : Nat := s.store.harbour.pinGib * 2 ^ 30

/-- Queue and key quotas of the guests other than the system guest and one (R141). -/
def State.queueQuotas (s : State) (but : Nat) : Nat :=
  sumNat ((s.inn.guests.filter fun g => g.id ≠ but ∧ g.id ≠ 0).map (·.queueQuota))
def State.keyQuotas (s : State) (but : Nat) : Nat :=
  sumNat ((s.inn.guests.filter fun g => g.id ≠ but ∧ g.id ≠ 0).map (·.keyQuota))

/-- XLATE_MODE (Table 03-8). -/
def xlateOf (v : Nat) : XlateMode :=
  match v with
  | 0 => .table
  | 1 => .tablePr
  | 2 => .ats
  | _ => .identity

def XlateMode.code : XlateMode → Nat
  | .table => 0 | .tablePr => 1 | .ats => 2 | .identity => 3

/-- OWNER_PORT and OWNER_ID do not fit OWNER_KIND (Table 03-8). -/
def ownerBad (c : RelasCmd) : List (Bool × Nat) :=
  let jetty := c.f 23 1 = 1
  [(decide (c.f 23 1 > 1), 23), (if jetty then decide (c.f 24 1 > 63) else decide (c.f 24 1 > 3), 24),
   (nonzero c 25 3, 25), (if jetty then decide (c.f 28 4 ≥ 2 ^ 16) else decide (c.f 28 4 ≥ 2 ^ 20), 28)]

/-- ROOT_GPA is not a 4 KiB-aligned GPA. -/
def rootBad (c : RelasCmd) : Bool := decide (c.f 32 8 % 4096 ≠ 0 ∨ c.f 32 8 ≥ 2 ^ 57)

/-- PR_TIMEOUT outside its range (Table 03-8). -/
def prBad (c : RelasCmd) : Bool := decide (c.f 40 4 ≠ 0 ∧ (c.f 40 4 < 10 ∨ c.f 40 4 > 100000))

/-- PR_TIMEOUT in µs; 0 selects 1 ms. -/
def prTimeout (c : RelasCmd) : Nat := if c.f 40 4 = 0 then 1000 else c.f 40 4

/-- GUEST_CREATE (0x0101, R141). -/
def opGuestCreate : RelasOp where
  len := lenIs 64
  fields := fun c _ => firstBad ([(decide (c.f 16 2 = 0), 16), (decide (c.f 20 2 = 0), 20), (decide (c.f 22 1 > 2), 22)] ++
    ownerBad c ++
    [(if c.f 22 1 = 2 then nonzero c 32 8 else rootBad c, 32), (prBad c, 40), (nonzero c 44 4, 44),
     (decide (c.f 48 8 % mib2 ≠ 0), 48), (decide (c.f 56 2 > 1024), 56), (decide (c.f 58 2 > 4095), 58), (nonzero c 60 4, 60)])
  limits := fun c s => firstBad [(decide (s.inn.guests.length ≥ 4096), 4096),
    (decide (s.pinQuotas (c.f 16 2) + c.f 48 8 + s.translationBytes > s.pinBytes), s.store.harbour.pinGib),
    (decide (s.queueQuotas (c.f 16 2) + c.f 56 2 > 1024), 1024), (decide (s.keyQuotas (c.f 16 2) + c.f 58 2 > 4095), 4095)]
  conflict := fun c s => if (s.guestRec (c.f 16 2)).isSome then some 16 else none
  effect := fun c _ s =>
    let g : Guest := {
      id := c.f 16 2, epoch := c.f 18 2, weight := c.f 20 2, mode := xlateOf (c.f 22 1),
      ownerJetty := c.f 23 1 = 1, ownerPort := c.f 24 1, ownerId := c.f 28 4, root := c.f 32 8, prTimeout := prTimeout c,
      pinQuota := c.f 48 8, queueQuota := c.f 56 2, keyQuota := c.f 58 2, cached := [], quarantined := false }
    ({ s with inn := { s.inn with guests := s.inn.guests ++ [g] } }, .done)
  objects := fun c => [(.guest (c.f 16 2), 16)]

/-- The conflict of R818 for a guest named at 16 with its epoch at 18. -/
def guestConflict (c : RelasCmd) (s : State) : Option Nat :=
  match s.guestRec (c.f 16 2) with
  | none => some 16
  | some g => if g.epoch = c.f 18 2 then none else some 18

/-- SET_MASK of GUEST_SET selects bit `i` (R143). -/
def gMask (c : RelasCmd) (i : Nat) : Bool := bit (c.f 60 2) i

/-- GUEST_SET (0x0103, R143), before the extents are reviewed. -/
def setGuestFields (c : RelasCmd) (g : Guest) : Guest :=
  let g := if gMask c 0 then { g with weight := c.f 20 2 } else g
  let g := if gMask c 1 then { g with
    mode := xlateOf (c.f 22 1), ownerJetty := c.f 23 1 = 1, ownerPort := c.f 24 1,
    ownerId := c.f 28 4, root := c.f 32 8, cached := [] } else g
  let g := if gMask c 2 then { g with prTimeout := prTimeout c } else g
  let g := if gMask c 3 then { g with pinQuota := c.f 48 8 } else g
  let g := if gMask c 4 then { g with queueQuota := c.f 56 2 } else g
  if gMask c 5 then { g with keyQuota := c.f 58 2 } else g

/-- The field checks of GUEST_SET: fields outside SET_MASK are reserved (R143). -/
def guestSetBad (c : RelasCmd) : Option Nat :=
  let sys := c.f 16 2 = 0
  let xl := gMask c 1
  let ident := c.f 22 1 = 3
  firstBad ([(if gMask c 0 then decide (c.f 20 2 = 0) else nonzero c 20 2, 20),
      (if xl then decide (c.f 22 1 > 3 ∨ (ident ∧ ¬sys)) else nonzero c 22 1, 22)] ++
    (if !xl then [(nonzero c 23 1, 23), (nonzero c 24 1, 24), (nonzero c 25 3, 25), (nonzero c 28 4, 28), (nonzero c 32 8, 32)]
     else if ident then [(nonzero c 23 1, 23), (nonzero c 24 1, 24), (nonzero c 25 3, 25), (nonzero c 28 4, 28), (nonzero c 32 8, 32)]
     else ownerBad c ++ [(if c.f 22 1 = 2 then nonzero c 32 8 else rootBad c, 32)]) ++
    [(if gMask c 2 then prBad c else nonzero c 40 4, 40), (nonzero c 44 4, 44),
     (if gMask c 3 then decide (c.f 48 8 % mib2 ≠ 0) else nonzero c 48 8, 48),
     (if gMask c 4 then decide (c.f 56 2 > 1024) else nonzero c 56 2, 56),
     (if gMask c 5 then decide (c.f 58 2 > 4095) else nonzero c 58 2, 58),
     (decide (c.f 60 2 ≥ 64) || (decide sys && (gMask c 4 || gMask c 5)), 60), (nonzero c 62 2, 62)])

/-- The limits of GUEST_SET (R97, R141). -/
def guestSetLimits (c : RelasCmd) (s : State) : Option Nat :=
  let id := c.f 16 2
  firstBad [(gMask c 3 && decide (s.pinQuotas id + c.f 48 8 + s.translationBytes > s.pinBytes), s.store.harbour.pinGib),
    (gMask c 4 && decide (s.queueQuotas id + c.f 56 2 > 1024), 1024),
    (gMask c 5 && decide (s.keyQuotas id + c.f 58 2 > 4095), 4095)]

/-- The guest that a credential names is the one the command names (R132). -/
def ownsGuest (c : RelasCmd) (_ : State) : Bool := decide (c.f 16 2 = c.guest)

/-- GUEST_SYNC_XLATE (0x0104, R76): the ticket ends when every descriptor translated before has completed. -/
def opGuestSync : RelasOp where
  len := lenIs 24
  owns := ownsGuest
  fields := fun c _ => firstBad [(nonzero c 20 4, 20)]
  conflict := guestConflict
  effect := fun c _ s =>
    (s, .pending (.xlateSync (c.f 16 2) ((s.queues.descs.filter fun d => d.guest = c.f 16 2).map (·.id))))
  objects := fun c => [(.guest (c.f 16 2), 16)]

/-- The Table 03-8 layout of a guest, bytes 16–63 (R150). -/
def guestLayout (g : Guest) : List Byte :=
  leBytes 2 g.id ++ leBytes 2 g.epoch ++ leBytes 2 g.weight ++ leBytes 1 g.mode.code ++ leBytes 1 (b2n g.ownerJetty) ++
    leBytes 1 g.ownerPort ++ zeros 3 ++ leBytes 4 g.ownerId ++ leBytes 8 g.root ++ leBytes 4 g.prTimeout ++ zeros 4 ++
    leBytes 8 g.pinQuota ++ leBytes 2 g.queueQuota ++ leBytes 2 g.keyQuota ++ zeros 4

/-- GUEST_QUERY (0x0105): the guest's settings in the Table 03-8 layout. -/
def opGuestQuery : RelasOp where
  len := lenIs 24
  owns := ownsGuest
  fields := fun c _ => firstBad [(nonzero c 20 4, 20)]
  conflict := guestConflict
  effect := fun c _ s =>
    match s.guestRec (c.f 16 2) with
    | some g => (s, .read (guestLayout g))
    | none => (s, .read [])
  objects := fun c => [(.guest (c.f 16 2), 16)]

end Sys2Proof.Machine
end

