-- ==== Sys2Proof/Machine/Layout.lean ====
section
/-! DEFINITION. Where the parts of an embedding table lie (spec 10: R413, R416–R420, Tables 10-1 to 10-3), and the return of the
slots that commits left unused (R257); the layout of a KV set and the return of its pages and blocks (spec 12: R489–R493). -/

namespace Sys2Proof.Machine

/-- Bytes of a row of `dim` elements stored in a format: elements, then the scales of an MX format (R416). -/
def rowBytes (dim : Nat) (f : Format) : Nat := elemBytes f.elem dim + if f.mx then dim / 32 else 0

/-- The format of a class; none for an unused class. -/
def Table.fmt (t : Table) (c : Nat) : Option Format := if c < 4 then formatOf (t.classFmt.getD c 0xFF) else none
/-- The format of the shadows. -/
def Table.shFmt (t : Table) : Option Format := formatOf t.shadowFmt

/-- s_c and SB_c (R416), SH_c (R417). -/
def Table.stored (t : Table) (c : Nat) : Nat := ((t.fmt c).map (rowBytes t.dim)).getD 0
def Table.slotSize (t : Table) (c : Nat) : Nat := roundUp (t.stored c) 64
def Table.hasShadow (t : Table) (c : Nat) : Bool := t.shFmt.isSome && bit t.shadowMask c
def Table.shadowSlot (t : Table) (c : Nat) : Nat := if t.hasShadow c then roundUp (((t.shFmt).map (rowBytes t.dim)).getD 0) 64 else 0

/-- Slots of a class. -/
def Table.slotsOf (t : Table) (c : Nat) : Nat := t.slots.getD c 0

/-- LOCAL_ROWS of a shard (Table 10-1). -/
def Table.localRows (t : Table) : Nat :=
  if t.shardIndex = 0xFFFF then 0
  else match t.placement with
    | 0 => t.rows
    | 1 => min t.perShard (t.rows - t.shardIndex * t.perShard)
    | _ => (t.rows - t.shardIndex + t.shards.length - 1) / t.shards.length

/-- The shard and the local row of a global row (Table 10-1). -/
def Table.shardOf (t : Table) (x : Nat) : Nat :=
  match t.placement with
  | 0 => 0
  | 1 => x / t.perShard
  | _ => x % t.shards.length
def Table.localRow (t : Table) (x : Nat) : Nat :=
  match t.placement with
  | 0 => x
  | 1 => x % t.perShard
  | _ => x / t.shards.length

/-- A global row is held on this shore. -/
def Table.isLocal (t : Table) (x : Nat) : Bool := t.placement == 0 || (t.shardIndex != 0xFFFF && t.shardOf x == t.shardIndex)

/-- Granules of the parts of Table 10-2. -/
def Table.mapGranules (t : Table) : Nat := ceilDiv (8 * t.localRows) granuleSize
def Table.poolGranules (t : Table) (c : Nat) : Nat := ceilDiv (t.slotsOf c) (granuleSize / t.slotSize c)
def Table.bitmapGranules (t : Table) (c : Nat) : Nat := ceilDiv (t.slotsOf c) 131072
def Table.shadowGranules (t : Table) (c : Nat) : Nat :=
  if t.hasShadow c then ceilDiv (t.slotsOf c) (granuleSize / t.shadowSlot c) else 0

/-- Bytes that REGION and SHADOW_REGION need. -/
def Table.regionNeed (t : Table) : Nat :=
  granuleSize * (t.mapGranules + sumNat ((List.range 4).map fun c => t.poolGranules c + t.bitmapGranules c))
def Table.shadowNeed (t : Table) : Nat := granuleSize * sumNat ((List.range 4).map t.shadowGranules)

/-- Shore offsets of a local row's map entry, a slot, a class's free bitmap and a shadow slot (R418). -/
def Table.entryOff (t : Table) (l : Nat) : Nat := t.region + 8 * l
def Table.slotOff (t : Table) (c k : Nat) : Nat :=
  let p := granuleSize / t.slotSize c
  t.region + granuleSize * (t.mapGranules + sumNat ((List.range c).map t.poolGranules) + k / p) + k % p * t.slotSize c
def Table.bitmapOff (t : Table) (c : Nat) : Nat :=
  t.region + granuleSize * (t.mapGranules + sumNat ((List.range 4).map t.poolGranules) + sumNat ((List.range c).map t.bitmapGranules))
def Table.shadowOff (t : Table) (c k : Nat) : Nat :=
  let q := granuleSize / t.shadowSlot c
  t.shadow + granuleSize * (sumNat ((List.range c).map t.shadowGranules) + k / q) + k % q * t.shadowSlot c

/-- Fields of a map entry (Table 10-3), and an entry that makes its row valid (R419). -/
def entryClass (e : Nat) : Nat := bits e 61 60
def entrySlot (e : Nat) : Nat := bits e 43 0
def Table.validEntry (t : Table) (e : Nat) : Bool :=
  bit e 63 && (t.fmt (entryClass e)).isSome && decide (entrySlot e < t.slotsOf (entryClass e))
/-- The entry of a committed row. -/
def mapEntry (c k : Nat) (shadow : Bool) : Nat := 2 ^ 63 + b2n shadow * 2 ^ 62 + c * 2 ^ 60 + k

def State.table (s : State) (id : Nat) : Option Table := s.tables.list.find? fun (t : Table) => t.id = id

def State.setTable (s : State) (id : Nat) (f : Table → Table) : State :=
  { s with tables := { s.tables with list := mapIf (fun (t : Table) => t.id = id) f s.tables.list } }

/-- Set or clear a slot's bit in its free bitmap (R420). -/
def State.setSlotBit (s : State) (t : Table) (c k : Nat) (on : Bool) : State :=
  let off := t.bitmapOff c + k / 8
  let b := s.word off 1
  let m := 2 ^ (k % 8)
  s.writeAt off (leBytes 1 (if on then b ||| m else if bit b (k % 8) then b - m else b))

/-! ### KV sets (R489–R493, Table 12-1) -/

def State.kvSet (s : State) (id : Nat) : Option KvSet := s.kv.find? fun (k : KvSet) => k.id = id
def State.setKv (s : State) (id : Nat) (f : KvSet → KvSet) : State := { s with kv := mapIf (fun (k : KvSet) => k.id = id) f s.kv }

/-- Element bytes eb, tokens per page P, token bytes tb, page bytes PB, layer bytes LB, shadow page bytes SPB. -/
def KvSet.eb (k : KvSet) : Nat := if k.fmt ≤ 2 then 2 else 1
def KvSet.p (k : KvSet) : Nat := 2 ^ k.shift
def KvSet.perToken (k : KvSet) : Nat := k.layers * 2 * k.heads * k.headDim
def KvSet.tb (k : KvSet) : Nat := k.perToken * k.eb
def KvSet.pb (k : KvSet) : Nat := roundUp (k.p * k.tb) granuleSize
def KvSet.lb (k : KvSet) : Nat := 2 * k.heads * k.p * k.headDim * k.eb
def KvSet.spb (k : KvSet) : Nat := roundUp (k.p * k.perToken) granuleSize

/-- Sizes of the parts of REGION before rounding to granules. -/
def KvSet.parts (k : KvSet) : List Nat := [16 * k.maxSeqs, 4 * k.poolPages, ceilDiv k.tableBlocks 8, 4096 * k.tableBlocks, k.pb * k.poolPages]
def KvSet.partOff (k : KvSet) (i : Nat) : Nat := k.region + sumNat ((k.parts.take i).map fun n => roundUp n granuleSize)
def KvSet.need (k : KvSet) : Nat := sumNat (k.parts.map fun n => roundUp n granuleSize)
def KvSet.shadowNeed (k : KvSet) : Nat := if k.shadowed then k.spb * k.poolPages else 0

/-- Shore offsets of a sequence entry, a page's info, a table block, a page and a shadow page. -/
def KvSet.seqOff (k : KvSet) (q : Nat) : Nat := k.partOff 0 + 16 * q
def KvSet.infoOff (k : KvSet) (pg : Nat) : Nat := k.partOff 1 + 4 * pg
def KvSet.blockOff (k : KvSet) (b : Nat) : Nat := k.partOff 3 + 4096 * b
def KvSet.pageOff (k : KvSet) (pg : Nat) : Nat := k.partOff 4 + k.pb * pg
def KvSet.shadowOff (k : KvSet) (pg : Nat) : Nat := k.shadow + k.spb * pg

/-- Set or clear a table block's bit in the bitmap (Table 12-1). -/
def State.setBlockBit (s : State) (k : KvSet) (b : Nat) (on : Bool) : State :=
  let off := k.partOff 2 + b / 8
  let w := s.word off 1
  s.writeAt off (leBytes 1 (if on then w ||| 2 ^ (b % 8) else if bit w (b % 8) then w - 2 ^ (b % 8) else w))

/-- A descriptor has completed: the pages and table blocks that only it still held can be used again (R493). -/
def State.freeKv (s : State) (id : Nat) : State :=
  s.kv.foldl (fun s (k : KvSet) =>
    if k.heldPages.isEmpty && k.heldBlocks.isEmpty then s
    else
      let cut (l : List (Nat × List Nat)) : List (Nat × List Nat) := l.map fun x => (x.1, x.2.filter (· ≠ id))
      let blocks := cut k.heldBlocks
      let s := s.setKv k.id fun k => { k with
        heldPages := (cut k.heldPages).filter fun x => !x.2.isEmpty, heldBlocks := blocks.filter fun x => !x.2.isEmpty }
      (blocks.filter fun x => x.2.isEmpty).foldl (fun s x => s.setBlockBit k x.1 false) s) s

/-- A descriptor has completed: the slots, pages and blocks that only it still held become free (R257, R493). -/
def State.freeHeld (s : State) (id : Nat) : State :=
  (s.freeKv id).tables.list.foldl (fun s (t : Table) =>
    if t.held.isEmpty then s
    else
      let held := t.held.map fun (c, k, ds) => (c, k, ds.filter (· ≠ id))
      let out := held.filter fun x => x.2.2.isEmpty
      let s := s.setTable t.id fun t => { t with held := held.filter fun x => !x.2.2.isEmpty }
      out.foldl (fun s (x : Nat × Nat × List Nat) => s.setSlotBit t x.1 x.2.1 false) s) (s.freeKv id)

end Sys2Proof.Machine
end

