-- ==== Sys2Proof/Machine/Coves.lean ====
section
/-! DEFINITION. The cove, placement and pull-range commands but COVE_DESTROY and COVE_HANDOVER's steps (spec 02, 03, 05:
R60–R63, R68, R95–R105, R113–R119, R144–R149, R228–R230, R263). -/

namespace Sys2Proof.Machine

/-! ### The version pool (R228–R230) -/

/-- Bytes held by coves. -/
def State.coveBytes (s : State) : Nat := sumNat (s.store.coves.map (·.size))

/-- The version reserves: the SIZE of every versioned cove (R229). -/
def State.reserveBytes (s : State) : Nat := sumNat ((s.store.coves.filter (·.versioned)).map (·.size))

/-- Retained images that the latest published tidemark does not reference, in bytes: charged to the free pool (R229). -/
def Cove.charged (c : Cove) : Nat :=
  match c.versions with
  | none => 0
  | some v => granuleSize * (v.images.filter fun i => !decide (c.versioned ∧ i.lo ≤ v.latest ∧ v.latest ≤ i.hi)).length

/-- The free pool (R228, R229; the protection region counts as bytes held by coves, R658); negative when a retirement has
shrunk the shore below it. -/
def State.freePool (s : State) : Int :=
  (s.protBase : Int) - s.coveBytes - s.reserveBytes - (sumNat (s.store.coves.map Cove.charged) : Nat)

/-- The free pool in GiB, rounded down (R230). -/
def State.freePoolGib (s : State) : Nat := (s.freePool / 2 ^ 30).toNat

/-- A newly versioned cove: tidemark 1 published at a tidetime (R220). -/
def Versions.start (t : Nat) : Versions := ⟨1, [(1, t)], [], [], []⟩

/-! ### Grants -/

/-- RIGHTS (R147): bit 0 R, bit 1 W, bit 2 A. -/
def grantOf (guest rights : Nat) : Grant := ⟨guest, bit rights 0, bit rights 1, bit rights 2⟩

/-- RIGHTS is malformed: a reserved bit, or A without R and W (R62). -/
def rightsBad (rights : Nat) : Bool := decide (rights ≥ 8) || (bit rights 2 && !(bit rights 0 && bit rights 1))

/-- Set or remove a guest's grant entry (R147). -/
def Cove.setGrant (c : Cove) (g : Grant) : Cove :=
  if g.r || g.w || g.a then { c with grants := upsert (·.guest) g c.grants }
  else { c with grants := c.grants.filter fun x => x.guest ≠ g.guest }

/-- GPAs (offsets of this shore) that a queue's guest must be able to read and write (R262, R263): ring, error ring and
head word, with their lengths. -/
def State.queueRanges (s : State) : List (Nat × Nat × Nat) :=
  (s.queues.sqs.map fun q => [(q.guest, gpaOffset q.ring, 64 * q.depth), (q.guest, gpaOffset q.errGpa, 32 * q.errDepth),
    (q.guest, gpaOffset q.headGpa, 8)]).flatten ++
  (s.queues.cqs.map fun q => (q.guest, gpaOffset q.ring, 32 * q.depth))

/-- The guests of queues whose structures, and of KV sets whose regions, lie in a cove (R263, R495). -/
def State.queueGuests (s : State) (c : Cove) : List Nat :=
  let sets := s.kv.filter fun (k : KvSet) => inside k.region k.need c.base c.size || (k.shadowed && inside k.shadow k.shadowNeed c.base c.size)
  uniq ((s.queueRanges.filter fun r => inside r.2.1 r.2.2 c.base c.size).map (·.1) ++ sets.map fun (k : KvSet) => k.guest)

/-- A change of grants would remove R or W for such a guest on a cove that holds its structures (R263, R495). -/
def State.starvesQueue (s : State) (before after : Cove) : Bool :=
  (s.queueGuests before).any fun g => (before.grant g).r && (before.grant g).w && !((after.grant g).r && (after.grant g).w)

/-! ### COVE_CREATE, COVE_SET, COVE_GRANT, COVE_QUERY -/

def coveKindOf (v : Nat) : CoveKind := if v = 1 then .translation else .data
def clsOf (v : Nat) : Cls := match v with | 0 => .pin | 1 => .prefer | 2 => .stream | _ => .cold
def Cls.code : Cls → Nat | .pin => 0 | .prefer => 1 | .stream => 2 | .cold => 3
def orderOf (v : Nat) : CoveOrder := if v = 1 then .pilot else .chart
def coherenceOf (v : Nat) : Coherence := if v = 1 then .sharedHdmDb else .noncoherent
def protectionOf (v : Nat) : Protection := match v with | 0 => .none | 1 => .critical | _ => .guarded
def Protection.code : Protection → Nat | .none => 0 | .critical => 1 | .guarded => 2

/-- The cove that COVE_CREATE describes (Table 03-9), new at a tidetime. -/
def coveOf (c : RelasCmd) (now : Nat) : Cove where
  id := c.f 16 2
  base := c.f 20 8
  size := c.f 28 8
  owner := c.f 18 2
  kind := coveKindOf (c.f 36 1)
  grants := []
  cls := clsOf (c.f 37 1)
  order := orderOf (c.f 38 1)
  coherence := coherenceOf (c.f 39 1)
  versioned := c.f 40 1 = 1
  keySlot := c.f 44 2
  protection := protectionOf (c.f 41 1)
  pullable := c.f 42 1 = 1
  state := .active
  overrides := []
  holders := []
  versions := if c.f 40 1 = 1 then some (.start now) else none

/-- A key slot is 0, or loaded and held by a guest (R688). -/
def State.keyHeld (s : State) (slot guest : Nat) : Bool := slot == 0 || s.trust.slots.any fun k => k.slot = slot ∧ k.holder = guest

/-- Attribute bytes 37–44 of Table 03-9 that are out of range, for the attributes that are read. -/
def coveAttrBad (c : RelasCmd) (read : Nat → Bool) : List (Bool × Nat) :=
  [(if read 0 then decide (c.f 37 1 > 3) else nonzero c 37 1, 37), (if read 1 then decide (c.f 38 1 > 1) else nonzero c 38 1, 38),
   (if read 2 then decide (c.f 39 1 > 1) else nonzero c 39 1, 39), (if read 3 then decide (c.f 40 1 > 1) else nonzero c 40 1, 40),
   (if read 4 then decide (c.f 41 1 > 2) else nonzero c 41 1, 41), (if read 5 then decide (c.f 42 1 > 1) else nonzero c 42 1, 42),
   (nonzero c 43 1, 43), (if read 6 then decide (c.f 44 2 > 4095) else nonzero c 44 2, 44)]

/-- The new range overlaps a cove (one being cleared included) or reaches the usable capacity (R144) or the
protection region (R658). -/
def State.coveOverlap (s : State) (base size : Nat) : Bool :=
  decide (base + size > s.protBase) || s.store.coves.any fun k => overlaps base size k.base k.size

/-- COVE_CREATE (0x0201, R144). -/
def opCoveCreate : RelasOp where
  len := lenIs 64
  fields := fun c _ => firstBad ([(decide (c.f 16 2 > 16383), 16), (decide (c.f 20 8 % mib2 ≠ 0 ∨ c.f 20 8 ≥ 2 ^ 48), 20),
      (decide (c.f 28 8 = 0 ∨ c.f 28 8 % mib2 ≠ 0), 28), (decide (c.f 36 1 > 1), 36)] ++ coveAttrBad c (fun _ => true) ++
    [(nonzero c 46 2, 46), (nonzero c 48 16, 48)])
  limits := fun c s =>
    let pool := s.freePool - (c.f 28 8 : Nat)
    firstBad [(decide (c.f 36 1 = 1 ∧ s.pinQuotas 65536 + s.translationBytes + c.f 28 8 > s.pinBytes), s.store.harbour.pinGib),
      (decide (c.f 40 1 = 1 ∧ pool < (c.f 28 8 : Nat)), s.freePoolGib), (decide (pool < 0), s.freePoolGib)]
  conflict := fun c s => firstBad [((s.cove (c.f 16 2)).isSome, 16), (s.coveOverlap (c.f 20 8) (c.f 28 8), 20),
    (!s.keyHeld (c.f 44 2) (c.f 18 2), 44)]
  effect := fun c _ s =>
    let k := coveOf c s.now
    ({ s with store := { s.store with
        coves := s.store.coves ++ [k]
        mem := Mem.clear s.store.mem k.base k.size
        poison := s.store.poison.filter fun p => decide (p * 64 < k.base ∨ k.base + k.size ≤ p * 64) } }, .done)
  objects := fun c => [(.cove (c.f 16 2), 16)]

/-- The conflict of R818 and R145 for a cove that a command would change. -/
def coveConflict (c : RelasCmd) (s : State) : Option Nat :=
  match s.cove (c.f 16 2) with
  | none => some 16
  | some k => if k.state = .active then none else some 16

/-- SET_MASK bit `i` of COVE_SET (R146). -/
def cMask (c : RelasCmd) (i : Nat) : Bool := bit (c.f 46 2) i

/-- The granules of an object whose class changes are still to move (R101): those that are resident in the other area. -/
def State.queueMoves (s : State) (base size : Nat) (cls : Cls) : State :=
  let gs := (s.store.harbour.ways.filter fun w => inside (w.gpa * granuleSize) granuleSize base size ∧ w.cls ≠ cls).map (·.gpa)
  let old := s.store.moving.filter fun m => !gs.contains m.granule
  { s with store := { s.store with moving := old ++ gs.map fun g => Moving.mk g cls 0 } }

/-- The attributes that SET_MASK selects take their new values (R146). -/
def setCoveFields (c : RelasCmd) (now : Nat) (k : Cove) : Cove :=
  let k := if cMask c 0 then { k with cls := clsOf (c.f 37 1) } else k
  let k := if cMask c 1 then { k with order := orderOf (c.f 38 1) } else k
  let k := if cMask c 2 then { k with coherence := coherenceOf (c.f 39 1) } else k
  let k := if cMask c 3 then
      (if c.f 40 1 = 1 then (if k.versioned then k else { k with versioned := true, versions := some (.start now) })
       else { k with versioned := false }) else k
  let k := if cMask c 4 then { k with protection := protectionOf (c.f 41 1) } else k
  let k := if cMask c 5 then { k with pullable := c.f 42 1 = 1 } else k
  if cMask c 6 then { k with keySlot := c.f 44 2 } else k

/-- A change of PULLABLE that must first invalidate the pulled copies (R117, R146). -/
def needsInval (c : RelasCmd) (k : Cove) : Bool := cMask c 5 && k.pullable && c.f 42 1 == 0 && !k.holders.isEmpty

/-- The SXF INVALIDATE messages to the shores of a holder map (R117, Table 14-8). -/
def State.sendInvalidates (s : State) (k : Cove) : State :=
  k.holders.foldl (fun s h => s.send (⟨noBundle, 3,
    SxfMsg.reqUnit Sxf.invalidate false false s.self k.id 0 0 (gpaOf h 0),
    leBytes 8 (gpaOf s.self k.base) ++ leBytes 4 (k.size / mib2) ++ zeros 4⟩)) s

/-- The change of COVE_SET takes hold. -/
def State.applyCoveSet (s : State) (c : RelasCmd) : State :=
  let s := s.setCove (c.f 16 2) (setCoveFields c s.now)
  if cMask c 0 then
    match s.cove (c.f 16 2) with
    | some k => s.queueMoves k.base k.size k.cls
    | none => s
  else s

/-- A host port exposes the cove (R203); the host-port chapter gives the extents. -/
def State.exposed (s : State) (cove : Nat) : Bool := s.host.extents.any fun x => x.cove = cove

/-- VERSIONED can not be cleared (R231): a handle, alias or remote hold on the cove, or a PUBLISH or SNAP_OPEN on it that
has not completed. -/
def State.versionHeld (s : State) (k : Cove) : Bool :=
  s.store.snaps.any (fun x => x.cove = k.id) ||
    s.queues.descs.any fun d => [0x68, 0x6A].contains (fld d.bytes 0 1) && d.ranges.any fun r => r.any fun e =>
      decide (gpaShore e.gpa = s.self) && inside (gpaOffset e.gpa) e.len k.base k.size

/-- COVE_SET (0x0203, R146). -/
def opCoveSet : RelasOp where
  len := lenIs 64
  fields := fun c _ => firstBad ([(decide (c.f 16 2 > 16383), 16), (nonzero c 18 2, 18), (nonzero c 20 8, 20), (nonzero c 28 8, 28),
      (nonzero c 36 1, 36)] ++ coveAttrBad c (cMask c) ++ [(decide (c.f 46 2 ≥ 128), 46), (nonzero c 48 16, 48)])
  conflict := fun c s =>
    match s.cove (c.f 16 2) with
    | none => some 16
    | some k =>
      firstBad [(decide (k.state ≠ .active), 16),
        (!c.stage && (cMask c 1 || cMask c 2 || cMask c 3 || cMask c 6), 46),
        (cMask c 2 && coherenceOf (c.f 39 1) != k.coherence && s.exposed k.id, 39),
        (cMask c 3 && c.f 40 1 == 1 && !k.versioned && decide (s.freePool < (k.size : Int)), 40),
        (cMask c 3 && c.f 40 1 == 0 && k.versioned && s.versionHeld k, 40),
        (cMask c 5 && c.f 42 1 == 1 && k.grants.any (·.w), 42),
        (cMask c 6 && !s.keyHeld (c.f 44 2) k.owner, 44)]
  effect := fun c _ s =>
    match s.cove (c.f 16 2) with
    | some k =>
      if needsInval c k then
        let s := s.sendInvalidates k
        ({ s with store := { s.store with invals := s.store.invals ++ [⟨k.id, k.holders, c⟩] } }, { Reply.done with later := true })
      else (s.applyCoveSet c, .done)
    | none => (s, .done)
  objects := fun c => [(.cove (c.f 16 2), 16)]

/-- COVE_GRANT (0x0204, R147). -/
def grantEffect (c : RelasCmd) (s : State) : State :=
  s.setCove (c.f 16 2) fun k => k.setGrant (grantOf (c.f 18 2) (c.f 20 1))

def opCoveGrant : RelasOp where
  len := lenIs 24
  fields := fun c _ => firstBad [(decide (c.f 16 2 > 16383), 16), (rightsBad (c.f 20 1), 20), (nonzero c 21 3, 21)]
  denied := fun c s =>
    match s.cove (c.f 16 2) with
    | some k => k.kind = .translation && bit (c.f 20 1) 1 && k.owner != c.f 18 2
    | none => false
  limits := fun c s =>
    match s.cove (c.f 16 2) with
    | some k => if c.f 20 1 ≠ 0 ∧ k.grants.length ≥ 256 ∧ !k.grants.any fun x => x.guest = c.f 18 2 then some 256 else none
    | none => none
  conflict := fun c s =>
    match s.cove (c.f 16 2) with
    | none => some 16
    | some k => firstBad [(decide (k.state ≠ .active), 16), (k.pullable && bit (c.f 20 1) 1, 20),
        (s.starvesQueue k (k.setGrant (grantOf (c.f 18 2) (c.f 20 1))), 20)]
  effect := fun c _ s => (grantEffect c s, .done)
  objects := fun c => [(.cove (c.f 16 2), 16)]

/-- The Table 03-9 layout of a cove, bytes 16–63. -/
def coveLayout (k : Cove) : List Byte :=
  leBytes 2 k.id ++ leBytes 2 k.owner ++ leBytes 8 k.base ++ leBytes 8 k.size ++ leBytes 1 (b2n (k.kind = .translation)) ++
    leBytes 1 k.cls.code ++ leBytes 1 (b2n (k.order = .pilot)) ++ leBytes 1 (b2n (k.coherence = .sharedHdmDb)) ++
    leBytes 1 (b2n k.versioned) ++ leBytes 1 k.protection.code ++ leBytes 1 (b2n k.pullable) ++ zeros 1 ++
    leBytes 2 k.keySlot ++ zeros 2 ++ zeros 16

def CoveState.code : CoveState → Nat | .active => 0 | .handingOver => 1 | .retiring => 2

/-- A guest credential reaches the coves that it owns (R132). -/
def ownsCove (c : RelasCmd) (s : State) : Bool :=
  match s.cove (c.f 16 2) with
  | some k => decide (k.owner = c.guest)
  | none => true

/-- COVE_QUERY (0x0206, R149). -/
def opCoveQuery : RelasOp where
  len := lenIs 24
  owns := ownsCove
  fields := fun c _ => firstBad [(decide (c.f 16 2 > 16383 ∧ c.f 16 2 ≠ 0xFFFF), 16), (nonzero c 18 6, 18)]
  conflict := fun c s => if c.f 16 2 = 0xFFFF ∨ (s.cove (c.f 16 2)).isSome then none else some 16
  effect := fun c _ s =>
    if c.f 16 2 = 0xFFFF then
      (s, .read (leBytes 8 s.store.capacity ++ leBytes 8 s.coveBytes ++ leBytes 8 s.store.coves.length))
    else match s.cove (c.f 16 2) with
      | some k => (s, .read (coveLayout k ++ leBytes 1 k.state.code ++ leBytes 2 k.grants.length))
      | none => (s, .read [])
  objects := fun c => [(.cove (c.f 16 2), 16)]

/-! ### Placement (R95, R101, R104, R105) -/

/-- Overrides after a class is recorded over `[base, base+size)` (none: RESET): cut, insert, merge neighbours of equal
class (R95). -/
def cutOverrides (l : List Override) (base size : Nat) : List Override :=
  (l.map fun o =>
    let left : List Override := if o.base < base then [⟨o.base, min (o.base + o.size) base - o.base, o.cls⟩] else []
    let right : List Override :=
      if o.base + o.size > base + size then
        let b := max o.base (base + size)
        [⟨b, o.base + o.size - b, o.cls⟩]
      else []
    left ++ right).flatten

def mergeOverrides : List Override → List Override
  | [] => []
  | o :: t =>
    match mergeOverrides t with
    | [] => [o]
    | p :: r => if o.base + o.size = p.base ∧ o.cls = p.cls then ⟨o.base, o.size + p.size, o.cls⟩ :: r else o :: p :: r

def Cove.withClass (k : Cove) (base size : Nat) (cls : Option Cls) : Cove :=
  let rest := cutOverrides k.overrides base size
  let all := match cls with
    | none => rest
    | some c => rest ++ [Override.mk base size c]
  { k with overrides := mergeOverrides (sortBy (fun a b => decide (a.base ≤ b.base)) all) }

/-- Bytes of a range whose class the change alters, in steps of 2 MiB. -/
def Cove.changedBytes (k : Cove) (base size : Nat) (cls : Option Cls) : Nat :=
  mib2 * ((span 0 (size / mib2)).filter fun i =>
    let off := base + i * mib2
    k.clsAt off ≠ cls.getD k.cls).length

/-- Bytes that a guest's pinned objects hold (R105): every 2 MiB of PIN class in coves it owns. -/
def State.pinnedBytes (s : State) (guest : Nat) : Nat :=
  sumNat ((s.store.coves.filter fun k => k.owner = guest ∧ k.kind = .data).map fun k =>
    mib2 * ((span 0 (k.size / mib2)).filter fun i => k.clsAt (k.base + i * mib2) = .pin).length)

/-- The class codes of ADVISE and PLACE_SET: 4 is RESET (Table 02-9). -/
def adviseCls (v : Nat) : Option Cls := if v = 4 then none else some (clsOf v)

/-- PLACE_SET (0x0301): as Table 02-9 with a cove ID and shore offsets: COVE_ID 16–17, 18–23 reserved, ADDR 24–31,
LENGTH 32–39, CLASS 40, ADV_FLAGS 41, 42–47 reserved (log entry 12). -/
def opPlaceSet : RelasOp where
  len := lenIs 48
  fields := fun c _ => firstBad [(decide (c.f 16 2 > 16383), 16), (nonzero c 18 6, 18), (decide (c.f 24 8 % mib2 ≠ 0), 24),
    (decide (c.f 32 8 = 0 ∨ c.f 32 8 % mib2 ≠ 0), 32), (decide (c.f 40 1 > 4), 40), (decide (c.f 41 1 > 1), 41), (nonzero c 42 6, 42)]
  limits := fun c s =>
    match s.cove (c.f 16 2) with
    | some k =>
      if (k.withClass (c.f 24 8) (c.f 32 8) (adviseCls (c.f 40 1))).overrides.length > 64 then some 64
      else if c.f 40 1 = 0 ∧ s.pinnedBytes k.owner + c.f 32 8 > ((s.guestRec k.owner).map (·.pinQuota)).getD 0 then some s.store.harbour.pinGib
      else none
    | none => none
  conflict := fun c s =>
    match s.cove (c.f 16 2) with
    | none => some 16
    | some k => firstBad [(decide (k.state ≠ .active) || decide (k.kind = .translation), 16), (!inside (c.f 24 8) (c.f 32 8) k.base k.size, 24)]
  effect := fun c _ s =>
    let s := s.setCove (c.f 16 2) fun k => k.withClass (c.f 24 8) (c.f 32 8) (adviseCls (c.f 40 1))
    let cls := match s.cove (c.f 16 2) with
      | some k => (adviseCls (c.f 40 1)).getD k.cls
      | none => .prefer
    (if bit (c.f 41 1) 0 then s.queueMoves (c.f 24 8) (c.f 32 8) cls else s, .done)
  objects := fun c => [(.cove (c.f 16 2), 16)]

/-- PLACE_QUERY (0x0302, R101): granules still to move (8 B), the number of overrides (2 B), 6 reserved bytes, then each
override: base (8 B), size (8 B), class (1 B), 7 reserved bytes (log entry 12). -/
def opPlaceQuery : RelasOp where
  len := lenIs 24
  owns := ownsCove
  fields := fun c _ => firstBad [(decide (c.f 16 2 > 16383), 16), (nonzero c 18 6, 18)]
  conflict := fun c s => if (s.cove (c.f 16 2)).isSome then none else some 16
  effect := fun c _ s =>
    match s.cove (c.f 16 2) with
    | some k =>
      let n := (s.store.moving.filter fun m => inside (m.granule * granuleSize) granuleSize k.base k.size).length
      (s, .read (leBytes 8 n ++ leBytes 2 k.overrides.length ++ zeros 6 ++
        (k.overrides.map fun o => leBytes 8 o.base ++ leBytes 8 o.size ++ leBytes 1 o.cls.code ++ zeros 7).flatten))
    | none => (s, .read [])
  objects := fun c => [(.cove (c.f 16 2), 16)]

/-! ### Pull ranges (R113, R114) -/

/-- The lowest free index of a pull range. -/
def State.freePull (s : State) : Nat :=
  ((List.range 1024).find? fun i => !s.store.pulls.any fun p => p.index = i).getD 1024

/-- PULL_ADD (0x0303): home GPA 16–23, length 24–31 (log entry 12). The home is asked to record this shore; the ticket
ends when it has (Table 03-10). -/
def opPullAdd : RelasOp where
  len := lenIs 32
  fields := fun c s => firstBad [(decide (c.f 16 8 ≥ 2 ^ 57 ∨ c.f 16 8 % mib2 ≠ 0 ∨ gpaShore (c.f 16 8) = s.self), 16),
    (decide (c.f 24 8 = 0 ∨ c.f 24 8 % mib2 ≠ 0), 24)]
  limits := fun _ s => if s.store.pulls.length ≥ 1024 then some 1024 else none
  conflict := fun c s => if s.store.pulls.any fun p => overlaps p.gpa p.len (c.f 16 8) (c.f 24 8) then some 16 else none
  effect := fun c t s =>
    let i := s.freePull
    let s := { s with store := { s.store with pulls := s.store.pulls ++ [PullRange.mk i (c.f 16 8) (c.f 24 8) false t] } }
    (s.send ⟨noBundle, 3, SxfMsg.reqUnit Sxf.mailbox false false s.self (i + 1) 32 0 (gpaOf (gpaShore (c.f 16 8)) 0),
      leBytes 2 0x0303 ++ leBytes 2 (i + 1) ++ leBytes 2 32 ++ zeros 10 ++ leBytes 8 (c.f 16 8) ++ leBytes 8 (c.f 24 8)⟩,
      .pending (.pullAdd i))
  objects := fun _ => []

/-- Remove a pull range with its pulled granules. -/
def State.dropPull (s : State) (i : Nat) : State :=
  match s.store.pulls.find? fun p => p.index = i with
  | none => s
  | some p =>
    { s with store := { s.store with
        pulls := s.store.pulls.filter fun x => x.index ≠ i
        pulled := s.store.pulled.filter fun g => !inside g.gpa granuleSize p.gpa p.len } }

/-- PULL_REMOVE (0x0304): index 16–17, 18–23 reserved (log entry 12). -/
def opPullRemove : RelasOp where
  len := lenIs 24
  fields := fun c _ => firstBad [(decide (c.f 16 2 > 1023), 16), (nonzero c 18 6, 18)]
  conflict := fun c s => if s.store.pulls.any fun p => p.index = c.f 16 2 then none else some 16
  effect := fun c _ s => (s.dropPull (c.f 16 2), .pending (.pullRemove (c.f 16 2)))
  objects := fun c => [(.pull (c.f 16 2), 16)]

/-! ### Harbour areas (R87) -/

/-- The deep-tier map area in bytes: 0.25 GiB per TiB of raw NAND (Table 02-7), in whole GiB (Table 16-2). -/
def State.mapBytes (s : State) : Nat := ceilDiv s.deep.raw (2 ^ 42) * 2 ^ 30

/-- Harbour bytes in service: eight stacks of 48 × 10⁹ B less the retired ones (Table 02-7, R644). -/
def State.harbourBytes (s : State) : Nat := 48000000000 * (8 - s.faults.stacksOut.length)

/-- The cache region in bytes that three area sizes leave (R87). -/
def State.cacheBytes (s : State) (pin row mirror : Nat) : Int :=
  (s.harbourBytes : Int) - s.mapBytes - 2 ^ 30 - ((pin + row + mirror) * 2 ^ 30 : Nat)

/-- HARBOUR_AREAS (0x0305, R87), only staged. -/
def opHarbourAreas : RelasOp where
  len := lenIs 24
  fields := fun c _ => firstBad [(decide (c.f 16 2 > 256), 16), (decide (c.f 18 2 > 64), 18), (decide (c.f 20 2 > 32), 20), (nonzero c 22 2, 22)]
  effect := fun c _ s =>
    ({ s with store := { s.store with harbour := { s.store.harbour with
      pinGib := c.f 16 2, rowGib := c.f 18 2, mirrorGib := c.f 20 2 } } }, .done)
  objects := fun _ => [(.harbour, 16)]
  consistent := fun _ s =>
    decide (s.cacheBytes s.store.harbour.pinGib s.store.harbour.rowGib s.store.harbour.mirrorGib ≥ 128 * 2 ^ 30) &&
      decide (s.pinQuotas 65536 + s.translationBytes ≤ s.pinBytes)

end Sys2Proof.Machine
end

