-- ==== Sys2Proof/Machine/Breakwater.lean ====
section
/-! DEFINITION. Breakwater: resources and capacities, the calendar, prices, the admission test, refusal causes,
retry-after and weighted shares (spec 06: R286–R303). -/

namespace Sys2Proof.Machine

/-! ### Resources (Table 06-9, numbered as the RESOURCE counter group of Table 20-3) -/

abbrev resDeep : Nat := 8
abbrev resArray : Nat := 9
abbrev resPorter : Nat := 10
/-- Link egress of a bundle. -/
abbrev resEgress (b : Nat) : Nat := 11 + b
/-- Egress of a host port. -/
abbrev resHost (p : Nat) : Nat := 75 + p
abbrev resQuay : Nat := 79

/-- A remote shard's calendar resource of an index (R482): part 0 array hundredths, 1 Harbour bytes, 2 deep units. -/
def resRemote (index shard part : Nat) : Nat := 1000 + (index * 512 + shard) * 3 + part

/-- One calendar slot in ticks; slots on the calendar; the calendar in ticks. -/
abbrev slotTicks : Nat := 8000
abbrev calendarSlots : Nat := 100000
abbrev calendarTicks : Nat := 800000000

def slotOf (t : Nat) : Nat := t / slotTicks

/-- Channels of the populated groups that hold no failed unit (R634). -/
def State.liveChannels (s : State) : Nat :=
  ((s.deep.groups.map fun g => span (16 * g) 16).flatten.filter fun ch =>
    !s.deep.failed.any fun u => if u ≥ 0x8000 then u == 0x8000 + ch else u / 32 == ch).length

/-- The deep tier's units per slot (R618, R634). -/
def State.deepUnits (s : State) : Nat :=
  if s.liveChannels = 0 then 0 else max 1 (3 * min s.deep.luns 4 * s.liveChannels / 64)

/-- The capacity of Table 06-9 (arrays and Porter in hundredths). -/
def State.baseCap (s : State) (r : Nat) : Nat :=
  if r ≤ 7 then (if s.faults.stacksOut.contains r then 0 else 1550000)
  else if r = resDeep then s.deepUnits
  else if r = resArray then 3200 - 100 * s.faults.arraysLost.length
  else if r = resPorter then 6400
  else if r < 75 then
    match s.bundle (r - 11) with
    | some b => if b.opened then 100000 * (s.upLinks b).length else 0
    | none => 0
  else if r < 79 then
    match s.port (r - 75) with
    | some x => if x.up then 121000 * x.width / 16 else 0
    | none => 0
  else if r = 79 then 14000000
  else if r < 1000 then 0
  else
    -- R482: a remote shard's share of an index, divided by COORDINATORS
    match s.indices.list.find? fun (x : Index) => x.id = (r - 1000) / 3 / 512 with
    | some x => (match (r - 1000) % 3 with
        | 0 => x.remoteArray
        | 1 => x.remoteHbm
        | _ => x.remoteDeep) / x.coordinators
    | none => 0

/-- The fraction of a power cap, in hundredths (R777). -/
def fPower (w : Nat) : Nat := (w - 580) * 100 / 420

/-- A value in force at a tidetime, where a next one with its start stands (R778). -/
def inForce (now : Nat) (next : Option (Nat × Nat)) (t : Nat) : Nat :=
  match next with
  | some (v, start) => if start ≤ t then v else now
  | none => now

/-- The fraction in force at a tidetime, in hundredths (R777). -/
def State.fAt (s : State) (t : Nat) : Nat :=
  min (fPower (inForce s.power.capW s.power.capNext t)) (inForce s.power.fThermal s.power.thermalNext t)

/-- What a fraction leaves of a resource (R777). -/
def cappedAt (r f : Nat) : Option Nat :=
  if r ≤ 7 then some (15500 * f / 1000 * 1000) else if r = resArray then some (32 * f) else none

/-- The capacity of a resource in a slot (R303, R650, R777): the last announced reduction that has begun, else Table 06-9's, within
what the power cap leaves. -/
def State.capAt (s : State) (r t : Nat) : Nat :=
  let began := s.brk.reductions.filter fun x => x.resource = r ∧ x.start ≤ t
  let c := match began with
    | [] => s.baseCap r
    | x :: l => min (s.baseCap r) (l.foldl (fun a b => if a.start ≤ b.start then b else a) x).capacity
  match cappedAt r (s.fAt (t * slotTicks)) with
  | some k => min c k
  | none => c

/-- RESERVE_PCT of a resource in a slot: the configured value, or the last raise in force where that is higher (R302). -/
def State.reservePct (s : State) (r t : Nat) : Nat :=
  match s.brk.raises.filter fun x => x.resource = r ∧ x.fromSlot ≤ t with
  | [] => s.brk.reservePct
  | x :: l => max s.brk.reservePct (l.foldl (fun a b => if a.fromSlot ≤ b.fromSlot then b else a) x).pct

/-- The background reserve of a resource in a slot (R287). -/
def State.reserveAt (s : State) (r t : Nat) : Frac :=
  if r < 1000 then Frac.mk' (s.capAt r t * s.reservePct r t) 100 else ⟨0, 1⟩

/-- Demand of a list on one resource. -/
def demandOn (l : List (Nat × Nat)) (r : Nat) : Nat := sumNat ((l.filter fun x => x.1 = r).map (·.2))

/-- Standing reservations on a resource (R287): the plain pools' and, on a causeway, its forwarding share (R582). -/
def State.standingAt (s : State) (r t : Nat) : Frac :=
  let pools := sumNat (s.brk.standing.map fun x => demandOn x.demand r)
  let fwd : Frac := if 11 ≤ r ∧ r < 75 then
      match s.bundle (r - 11) with
      | some b => if b.kind = .causeway then Frac.mk' (s.capAt r t * b.fwdPct) 100 else ⟨0, 1⟩
      | none => ⟨0, 1⟩
    else ⟨0, 1⟩
  (Frac.ofNat pools).add fwd

/-- Foreground capacity (R287). -/
def State.foreground (s : State) (r t : Nat) : Frac :=
  ((Frac.ofNat (s.capAt r t)).sub (s.reserveAt r t)).sub (s.standingAt r t)

/-- What a booking takes of a resource in a slot (R295: demand / n evenly). -/
def Booking.use (b : Booking) (r t : Nat) : Frac :=
  if b.first ≤ t ∧ t < b.first + b.slots then Frac.mk' (demandOn b.demand r) b.slots else ⟨0, 1⟩

/-- Booked demand; `p` selects the bookings. -/
def State.booked (s : State) (p : Booking → Bool) (r t : Nat) : Frac :=
  Frac.sum ((s.brk.bookings.filter p).map fun b => b.use r t)

/-- The end of a booking: its last slot's end plus its tail (R295). -/
def Booking.finish (b : Booking) : Nat := (b.first + b.slots) * slotTicks + b.tail

/-! ### Prices (R289, R290) -/

/-- A price: demand per resource, the least dmin that the opcode states beside R289, the tail in ticks, and the tidetime
to which the entry is held (0: none; R290's BOLLARD_WAIT). -/
structure Price where
  demand : List (Nat × Nat)
  floor : Nat
  tail : Nat
  held : Nat
  deriving DecidableEq, Repr

/-- Per-descriptor limit per slot (Table 06-9). -/
def State.limitOf (s : State) (r t : Nat) : Nat :=
  if r = resDeep then 4 else if r = resArray then 1600 else if r = resPorter then 1600 else s.capAt r t

/-- Resources that a demand names. -/
def resourcesOf (l : List (Nat × Nat)) : List Nat := uniq ((l.filter fun x => x.2 ≠ 0).map (·.1))

/-- dmin (R289). -/
def State.dmin (s : State) (p : Price) (t : Nat) : Nat :=
  maxNat (max 1 p.floor :: (resourcesOf p.demand).map fun r =>
    let l := s.limitOf r t
    if l = 0 then calendarSlots + 1 else ceilDiv (demandOn p.demand r) l)

/-- size(v) (R298): the largest demand over foreground capacity per slot. -/
def State.sizeOf (s : State) (p : Price) : Frac :=
  ((resourcesOf p.demand).map fun r => (Frac.ofNat (demandOn p.demand r)).div (s.foreground r (slotOf s.now))).foldl Frac.max ⟨0, 1⟩

/-! ### Shares (R298) -/

def State.shareOf (s : State) (g : Nat) : Option Share := s.brk.shares.find? fun x => x.guest = g

def State.overShare (s : State) (g : Nat) : Bool := (s.shareOf g).any (·.beyond)

/-- Tokens that a guest over its share would hold at a later tidetime: at most 1 ms of allowance. -/
def Share.tokensAt (x : Share) (u : Nat) : Frac :=
  (x.tokens.add (x.allowance.mul (Frac.mk' (u - x.asOf) slotTicks))).min (x.allowance.mul (Frac.ofNat 1000))

/-- The unused share in a slot (R298): Σ max(0, S_h − booked_h[t]) over the guests under their share. -/
def State.headroom (s : State) (r t : Nat) : Frac :=
  Frac.sum ((s.brk.shares.filter fun x => !x.beyond).map fun x =>
    ((s.foreground r t).mul x.share).sub (s.booked (fun b => b.guest = x.guest) r t))

/-! ### The admission test (R295) -/

/-- In-flight entries held at a slot: descriptors whose booked end has not come by then (R283). -/
def State.entriesAt (s : State) (t : Nat) : Nat :=
  (s.queues.descs.filter fun d => decide (t * slotTicks ≤ d.bookEnd)).length

/-- What the test needs to know of a descriptor. -/
structure Ask where
  price : Price
  dmin : Nat
  guest : Nat
  cls : Nat
  deriving DecidableEq, Repr

/-- What the descriptor would use of a resource in each of `n` slots. -/
def Ask.use (a : Ask) (r n : Nat) : Frac := Frac.mk' (demandOn a.price.demand r) n

/-- What is booked of a resource in a slot, or nothing where the test is made on an empty calendar. -/
def State.bookedOr (s : State) (empty : Bool) (p : Booking → Bool) (r t : Nat) : Frac := if empty then ⟨0, 1⟩ else s.booked p r t

/-- The capacity check of `fits` in one slot (R295). -/
def State.capacityOk (s : State) (a : Ask) (n : Nat) (empty : Bool) (t : Nat) : Bool :=
  (resourcesOf a.price.demand).all fun r => ((s.bookedOr empty (fun _ => true) r t).add (a.use r n)).le (s.foreground r t)

/-- In one slot no capacity check fails only because of the headroom deduction of R298 (R297). -/
def State.headroomOk (s : State) (a : Ask) (u n : Nat) (empty : Bool) (t : Nat) : Bool :=
  empty || !s.overShare a.guest || decide (t < slotOf u + 100) || (resourcesOf a.price.demand).all fun r =>
    ((s.booked (fun _ => true) r t).add (a.use r n)).le ((s.foreground r t).sub (s.headroom r t)) ||
      !((s.booked (fun _ => true) r t).add (a.use r n)).le (s.foreground r t)

/-- The URGENT check of `fits` in one slot (R295). -/
def State.urgentOk (s : State) (a : Ask) (n : Nat) (empty : Bool) (t : Nat) : Bool :=
  decide (a.cls ≠ 3) || (resourcesOf a.price.demand).all fun r =>
    ((s.bookedOr empty (fun b => b.cls = 3) r t).add (a.use r n)).le (Frac.mk' (s.capAt r t) 10)

/-- The check of the in-flight limit of R283. -/
def State.inflightOk (s : State) (empty : Bool) (first : Nat) : Bool := empty || decide (s.entriesAt first + 1 ≤ 4096)

/-- The token check (R298), as at tidetime `u`. -/
def State.tokensOk (s : State) (a : Ask) (u : Nat) (empty : Bool) : Bool :=
  empty || !s.overShare a.guest || match s.shareOf a.guest with
    | some x => (s.sizeOf a.price).le (x.tokensAt u)
    | none => true

/-- `fits` (R295): every check of a slot passes in every slot of the span. -/
def State.fits (s : State) (a : Ask) (u n : Nat) (empty : Bool) (first : Nat) : Bool :=
  s.inflightOk empty first && (span first n).all fun t =>
    s.capacityOk a n empty t && s.headroomOk a u n empty t && s.urgentOk a n empty t

/-- The first number from `k` on that satisfies `p`, of `fuel` tried. -/
def firstFrom (p : Nat → Bool) : Nat → Nat → Option Nat
  | 0, _ => none
  | f + 1, k => if p k then some k else firstFrom p f (k + 1)

/-- First fit in the order of the loops of R295: the smallest stretch, then the earliest start. -/
def State.firstFit (s : State) (a : Ask) (u s0 last : Nat) (empty : Bool) : Option (Nat × Nat) :=
  if !s.tokensOk a u empty then none
  else [1, 2, 4, 8].findSome? fun k =>
    let n := a.dmin * k
    (firstFrom (s.fits a u n empty) (last + 2 - n - s0) s0).map fun t => (t, n)

/-- Every pair of start and length that the loops examine (R297). -/
def pairsOf (a : Ask) (s0 last : Nat) : List (Nat × Nat) :=
  ([1, 2, 4, 8].map fun k => (span s0 (last + 2 - a.dmin * k - s0)).map fun t => (t, a.dmin * k)).flatten

/-- A check of a slot passes at every pair: the spans of each length examined cover every slot from `s0` to `last`. -/
def everyPair (a : Ask) (s0 last : Nat) (p : Nat → Nat → Bool) : Bool :=
  [1, 2, 4, 8].all fun k => decide (last + 2 ≤ a.dmin * k + s0) || (span s0 (last + 1 - s0)).all (p (a.dmin * k))

/-- The cause of REFUSED_BUSY (R297). -/
def State.busyCause (s : State) (a : Ask) (s0 last : Nat) : Nat :=
  let u := s.now
  let ps := pairsOf a s0 last
  let inflight (p : Nat × Nat) : Bool := s.inflightOk false p.1
  let some' (f : Nat → Nat → Bool) (p : Nat × Nat) : Bool := (span p.1 p.2).any fun t => !f p.2 t
  let capacity := fun n t => s.capacityOk a n false t
  let headroom := fun n t => s.headroomOk a u n false t
  let urgent := fun n t => s.urgentOk a n false t
  let tokens := s.tokensOk a u false
  if ps.all (!inflight ·) then Cause.inflight
  else if a.cls = 3 ∧ tokens ∧ ps.all inflight ∧ ps.all (some' urgent) ∧ everyPair a s0 last capacity ∧ everyPair a s0 last headroom then
    Cause.urgentCap
  else if ps.all inflight ∧ (!tokens || ps.all (some' headroom)) ∧ everyPair a s0 last capacity ∧ everyPair a s0 last urgent then
    Cause.overShare
  else Cause.capacity

/-- The instants at which the outcome of the test can change: the next slot starts, the instants at which the last slot
of the moved deadline changes, and the instant at which the tokens cover the size (R297). -/
def State.retryTimes (s : State) (a : Ask) (dl k : Nat) : List Nat :=
  let base := (slotOf s.now + k) * slotTicks
  let phase := (s.now + slotTicks - (dl - a.price.tail) % slotTicks) % slotTicks
  let token := match s.shareOf a.guest with
    | some x => if x.beyond then x.asOf + ((((s.sizeOf a.price).sub x.tokens).mul (Frac.ofNat slotTicks)).div x.allowance).ceil else s.now
    | none => s.now
  let l := [base, base + phase] ++ if base ≤ token ∧ token < base + slotTicks then [token] else []
  sortBy (· ≤ ·) (l.filter fun u => decide (s.now ≤ u))

/-- The retry-after tidetime (R297): the earliest such instant at which the descriptor, its deadline moved with it, would
pass the test. -/
def State.retryAfter (s : State) (a : Ask) (dl fence : Nat) : Nat → Nat → Nat
  | 0, k => (slotOf s.now + k) * slotTicks
  | f + 1, k =>
    match (s.retryTimes a dl k).find? fun u =>
        let last := slotOf (dl + (u - s.now) - a.price.tail) - 1
        (s.firstFit a u (max (slotOf u + 1) fence) last false).isSome with
    | some u => u
    | none => s.retryAfter a dl fence f (k + 1)

/-- What admission answers. -/
inductive Verdict where
  | enter (first slots : Nat)
  | refuse (status cause result0 : Nat)
  deriving DecidableEq, Repr

/-- The default deadline of a class (Table 06-8). -/
def defaultTicks (cls : Nat) : Nat :=
  match cls with
  | 0 => 800000000
  | 1 => 80000000
  | 2 => 8000000
  | _ => 800000

/-- The deadline that the promise is made against (R284, R285). -/
def State.deadlineOf (s : State) (strict : Bool) (dl cls : Nat) : Nat :=
  if strict then s.now + calendarTicks
  else min (if dl = 0 then s.now + defaultTicks cls else dl) (s.now + calendarTicks)

/-- The admission test (R284, R295, R297): the fence slot, and the latest record that the descriptor's own waits for. -/
def State.admission (s : State) (a : Ask) (strict : Bool) (dl fence heldTo : Nat) : Verdict :=
  let s0 := max (slotOf s.now + 1) fence
  let last := slotOf (dl - a.price.tail) - 1
  let short := decide (last + 1 - s0 < a.dmin) || decide (dl < a.price.tail) || decide (dl < heldTo)
  if short then
    if strict && decide (a.dmin ≤ slotOf (dl - a.price.tail) - 1 - slotOf s.now) then
      .refuse Status.refusedBusy Cause.capacity (s.retryAfter a dl fence (2 * calendarSlots) 0)
    else .refuse Status.refusedDeadline Cause.past 0
  else match s.firstFit a s.now s0 last false with
    | some (t, n) => .enter t n
    | none =>
      match s.firstFit a s.now s0 last true with
      | none => .refuse Status.refusedDeadline Cause.infeasible 0
      | some _ => .refuse Status.refusedBusy (s.busyCause a s0 last) (s.retryAfter a dl fence (2 * calendarSlots) 0)

/-- A booking is made; a guest over its share pays tokens (take_tokens). -/
def State.book (s : State) (b : Booking) (size : Frac) : State :=
  { s with brk := { s.brk with
      bookings := s.brk.bookings ++ [b]
      shares := mapIf (fun x => x.guest = b.guest && x.beyond) (fun x => { x with tokens := (x.tokensAt s.now).sub size, asOf := s.now }) s.brk.shares } }

/-- A descriptor counts in its guest's offered load (R298). -/
def State.offer (s : State) (g : Nat) (size : Frac) : State :=
  { s with brk := { s.brk with loads := s.brk.loads ++ [⟨g, s.now, size⟩] } }

/-! ### SHARE_RECOMPUTE (R298) -/

/-- Loads of the last 1 ms. -/
def State.recentLoads (s : State) : List Load := s.brk.loads.filter fun l => decide (s.now < l.time + 8000000)

/-- Offered load of a guest, per µs. -/
def State.offered (s : State) (g : Nat) : Frac :=
  (Frac.sum ((s.recentLoads.filter fun l => l.guest = g).map (·.size))).div (Frac.ofNat 1000)

/-- The weight of a guest (the system guest's is its own). -/
def State.weightOf (s : State) (g : Nat) : Nat := ((s.guestRec g).map (·.weight)).getD 1

/-- The recomputation: shares of active guests, who is over, and allowances; tokens earned since the last one. -/
def State.recompute (s : State) : State :=
  let act := uniq (s.recentLoads.map (·.guest))
  let total := sumNat (act.map s.weightOf)
  let share (g : Nat) : Frac := Frac.mk' (s.weightOf g) total
  let beyond (g : Nat) : Bool := (share g).lt (s.offered g)
  let overs := act.filter beyond
  let u := (Frac.ofNat 1).sub (Frac.sum ((act.filter fun g => !beyond g).map s.offered))
  let x := Frac.sum (overs.map fun g => (s.offered g).sub (share g))
  let f := u.sub (Frac.sum (overs.map share))
  let rate (g : Nat) : Frac :=
    if x.le f then s.offered g else (share g).add ((((s.offered g).sub (share g)).mul f).div x)
  let one (g : Nat) : Share :=
    let tok : Frac := match s.shareOf g with
      | some old => if old.beyond then old.tokensAt s.now else ⟨0, 1⟩
      | none => ⟨0, 1⟩
    if beyond g then ⟨g, share g, true, rate g, tok.min ((rate g).mul (Frac.ofNat 1000)), s.now⟩
    else ⟨g, share g, false, ⟨0, 1⟩, ⟨0, 1⟩, s.now⟩
  { s with brk := { s.brk with loads := s.recentLoads, shares := act.map one, recomputed := s.now } }

/-- `SHARE_RECOMPUTE` (R298): due every 100 µs. -/
def execShareRecompute (s : State) : Host.Outcome State Fault Refusal :=
  if s.brk.recomputed + 800000 ≤ s.now then .next s.recompute else .next s

/-! ### Plain charges of one miss sample (R290) -/

/-- The measured miss ratio of an object over the last 10 ms, rounded up to a multiple of 1/64: in 64ths. -/
def State.missRatio64 (s : State) (kind object : Nat) : Nat :=
  let l := s.brk.samples.filter fun x => x.kind = kind ∧ x.object = object ∧ decide (s.now < x.time + 80000000)
  let r := sumNat (l.map (·.reads))
  let m := sumNat (l.map (·.misses))
  if r = 0 then 0 else ceilDiv (64 * m) r

/-- Record a sample of granules read and NAND reads issued for an object. -/
def State.sample (s : State) (kind object reads misses : Nat) : State :=
  { s with brk := { s.brk with
      samples := (s.brk.samples.filter fun x => decide (s.now < x.time + 80000000)) ++ [⟨kind, object, s.now, reads, misses⟩] } }

end Sys2Proof.Machine
end

