-- ==== Sys2Proof/Machine/Complete.lean ====
section
/-! DEFINITION. Completion records, error records, and the bollards they signal: the rings of a queue, records in queue
order, the bollard operations, and the chain by which one record or signal brings about the next (spec 06: R269–R273, R277,
R281, R282, R305; spec 13: R514–R530; spec 20: R750). -/

namespace Sys2Proof.Machine

/-! ### Reading a descriptor's header (Table 06-2) -/

def Desc.opcode (d : Desc) : Nat := fld d.bytes 0 1
def Desc.flag (d : Desc) (i : Nat) : Bool := bit (fld d.bytes 1 1) i
def Desc.cls (d : Desc) : Nat := fld d.bytes 2 1
def Desc.descId (d : Desc) : Nat := fld d.bytes 4 4
def Desc.f (d : Desc) (off n : Nat) : Nat := fld d.bytes off n
def Desc.fenceBefore (d : Desc) : Bool := d.flag 0
def Desc.fenceAfter (d : Desc) : Bool := d.flag 1
def Desc.latched (d : Desc) : Bool := d.flag 2
def Desc.snapshot (d : Desc) : Bool := d.flag 3
def Desc.signals (d : Desc) : Bool := d.flag 4
def Desc.interrupt (d : Desc) : Bool := d.flag 5

/-! ### Rings (R267–R273) -/

/-- Unconsumed records of a CQ and its reserved slots (R269). -/
def Cq.filled (q : Cq) : Nat := (q.write + q.depth - q.head) % q.depth + q.reserved

/-- The CQ can take `n` more slots: one slot always stays empty (R269). -/
def Cq.hasRoom (q : Cq) (n : Nat) : Bool := decide (q.filled + n ≤ q.depth - 1)

/-- Entries held by an error ring (R269). -/
def Sq.errFilled (q : Sq) : Nat := (q.errWrite + q.errDepth - q.errHead) % q.errDepth

/-- The error ring has a free entry. -/
def Sq.errRoom (q : Sq) : Bool := decide (q.errFilled + 1 ≤ q.errDepth - 1)

/-- A record of Table 06-3 with its phase bit. -/
def recordBytes (descId status reason queue : Nat) (extended phase : Bool) (time r0 r1 cause : Nat) : List Byte :=
  leBytes 4 descId ++ leBytes 1 status ++ leBytes 1 (b2n phase + 2 * reason) ++ leBytes 2 (queue + b2n extended * 2 ^ 15) ++
    leBytes 8 time ++ leBytes 8 r0 ++ leBytes 4 r1 ++ leBytes 4 cause

/-- The index after the next, and the phase there: the phase flips at every wrap (R270). -/
def ringStep (depth w : Nat) (phase : Bool) : Nat × Bool := if w + 1 = depth then (0, !phase) else (w + 1, phase)

/-- Put a record into a CQ (R269–R271): `first` and `second` give the bytes for a phase; the second slot of an extended
record is written before the first. -/
def State.cqWrite (s : State) (id : Nat) (first : Bool → List Byte) (second : Option (Bool → List Byte)) : State :=
  match s.cq id with
  | none => s
  | some q =>
    let at' (i : Nat) : Nat := gpaOffset q.ring + 32 * i
    let (w1, p1) := ringStep q.depth q.write q.phase
    match second with
    | none => (s.writeAt (at' q.write) (first q.phase)).setCq id fun q => { q with write := w1, phase := p1 }
    | some b =>
      let (w2, p2) := ringStep q.depth w1 p1
      ((s.writeAt (at' w1) (b p1)).writeAt (at' q.write) (first q.phase)).setCq id fun q => { q with write := w2, phase := p2 }

/-- A notification of a CQ is due at the end of the present slot; notifications of one slot merge (R273). -/
def State.cqNotify (s : State) (id : Nat) : State :=
  s.setCq id fun q => if q.notifyKind = 0 then q else { q with merged := q.merged + 1 }

/-- Write an error-ring record (R272, R277): it consumes an entry, notifies the CQ, counts, and stops a queue with
STOP_ON_REFUSAL. -/
def State.refusal (s : State) (sq : Nat) (descId slot status cause r0 : Nat) : State :=
  match s.sq sq with
  | none => s
  | some q =>
    let s := s.writeAt (gpaOffset q.errGpa + 32 * q.errWrite)
      (recordBytes descId status 0 sq false q.errPhase s.now r0 slot cause)
    let (w, p) := ringStep q.errDepth q.errWrite q.errPhase
    let s := s.setSq sq fun q => { q with
      errWrite := w, errPhase := p, refusals := u32 (q.refusals + 1), stopped := q.stopped || q.stopOnRefusal }
    ((s.cqNotify q.cq).count 1 q.guest 1 1).count 2 sq 2 1

/-! ### The bollards (R514–R522) -/

/-- A bollard address (Table 13-1): home shore and number, none where a reserved bit is set. -/
def bollardAddr (a : Nat) : Option (Nat × Nat) :=
  if bits a 63 57 ≠ 0 ∨ bits a 47 17 ≠ 0 then none else some (bits a 56 48, bits a 16 0)

/-- cond: 0 GE, 1 EQ, 2 NE (Table 13-2). -/
def condHolds (cond v x : Nat) : Bool :=
  match cond with
  | 0 => decide ((v + 2 ^ 64 - x % 2 ^ 64) % 2 ^ 64 < 2 ^ 63)
  | 1 => decide (v = x)
  | _ => decide (v ≠ x)

/-- A guest may use a bollard (R515). -/
def Bollard.admits (b : Bollard) (g : Nat) : Bool := g == 0 || b.owner == g || b.also.contains g

/-- SIGNAL's new value: 0 ADD, 1 SET, 2 MAX (Table 13-2). -/
def signalValue (op old x : Nat) : Nat :=
  match op with
  | 0 => u64 (old + x)
  | 1 => u64 x
  | _ => max old (u64 x)

def State.setBollard (s : State) (n v : Nat) : State :=
  { s with boll := { s.boll with list := mapIf (fun b => b.id = n) (fun b => { b with value := BitVec.ofNat 64 v }) s.boll.list } }

/-- The wait table can take one more entry of a guest (R522). -/
def State.waitRoom (s : State) (g : Nat) : Bool :=
  decide (s.boll.waits.length < 32768 ∧ (s.boll.waits.filter fun w => w.guest = g).length < 4096)

def State.addWait (s : State) (w : Wait) : State :=
  { s with boll := { s.boll with waits := s.boll.waits ++ [{ w with id := s.boll.nextWait }], nextWait := s.boll.nextWait + 1 } }

def State.dropWait (s : State) (id : Nat) : State :=
  { s with boll := { s.boll with waits := s.boll.waits.filter fun w => w.id ≠ id } }

/-! ### The chain of records and signals -/

/-- What still has to come about within the same step. -/
inductive Task where
  | record (desc : Nat)
  | signal (bollard op operand : Nat)
  deriving DecidableEq, Repr

/-- A wait is answered, satisfied or timed out, with a value (R519, R523, R527, Table 13-6). -/
def State.answerWait (s : State) (w : Wait) (v : Nat) (timedOut : Bool) : State × List Task :=
  let s := s.dropWait w.id
  let value := match w.arrive with
    | some (old, _) => old
    | none => v
  match w.waiter with
  | .desc id =>
    let c : Completion := {
      status := if timedOut then Status.okPartial else Status.ok
      reason := if timedOut then 0x0A else 0
      result0 := value, result1 := (w.arrive.map (·.2)).getD 0, cause := 0 }
    (s.setDesc id fun d => { d with done := some c }, [.record id])
  | .sxf m => (s.reply m Sxf.bollardValue Status.ok 0 value timedOut false [], [])
  | .ticket id => (s.endTicket id Result.done (b2n timedOut) v, [])

/-- Every pending wait and arrive on the bollard is tested against the new value, in the order of registration (R519). -/
def State.testWaits (s : State) (n v : Nat) : State × List Task :=
  (s.boll.waits.filter fun w => w.bollard = n && condHolds w.cond v w.operand).foldl
    (fun a w => let (s', ts) := a.1.answerWait w v false; (s', a.2 ++ ts)) (s, [])

/-- SIGNAL at its place in the bollard's order (R517, R518). -/
def State.signal (s : State) (n op x : Nat) : State × List Task :=
  match s.bollard n with
  | none => (s, [])
  | some b =>
    let v := signalValue op b.value.toNat x
    (s.setBollard n v).testWaits n v

/-- ARRIVE (Table 13-2, R517): the position in the phase, and the wait for its end. -/
def State.arrive (s : State) (n g expires : Nat) (by_ : WaitBy) : State × List Task :=
  match s.bollard n with
  | none => (s, [])
  | some b =>
    let old := b.value.toNat
    let e := (old / b.parties + 1) * b.parties
    ((s.setBollard n (u64 (old + 1))).addWait ⟨0, n, g, 0, u64 e, some (old, old % b.parties), expires, by_⟩).testWaits n (u64 (old + 1))

/-- Free values from the present one on, and the state after drawing `n` of them. -/
def State.freeAt (s : State) (i : Nat) : Nat := Config.drawn (s.free + i)
def State.drewN (s : State) (n : Nat) : State := { s with free := s.free + n }

/-- A figure within 2 % of a price (R292): the measured consumption is free within that bound. -/
def near (p free : Nat) : Nat := p - p / 50 + free % (2 * (p / 50) + 1)

/-- A descriptor's measured consumption (Table 20-5): Harbour bytes, Quay bytes, egress bytes, deep units, array and channel
hundredths. -/
def State.consumed (s : State) (d : Desc) : List Nat :=
  let sumOf (p : Nat → Bool) : Nat := sumNat ((d.demand.filter fun x => p x.1).map (·.2))
  let price := [sumOf (· ≤ 7), sumOf (· = resQuay), sumOf (fun r => 11 ≤ r ∧ r < 75), sumOf (· = resDeep), sumOf (· = resArray), sumOf (· = resPorter)]
  (List.range 6).map fun i => near (price.getD i 0) (s.freeAt i)

/-- A value saturated to a field of `n` bytes. -/
def sat (n v : Nat) : Nat := min v (2 ^ (8 * n) - 1)

/-- The second slot of an extended record (Table 20-5). -/
def latchBytes (descId slots : Nat) (l : List Nat) (phase : Bool) : List Byte :=
  leBytes 4 descId ++ leBytes 1 1 ++ leBytes 1 (b2n phase) ++ leBytes 2 (sat 2 slots) ++ leBytes 4 (sat 4 (ceilDiv (l.getD 0 0) 64)) ++
    leBytes 4 (sat 4 (ceilDiv (l.getD 1 0) 64)) ++ leBytes 4 (sat 4 (ceilDiv (l.getD 2 0) 256)) ++ leBytes 2 (sat 2 (l.getD 3 0)) ++
    zeros 2 ++ leBytes 4 (sat 4 (l.getD 4 0)) ++ leBytes 4 (sat 4 (l.getD 5 0))

/-- The guest's consumption counters after a descriptor (Table 20-3, group GUEST). -/
def State.countUse (s : State) (g : Nat) (l : List Nat) : State :=
  (((((s.count 1 g 5 (l.getD 0 0)).count 1 g 6 (l.getD 1 0)).count 1 g 7 (l.getD 3 0)).count 1 g 8 (10 * l.getD 4 0)).count 1 g 9
    (10 * l.getD 5 0)).count 1 g 10 (ceilDiv (l.getD 2 0) 256)

/-- The completion as recorded: an OK status after the deadline of a descriptor that met a single fault becomes
OK_LATE_FAULT with the fault's unit class and the lateness in ns (R281, R305, R306); STRICT work never does (R284). -/
def State.finalStatus (s : State) (d : Desc) (c : Completion) : Completion :=
  if c.status ≤ Status.okPartial ∧ !d.strict ∧ d.deadline < s.now ∧ !d.faults.isEmpty then
    { c with status := Status.okLateFault
             reason := ((d.faults.getLast?).map (·.1)).getD 0
             cause := min (ceilDiv (s.now - d.deadline) 8) 0xFFFFFFFF }
  else c

/-- The QUEUE counter that a status adds to (Table 20-3). -/
def statusCounter (status : Nat) : Nat := if status ≤ 3 then 4 + status else 8

/-- A descriptor is caught by a single fault (R305): its unit class and time. -/
def State.singleFault (s : State) (cls : Nat) : State :=
  { s with queues := { s.queues with descs := s.queues.descs.map fun d => { d with faults := d.faults ++ [(cls, s.now)] } } }

/-- What the ATS invalidations of the ports wait for changes; those that wait for nothing are answered (R612). -/
def State.mapInvalidations (s : State) (f : Invalidation → Invalidation) : State :=
  s.host.ports.foldl (fun s p =>
    let xs := p.invalidations.map f
    let ready := xs.filter fun x => x.descs.isEmpty && x.walks.isEmpty
    let s := s.setPort p.id fun q => { q with invalidations := xs.filter fun x => !(x.descs.isEmpty && x.walks.isEmpty) }
    ready.foldl (fun s x => s.emit (.atsInvalidated p.id x.tag)) s) s

/-- Nothing of a finished descriptor stays behind: held slots, waits, miss entries it waited on, Porter channels. -/
def State.forget (s : State) (id : Nat) : State :=
  let s := s.freeHeld id
  let h := s.store.harbour
  { s with
    boll := { s.boll with waits := s.boll.waits.filter fun w => w.waiter ≠ .desc id }
    store := { s.store with harbour := { h with
      misses := h.misses.map fun m => { m with waiters := m.waiters.filter fun w => w ≠ .work id } } }
    porter := { s.porter with
      channels := mapIf (fun c => c.st = .running id) (fun c => { c with st := .idle, retries := [] }) s.porter.channels }
    queues := { s.queues with descs := s.queues.descs.filter fun (d : Desc) => d.id ≠ id } }

/-- Write a descriptor's completion record when it may be written now: its writes have been answered, and under
ORDERED_COMPLETION no earlier descriptor of its SQ is in flight (R269, R271, R282, R524). -/
def State.record (s : State) (id : Nat) : State × List Task :=
  match s.desc id with
  | none => (s, [])
  | some d =>
    match d.done, s.sq d.queue with
    | some c0, some q =>
      let others := s.queues.descs.filter fun x => x.queue = d.queue ∧ x.id ≠ id
      if !d.awaiting.isEmpty ∨ (q.ordered ∧ others.any fun x => x.seq < d.seq) then (s, [])
      else
        let c := s.finalStatus d c0
        let use := s.consumed d
        let s := (s.drewN 6).countUse d.guest use
        let lat := if d.latch.isEmpty then use else d.latch
        let slots := slotOf s.now - slotOf d.start
        let second : Option (Bool → List Byte) := if d.latched then some (latchBytes d.descId slots lat) else none
        let s := s.cqWrite q.cq (fun p => recordBytes d.descId c.status c.reason d.queue d.latched p s.now c.result0 c.result1 c.cause) second
        let s := s.setCq q.cq fun k => { k with reserved := k.reserved - (1 + b2n d.latched) }
        let s := if d.interrupt then s.cqNotify q.cq else s
        let s := s.count 2 d.queue (statusCounter c.status) 1
        let s := if c.status = Status.okLateFault then s.count 1 d.guest 2 1 else s
        let s := (s.forget id).mapInvalidations fun x => { x with descs := x.descs.filter (· ≠ id) }
        let sig : List Task := match d.signals, q.bollard with
          | true, some b => [.signal b 0 1]
          | _, _ => []
        (s, sig ++ if q.ordered then others.map fun x => Task.record x.id else [])
    | _, _ => (s, [])

/-- Carry out tasks and what they bring about. -/
def State.settle : Nat → List Task → State → State
  | 0, _, s => s
  | _ + 1, [], s => s
  | f + 1, t :: ts, s =>
    let (s', new) := match t with
      | .record d => s.record d
      | .signal b op x => s.signal b op x
    State.settle f (ts ++ new) s'

/-- Enough fuel: each descriptor is recorded once, signals once, and asks its successors once; each wait is answered once. -/
def State.fuel (s : State) (n : Nat) : Nat :=
  let k := s.queues.descs.length
  n + 2 * k + k * k + s.boll.waits.length + 1

/-- Carry out tasks to their end. -/
def State.run (s : State) (ts : List Task) : State := State.settle (s.fuel ts.length) ts s

/-- A descriptor's work has ended with this completion: its record is written as soon as it may be. -/
def State.complete (s : State) (id : Nat) (c : Completion) : State :=
  (s.setDesc id fun d => { d with done := some c, phase := .finished }).run [.record id]

/-- Signal a bollard with all that follows (R401, R524). -/
def State.signalRun (s : State) (n op x : Nat) : State := s.run [.signal n op x]

/-! ### Poison consumed (R653, R654) -/

/-- The guest is quarantined on this shore. -/
def State.quarantined (s : State) (g : Nat) : Bool :=
  match s.guestRec g with
  | some x => x.quarantined
  | none => false

/-- CAUSE QUARANTINED (R679). -/
abbrev causeQuarantined : Nat := 0x52

/-- INT_STATUS bit GUEST of a guest's owner port (Table 23-14). -/
def State.guestNotice (s : State) (g : Nat) : State :=
  match s.guestRec g with
  | some x => if x.ownerJetty then s else s.interruptOn x.ownerPort 9
  | none => s

/-- A guest consumes poison that this shore delivers (R653, R654, Table 17-3): it is counted and recorded; a guest other than
the system guest is quarantined, and its descriptors in flight complete with FAULT_POISON, cause QUARANTINED. -/
def State.consume (s : State) (g gpa : Nat) : State :=
  let s := s.count 1 g 4 1
  let seen := s.report ⟨evPoisonConsumed, sevUncorrected, 0, 0, 1, g, gpa, 0, 1⟩
  if s.quarantined g then s
  else if g = 0 then seen
  else
    let s := (seen.setGuest g fun x => { x with quarantined := true }).guestNotice g
    let s := s.report ⟨evQuarantine, sevUncorrected, 0, 0, 6, g, gpa, causeQuarantined, 0⟩
    ((s.queues.descs.filter fun d => d.guest = g ∧ d.done.isNone).map (·.id)).foldl
      (fun s d => s.complete d ⟨Status.faultPoison, 0, 0, 0, causeQuarantined⟩) s

end Sys2Proof.Machine
end

