-- ==== Sys2Proof/Machine/Parity.lean ====
section
/-! DEFINITION. Cross-shore parity at work: deltas from the home, deltas at a parity member, TAKEOVER messages, and the
accesses that a serving shore handles for a dead one (spec 17: R660–R666). -/

namespace Sys2Proof.Machine

/-- CAUSE of a stripe with too many lost members (R679). -/
abbrev causeLostStripe : Nat := 0x53

/-- A message of this shore itself, under one of its tags, with an agent field and ORDERED. -/
def State.controlAs (s : State) (op guest agent : Nat) (ordered : Bool) (gpa : Nat) (units : List Byte) : State × Option Nat :=
  match s.freeTag with
  | none => (s, none)
  | some t =>
    let m : SxfMsg := ⟨noBundle, 3, SxfMsg.reqUnit op ordered false s.self t guest agent gpa, units⟩
    let (s', sent) := s.forward m
    if sent then (s'.addOutstanding ⟨t, noBundle, 0, t, gpaShore gpa, m, false, false, none, s.now⟩, some t) else (s', none)

/-- A message of this shore itself, under one of its tags. -/
def State.control (s : State) (op guest gpa : Nat) (units : List Byte) : State × Option Nat := s.controlAs op guest 0 false gpa units

/-- The GPA field of a TAKEOVER message (Table 17-5). -/
def takeoverGpa (dest kind subject word field : Nat) : Nat :=
  kind % 16 + subject % 512 * 2 ^ 4 + word % 65536 * 2 ^ 13 + field % 256 * 2 ^ 29 + dest % 512 * 2 ^ 48

/-- Send a TAKEOVER message to a shore; the tag it waits for. -/
def State.takeover (s : State) (dest kind subject word field payload : Nat) : State × Option Nat :=
  s.control Sxf.takeover 0 (takeoverGpa dest kind subject word field) (leBytes 16 payload)

/-- The other live members of this shore's protection set. -/
def State.peers (s : State) : List Nat :=
  (s.fabric.members s.self).filter fun x => decide (x ≠ s.self) && !s.faults.dead.contains x

/-- Replicate a change of a protected cove's state to every member of the set (R662); the tags of the messages. -/
def State.replicate (s : State) (cove field payload : Nat) : State × List Nat :=
  s.peers.foldl (fun (a : State × List Nat) x =>
    match a.1.takeover x 5 s.self cove field payload with
    | (s', some t) => (s', a.2 ++ [t])
    | (s', none) => (s', a.2)) (s, [])

/-- One sector's delta to one parity member (R660). -/
def State.sendDelta (s : State) (member pIndex scale secOff : Nat) (mask : Nat) (delta : List Byte) : State × Option Nat :=
  s.control Sxf.writeMasked 0 (gpaOf member (s.protBase + granuleSize * pIndex + secOff))
    (leBytes 8 mask ++ zeros 8 ++ (if scale = 1 then delta else gfScale scale delta))

/-- The deltas of one owed change, sector by sector, to every live parity member. -/
def State.sendOwed (s : State) (off : Nat) (x : List Byte) : State × List Nat :=
  (sectorsOf off x.length).foldl (fun (a : State × List Nat) sec =>
    let o := sec * 64
    let lo := max off o
    let hi := min (off + x.length) (o + 64)
    let part := zeros (lo - o) ++ slice x (lo - off) (hi - lo) ++ zeros (o + 64 - hi)
    let mask := sumNat ((span (lo - o) (hi - lo)).map (2 ^ ·))
    let st := s.fabric.stripe s.self (o / granuleSize)
    (s.liveParity st).foldl (fun (a : State × List Nat) p =>
      match a.1.sendDelta p.1 p.2.1 (if p.2.2 then gfPow st.pos else 1) (o % granuleSize) mask part with
      | (s', some t) => (s', a.2 ++ [t])
      | (s', none) => (s', a.2)) a) (s, [])

/-- Send every delta owed; the tags that an acknowledgement must wait for (R660). -/
def State.flushDeltas (s : State) : State × List Nat :=
  let owed := s.faults.owed
  owed.foldl (fun (a : State × List Nat) x =>
    let (s', ts) := a.1.sendOwed x.1 x.2
    (s', a.2 ++ ts)) ({ s with faults := { s.faults with owed := [] } }, [])

/-- Send a response now, or when the deltas it waits for have been performed (R660). -/
def State.replyAfter (s : State) (tags : List Nat) (via : Nat) (r : SxfMsg) : State :=
  if tags.isEmpty then s.sendBack via r
  else { s with faults := { s.faults with deltas := s.faults.deltas ++ [⟨tags, some r, via, none⟩] } }

/-- A delta has been performed: what waited for it alone goes out. -/
def State.deltaDone (s : State) (tag : Nat) : State :=
  let ds := s.faults.deltas.map fun d => { d with tags := d.tags.filter (· ≠ tag) }
  let ready := ds.filter fun d => d.tags.isEmpty
  let s := { s with faults := { s.faults with deltas := ds.filter fun d => !d.tags.isEmpty } }
  ready.foldl (fun s d =>
    let s := match d.reply with
      | some r => s.sendBack d.via r
      | none => s
    match d.host with
    | some (p, t) => s.emit (.cxlDone p t)
    | none => s) s

/-- A delta arrives at this parity member: the enabled bytes are XORed in (R660); one from a shore marked dead is refused
(R664). -/
def State.takeDelta (s : State) (m : SxfMsg) : State :=
  if s.faults.dead.contains m.src then s.refuse m Status.faultDeadTarget Cause.deadHome
  else
    let off := gpaOffset m.gpa
    let old := s.bytesAt off 64
    let new := (List.range 64).map fun i =>
      if bit (m.f 0 8) i then old.getD i 0 ^^^ (m.units.drop 16).getD i 0 else old.getD i 0
    ({ s with store := { s.store with mem := Mem.write s.store.mem off new } }).reply m Sxf.done Status.ok 0 0 false false []

/-- The message is a delta to this shore's protection region from a member of its set. -/
def State.isDelta (s : State) (m : SxfMsg) : Bool :=
  m.op == Sxf.writeMasked && s.takesPart && decide (s.protBase ≤ gpaOffset m.gpa) && (s.fabric.members s.self).contains m.src

/-! ### Granules of a dead shore served here (R665) -/

def State.takenAt (s : State) (gpa : Nat) : Option Taken :=
  s.faults.taken.find? fun x => x.gpa = gpa / granuleSize * granuleSize

/-- The protected bit of a data position of a parity granule of this shore (R659). -/
def State.protectedBit (s : State) (idx pos : Nat) : Bool := s.faults.parityBits.contains (idx, pos)

/-- The parity granule of this shore in a stripe, and whether it is Q. -/
def State.ownParity (s : State) (st : Stripe) : Nat × Bool := if st.pShore = s.self then (st.pIndex, false) else (st.qIndex, true)

/-- Members of a stripe that are lost. -/
def State.lostMembers (s : State) (st : Stripe) : Nat :=
  ((st.data.map (·.1) ++ if s.fabric.parity = 2 then [st.pShore, st.qShore] else [st.pShore]).filter
    fun x => s.faults.dead.contains x).length

/-- The replicated grant of a guest on an offset of a dead shore (R662, R665). -/
def State.replicaAllows (s : State) (shore g off n : Nat) (a : Access) : Bool :=
  match s.faults.replicas.find? fun r => decide (r.shore = shore ∧ r.base ≤ off ∧ off + n ≤ r.base + r.size) with
  | none => false
  | some r => ((r.grants.find? fun x => x.guest = g).getD ⟨g, false, false, false⟩).has a

/-- Sectors of one live member that a rebuild reads, under this shore's tags. -/
def State.readMember (s : State) (shore k scale : Nat) : State × List (Nat × Nat × Nat) :=
  (List.range 256).foldl (fun (a : State × List (Nat × Nat × Nat)) i =>
    match a.1.control 0x26 0 (gpaOf shore (k * granuleSize + i * 64)) [] with
    | (s', some t) => (s', a.2 ++ [(t, scale, i)])
    | (s', none) => (s', a.2)) (s, [])

/-- Begin the rebuild of a granule of a dead shore from this shore's parity granule and the live data members (R665). From Q
the sum of 2^u D_u is taken and the result divided by 2^t at the end. -/
def State.beginRebuild (s : State) (gpa : Nat) (w : List SxfMsg) : State :=
  let h := gpaShore gpa
  let st := s.fabric.stripe h (gpaOffset gpa / granuleSize)
  let (idx, q) := s.ownParity st
  let others := st.data.zipIdx.filter fun (x, u) => decide (u ≠ st.pos) && s.protectedBit idx u && !s.faults.dead.contains x.1
  let (s', tags) := others.foldl (fun (a : State × List (Nat × Nat × Nat)) x =>
    let (s', ts) := a.1.readMember x.1.1 x.1.2 (if q then gfPow x.2 else 1)
    (s', a.2 ++ ts)) (s, [])
  let par := Mem.cut s.store.mem (s.protBase + granuleSize * idx) granuleSize
  { s' with faults := { s'.faults with rebuilds := s'.faults.rebuilds ++
      [⟨gpa / granuleSize * granuleSize, if q then gfInvPow st.pos else 1, tags, par, w⟩] } }

/-- The data of a served access. -/
def State.serveTaken (s : State) (m : SxfMsg) (k : Taken) : State :=
  let off := m.gpa % granuleSize
  let n := m.size
  let bad := (sectorsOf off n).any fun p => k.poisoned.contains p
  let put (s : State) (bs : List Byte) : State :=
    let upd (x : Taken) : Taken := { x with
      mem := Mem.write x.mem off bs
      poisoned := x.poisoned.filter fun p => !(sectorsIn off bs.length).contains p }
    { s with faults := { s.faults with taken := mapIf (fun x => x.gpa = k.gpa) upd s.faults.taken } }
  if m.isRead then s.reply m Sxf.data Status.ok 0 0 false bad (fit (16 * ceilDiv n 16) (Mem.read k.mem off n))
  else (put s (m.writeData (Mem.read k.mem off n))).reply m Sxf.done Status.ok 0 0 false false []

/-- A memory request for a dead shore that this shore serves (R665): rights against the replicas, protection, lost stripes,
then the granule kept here or its rebuild. An atomic whose tag its parity member has recorded is answered with the recorded
old value and takes effect once (R216, R662). -/
def State.servedAccess (s : State) (atomicNew : Nat → Nat → Nat → Nat → Nat → Nat → Nat) (m : SxfMsg) : State :=
  let h := gpaShore m.gpa
  let off := gpaOffset m.gpa
  let st := s.fabric.stripe h (off / granuleSize)
  let (idx, _) := s.ownParity st
  if !s.replicaAllows h m.guest off m.size m.access then s.refuse m Status.refusedRights Cause.noGrant
  else if s.lostMembers st > s.fabric.parity then s.refuse m Status.faultDeadTarget causeLostStripe
  else match s.takenAt m.gpa with
    | some k =>
      if m.isAtomic then
        match s.faults.atomics.find? fun r => r.src = m.src ∧ r.tag = m.tag with
        | some r => s.reply m Sxf.atomicOld Status.ok 0 0 false false (leBytes 16 r.old)
        | none =>
          let o := m.gpa % granuleSize
          let w := m.atWidth
          let old := leNat (Mem.read k.mem o w)
          let new := atomicNew m.atOp m.atType w old (m.f 16 16) (m.f 32 16)
          let upd (x : Taken) : Taken := { x with mem := Mem.write x.mem o (leBytes w new) }
          ({ s with faults := { s.faults with taken := mapIf (fun x => x.gpa = k.gpa) upd s.faults.taken } }).reply m Sxf.atomicOld Status.ok 0 0
            false false (leBytes 16 old)
      else s.serveTaken m k
    | none =>
      if !s.protectedBit idx st.pos then s.refuse m Status.faultDeadTarget Cause.deadHome
      else if s.faults.rebuilds.any fun r => r.gpa = m.gpa / granuleSize * granuleSize then
        let upd (r : Rebuild) : Rebuild := { r with waiters := r.waiters ++ [m] }
        { s with faults := { s.faults with
          rebuilds := mapIf (fun r => r.gpa = m.gpa / granuleSize * granuleSize) upd s.faults.rebuilds } }
      else s.beginRebuild m.gpa [m]

end Sys2Proof.Machine
end

