-- ==== Sys2Proof/Machine/Access.lean ====
section
/-! DEFINITION. Plain accesses at their home and at their ingress shore (spec 02, 04, 13, 14): the rights check, the
directory's transactions, the Harbour's miss entries, atomics, posted Pilot writes, ordered accesses and fences. -/

namespace Sys2Proof.Machine

/-! ### Atomics (R531–R533) -/

/-- MIN and MAX of FP32 lanes: −0 below +0; a NaN gives way to the other (R532). -/
def fpMinMax (isMax : Bool) (a b : Nat) : Nat :=
  let x := decodeElem .fp32 a
  let y := decodeElem .fp32 b
  if x = .nan ∧ y = .nan then 0x7FC00000
  else if x = .nan then b
  else if y = .nan then a
  else
    let less := x.lt y || (x.isZero && y.isZero && bit a 31 && !bit b 31)
    if isMax then (if less then b else a) else (if less then a else b)

/-- One FP32 lane of an atomic (R532). -/
def fpLane (op a b : Nat) : Nat :=
  match op with
  | 0 => (roundTo .fp32 ((decodeElem .fp32 a).add (decodeElem .fp32 b)) rmodeDefault 0).1
  | 1 => fpMinMax false a b
  | _ => fpMinMax true a b

/-- The new value of an atomic (R532): OP, TYPE, width in bytes, old word, operand, compare. -/
def atomicNew (op ty w old operand compare : Nat) : Nat :=
  let md := 2 ^ (8 * w)
  if op = 3 then (if old % md = compare % md then operand % md else old)
  else if ty = 2 then
    (List.range (w / 4)).foldl (fun acc i =>
      acc + fpLane op (old / 2 ^ (32 * i) % 2 ^ 32) (operand / 2 ^ (32 * i) % 2 ^ 32) * 2 ^ (32 * i)) 0
  else match op with
    | 0 => (old + operand) % md
    | 1 => if ty = 1 then (if toSigned (8 * w) operand < toSigned (8 * w) old then operand % md else old)
           else min old (operand % md)
    | _ => if ty = 1 then (if toSigned (8 * w) old < toSigned (8 * w) operand then operand % md else old)
           else max old (operand % md)

/-! ### Serving at the home -/

/-- A deep-tier read of a granule is issued to the page that the map names (R45, R93, R629); a Harbour miss is counted. -/
def State.issueRead (s : State) (g : Nat) : State :=
  let s := s.count 4 (s.stackFor (g * granuleSize)) 1 1
  match s.deep.map.find? fun e => e.granule = g with
  | none => s
  | some e =>
    if s.deep.reads.any fun r => r.granule = g then s
    else { s with deep := { s.deep with reads := s.deep.reads ++ [⟨g, e.die, e.block, e.stripe, false, false, false⟩] } }

/-- Join or open the miss entry of a granule with a waiting access (R45, R93). -/
def State.joinMiss (s : State) (g : Nat) (w : Waiter) (allocate : Bool) : State :=
  let h := s.store.harbour
  let ms := if h.misses.any fun m => m.granule = g then
      mapIf (fun m => m.granule = g) (fun m => { m with waiters := m.waiters ++ [w] }) h.misses
    else h.misses ++ [⟨g, s.now, [w], [], allocate, false, false⟩]
  let s' := { s with store := { s.store with harbour := { h with misses := ms } } }
  if h.misses.any fun m => m.granule = g then s' else s'.issueRead g

/-- A write reaches a granule that is absent: the miss entry holds it (R90), so it is complete at once (R91). -/
def State.holdWrite (s : State) (g : Nat) (secs : List Nat) : State :=
  let h := s.store.harbour
  let ms := if h.misses.any fun m => m.granule = g then
      mapIf (fun m => m.granule = g) (fun m => { m with held := uniq (m.held ++ secs), allocate := true }) h.misses
    else h.misses ++ [⟨g, s.now, [], secs, true, false, false⟩]
  let s' := { s with store := { s.store with harbour := { h with misses := ms } } }
  if h.misses.any fun m => m.granule = g then s' else s'.issueRead g

/-- The granule waits on an open miss entry whose data has not come. -/
def State.missOpen (s : State) (g : Nat) : Bool :=
  s.store.harbour.misses.any fun m => m.granule = g ∧ !m.filled

/-- Answer a plain read with its data (R569: POISON where a sector it touches is poisoned; R654). -/
def State.answerRead (s : State) (m : SxfMsg) (data : List Byte) : State :=
  let bad := !(s.poisonIn (gpaOffset m.gpa) m.size).isEmpty
  let s := s.reply m Sxf.data Status.ok 0 0 false bad (fit (16 * ceilDiv m.size 16) data)
  if bad ∧ ((s.bundle m.via).any fun b => b.kind = .jetty) then s.consume m.guest m.gpa else s

/-- Perform a read at its home: now, or when its granule has been filled (R45). -/
def State.serveRead (s : State) (m : SxfMsg) : State :=
  let off := gpaOffset m.gpa
  let g := off / granuleSize
  let data := s.bytesAt off m.size
  if s.absent g || s.missOpen g then s.joinMiss g (.plain m data) (s.clsAt off = .prefer)
  else (s.touchRead g).answerRead m data

/-- Write bytes at a home, into the Harbour or an open miss entry (R90, R91). -/
def State.applyWrite (s : State) (off : Nat) (data : List Byte) : State :=
  let g := off / granuleSize
  if s.absent g || s.missOpen g then
    let n := data.length
    let st := s.store.retain g
    let whole := sectorsIn off n
    let s := (s.owe off data).dropRows off n
    let s := { s with store := { st with mem := Mem.write st.mem off data, poison := st.poison.filter fun p => !whole.contains p } }
    s.holdWrite g whole
  else s.writeAt off data

/-- The access is to a Pilot cove of this shore. -/
def State.pilotAt (s : State) (off : Nat) : Bool := (s.coveAt off).any fun c => c.order = .pilot

/-- An atomic to a protected granule is recorded at its live parity members (R662). -/
def State.recordAtomic (s : State) (off : Nat) (m : SxfMsg) (old : Nat) : State :=
  if s.faults.guarded.contains (off / granuleSize) then
    (s.liveParity (s.fabric.stripe s.self (off / granuleSize))).foldl
      (fun s p => (s.takeover p.1 6 m.src m.tag 0 old).1) s
  else s

/-- Perform a write or an atomic at its home and answer it: DONE, PERFORMED to the ingress shore of a posted Pilot write
(R189, Table 04-2), or ATOMIC_OLD. POISON set marks the data as poison (R569). -/
def State.serveWrite (s : State) (m : SxfMsg) : State :=
  let off := gpaOffset m.gpa
  if m.op = Sxf.atomic then
    let w := m.atWidth
    let old := s.word off w
    let bad := !(s.poisonIn off w).isEmpty
    let new := atomicNew m.atOp m.atType w old (m.f 16 16) (m.f 32 16)
    let s := s.applyWrite off (leBytes w new)
    let s := if bad then s.poisonSectors (sectorsOf off w) else s
    let s := s.recordAtomic off m old
    let (s, tags) := s.flushDeltas
    let s := s.replyAfter tags m.via (s.responseTo m Sxf.atomicOld Status.ok 0 0 false bad (leBytes 16 old))
    if bad ∧ ((s.bundle m.via).any fun b => b.kind = .jetty) then s.consume m.guest m.gpa else s
  else
    let s' := s.applyWrite off (m.writeData (s.bytesAt off m.size))
    let s' := if m.poison then s'.poisonSectors (sectorsOf off m.size) else s'
    let posted := s.pilotAt off && (s.bundle m.via).any fun b => b.kind = .causeway
    let (s', tags) := s'.flushDeltas
    s'.replyAfter tags m.via (s'.responseTo m (if posted then Sxf.performed else Sxf.done) Status.ok 0 0 false false [])

/-! ### The directory (R192–R205) -/

def dirSlice (line : Nat) : Nat :=
  let off := line * 64
  bits off 9 6 ^^^ bits off 17 14 ^^^ bits off 25 22
def dirSet (line : Nat) : Nat := bits (line * 64) 24 10

def State.dirEntry (s : State) (line : Nat) : Option DirEntry := s.dir.entries.find? fun e => e.line = line

/-- The state of a line; none is I (R193). -/
def State.lineState (s : State) (line : Nat) : Option LineState := (s.dirEntry line).map fun (e : DirEntry) => e.st

/-- Set or remove a line's state; I has no entry (R193). -/
def State.setLine (s : State) (line : Nat) (st : Option LineState) : State :=
  let rest := s.dir.entries.filter fun e => e.line ≠ line
  let es := match st with
    | none => rest
    | some (.shared []) => rest
    | some x => rest ++ [⟨line, x, s.dir.age + 1⟩]
  { s with dir := { s.dir with entries := es, age := s.dir.age + 1 } }

/-- Ports that hold a line. -/
def LineState.ports : LineState → List Nat
  | .shared ps => ps
  | .owned p => [p]

/-- The line an event is for. -/
def DirEvent.line : DirEvent → Nat
  | .sharedRead _ _ _ l => l
  | .ownRead _ _ _ l => l
  | .hostWrite _ _ _ l _ _ _ _ => l
  | .devRead m => gpaOffset m.gpa / 64
  | .devWrite m => gpaOffset m.gpa / 64

/-- A transaction on the line is in progress (R194). -/
def State.lineBusy (s : State) (line : Nat) : Bool := s.dir.recalls.any fun r => r.line = line

/-- Start a recall: snoop the ports, wait for their answers, then serve the event (R197–R201). -/
def State.recall (s : State) (line : Nat) (inval : Bool) (ports : List Nat) (e : Option DirEvent) : State :=
  let s := { s with dir := { s.dir with recalls := s.dir.recalls ++ [⟨line, inval, ports, s.now, e⟩] } }
  ports.foldl (fun s p => s.emit (.snoop p line inval)) s

/-- Mark a port's CXL event log (R614). -/
def State.cxlEvent (s : State) (port kind dpa size region : Nat) (tag : List Byte) : State :=
  s.setPort port fun p => { p with events := p.events ++ [⟨p.nextEvent, kind, s.now, dpa, size, tag, region⟩], nextEvent := p.nextEvent + 1 }

/-- Answer a host's read with 64 bytes; poison is consumed by the extent's guest (R608, R653). -/
def State.hostAnswer (s : State) (port tag guest off : Nat) (data : List Byte) (bad : Bool) : State :=
  let s := s.emit (.cxlData port tag data bad)
  if bad then (s.cxlEvent port 3 off 64 0 []).consume guest (gpaOf s.self off) else s

/-- A host's read of a sector, answered on its port when its granule is in the Harbour (R196, R604). -/
def State.hostData (s : State) (port tag guest line : Nat) : State :=
  let off := line * 64
  let g := line / 256
  let data := s.bytesAt off 64
  if s.absent g || s.missOpen g then s.joinMiss g (.host port tag guest off data) (s.clsAt off = .prefer)
  else (s.touchRead g).hostAnswer port tag guest off data (s.isPoison line)

/-- The bytes that a masked write leaves. -/
def maskBytes (mask : Nat) (old new : List Byte) : List Byte :=
  (List.range old.length).map fun i => if bit mask i then new.getD i 0 else old.getD i 0

/-- A host's write of a sector is performed and answered once its deltas are (R601, R609, R652, R660): poison marks the
sector; a partial write of a poisoned sector leaves it poisoned. -/
def State.hostStore (s : State) (port tag line : Nat) (data : List Byte) (mask : Nat) (poison : Bool) : State :=
  let off := line * 64
  let was := s.isPoison line && decide (mask ≠ 2 ^ 64 - 1)
  let s := s.applyWrite off (maskBytes mask (s.bytesAt off 64) (fit 64 data))
  let s := if poison || was then s.poisonSectors [line] else s
  let (s, tags) := s.flushDeltas
  if tags.isEmpty then s.emit (.cxlDone port tag)
  else { s with faults := { s.faults with deltas := s.faults.deltas ++ [⟨tags, none, noBundle, some (port, tag)⟩] } }

/-- Ways of a line's set, and the oldest of them with no transaction in progress (R198). -/
def State.dirWays (s : State) (line : Nat) : List DirEntry :=
  s.dir.entries.filter fun e => dirSlice e.line = dirSlice line ∧ dirSet e.line = dirSet line

def oldestEntry (es : List DirEntry) : Option DirEntry :=
  match es with
  | [] => none
  | e :: t => some (t.foldl (fun a b => if b.age < a.age then b else a) e)

/-- A host request needs an entry and its set is full: the overflow recall of R198. -/
def State.overflow (s : State) (line : Nat) (e : DirEvent) : Option State :=
  if (s.dirEntry line).isSome ∨ (s.dirWays line).length < 16 then none
  else match oldestEntry ((s.dirWays line).filter fun x => !s.lineBusy x.line) with
    | none => some { s with dir := { s.dir with waiting := s.dir.waiting ++ [e] } }
    | some v => some ((s.count 9 (dirSlice line) 0 1).recall v.line true v.st.ports (some e))

/-- One event at its slice (Table 04-7). -/
def State.dirEvent (s : State) (e : DirEvent) : State :=
  let line := e.line
  if s.lineBusy line then { s with dir := { s.dir with waiting := s.dir.waiting ++ [e] } }
  else match e with
  | .sharedRead p tag g _ =>
    match s.overflow line e with
    | some s' => s'
    | none => match s.lineState line with
      | none => (s.setLine line (some (.shared [p]))).hostData p tag g line
      | some (.shared ps) => (s.setLine line (some (.shared (setAdd p ps)))).hostData p tag g line
      | some (.owned q) => if q = p then s.hostData p tag g line else s.recall line false [q] (some e)
  | .ownRead p tag g _ =>
    match s.overflow line e with
    | some s' => s'
    | none => match s.lineState line with
      | none => (s.setLine line (some (.owned p))).hostData p tag g line
      | some (.shared ps) =>
        let others := ps.filter (· ≠ p)
        if others.isEmpty then (s.setLine line (some (.owned p))).hostData p tag g line else s.recall line true others (some e)
      | some (.owned q) => if q = p then s.hostData p tag g line else s.recall line true [q] (some e)
  | .hostWrite p tag _ _ data mask poison kept =>
    match s.lineState line with
    | some (.owned q) =>
      if q = p then (s.setLine line (if kept then some (.shared [p]) else none)).hostStore p tag line data mask poison
      else s.recall line true [q] (some e)
    | some (.shared ps) =>
      let others := ps.filter (· ≠ p)
      if others.isEmpty then (s.setLine line none).hostStore p tag line data mask poison else s.recall line true others (some e)
    | none => s.hostStore p tag line data mask poison
  | .devRead m =>
    match s.lineState line with
    | some (.owned q) => s.recall line false [q] (some e)
    | _ => s.serveRead m
  | .devWrite m =>
    match s.lineState line with
    | some st => s.recall line true st.ports (some e)
    | none => s.serveWrite m

/-- Serve the events that waited for a line, in arrival order (R194). -/
def State.drainLine (s : State) (line : Nat) : State :=
  let mine := s.dir.waiting.filter fun e => e.line = line
  let s := { s with dir := { s.dir with waiting := s.dir.waiting.filter fun e => e.line ≠ line } }
  mine.foldl State.dirEvent s

/-- What an event sees once its recall is over: the holders that kept a copy stay in state S (Table 04-7). -/
def State.finishRecall (s : State) (r : Recall) : State :=
  let s := { s with dir := { s.dir with recalls := s.dir.recalls.filter fun x => x.line ≠ r.line } }
  let s := if s.faults.directoryBad.contains r.line then
      { (s.setLine r.line none) with faults := { s.faults with directoryBad := s.faults.directoryBad.filter (· ≠ r.line) } }
    else s
  let s := match r.event with
    | none => s
    | some e => s.dirEvent e
  s.drainLine r.line

/-- A host's answer to a snoop (R197, R200): its modified data, when it sends any and still owns the line, is written first;
after a write-back that the recall has taken it changes no data. `kept` tells that it keeps a shared copy. -/
def State.snoopAnswer (s : State) (port line : Nat) (kept : Bool) (data : Option (List Byte)) : State :=
  match s.dir.recalls.find? fun r => r.line = line ∧ r.waiting.contains port with
  | none => s
  | some r =>
    let owns := s.lineState line = some (.owned port) ∨ s.faults.directoryBad.contains line
    let s := match data with
      | some d => if owns then s.applyWrite (line * 64) (fit 64 d) else s
      | none => s
    let keeps := kept && !r.inval
    let st' : Option LineState := match s.lineState line with
      | some (.owned q) => if q = port then (if keeps then some (.shared [port]) else none) else some (.owned q)
      | some (.shared ps) => some (.shared (if keeps then ps else ps.filter (· ≠ port)))
      | none => if keeps then some (.shared [port]) else none
    let s := s.setLine line st'
    let r' := { r with waiting := r.waiting.filter (· ≠ port) }
    if r'.waiting.isEmpty then s.finishRecall r'
    else { s with dir := { s.dir with recalls := mapIf (fun x => x.line = line) (fun _ => r') s.dir.recalls } }

/-! ### The rights check of a plain access, and its home -/

/-- A read under a remote hold is served at the hold's tidemark (R119, R249). -/
def State.holdRead (s : State) (m : SxfMsg) : State :=
  let off := gpaOffset m.gpa
  match s.store.snaps.find? fun x => x.handle = m.agent ∧ x.holder = some m.src ∧ x.state = .opened with
  | none => s.refuse m Status.faultTranslation Cause.snapBroken
  | some x =>
    let b := some (x.cove, x.tidemark)
    let bad := (sectorsOf off m.size).any (s.poisonedBound b)
    s.reply m Sxf.data Status.ok 0 0 false bad (fit (16 * ceilDiv m.size 16) (s.bytesBound b off m.size))

/-- The home serves a plain read, write or atomic (R64–R67, R196, R533); a serving shore serves those of a dead one (R665);
a parity delta is taken (R660); a fenced shore refuses accesses to protected granules (R664). -/
def State.homeAccess (s : State) (m : SxfMsg) : State :=
  let off := gpaOffset m.gpa
  let n := m.size
  if gpaShore m.gpa ≠ s.self then
    s.servedAccess atomicNew m
  else if s.isDelta m then s.takeDelta m
  else if s.faults.selfFenced ∧ s.faults.guarded.contains (off / granuleSize) then s.refuse m Status.faultDeadTarget Cause.deadHome
  else if m.op = Sxf.atomic ∧ (m.atType = 3 ∨ (m.atType = 2 ∧ m.atOp = 3)) then s.refuse m Status.refusedFormat Cause.format
  else if off % n ≠ 0 then
    s.refuse m Status.refusedFormat (if m.op = Sxf.atomic then Cause.alignment else Cause.format)
  else if !s.allowed m.guest off n m.access then (s.countRights m.guest).refuse m Status.refusedRights Cause.noGrant
  else if m.isRead ∧ m.ordered ∧ m.tc = 3 then s.holdRead m
  else
    let s := s.count 1 m.guest 11 1
    let shared := (s.coveAt off).any fun c => c.coherence = .sharedHdmDb
    match m.access, shared with
    | .read, true => s.dirEvent (.devRead m)
    | _, true => s.dirEvent (.devWrite m)
    | .read, false => s.serveRead m
    | _, false => s.serveWrite m

/-! ### Order at the ingress shore (R185, R188–R190) -/

/-- The access is to a Chart cove, as the ingress shore knows it. -/
def State.isChart (s : State) (m : SxfMsg) : Bool :=
  if s.target m = s.self then !s.pilotAt (gpaOffset m.gpa) else !Config.remotePilot m.gpa

/-- Accesses of an agent that have not been performed: transactions with remote homes, and accesses that wait here on a
miss or on a recall. -/
def State.unperformed (s : State) (bundle agent : Nat) : List SxfMsg :=
  let mine (m : SxfMsg) : Bool := m.via == bundle && m.agent == agent
  ((s.ord.outstanding.filter fun o => o.bundle = bundle ∧ o.agent = agent).map (·.msg)) ++
    ((s.store.harbour.misses.map fun x => x.waiters.filterMap fun w => match w with
      | .plain m _ => if mine m then some m else none
      | _ => none).flatten) ++
    ((s.dir.waiting ++ s.dir.recalls.filterMap (·.event)).filterMap fun e => match e with
      | .devRead m => if mine m then some m else none
      | .devWrite m => if mine m then some m else none
      | _ => none)

/-- Two accesses are in one flow (R167): same traffic class, same home. Their order follows the flow's links. -/
def sameFlow (x y : SxfMsg) : Bool := x.tc == y.tc && x.dest == y.dest

/-- Table 04-3: Y must wait for X at the jetty port. Both are to Chart coves (R184); one flow keeps its order by itself. -/
def State.mustWait (s : State) (x y : SxfMsg) : Bool :=
  s.isChart x && s.isChart y && !sameFlow x y &&
    ((y.ordered && (y.isWrite || y.isAtomic)) || (x.ordered && (x.isRead || x.isAtomic)) || (x.ordered && y.ordered))

/-- A fence waits for the unperformed accesses of its kind (Table 04-3). -/
def fenceWaits (kind : Nat) (x : SxfMsg) : Bool :=
  if kind = Sxf.fenceRw then true
  else if kind = Sxf.fenceWw then x.isWrite || x.isAtomic
  else x.isRead || x.isAtomic


/-- A message of an agent can not be taken yet. -/
def State.blocked (s : State) (m : SxfMsg) : Bool :=
  let xs := s.unperformed m.via m.agent
  if m.op = Sxf.homeFence then xs.any fun x => fenceWaits (Sxf.fenceRw + m.gpa % 4 - 1) x
  else if m.isFence then xs.any fun x => s.isChart x && fenceWaits m.op x
  else xs.any fun x => s.mustWait x m

/-- A fence takes effect (R185, R190): the homes of the agent's unperformed Pilot accesses receive it; it is answered. -/
def State.takeFence (s : State) (m : SxfMsg) : State :=
  let homes := uniq (((s.unperformed m.via m.agent).filter fun x => !s.isChart x && s.target x ≠ s.self).map (·.dest))
  let kind := m.op - Sxf.fenceRw + 1
  let s := homes.foldl (fun s h => s.send ⟨noBundle, m.tc,
    SxfMsg.reqUnit Sxf.homeFence false false s.self m.tag m.guest m.agent (gpaOf h kind), []⟩) s
  s.reply m Sxf.done Status.ok 0 0 false false []

/-- Forward an endpoint's request to its home under a shore tag (R577); a write to a Pilot cove is answered at once and
kept until PERFORMED (R189). -/
def State.forwardRequest (s : State) (m : SxfMsg) : State :=
  match s.freeTag with
  | none => s
  | some t =>
    let pilot := m.isWrite && Config.remotePilot m.gpa
    let r := m.retag s.self t
    let (s', sent) := s.forward { r with via := m.via }
    if !sent then s.refuse m Status.faultDeadTarget Cause.unreachable
    else
      let s' := s'.addOutstanding ⟨t, m.via, m.agent, m.tag, m.dest, m, pilot, pilot, none, s.now⟩
      if pilot then s'.reply m Sxf.done Status.ok 0 0 false false [] else s'

/-- The pull range of this shore that holds a remote range (R113). -/
def State.pullOf (s : State) (gpa n : Nat) : Option PullRange :=
  s.store.pulls.find? fun p => p.confirmed && inside gpa n p.gpa p.len

/-- A pulled granule held here (R115). -/
def State.pulledAt (s : State) (gpa t : Nat) : Option Pulled :=
  s.store.pulled.find? fun g => decide (g.gpa = gpa / granuleSize * granuleSize) && g.tidemark == t

/-- Begin to pull a granule of a pull range for a descriptor or a read (R115): its 256 sectors are read from the home; under a
remote hold the reads carry the home's handle (R249, log entry 15). -/
def State.beginPull (s : State) (gpa tidemark guest : Nat) (hold : Option Nat) (w : List SxfMsg) : State :=
  let g := gpa / granuleSize * granuleSize
  if s.store.pulling.any fun p => p.gpa = g ∧ p.tidemark = tidemark then
    { s with store := { s.store with
      pulling := mapIf (fun p => p.gpa = g && p.tidemark == tidemark) (fun p => { p with waiters := p.waiters ++ w }) s.store.pulling } }
  else
    let (s, tags) := (List.range 256).foldl (fun (a : State × List (Nat × Nat)) i =>
      match a.1.controlAs 0x26 guest (hold.getD 0) hold.isSome (g + 64 * i) [] with
      | (s', some t) => (s', a.2 ++ [(t, i)])
      | (s', none) => (s', a.2)) (s, [])
    { s with store := { s.store with pulling := s.store.pulling ++ [⟨g, tidemark, tags, [], [], w⟩] } }

/-- Take one request at its ingress shore (R40, R57, R115, R116, R579, R583). -/
def State.takeRequest (s : State) (m : SxfMsg) : State :=
  if m.op = Sxf.homeFence then s
  else if m.isFence then s.takeFence m
  else if s.quarantined m.guest then s.refuse m Status.refusedQuarantine 0
  else if !s.fabric.hasShore m.dest then s.refuse m Status.faultDeadTarget Cause.unreachable
  else if s.deadTarget m then s.refuse m Status.faultDeadTarget Cause.deadHome
  else if s.target m = s.self then s.homeAccess m
  else if m.isRead then
    match s.pullOf m.gpa m.size, s.pulledAt m.gpa 0 with
    | some _, some g =>
      let off := m.gpa % granuleSize
      let bad := (sectorsOf off m.size).any fun p => g.poisoned.contains p
      let s := s.reply m Sxf.data Status.ok 0 0 false bad (fit (16 * ceilDiv m.size 16) (Mem.read g.mem off m.size))
      if bad then s.consume m.guest m.gpa else s
    | some _, none => s.beginPull m.gpa 0 m.guest none [m]
    | none, _ => s.forwardRequest m
  else s.forwardRequest m

/-- The queue of an agent's held requests (R185), or at a home of an agent's accesses behind a HOME_FENCE (R190). -/
def State.heldBy (s : State) (bundle agent : Nat) : List SxfMsg :=
  match s.ord.held.find? fun h => h.bundle = bundle ∧ h.agent = agent with
  | some h => h.queue
  | none => []

def State.setHeld (s : State) (bundle agent : Nat) (q : List SxfMsg) : State :=
  let rest := s.ord.held.filter fun h => !(decide (h.bundle = bundle) && decide (h.agent = agent))
  { s with ord := { s.ord with held := if q.isEmpty then rest else rest ++ [HeldAgent.mk bundle agent q] } }

/-- Release the requests at the front of an agent's queue that are no longer blocked, in order. -/
def State.release (fuel : Nat) (s : State) (bundle agent : Nat) : State :=
  match fuel with
  | 0 => s
  | k + 1 =>
    match s.heldBy bundle agent with
    | [] => s
    | m :: q =>
      if s.blocked m then s
      else
        let s := s.setHeld bundle agent q
        let jetty := (s.bundle bundle).any fun b => b.kind = .jetty
        State.release k (if jetty ∨ m.op = Sxf.homeFence then s.takeRequest m else s.homeAccess m) bundle agent

/-- A request arrives at a jetty port: it is taken, or it joins the agent's held requests in issue order (R172, R185). -/
def State.fromJetty (s : State) (m : SxfMsg) : State :=
  let q := s.heldBy m.via m.agent
  if q.isEmpty && !s.blocked m then s.takeRequest m else s.setHeld m.via m.agent (q ++ [m])

/-- The agent's queue after a response has come back. -/
def State.releaseAgent (s : State) (bundle agent : Nat) : State :=
  State.release ((s.heldBy bundle agent).length + 1) s bundle agent

/-- A plain request arrives on a bundle (R560, R569, R577, R579, R584): refused at the port, forwarded on its way, held,
or taken. -/
def State.plainRequest (s : State) (m : SxfMsg) : State :=
  match s.portRefusal m with
  | some (st, ca) => s.refuse m st ca
  | none =>
    match s.bundle m.via with
    | none => s
    | some b =>
      match b.kind with
      | .jetty => s.fromJetty (m.retag s.self m.tag)
      | .causeway =>
        if !s.fabric.hasShore m.dest then s.refuse m Status.faultDeadTarget Cause.unreachable
        else if s.target m = s.self then
          let q := s.heldBy m.via m.agent
          if q.isEmpty then s.homeAccess m else s.setHeld m.via m.agent (q ++ [m])
        else
          let (s', sent) := s.forward m
          if sent then s'.setBundle b.id (fun x => { x with forwarded := x.forwarded + 1 })
          else s.refuse m Status.faultDeadTarget Cause.unreachable

end Sys2Proof.Machine
end

