-- ==== Sys2Proof/Machine/Translate.lean ====
section
/-! DEFINITION. Translation of guest-virtual ranges: the table walk, ATS results through the HDM decoders, extents, and
what stops a walk (spec 02: R69–R86, Tables 02-4 to 02-6; spec 15: R604, R611). -/

namespace Sys2Proof.Machine

/-- A GVA range of a descriptor, with the rights its opcode needs on it (R64). -/
structure Range where
  gva : Nat
  len : Nat
  r : Bool
  w : Bool
  a : Bool
  deriving DecidableEq, Repr

/-- RIGHTS of a page request: R, W, A from bit 0 (R573). -/
def Range.rights (x : Range) : Nat := b2n x.r + 2 * b2n x.w + 4 * b2n x.a

/-- What stops a translation: a refusal, a failed walk with its cause, GVA, range and level (R80), a poisoned table entry
(R74), or a request to the owner for a GVA. -/
inductive Stop where
  | refuse (status cause : Nat)
  | fault (cause gva range level : Nat)
  | poison (gpa : Nat)
  | ask (pri : Bool) (gva rights range level : Nat)
  deriving DecidableEq, Repr

/-- A translated piece: GPA, the bytes to the end of the page, rights, and the non-leaf entries on the path. -/
structure Page where
  gpa : Nat
  left : Nat
  r : Bool
  w : Bool
  a : Bool
  path : List (Nat × Nat)
  deriving DecidableEq, Repr

/-- A table of 4 KiB at a GPA lies wholly in a TRANSLATION cove of this shore (R74). -/
def State.tableOk (s : State) (gpa : Nat) : Bool :=
  decide (gpaShore gpa = s.self) && match s.coveAt (gpaOffset gpa) with
    | some c => c.kind = .translation && inside (gpaOffset gpa) 4096 c.base c.size && decide (gpaOffset gpa + 4096 ≤ s.store.capacity)
    | none => false

/-- Size of a leaf page at a level (Table 02-5). -/
def leafSize (level : Nat) : Nat := 2 ^ (12 + 9 * level)

/-- An entry with V = 1 is malformed at a level (R74). -/
def entryBad (s : State) (e level : Nat) : Bool :=
  let leaf := bit e 4
  bits e 63 57 ≠ 0 || bits e 11 5 ≠ 0 || (leaf && level ≥ 3) || (!leaf && level = 0) ||
    (leaf && level = 2 && bits e 29 12 ≠ 0) || (leaf && level = 1 && bits e 20 12 ≠ 0) ||
    (!leaf && !s.tableOk (bits e 56 12 * 4096))

/-- The outcome of one walk. -/
inductive Walk where
  | page (p : Page) (level : Nat)
  | invalid (level : Nat)
  | malformed (level : Nat)
  | poisoned (gpa : Nat)
  deriving DecidableEq, Repr

/-- Walk down from a table (R72–R75); a cached non-leaf entry is used in place of the one in memory. -/
def walkFrom (s : State) (cached : List (Nat × Nat)) (gva : Nat) : Nat → Nat → Bool → Bool → Bool → List (Nat × Nat) → Walk
  | level, table, r, w, a, path =>
    if !s.tableOk table then .malformed level
    else
      let ea := table + 8 * (gva / 2 ^ (12 + 9 * level) % 512)
      let hit := cached.find? fun x => x.1 = ea
      let e := match hit with
        | some x => x.2
        | none => s.word (gpaOffset ea) 8
      if hit.isNone && s.isPoison (gpaOffset ea / 64) then .poisoned (ea / 64 * 64)
      else if !bit e 0 then .invalid level
      else if entryBad s e level then .malformed level
      else
        let r := r && bit e 1
        let w := w && bit e 2
        let a := a && bit e 3
        if bit e 4 then
          let n := leafSize level
          .page ⟨bits e 56 12 * 4096 + gva % n, n - gva % n, r, w, a, path⟩ level
        else match level with
          | 0 => .malformed 0
          | l + 1 => walkFrom s cached gva l (bits e 56 12 * 4096) r w a (path ++ [(ea, e)])

/-- A host physical address through a port's decoders and extents to a shore offset and the bytes that stay contiguous
(R604). -/
def State.hdm (s : State) (port hpa : Nat) : Option (HostExtent × Nat × Nat) :=
  match s.port port with
  | none => none
  | some p =>
    match p.decoders.find? fun d => decide (d.base ≤ hpa ∧ hpa < d.base + d.size) with
    | none => none
    | some d =>
      let dpa := d.dpa + (hpa - d.base)
      match s.host.extents.find? fun x => decide (x.port = port ∧ x.dpa ≤ dpa ∧ dpa < x.dpa + x.size) with
      | none => none
      | some x =>
        match x.st, s.cove x.cove with
        | .accepted, some c => some (x, c.base + (dpa - x.dpa), min (d.base + d.size - hpa) (x.dpa + x.size - dpa))
        | _, _ => none

/-- Translate the first piece of a range (Table 02-4). -/
def State.piece (s : State) (g : Guest) (asked : List Nat) (ats : List AtsEntry) (i : Nat) (x : Range) : Except Stop Page :=
  let missing (r w a : Bool) : Bool := (x.r && !r) || (x.w && !w) || (x.a && !a)
  let again := asked.contains (x.gva / 4096)
  match g.mode with
  | .identity => .ok ⟨x.gva, x.len, true, true, true, []⟩
  | .ats =>
    match ats.find? fun e => decide (e.gva ≤ x.gva ∧ x.gva < e.gva + e.len) with
    | none => .error (.ask false x.gva x.rights i 0xFF)
    | some e =>
      if missing e.r e.w (e.r && e.w) then
        (if again then .error (.fault Cause.rights x.gva i 0xFF) else .error (.ask true x.gva x.rights i 0xFF))
      else match s.hdm g.ownerPort (e.hpa + (x.gva - e.gva)) with
        | none => .error (.fault Cause.hdmMiss x.gva i 0xFF)
        | some (_, off, n) =>
          .ok ⟨gpaOf s.self off, min n (e.gva + e.len - x.gva), e.r, e.w, e.r && e.w, []⟩
  | m =>
    let retry (cause level : Nat) : Except Stop Page :=
      if m = .tablePr && !again then .error (.ask true x.gva x.rights i level) else .error (.fault cause x.gva i level)
    match walkFrom s g.cached x.gva 4 g.root true true true [] with
    | .page p level => if missing p.r p.w p.a then retry Cause.rights level else .ok p
    | .invalid level => retry Cause.invalid level
    | .malformed level => .error (.fault Cause.malformed x.gva i level)
    | .poisoned gpa => .error (.poison gpa)

/-- Add a piece to a list of extents: adjacent pieces with equal rights merge (R78). -/
def addExtent (l : List Extent) (gpa n : Nat) (p : Page) : List Extent :=
  match l.getLast? with
  | some e =>
    if e.gpa + e.len = gpa ∧ e.r = p.r ∧ e.w = p.w ∧ e.a = p.a then l.dropLast ++ [{ e with len := e.len + n }]
    else l ++ [⟨gpa, n, p.r, p.w, p.a⟩]
  | none => [⟨gpa, n, p.r, p.w, p.a⟩]

/-- Translate one range piece by piece; the fuel is the number of 4 KiB pages it can touch. -/
def State.extentsOf (s : State) (g : Guest) (asked : List Nat) (ats : List AtsEntry) (i : Nat) :
    Nat → Range → List Extent → List (Nat × Nat) → Except Stop (List Extent × List (Nat × Nat))
  | 0, _, acc, path => .ok (acc, path)
  | f + 1, x, acc, path =>
    if x.len = 0 then .ok (acc, path)
    else match s.piece g asked ats i x with
      | .error e => .error e
      | .ok p =>
        let n := min p.left x.len
        s.extentsOf g asked ats i f { x with gva := x.gva + n, len := x.len - n } (addExtent acc p.gpa n p) (uniq (path ++ p.path))

/-- The checks of R69 on a range, before any entry is walked. -/
def rangeStop (x : Range) : Option Stop :=
  if x.gva ≥ 2 ^ 57 then some (.refuse Status.refusedFormat Cause.reserved)
  else if x.gva + x.len > 2 ^ 57 then some (.refuse Status.refusedFormat Cause.length)
  else none

/-- Translate every range of a descriptor in body order (R78): the extents, and the non-leaf entries read (R75). -/
def State.translate (s : State) (g : Guest) (asked : List Nat) (ats : List AtsEntry) :
    Nat → List Range → Except Stop (List (List Extent) × List (Nat × Nat))
  | _, [] => .ok ([], [])
  | i, x :: xs =>
    match rangeStop x with
    | some e => .error e
    | none =>
      match s.extentsOf g asked ats i (x.len / 4096 + 2) x [] [] with
      | .error e => .error e
      | .ok (es, p) =>
        match s.translate g asked ats (i + 1) xs with
        | .error e => .error e
        | .ok (rest, p') => .ok (es :: rest, uniq (p ++ p'))

/-- The guest's cached non-leaf entries after a walk (R75). -/
def State.cache (s : State) (g : Nat) (path : List (Nat × Nat)) : State :=
  s.setGuest g fun x => { x with cached := uniq (x.cached ++ path.filter fun e => !x.cached.any fun y => y.1 = e.1) }

end Sys2Proof.Machine
end

