-- ==== Sys2Proof/Machine/Work.lean ====
section
/-! DEFINITION. What every descriptor's work shares: its extents, the checks of R821, reading and writing its ranges on
this shore and on others, what such an access waits for, and how it ends (spec 02: R64–R66, R78, R115; spec 04: R196; spec
06: R289, R821; spec 07: R316, R338). -/

namespace Sys2Proof.Machine

/-! ### The interface of an opcode -/

/-- One descriptor opcode as DESCRIPTOR_FETCH needs it: the sizes its chapter allows, whether it accepts SNAPSHOT (R237),
whether a field that selects others holds a reserved value (Table 06-5), its ranges in body order, the checks of R821
after translation (status, cause, RESULT0), its price, and what its admission does. -/
structure DescOp where
  sizes : List Nat
  snapshot : Bool := false
  selectorBad : List Byte → Bool := fun _ => false
  ranges : State → List Byte → List Range := fun _ _ => []
  check : State → Desc → Option (Nat × Nat × Nat) := fun _ _ => none
  price : State → Desc → Price
  enter : State → Desc → State := fun s _ => s

/-- A check that fails: its status, cause and RESULT0. -/
abbrev Failing := Bool × Nat × Nat × Nat

/-- The first check that fails (R821). -/
def firstFail (l : List Failing) : Option (Nat × Nat × Nat) := (l.find? (·.1)).map (·.2)

/-- A REFUSED_FORMAT check. -/
def badFormat (b : Bool) (cause : Nat) : Failing := (b, Status.refusedFormat, cause, 0)
/-- A REFUSED_RIGHTS check. -/
def badRights (b : Bool) (cause : Nat) : Failing := (b, Status.refusedRights, cause, 0)

/-- Bytes `[off, off+n)` of a descriptor are not all zero. -/
def Desc.nonzero (d : Desc) (off n : Nat) : Bool := (slice d.bytes off n).any (· != 0)

/-- The extents of range `i`. -/
def Desc.range (d : Desc) (i : Nat) : List Extent := d.ranges.getD i []

/-- Bytes of a range. -/
def extentsLen (es : List Extent) : Nat := sumNat (es.map (·.len))

/-- More than 1,024 extents (R79). -/
def Desc.tooMany (d : Desc) : Bool := decide (sumNat (d.ranges.map List.length) > 1024)

/-- The pieces `(gpa, length)` of `[off, off+n)` of a list of extents. -/
def piecesOf : List Extent → Nat → Nat → List (Nat × Nat)
  | [], _, _ => []
  | e :: es, off, n =>
    if n = 0 then []
    else if off ≥ e.len then piecesOf es (off - e.len) n
    else
      let k := min n (e.len - off)
      (e.gpa + off, k) :: piecesOf es 0 (n - k)

/-- The bytes of range `i` below START, which are not translated and need no right (R314, R366, R388,
R396, R404). -/
def Desc.skip (d : Desc) (i : Nat) : Nat :=
  let cut (start len : Nat) : Nat := if start < len then start else 0
  let d' := fun off n => fld d.bytes off n
  let opcode := fld d.bytes 0 1
  let out (start : Nat) : Nat := match formatOf (d' 18 1) with
    | some f => if i = 0 then elemBytes f.elem start else start / 32
    | none => 0
  match opcode with
  | 0x10 => cut (d' 40 8) (d' 32 8)
  | 0x11 => cut (d' 32 8) (d' 24 8)
  | 0x14 => if i < 2 then cut (d' 40 8) (d' 32 8) else 0
  | 0x24 => match formatOf (d' (56 + i % 2) 1) with
    | some f => if i < 2 then elemBytes f.elem (cut (d' 72 8) (d' 32 8)) else cut (d' 72 8) (d' 32 8) / 32
    | none => 0
  | 0x20 => match formatOf (d' 19 1) with
    | some f => if d' 18 1 = 0 then elemBytes f.elem (cut (d' 56 8) (d' 48 8)) else 0
    | none => 0
  | 0x21 => out (cut (d' 56 8) (d' 48 8))
  | 0x22 => if i < 2 then out (cut (d' 56 8) (d' 48 8)) else 4 * cut (d' 56 8) (d' 48 8)
  | 0x23 => if i < 2 then out (cut (d' 56 8) (d' 48 8)) else 4 * cut (d' 56 8) (d' 48 8)
  | _ => 0

/-- A range whose bytes from `start` on are moved and need their right (R314). -/
def rangeFrom (gva start len : Nat) (r w : Bool) : Range :=
  let k := if start < len then start else 0
  ⟨gva + k, len - k, r, w, false⟩

/-- The pieces `(gpa, length)` of `[off, off+n)` of range `i`. -/
def Desc.pieces (d : Desc) (i off n : Nat) : List (Nat × Nat) := piecesOf (d.range i) (off - d.skip i) n

/-- An extent is on this shore. -/
def State.isHere (s : State) (gpa : Nat) : Bool := decide (gpaShore gpa = s.self)

/-- The guest lacks the right on some byte of this shore in the range (R64, R66; remote homes check for themselves). -/
def State.lacks (s : State) (d : Desc) (i : Nat) (a : Access) : Bool :=
  (d.range i).any fun e => s.isHere e.gpa && !s.allowedAll (s.store.coves.length + 1) d.guest (gpaOffset e.gpa) e.len a

/-- The range lies wholly on this shore. -/
def State.allHere (s : State) (d : Desc) (i : Nat) : Bool := (d.range i).all fun e => s.isHere e.gpa

/-! ### Prices shared by the opcodes (R289, R290) -/

/-- Bytes of the sectors that a byte range touches. -/
def roundedLen (off n : Nat) : Nat := 64 * sectorCount off n

/-- The stack charges of bytes at a shore offset (R88, R289): one eighth to each stack from 128 KiB on, else the stack that
holds each granule; a write to a mirrored cove charges the stack four further on as well (R94). -/
def State.stackCharge (s : State) (off n total : Nat) (write : Bool) : List (Nat × Nat) :=
  let twice := write && (s.coveAt off).any fun c => s.mirrors c
  if total ≥ 131072 then
    (List.range 8).map fun k => (s.stackFrom k, ceilDiv n 8 * (if twice then 2 else 1))
  else
    ((granulesOf off n).map fun g =>
      let a := max off (g * granuleSize)
      let b := min (off + n) ((g + 1) * granuleSize)
      let k := s.stackFor (g * granuleSize)
      let j := s.mirrorOf k
      if twice then [(k, b - a), (j, b - a)] else [(k, b - a)]).flatten

/-- The first bundle of the route to a shore, when there is one (R289). -/
def State.firstBundle (s : State) (shore : Nat) : Option Nat :=
  match s.fabric.route s.self shore with
  | .direction k => (s.causeway k).map (·.id)
  | _ => none

/-- Harbour, Quay and egress charges of moving `[off, off+n)` of a range, in whole sectors (R289, R318). -/
def State.moveCharge (s : State) (d : Desc) (i off n : Nat) (write : Bool) : List (Nat × Nat) :=
  ((d.pieces i off n).map fun (g, k) =>
    let sectors := sectorCount (gpaOffset g) k
    let quay := (resQuay, 64 * sectors)
    if s.isHere g then
      let o := gpaOffset g / 64 * 64
      quay :: s.stackCharge o (64 * sectors) (roundedLen 0 n) write
    else match s.firstBundle (s.servingFor g) with
      | some b => [quay, (resEgress b, sectors * (if write then 80 else 16))]
      | none => [quay]).flatten

/-- Granules of a range that are absent from the Harbour (R290's exact count). -/
def State.absentIn (s : State) (d : Desc) (i off n : Nat) : List Nat :=
  uniq (((d.pieces i off n).map fun (g, k) =>
    if s.isHere g then (granulesOf (gpaOffset g) k).filter s.absent else []).flatten)

/-- Granules that a write leaves for the deep tier in a COLD object (R289). -/
def State.coldIn (s : State) (d : Desc) (i off n : Nat) : List Nat :=
  uniq (((d.pieces i off n).map fun (g, k) =>
    if s.isHere g then (granulesOf (gpaOffset g) k).filter fun g => s.clsAt (g * granuleSize) = .cold else []).flatten)

/-- Granules whose first write since the last publish point copies them (R226, R291): Quay and stack charges. -/
def State.copyOnWrite (s : State) (d : Desc) (i off n : Nat) : List (Nat × Nat) :=
  ((d.pieces i off n).map fun (g, k) =>
    if s.isHere g then
      let gs := (granulesOf (gpaOffset g) k).filter fun x =>
        match (s.coveAt (x * granuleSize)).bind (·.versions) with
        | some v => !v.touched.contains x
        | none => false
      (gs.map fun x =>
        (resQuay, 2 * granuleSize) :: s.stackCharge (x * granuleSize) granuleSize n false ++
          s.stackCharge (x * granuleSize) granuleSize n true).flatten
    else []).flatten

/-- The hops to the farthest shore of the ranges, none when all is local (R289). -/
def State.farHops (s : State) (d : Desc) : Nat :=
  maxNat ((d.ranges.flatten.filter fun e => !s.isHere e.gpa).map fun e => s.fabric.hops s.self (s.servingFor e.gpa))

def State.anyRemote (s : State) (d : Desc) : Bool := d.ranges.flatten.any fun e => !s.isHere e.gpa

/-- The tail (R289): the opcode's fixed tail, 95 µs where a deep unit is priced, the round trip where a byte
is remote, and 20 µs where it reaches a dead shore that is still being rebuilt (R666). -/
def State.tailOf (s : State) (d : Desc) (fixed : Nat) (demand : List (Nat × Nat)) : Nat :=
  fixed + (if demandOn demand resDeep > 0 then 760000 else 0) + (if s.anyRemote d then 2 * s.farHops d * 720 + 2560 else 0) +
    if d.ranges.flatten.any fun e => s.recovering (gpaShore e.gpa) then 160000 else 0

/-- A price from its demand. -/
def State.priced (s : State) (d : Desc) (fixed : Nat) (demand : List (Nat × Nat)) : Price :=
  let all := (resourcesOf demand).map fun r => (r, demandOn demand r)
  ⟨all, 1, s.tailOf d fixed all, 0⟩

/-! ### What an access waits for -/

/-- The traffic class of a descriptor's remote accesses (R574). -/
def Desc.tc (d : Desc) : Nat := min (d.cls) 2

/-- A remote access of a descriptor could not be made or failed: its status and cause, the first one kept in the order of
R334, and the GPA that it was for. -/
def State.failDesc (s : State) (id status cause : Nat) (gpa : Nat := 0) : State :=
  s.setDesc id fun d => match d.fail with
    | none => { d with fail := some (status, cause), failAt := gpa }
    | some (st, _) =>
      let order := [Status.abortedTeardown, Status.faultDeadTarget, Status.faultTier, Status.faultTranslation, Status.faultBus]
      let rank (x : Nat) : Nat := order.findIdx (· == x)
      if rank status < rank st then { d with fail := some (status, cause), failAt := gpa } else d

/-- Send a request of a descriptor to another shore; the tag it went out with (R577, R583). -/
def State.sendWork (s : State) (d : Desc) (op : Nat) (poison : Bool) (gpa : Nat) (units : List Byte) : State × Option Nat :=
  if !s.fabric.hasShore (gpaShore gpa) then (s.failDesc d.id Status.faultDeadTarget Cause.unreachable gpa, none)
  else if s.deadFor gpa then (s.failDesc d.id Status.faultDeadTarget Cause.deadHome gpa, none)
  else match s.freeTag with
  | none => (s, none)
  | some t =>
    let m : SxfMsg := ⟨noBundle, d.tc, SxfMsg.reqUnit op false poison s.self t d.guest 0 gpa, units⟩
    let (s', sent) := s.forward m
    if sent then (s'.addOutstanding ⟨t, noBundle, 0, t, gpaShore gpa, m, false, false, some d.id, s.now⟩, some t)
    else (s.failDesc d.id Status.faultDeadTarget Cause.unreachable gpa, none)

/-- The hold under which a descriptor reads a remote range, with its tidemark (R249). -/
def State.holdOf (s : State) (d : Desc) (gpa : Nat) : Option (Nat × Nat) :=
  match d.snap with
  | none => none
  | some h => match s.store.snaps.find? fun x => x.handle = h with
    | some x => if overlaps gpa 1 x.gpa x.len then x.remote.map fun r => (r.2, x.tidemark) else none
    | none => none

/-- The pulled copy that serves a remote sector to a descriptor, of the tidemark it reads (R115, R119). -/
def State.pulledFor (s : State) (d : Desc) (gpa : Nat) : Option Pulled :=
  match s.pullOf gpa 1 with
  | none => none
  | some _ => s.pulledAt gpa (((s.holdOf d gpa).map (·.2)).getD 0)

/-- Remote sectors of pieces that neither a pulled copy nor an earlier read of the descriptor provides. -/
def State.missing (s : State) (d : Desc) (ps : List (Nat × Nat)) : List Nat :=
  uniq ((ps.map fun (g, k) =>
    if s.isHere g then []
    else ((sectorsOf g k).map (· * 64)).filter fun x =>
      (s.pulledFor d x).isNone && !d.remote.any fun r => r.gpa = x).flatten)

/-- Reads of the descriptor that have not come back. -/
def Desc.reading (d : Desc) : Bool := d.remote.any fun r => r.data.isNone

/-- Read a remote sector for a descriptor: in a pull range its whole granule is pulled (R115). -/
def State.readSector (s : State) (id gpa : Nat) : State :=
  match s.desc id with
  | none => s
  | some d =>
    if d.fail.isSome then s
    else if (s.pullOf gpa 64).isSome then
      let h := s.holdOf d gpa
      s.beginPull gpa ((h.map (·.2)).getD 0) d.guest (h.map (·.1)) []
    else match s.sendWork d 0x26 false gpa [] with
      | (s', some t) => s'.setDesc id fun d => { d with remote := d.remote ++ [⟨t, gpa, 64, none, false⟩] }
      | (s', none) => s'

/-- Local granules of pieces that a read must wait for (R45). -/
def State.waitGranules (s : State) (ps : List (Nat × Nat)) : List Nat :=
  uniq ((ps.map fun (g, k) =>
    if s.isHere g then (granulesOf (gpaOffset g) k).filter fun x => s.absent x || s.missOpen x else []).flatten)

/-- Lines of SHARED_HDM_DB coves in pieces whose host copies must be recalled first (R196, Table 04-7). -/
def State.hostLines (s : State) (ps : List (Nat × Nat)) (write : Bool) : List DirEntry :=
  s.dir.entries.filter fun e => (match e.st with
      | .owned _ => true
      | .shared _ => write) &&
    ps.any fun (g, k) => s.isHere g && overlaps (e.line * 64) 64 (gpaOffset g) k

/-- Recall lines for a descriptor's access. -/
def State.recallFor (s : State) (es : List DirEntry) (write : Bool) : State :=
  es.foldl (fun s e => if s.lineBusy e.line then s else s.recall e.line write e.st.ports none) s

/-- Get pieces ready to be read: remote sectors are requested, absent granules join their miss entries, host copies are
recalled. The answer tells whether all is at hand. -/
def State.readyRead (s : State) (id : Nat) (ps : List (Nat × Nat)) : State × Bool :=
  match s.desc id with
  | none => (s, false)
  | some d =>
    let s := ps.foldl (fun s (g, k) =>
      if s.isHere g && !s.allowedAll (s.store.coves.length + 1) d.guest (gpaOffset g) k .read then
        s.failDesc id Status.faultTranslation Cause.rights g
      else s) s
    let need := s.missing d ps
    let waits := s.waitGranules ps
    let lines := s.hostLines ps false
    let s := need.foldl (fun s g => s.readSector id g) s
    let s := waits.foldl (fun s g =>
      if s.store.harbour.misses.any fun m => m.granule = g ∧ m.waiters.contains (.work id) then s
      else s.joinMiss g (.work id) (s.clsAt (g * granuleSize) = .prefer)) s
    let s := s.recallFor lines false
    let back := match s.desc id with
      | some d => !d.reading
      | none => false
    (s, need.isEmpty && back && waits.isEmpty && lines.isEmpty)

/-- Get pieces ready to be written: host copies are recalled. -/
def State.readyWrite (s : State) (ps : List (Nat × Nat)) : State × Bool :=
  let lines := s.hostLines ps true
  (s.recallFor lines true, lines.isEmpty)

/-! ### Reading and writing pieces -/

/-- The bytes of one piece, its remote sectors taken from pulled copies or from what came back. -/
def State.pieceBytes (s : State) (d : Desc) (p : Nat × Nat) : List Byte :=
  if s.isHere p.1 then s.bytesBound d.binding (gpaOffset p.1) p.2
  else ((sectorsOf p.1 p.2).map fun i =>
    let sec := i * 64
    let all := match s.pulledFor d sec with
      | some x => Mem.read x.mem (sec % granuleSize) 64
      | none => ((d.remote.find? fun r => r.gpa = sec).bind (·.data)).getD (zeros 64)
    let a := max p.1 sec
    slice all (a - sec) (min (p.1 + p.2) (sec + 64) - a)).flatten

/-- The bytes of `[off, off+n)` of a range. -/
def State.rangeBytes (s : State) (d : Desc) (i off n : Nat) : List Byte :=
  ((d.pieces i off n).map (s.pieceBytes d)).flatten

/-- A value of `n` bytes at an offset of a range. -/
def State.rangeNat (s : State) (d : Desc) (i off n : Nat) : Nat := leNat (s.rangeBytes d i off n)

/-- A sector of a descriptor's range holds poison. -/
def State.poisonAt (s : State) (d : Desc) (gpa : Nat) : Bool :=
  if s.isHere gpa then s.poisonedBound d.binding (gpaOffset gpa / 64)
  else match s.pulledFor d gpa with
    | some x => x.poisoned.contains (gpa % granuleSize / 64)
    | none => d.remote.any fun r => r.gpa = gpa / 64 * 64 ∧ r.poisoned

/-- The poisoned sectors of `[off, off+n)` of a range, by GPA, in order. -/
def State.poisonRange (s : State) (d : Desc) (i off n : Nat) : List Nat :=
  ((d.pieces i off n).map fun (g, k) => ((sectorsOf g k).map (· * 64)).filter (s.poisonAt d)).flatten

/-- The Harbour after a descriptor's reads of local pieces. -/
def State.touchPieces (s : State) (ps : List (Nat × Nat)) : State :=
  (uniq ((ps.map fun (g, k) => if s.isHere g then granulesOf (gpaOffset g) k else []).flatten)).foldl State.touchRead s

/-- Write bytes of a descriptor at one GPA piece: here, with the cove's rights as they stand (R64, R137), or as whole or
byte-masked sector writes to the home (R316). `bad` gives the sectors that are poison. -/
def State.writePiece (s : State) (id : Nat) (gpa : Nat) (bs : List Byte) (bad : Nat → Bool) : State :=
  match s.desc id with
  | none => s
  | some d =>
    let n := bs.length
    if s.isHere gpa then
      let off := gpaOffset gpa
      if !s.allowedAll (s.store.coves.length + 1) d.guest off n .write then s.failDesc id Status.faultTranslation Cause.rights gpa
      else
        let s := s.writeAt off bs
        let secs := (sectorsOf off n).filter fun i => bad (gpaOf s.self (i * 64))
        let s := if secs.isEmpty then s else s.poisonSectors secs
        let (s, tags) := s.flushDeltas
        if tags.isEmpty then s else s.setDesc id fun d => { d with awaiting := d.awaiting ++ tags }
    else (sectorsOf gpa n).foldl (fun s i =>
      let sec := i * 64
      let a := max gpa sec
      let b := min (gpa + n) (sec + 64)
      let part := slice bs (a - gpa) (b - a)
      let whole := decide (b - a = 64)
      let mask := sumNat ((span (a - sec) (b - a)).map (2 ^ ·))
      let units := if whole then part else leBytes 8 mask ++ zeros 8 ++ (zeros (a - sec) ++ part ++ zeros (sec + 64 - b))
      match s.sendWork d (if whole then 0x2E else Sxf.writeMasked) (bad sec) sec units with
      | (s', some t) => s'.setDesc id fun d => { d with awaiting := d.awaiting ++ [t] }
      | (s', none) => s') s

/-- Write bytes at `[off, …)` of a range. -/
def State.writeRange (s : State) (id i off : Nat) (bs : List Byte) (bad : Nat → Bool) : State :=
  match s.desc id with
  | none => s
  | some d =>
    ((d.pieces i off bs.length).foldl (fun (a : State × List Byte) p =>
      (a.1.writePiece id p.1 (a.2.take p.2) bad, a.2.drop p.2)) (s, bs)).1

/-- No sector is poison. -/
def clean (_ : Nat) : Bool := false

/-! ### Ends -/

/-- A descriptor's work is in progress: its opcode is `op`, it has started and has not ended. -/
def Desc.runs (d : Desc) (op : Nat) : Bool := d.opcode == op && (d.phase == .running || d.phase == .waiting) && d.done.isNone

/-- The descriptor's work has checkpoints (R274, R317, R369, R389, R397, and the work chapters). -/
def Desc.hasCheckpoints (d : Desc) : Bool :=
  [0x10, 0x11, 0x12, 0x13, 0x14, 0x21, 0x22, 0x23, 0x24, 0x30, 0x31, 0x32, 0x40, 0x41, 0x42, 0x43, 0x51].contains d.opcode || (d.opcode == 0x20 && d.f 18 1 == 0)

/-- Complete with a status and RESULT0, RESULT1. -/
def State.finish (s : State) (id status reason cause r0 r1 : Nat) : State := s.complete id ⟨status, reason, r0, r1, cause⟩

/-- Complete OK. -/
def State.ok (s : State) (id r0 r1 : Nat) : State := s.finish id Status.ok 0 0 r0 r1

/-- CAUSE values of the fault chapter (R679). -/
abbrev causePoisonRead : Nat := 0x51

/-- A descriptor consumes poison: its guest is quarantined here and it completes with FAULT_POISON at the first poisoned
sector (R653, R654). -/
def State.poisonFault (s : State) (d : Desc) (gpa : Nat) : State :=
  (s.finish d.id Status.faultPoison 0 causePoisonRead gpa 0).consume d.guest gpa

/-- How far a descriptor that stops has come (R335): what its writes had performed before the chunk that failed; at an abort, all it has
done, and for a PACED_COPY, which counts a chunk when it is complete, what it has counted. -/
def Desc.atStop (d : Desc) (st : Nat) : Desc :=
  if st = Status.abortedBySoftware ∨ d.opcode = 0x14 then d else { d with progress := d.base }

/-- A step of a descriptor's opcode: nothing unless it runs; an access that failed ends it, once every access is answered, with RESULT0 0
unless the opcode says otherwise. -/
def State.work (s : State) (id op : Nat) (stopped : Desc → Nat → Nat → State) (go : Desc → State) : State :=
  match s.desc id with
  | none => s
  | some d =>
    if !d.runs op || s.power.state == .halted || s.power.state == .off then s
    else match d.fail with
      | some (st, ca) => if d.reading || !d.awaiting.isEmpty then s else stopped (d.atStop st) st ca
      | none => if d.awaiting.isEmpty then (go d).setDesc id fun x => { x with base := d.progress } else go d

/-- A step of one MODE of an opcode: MODE stands in byte 18 of the body. -/
def State.workMode (s : State) (id op mode : Nat) (stopped : Desc → Nat → Nat → State) (go : Desc → State) : State :=
  if (s.desc id).any fun d => d.f 18 1 == mode then s.work id op stopped go else s

/-- The usual end of a failed access. -/
def State.stop (s : State) (d : Desc) (st ca : Nat) : State := s.finish d.id st 0 ca 0 0

end Sys2Proof.Machine
end

