-- ==== Sys2Proof/Machine/Bollards.lean ====
section
/-! DEFINITION. Bollards: the descriptors, mailbox commands and SXF messages, and what ends a wait by time (spec 13:
R514–R530). -/

namespace Sys2Proof.Machine

/-- CAUSE FORMAT for a TIMEOUT out of range (Table 13-6). -/
abbrev bollardTop : Nat := 131072

/-- The bollard that an address of this shore names; none for a reserved bit, another shore or a free bollard (R515). -/
def State.bollardAt (s : State) (addr : Nat) : Option Bollard :=
  match bollardAddr addr with
  | some (shore, n) => if shore = s.self then s.bollard n else none
  | none => none

/-- The address is well formed and names another shore. -/
def State.bollardAway (s : State) (addr : Nat) : Bool := (bollardAddr addr).any fun x => x.1 != s.self

/-! ### Operations at the home -/

/-- Perform an SXF-coded operation of Table 13-5 for a waiter that may stay pending: old value, condition met, and what it
brings about; none where it stays pending. -/
def State.bollardOp (s : State) (b : Bollard) (op x expires : Nat) (g : Nat) (by_ : WaitBy) : State × Option (Nat × Bool) × List Task :=
  let v := b.value.toNat
  if op ≤ 2 then
    let (s, ts) := s.signal b.id op x
    (s, some (v, true), ts)
  else if op = 3 then
    let (s, ts) := s.arrive b.id g expires by_
    (s, none, ts)
  else if op ≤ 6 then
    if condHolds (op - 4) v x then (s, some (v, true), [])
    else (s.addWait ⟨0, b.id, g, op - 4, x, none, expires, by_⟩, none, [])
  else (s, some (v, condHolds (op - 7) v x), [])

/-! ### Descriptors (Table 13-3, R523) -/

def Desc.bollard (d : Desc) : Nat := d.f 16 8
def Desc.tryFlag (d : Desc) : Bool := d.opcode == 0x61 && bit (d.f 25 1) 0

/-- The SXF operation code that a bollard descriptor stands for (Table 13-5). -/
def Desc.bollardCode (d : Desc) : Nat :=
  match d.opcode with
  | 0x60 => d.f 24 1
  | 0x62 => 3
  | _ => d.f 24 1 + (if d.tryFlag then 7 else 4)

/-- Reserved fields of a bollard body. -/
def Desc.bollardBad (d : Desc) : Bool :=
  (match d.opcode with
  | 0x60 => decide (d.f 24 1 > 2) || d.nonzero 25 1
  | 0x61 => decide (d.f 24 1 > 2) || decide (d.f 25 1 > 1)
  | _ => d.nonzero 24 2 || d.nonzero 32 8) || d.nonzero 26 6 || d.nonzero 40 24

/-- The checks of a bollard descriptor (R515, R517, R522). -/
def State.bollardCheck (s : State) (d : Desc) : Option (Nat × Nat × Nat) :=
  let away := s.bollardAway d.bollard
  let b := s.bollardAt d.bollard
  let pends := d.opcode = 0x62 ∨ (d.opcode = 0x61 ∧ !d.tryFlag)
  firstFail [badFormat d.bollardBad Cause.reserved, badFormat (!away && b.isNone) Cause.badBollard,
    badFormat (decide (d.opcode = 0x62) && b.any fun x => decide (x.parties = 0)) Cause.noParties,
    badRights (b.any fun x => !x.admits d.guest) Cause.noGrant,
    (!away && decide pends && !s.waitRoom d.guest, Status.refusedBusy, Cause.waitTable, 2 ^ 64 - 1)]

/-- Hops of a bollard on another shore, in the tail (R289). -/
def State.bollardTail (s : State) (d : Desc) : Nat :=
  match bollardAddr d.bollard with
  | some (shore, _) => if shore = s.self then 0 else 2 * s.fabric.hops s.self shore * 720 + 2560
  | none => 0

/-- The price of a bollard descriptor (Table 06-10). -/
def State.bollardPrice (s : State) (d : Desc) : Price :=
  let p := s.priced d (4000 + s.bollardTail d) [(resQuay, 64)]
  if d.opcode = 0x61 then { p with held := d.deadline, tail := s.bollardTail d } else p

def bollardOpOf : DescOp where
  sizes := [0]
  check := State.bollardCheck
  price := State.bollardPrice

/-- BOLLARD_SIGNAL, BOLLARD_WAIT and BOLLARD_ARRIVE. -/
def opBollardSignal : DescOp := bollardOpOf
def opBollardWait : DescOp := bollardOpOf
def opBollardArrive : DescOp := bollardOpOf

/-- REASON WAIT_TIMEOUT (R523). -/
abbrev reasonWaitTimeout : Nat := 0x0A

/-- The bytes of unit 1 of a BOLLARD message (Table 14-8). -/
def bollardUnit (op timeout operand : Nat) : List Byte := leBytes 16 (op % 16 + (timeout % 2 ^ 24) * 2 ^ 4 + (operand % 2 ^ 64) * 2 ^ 64)

/-- TIMEOUT of a descriptor's remote wait: the whole µs left to its deadline, within Table 13-5's range. -/
def State.waitMicros (s : State) (d : Desc) : Nat := min 16000000 (max 1 ((d.deadline - s.now) / slotTicks))

/-- A bollard descriptor acts: at this shore's bollard, or by a BOLLARD message to its home (R523). -/
def State.bollardWork (s : State) (d : Desc) : State :=
  if d.phase ≠ .running then s
  else
    let code := d.bollardCode
    match bollardAddr d.bollard with
    | none => s.finish d.id Status.refusedFormat 0 Cause.badBollard 0 0
    | some (shore, _) =>
      if shore ≠ s.self then
        if s.faults.dead.contains shore then s.stop d Status.faultDeadTarget Cause.deadHome
        else
          let pends := decide (3 ≤ code ∧ code ≤ 6)
          match s.sendWork d Sxf.bollard false (d.bollard % 2 ^ 57) (bollardUnit code (if pends then s.waitMicros d else 0) (d.f 32 8)) with
          | (s', some t) => s'.setDesc d.id fun d => { d with phase := .waiting, awaiting := d.awaiting ++ [t] }
          | (s', none) => s'
      else match s.bollardAt d.bollard with
        | none => s.finish d.id Status.refusedFormat 0 Cause.badBollard 0 0
        | some b =>
          let s := s.setDesc d.id fun d => { d with phase := .waiting }
          let (s, ans, ts) := s.bollardOp b code (d.f 32 8) d.deadline d.guest (.desc d.id)
          let s := s.run ts
          match ans with
          | some (v, met) =>
            if met then s.ok d.id v 0 else s.finish d.id Status.okPartial reasonWaitTimeout 0 v 0
          | none => s

/-- `BOLLARD_SIGNAL` (R523). -/
def execBollardSignal (d : Nat) (s : State) : Host.Outcome State Fault Refusal := .next (s.work d 0x60 s.stop s.bollardWork)
/-- `BOLLARD_WAIT` (R523). -/
def execBollardWait (d : Nat) (s : State) : Host.Outcome State Fault Refusal := .next (s.work d 0x61 s.stop s.bollardWork)
/-- `BOLLARD_ARRIVE` (R523). -/
def execBollardArrive (d : Nat) (s : State) : Host.Outcome State Fault Refusal := .next (s.work d 0x62 s.stop s.bollardWork)

/-- The home's answer to a descriptor's remote operation (R523). RESULT1 of a remote ARRIVE is a free value: the message
carries no position (log entry 17). -/
def State.bollardAnswered (s : State) (id : Nat) (m : SxfMsg) : State :=
  match s.desc id with
  | none => s
  | some d =>
    if d.done.isSome then s
    else if m.status ≠ Status.ok then s.finish id m.status 0 m.cause 0 0
    else
      let r1 := if d.opcode = 0x62 then s.nextFree % 2 ^ 32 else 0
      let s := if d.opcode = 0x62 then s.drew else s
      if m.ordered then s.finish id Status.okPartial reasonWaitTimeout 0 m.value r1 else s.ok id m.value r1

/-- `BOLLARD_WAIT_TIMEOUT` (R523, R527): a pending wait or arrive has reached its timeout or deadline. -/
def execBollardWaitTimeout (wait : Nat) (s : State) : Host.Outcome State Fault Refusal :=
  .next (match s.boll.waits.find? fun w => w.id = wait with
    | none => s
    | some w =>
      if s.now < w.expires then s
      else
        let v := ((s.bollard w.bollard).map (·.value.toNat)).getD 0
        let (s, ts) := s.answerWait w v true
        s.run ts)

/-! ### SXF messages (Table 13-6) -/

/-- The outcome that Table 13-6 gives a BOLLARD message before it acts. -/
def State.bollardRefusal (s : State) (m : SxfMsg) (op timeout : Nat) : Option (Nat × Nat) :=
  let pends := decide (3 ≤ op ∧ op ≤ 6)
  match (if op ≤ 9 then s.bollardAt m.gpa else none) with
  | none => some (Status.refusedFormat, Cause.badBollard)
  | some b =>
    if !b.admits m.guest then some (Status.refusedRights, Cause.noGrant)
    else if s.quarantined m.guest then some (Status.refusedQuarantine, 0)
    else if (if pends then decide (timeout = 0 ∨ timeout > 16000000) else decide (timeout ≠ 0)) then some (Status.refusedFormat, Cause.format)
    else if op = 3 ∧ b.parties = 0 then some (Status.refusedFormat, Cause.noParties)
    else if pends ∧ !s.waitRoom m.guest then some (Status.refusedBusy, Cause.waitTable)
    else none

/-- A BOLLARD message at its home (R528). -/
def State.bollardHome (s : State) (m : SxfMsg) : State :=
  let op := m.f 0 1 % 16
  let timeout := bits (m.f 0 4) 27 4
  match s.bollardRefusal m op timeout with
  | some (st, ca) => s.reply m Sxf.bollardValue st ca 0 false false []
  | none => match s.bollardAt m.gpa with
    | none => s
    | some b =>
      let (s, ans, ts) := s.bollardOp b op (m.f 8 8) (s.now + timeout * slotTicks) m.guest (.sxf m)
      let s := match ans with
        | some (v, met) => s.reply m Sxf.bollardValue Status.ok 0 v (!met) false []
        | none => s
      s.run ts

/-- `BOLLARD` (R528): refused at the port, answered at the home, or sent on its way. A jetty's message takes a shore tag
(R577). -/
def execBollard (m : SxfMsg) (s : State) : Host.Outcome State Fault Refusal :=
  .next (if m.op ≠ Sxf.bollard then s else match s.portRefusal m with
    | some (st, ca) => s.reply m Sxf.bollardValue st ca 0 false false []
    | none =>
      if m.dest = s.self then s.bollardHome m
      else if !s.fabric.hasShore m.dest then s.reply m Sxf.bollardValue Status.faultDeadTarget Cause.unreachable 0 false false []
      else if s.faults.dead.contains m.dest then s.reply m Sxf.bollardValue Status.faultDeadTarget Cause.deadHome 0 false false []
      else if (s.bundle m.via).any fun b => b.kind = .jetty then s.forwardRequest (m.retag s.self m.tag)
      else s.send m)

/-! ### Mailbox commands (Table 13-4, R525–R527) -/

/-- Bollards `[first, first + n)` are free. -/
def State.runFree (s : State) (first n : Nat) : Bool :=
  decide (first + n ≤ bollardTop) && !s.boll.list.any fun b => decide (first ≤ b.id ∧ b.id < first + n)

/-- The first numbers at which a free run can start: 0, and the number after each allocated bollard. -/
def State.runStarts (s : State) : List Nat := sortBy (· ≤ ·) (0 :: s.boll.list.map fun b => b.id + 1)

/-- The lowest run of free bollards that is long enough (R516). -/
def State.freeRun (s : State) (n : Nat) : Option Nat := s.runStarts.find? fun a => s.runFree a n

/-- The longest free run (R525). -/
def State.longestRun (s : State) : Nat :=
  maxNat (s.runStarts.map fun a =>
    let next := (s.boll.list.filter fun b => decide (a ≤ b.id)).foldl (fun m b => min m b.id) bollardTop
    next - a)

/-- BOLLARD_ALLOC (0x0801, R525). -/
def opBollardAlloc : RelasOp where
  len := lenIs 48
  owns := fun c _ => decide (c.f 16 2 = c.guest)
  fields := fun c _ => firstBad [(decide (c.f 18 2 = 0 ∨ c.f 18 2 > 1024), 18),
    (decide (c.f 32 2 ≠ 0xFFFF ∧ (c.f 18 2 ≠ 1 ∨ c.f 32 2 > 1023)), 32), (nonzero c 34 2, 34), (nonzero c 42 6, 42)]
  limits := fun c s =>
    let held := (s.boll.list.filter fun b => b.owner = c.f 16 2).length
    firstBad [((s.freeRun (c.f 18 2)).isNone, s.longestRun), (decide (held + c.f 18 2 > 32768), 32768)]
  conflict := fun c s =>
    if (s.guestRec (c.f 16 2)).isNone then some 16
    else if c.f 32 2 = 0xFFFF then none
    else match s.sq (c.f 32 2) with
      | some q => if q.guest = c.f 16 2 ∧ q.bollard.isNone then none else some 32
      | none => some 32
  effect := fun c _ s =>
    let first := (s.freeRun (c.f 18 2)).getD 0
    let also := ([c.f 36 2, c.f 38 2, c.f 40 2]).filter (· ≠ 0)
    let new := (span first (c.f 18 2)).map fun n => Bollard.mk n (BitVec.ofNat 64 (c.f 24 8)) (c.f 20 4) (c.f 16 2) also
    let s := { s with boll := { s.boll with list := s.boll.list ++ new } }
    let s := if c.f 32 2 = 0xFFFF then s else s.setSq (c.f 32 2) fun q => { q with bollard := some first }
    (s, { Reply.done with body := leBytes 4 first ++ zeros 4 })
  objects := fun c => if c.f 32 2 = 0xFFFF then [] else [(.sq (c.f 32 2), 32)]

/-- Bollards of a run that exist. -/
def State.runOf (s : State) (first n : Nat) : List Bollard := s.boll.list.filter fun b => decide (first ≤ b.id ∧ b.id < first + n)

/-- BOLLARD_FREE (0x0802, R526). -/
def opBollardFree : RelasOp where
  len := lenIs 24
  fields := fun c _ => firstBad [(decide (c.f 16 4 ≥ bollardTop), 16), (decide (c.f 20 2 = 0), 20), (nonzero c 22 2, 22)]
  conflict := fun c s =>
    let r := s.runOf (c.f 16 4) (c.f 20 2)
    let ids := r.map (·.id)
    if r.length < c.f 20 2 ∨ (s.boll.waits.any fun w => ids.contains w.bollard) ∨ (s.queues.sqs.any fun q => q.bollard.any ids.contains) ∨
      (c.guest ≠ 0 ∧ r.any fun b => b.owner ≠ c.guest) then some 16 else none
  effect := fun c _ s =>
    ({ s with boll := { s.boll with list := s.boll.list.filter fun b => !decide (c.f 16 4 ≤ b.id ∧ b.id < c.f 16 4 + c.f 20 2) } }, .done)
  objects := fun c => [(.bollard (c.f 16 4), 16)]

/-- The bollard that a mailbox command names and may use (R515, R527). -/
def bollardDenied (c : RelasCmd) (s : State) : Bool := (s.bollardAt (c.f 16 8)).any fun b => !b.admits c.guest
def bollardMissing (c : RelasCmd) (s : State) : Option Nat := if (s.bollardAt (c.f 16 8)).isNone then some 16 else none

/-- BOLLARD_SIGNAL (0x0803, R527). -/
def opBollardSignalCmd : RelasOp where
  len := lenIs 40
  fields := fun c _ => firstBad [((bollardAddr (c.f 16 8)).isNone, 16), (decide (c.f 24 1 > 2), 24), (nonzero c 25 7, 25)]
  denied := bollardDenied
  conflict := bollardMissing
  effect := fun c _ s =>
    match s.bollardAt (c.f 16 8) with
    | none => (s, .done)
    | some b => (s.signalRun b.id (c.f 24 1) (c.f 32 8), { Reply.done with body := leBytes 8 b.value.toNat })
  objects := fun c => [(.bollard (c.f 16 8 % bollardTop), 16)]

/-- BOLLARD_WAIT (0x0804, R527). -/
def opBollardWaitCmd : RelasOp where
  len := lenIs 40
  fields := fun c _ => firstBad [((bollardAddr (c.f 16 8)).isNone, 16), (decide (c.f 24 1 > 2), 24), (nonzero c 25 3, 25),
    (decide (c.f 28 4 = 0 ∨ c.f 28 4 > 60000), 28)]
  denied := bollardDenied
  conflict := bollardMissing
  effect := fun c ticket s =>
    match s.bollardAt (c.f 16 8) with
    | none => (s, .done)
    | some b =>
      let v := b.value.toNat
      if condHolds (c.f 24 1) v (c.f 32 8) then (s, .pending (.bollardWait v))
      else if !s.waitRoom c.guest then (s.drew, ⟨Result.busy, s.nextFree % 2 ^ 32, [], false, none, false⟩)
      else (s.addWait ⟨0, b.id, c.guest, c.f 24 1, c.f 32 8, none, s.now + c.f 28 4 * 8000000, .ticket ticket⟩, .pending (.bollardWait v))
  objects := fun c => [(.bollard (c.f 16 8 % bollardTop), 16)]

/-- BOLLARD_TRY_WAIT (0x0805, R527). -/
def opBollardTryWait : RelasOp where
  len := lenIs 40
  fields := fun c _ => firstBad [((bollardAddr (c.f 16 8)).isNone, 16), (decide (c.f 24 1 > 2), 24), (nonzero c 25 7, 25)]
  denied := bollardDenied
  conflict := bollardMissing
  effect := fun c _ s =>
    match s.bollardAt (c.f 16 8) with
    | none => (s, .read [])
    | some b => (s, .read (leBytes 8 b.value.toNat ++ leBytes 1 (b2n (condHolds (c.f 24 1) b.value.toNat (c.f 32 8))) ++ zeros 7))

end Sys2Proof.Machine
end

