-- ==== Sys2Proof/Machine/Extents.lean ====
section
/-! DEFINITION. Dynamic-capacity extents of the host ports: which pairs of cove and guest call for one, where it lies, its
tag, offers and release requests (spec 15: R595–R600, R605). -/

namespace Sys2Proof.Machine

/-- The region of a cove's COHERENCE (Table 15-4). -/
def regionOf (c : Coherence) : Nat := match c with | .noncoherent => 0 | .sharedHdmDb => 1

/-- Extents of a port that occupy a range of a region: offered, pending, accepted or releasing. -/
def State.extentsIn (s : State) (port region : Nat) : List HostExtent :=
  s.host.extents.filter fun x => x.port = port ∧ x.region = region

/-- The lowest 2 MiB-aligned DPA at which a size fits (R596): 0 of the region, or the end of an extent. -/
def State.freeDpa (s : State) (port region size : Nat) : Nat :=
  let xs := s.extentsIn port region
  let start := region * 2 ^ 48
  let cands := sortBy (· ≤ ·) (start :: xs.map fun x => roundUp (x.dpa + x.size) mib2)
  (cands.find? fun b => !xs.any fun x => overlaps b size x.dpa x.size).getD start

/-- The pair (cove, guest) holds on a port (R596). -/
def State.pairHolds (_s : State) (port : Nat) (c : Cove) (g : Guest) : Bool :=
  !g.ownerJetty && decide (g.ownerPort = port) && decide (g.mode ≠ .identity) && (c.grant g.id).r && decide (c.state = .active)

/-- Region 1 can serve on the port (R605). -/
def HostPort.canShare (p : HostPort) : Bool := p.biEnabled && p.decoders.any fun d => d.bi

/-- The rights of a grant as a number: R, W, A from bit 0. -/
def Grant.code (x : Grant) : Nat := b2n x.r + 2 * b2n x.w + 4 * b2n x.a

/-- The tag of an extent (Table 15-5). -/
def HostExtent.tag (x : HostExtent) : List Byte :=
  leBytes 2 x.cove ++ leBytes 2 x.guest ++ leBytes 1 (b2n x.snap.isSome) ++ leBytes 1 x.rights ++ leBytes 2 (x.snap.getD 0xFFFF) ++
    leBytes 6 x.tidemark ++ zeros 2

/-- A dynamic-capacity event of an extent in its port's CXL event log (R614): 0 added, 1 release asked for, 2 forced. -/
def State.extentEvent (s : State) (x : HostExtent) (kind : Nat) : State :=
  s.setPort x.port fun p => { p with
    events := p.events ++ [⟨p.nextEvent, kind, s.now, x.dpa, x.size, x.tag, x.region⟩], nextEvent := p.nextEvent + 1 }

/-- Offer an extent, or hold its offer while region 1 can not serve (R596, R605). -/
def State.offerExtent (s : State) (port region size cove guest : Nat) (snap : Option Nat) (tidemark rights : Nat) : State :=
  let id := s.host.nextExtent
  let ready := region ≠ 1 || (s.port port).any HostPort.canShare
  let x : HostExtent := ⟨port, id, region, s.freeDpa port region size, size, cove, guest, snap, tidemark, rights, if ready then .offered else .held⟩
  let s := { s with host := { s.host with extents := s.host.extents ++ [x], nextExtent := id + 1 } }
  if ready then
    let s := s.count 7 port 3 1
    ((s.extentEvent x 0).emit (.extentOffer port id)).msix port 0
  else s

/-- Change extents. -/
def State.mapExtents (s : State) (p : HostExtent → Bool) (f : HostExtent → HostExtent) : State :=
  { s with host := { s.host with extents := mapIf p f s.host.extents } }

def State.dropExtents (s : State) (p : HostExtent → Bool) : State :=
  { s with host := { s.host with extents := dropIf p s.host.extents } }

/-- Ask the host to release an extent (R600); one whose offer is still held has never reached the host and goes at once. -/
def State.requestRelease (s : State) (x : HostExtent) : State :=
  match x.st with
  | .held => s.dropExtents fun y => y.id = x.id
  | .releasing _ _ => s
  | _ =>
    let was := decide (x.st = .accepted)
    (((s.mapExtents (fun y => y.id = x.id) fun y => { y with st := .releasing s.now was }).extentEvent x 1).emit
      (.extentRelease x.port x.id)).msix x.port 0

/-- After a change of grants or of a guest's owner: extents whose pair no longer holds are asked back, and a rejection ends
with its pair (R599, R600). -/
def State.reviewExtents (s : State) : State :=
  let holds (port cove guest : Nat) : Bool :=
    match s.cove cove, s.guestRec guest with
    | some c, some g => s.pairHolds port c g
    | _, _ => false
  let gone := s.host.extents.filter fun x => x.snap.isNone && !holds x.port x.cove x.guest
  let s := gone.foldl State.requestRelease s
  { s with host := { s.host with
    ports := s.host.ports.map fun p => { p with rejected := p.rejected.filter fun r => holds p.id r.1 r.2 } } }

/-- Pairs of a port that call for a data extent and have none (R596, R597). -/
def State.extentsWanted (s : State) (port : Nat) : List (Nat × Nat) :=
  match s.port port with
  | none => []
  | some p =>
    ((s.store.coves.map fun c => (s.inn.guests.filter fun g => s.pairHolds port c g).map fun g => (c.id, g.id)).flatten).filter fun x =>
      !(s.host.extents.any fun e => e.port = port ∧ e.cove = x.1 ∧ e.guest = x.2 ∧ e.snap.isNone) && !p.rejected.contains x

/-- Data extents of a port (R597). -/
def State.dataExtents (s : State) (port : Nat) : Nat := (s.host.extents.filter fun x => x.port = port ∧ x.snap.isNone).length

/-- The change to a state would need more than 4,096 data extents on some port (R597). -/
def tooManyExtents (after : State) : Bool :=
  after.host.ports.any fun p => decide (after.dataExtents p.id + (after.extentsWanted p.id).length > 4096)

/-- Aliases that a port carries (R253). -/
def State.aliases (s : State) (port : Nat) : Nat := (s.host.extents.filter fun x => x.port = port ∧ x.snap.isSome).length

end Sys2Proof.Machine
end

