-- ==== Sys2Proof/Machine/Versions.lean ====
section
/-! DEFINITION. Versioned coves: holders and retained images, publish points, the carry and the breaking of snapshots, the
descriptors SNAP_OPEN, SNAP_CLOSE and PUBLISH, remote holds, bindings, and the background freeing of images (spec 05:
R219–R255). -/

namespace Sys2Proof.Machine

/-! ### Holders (R224, R234) -/

/-- The snapshot holds references: it is open, not broken and not released. -/
def Snapshot.holds (x : Snapshot) : Bool := x.state = .opened && !x.released && x.remote.isNone

/-- Tidemarks of a cove that snapshots and bindings hold (R224). -/
def State.heldMarks (s : State) (cove : Nat) : List Nat :=
  ((s.store.snaps.filter fun x => x.cove = cove ∧ x.holds).map (·.tidemark)) ++
    s.queues.descs.filterMap fun d => match d.binding with
      | some (c, t) => if c = cove ∧ d.done.isNone then some t else none
      | none => none

/-- An image is still referenced (R224). -/
def State.imageUsed (s : State) (c : Cove) (v : Versions) (i : Image) : Bool :=
  (c.versioned && decide (i.lo ≤ v.latest ∧ v.latest ≤ i.hi)) || (s.heldMarks c.id).any fun t => decide (i.lo ≤ t ∧ t ≤ i.hi)

/-- Free the images of a cove that nothing references. -/
def State.freeImages (s : State) (cove : Nat) : State :=
  s.setCove cove fun c => match c.versions with
    | none => c
    | some v => { c with versions := some { v with images := v.images.filter (s.imageUsed c v) } }

/-- Free unreferenced images of every cove. -/
def State.freeAllImages (s : State) : State := (s.store.coves.map (·.id)).foldl State.freeImages s

/-- The publish point of a tidemark; 0 where none is recorded. -/
def Versions.pointOf (v : Versions) (t : Nat) : Nat := ((v.points.find? fun p => p.1 = t).map (·.2)).getD 0

def State.pointOf (s : State) (cove t : Nat) : Nat :=
  match (s.cove cove).bind (·.versions) with
  | some v => v.pointOf t
  | none => 0

/-- A tidemark is older than its cove's latest published one (R233). -/
def State.olderMark (s : State) (cove t : Nat) : Bool :=
  match (s.cove cove).bind (·.versions) with
  | some v => decide (t < v.latest)
  | none => true

/-! ### Breaking (R233–R235) -/

/-- Change a snapshot. -/
def State.setSnap (s : State) (handle : Nat) (f : Snapshot → Snapshot) : State :=
  { s with store := { s.store with snaps := mapIf (fun x => x.handle = handle) f s.store.snaps } }

/-- The host port of an alias is asked to release its extent (R234, R254, R600). -/
def State.releaseAlias (s : State) (x : Snapshot) : State :=
  (s.host.extents.filter fun e => e.snap = some x.handle).foldl State.requestRelease s

/-- Unit 1 of REMOTE_HOLD and HOLD_BROKEN (the model's layout, log entry 14). -/
def holdUnit (value gpa handle : Nat) (byTime close : Bool) : List Byte :=
  leBytes 16 (value % 2 ^ 64 + bits gpa 56 21 * 2 ^ 64 + (handle % 65536) * 2 ^ 100 + b2n byTime * 2 ^ 116 + b2n close * 2 ^ 117)

/-- A snapshot is broken (R234, R235): it keeps its handle, its alias is asked back, a remote holder is told, and an event
names shore, cove, handle, guest and tidemark. -/
def State.breakSnap (s : State) (handle : Nat) : State :=
  match s.store.snaps.find? fun x => x.handle = handle with
  | none => s
  | some x =>
    let s := (s.setSnap handle fun x => { x with state := .broken }).releaseAlias x
    let s := s.count 0x0A 0 4 1
    let s := s.event ⟨evSnapshotBroken, sevCorrected, 0, 0, 0, x.guest, gpaOf s.self (((s.cove x.cove).map (·.base)).getD 0),
      x.cove + x.handle * 2 ^ 16 + x.tidemark * 2 ^ 32, 0⟩ 1
    match x.holder with
    | some h => (s.control Sxf.holdBroken x.guest (gpaOf h 0) (holdUnit x.tidemark 0 x.handle false false)).1
    | none => s

/-- A binding is broken: the descriptor's reads not yet performed fail (R234). -/
def State.breakBinding (s : State) (id : Nat) : State :=
  (s.setDesc id fun d => { d with binding := none }).failDesc id Status.faultTranslation Cause.snapBroken

/-- What R233 may break. -/
inductive Holder where
  | snap (handle : Nat)
  | binding (desc : Nat)
  deriving DecidableEq, Repr

/-- The order of numbers in a list, lexicographic. -/
def lexLe : List Nat → List Nat → Bool
  | [], _ => true
  | _ :: _, [] => false
  | a :: as, b :: bs => decide (a < b) || (a == b && lexLe as bs)

/-- Every older holder in the order of R233. -/
def State.olderHolders (s : State) : List Holder :=
  let snaps := sortBy (fun a b =>
      lexLe [s.pointOf a.cove a.tidemark, a.cove, a.handle] [s.pointOf b.cove b.tidemark, b.cove, b.handle])
    (s.store.snaps.filter fun x => x.holds ∧ s.olderMark x.cove x.tidemark)
  let bound := s.queues.descs.filterMap fun d => match d.binding with
    | some (c, t) => if d.done.isNone ∧ s.olderMark c t then some (d, s.pointOf c t) else none
    | none => none
  let bound := sortBy (fun a b => lexLe [a.2, a.1.queue, a.1.descId] [b.2, b.1.queue, b.1.descId]) bound
  snaps.map (fun x => .snap x.handle) ++ bound.map fun x => .binding x.1.id

/-- Break holders until the charges fit the pool; the number broken (R233). -/
def State.breakUntil (s : State) : List Holder → Nat → State × Nat
  | [], n => (s, n)
  | h :: hs, n =>
    if 0 ≤ s.freePool then (s, n)
    else
      let s := match h with
        | .snap x => s.breakSnap x
        | .binding d => s.breakBinding d
      s.freeAllImages.breakUntil hs (n + 1)

/-- A publish point of a cove at the present tidetime (R219, R221, R232, R233): the new tidemark and the number broken. -/
def State.publish (s : State) (cove : Nat) : State × Nat × Nat :=
  match (s.cove cove).bind (·.versions) with
  | none => (s, 0, 0)
  | some v =>
    let t := v.latest + 1
    let s := s.setCove cove fun c => { c with versions := some { v with latest := t, points := v.points ++ [(t, s.now)], touched := [] } }
    let s := s.freeImages cove
    let hs := s.olderHolders
    let (s, n) := s.breakUntil hs 0
    (s, t, n)

/-! ### Snapshot limits and handles (R244, R245) -/

/-- SNAP_OPENs in flight that will hold a handle on a cove. -/
def State.opening (s : State) (p : Desc → Bool) : Nat :=
  (s.queues.descs.filter fun d => d.opcode = 0x68 ∧ d.done.isNone ∧ p d).length

/-- Handles held on a cove, BROKEN and RELEASING included. -/
def State.handlesOn (s : State) (cove : Nat) : Nat := (s.store.snaps.filter fun x => x.cove = cove).length

/-- One more handle would pass a limit of R244. -/
def State.snapLimit (s : State) (cove guest : Nat) : Bool :=
  decide (s.handlesOn cove + s.opening (fun d => (d.binding.map (·.1)) = some cove) ≥ 256 ∨
    (s.store.snaps.filter fun x => x.guest = guest).length + s.opening (fun d => d.guest = guest) ≥ 4096 ∨
    s.store.snaps.length + s.opening (fun _ => true) ≥ 65536)

/-- The lowest free handle. -/
def State.freeHandle (s : State) : Nat :=
  ((List.range (s.store.snaps.length + 1)).find? fun h => !s.store.snaps.any fun x => x.handle = h).getD 0

/-- The tidemark that R242 selects; none where it is not retained. -/
def State.selectMark (s : State) (c : Cove) (v : Versions) (mark at_ : Nat) (byTime : Bool) : Option Nat :=
  let held (t : Nat) : Bool := t == v.latest || s.store.snaps.any fun x => x.cove = c.id ∧ x.holds ∧ x.tidemark = t
  if byTime then
    if at_ > s.now then none
    else
      let t := maxNat ((v.points.filter fun p => decide (p.2 ≤ at_)).map (·.1))
      if t ≠ 0 ∧ held t then some t else none
  else if mark = 0 then some v.latest
  else if held mark then some mark else none

/-- A versioned cove, unless a verified set is about to clear VERSIONED on it (R231). -/
def State.versionedAt (s : State) (off : Nat) : Option (Cove × Versions) :=
  match s.coveAt off with
  | none => none
  | some c =>
    let clearing := s.inn.sets.any fun x => x.verified && decide (x.state = .scheduled) && x.staged.any fun k =>
      k.opcode == 0x0203 && decide (k.f 16 2 = c.id) && cMask k 3 && decide (k.f 40 1 = 0)
    match c.versions with
    | some v => if c.versioned && !clearing then some (c, v) else none
    | none => none

/-- A new snapshot takes its handle. -/
def State.addSnap (s : State) (x : Snapshot) : State := { s with store := { s.store with snaps := s.store.snaps ++ [x] } }

/-- A protected cove's set must record a change before the command that makes it completes (R250, R662): the descriptor waits
for the acknowledgements. -/
def State.replicateFor (s : State) (id cove field payload : Nat) : State :=
  if (s.cove cove).any s.parityCovers then
    let (s, ts) := s.replicate cove field payload
    s.setDesc id fun d => { d with awaiting := d.awaiting ++ ts }
  else s

/-- The payload of a handle's replication (TAKEOVER STATE, field 5): handle, guest and tidemark. -/
def handlePayload (handle guest mark : Nat) : Nat := mark + handle * 2 ^ 48 + guest * 2 ^ 64

/-! ### SNAP_OPEN (Table 05-2) -/

def Desc.snapAlias (d : Desc) : Bool := bit (d.f 30 1) 0
def Desc.byTime (d : Desc) : Bool := bit (d.f 30 1) 1

/-- The GPA that the 1 B range of a descriptor translates to. -/
def Desc.gpa0 (d : Desc) : Nat := ((d.range 0).head?.map (·.gpa)).getD 0

/-- The checks of Table 05-5 for SNAP_OPEN. -/
def State.snapOpenCheck (s : State) (d : Desc) : Option (Nat × Nat × Nat) :=
  let gpa := d.gpa0
  let here := s.isHere gpa
  let v := if here then s.versionedAt (gpaOffset gpa) else none
  let mark := match v with
    | some (c, v) => s.selectMark c v (d.f 24 6) (d.f 32 8) d.byTime
    | none => none
  let allOnes := 2 ^ 64 - 1
  firstFail [
    badFormat (decide (d.f 30 1 ≥ 4) || d.nonzero 40 24 || (!d.snapAlias && d.nonzero 31 1) || (d.snapAlias && decide (d.f 31 1 > 3)) ||
      (!d.byTime && d.nonzero 32 8) || (d.byTime && d.nonzero 24 6)) Cause.reserved,
    badFormat (here && v.isNone) Cause.notVersioned,
    badFormat (!here && (s.pullOf gpa 1).isNone) Cause.remote,
    badFormat (here && mark.isNone) Cause.notRetained,
    badRights (here && s.lacks d 0 .read) Cause.noGrant,
    (s.snapLimit ((v.map (·.1.id)).getD 65536) d.guest, Status.refusedBusy, Cause.snapLimit, allOnes),
    (d.snapAlias && decide (s.aliases (d.f 31 1) ≥ 64), Status.refusedBusy, Cause.aliasLimit, allOnes)]

/-- The tidemark is chosen at admission and held by the descriptor until it completes (R242). -/
def State.snapOpenAdmit (s : State) (d : Desc) : State :=
  let gpa := d.gpa0
  if !s.isHere gpa then s
  else match s.versionedAt (gpaOffset gpa) with
    | some (c, v) =>
      match s.selectMark c v (d.f 24 6) (d.f 32 8) d.byTime with
      | some t => s.setDesc d.id fun d => { d with binding := some (c.id, t) }
      | none => s
    | none => s

/-- SNAP_OPEN (opcode 0x68). -/
def opSnapOpen : DescOp where
  sizes := [0]
  ranges := fun _ b => [⟨fld b 16 8, 1, true, false, false⟩]
  check := State.snapOpenCheck
  price := fun s d => s.priced d 8000 [(resQuay, 64)]
  enter := State.snapOpenAdmit

/-- A snapshot of this shore's own cove is open (R243, R253): its alias is offered. -/
def State.snapOpened (s : State) (d : Desc) (cove mark : Nat) : State :=
  let h := s.freeHandle
  match s.cove cove with
  | none => s.stop d Status.faultTranslation Cause.snapBroken
  | some c =>
    let s := s.addSnap ⟨h, cove, d.guest, mark, .opened, false, none, none, gpaOf s.self c.base, c.size⟩
    let s := if d.snapAlias then s.offerExtent (d.f 31 1) 0 c.size cove d.guest (some h) mark 1 else s
    let s := s.replicateFor d.id cove 5 (handlePayload h d.guest mark)
    s.ok d.id (mark + h * 2 ^ 48) (s.handlesOn cove % 65536)

/-- `SNAP_OPEN` (R242, R243, R249): on a cove of this shore it takes its handle; on a pull range it asks the home for a hold. -/
def execSnapOpen (d : Nat) (s : State) : Host.Outcome State Fault Refusal :=
  .next (s.work d 0x68 s.stop fun d =>
    match d.binding with
    | some (c, t) => s.snapOpened d c t
    | none =>
      if s.isHere d.gpa0 then s.stop d Status.faultTranslation Cause.snapBroken
      else if !d.awaiting.isEmpty ∨ d.progress ≠ 0 then s
      else
        let gpa := ((s.pullOf d.gpa0 1).map (·.gpa)).getD d.gpa0
        let (s, t) := s.sendWork { d with bytes := d.bytes } Sxf.remoteHold false gpa
          (holdUnit (if d.byTime then d.f 32 8 else d.f 24 6) gpa 0 d.byTime false)
        match t with
        | some t => s.setDesc d.id fun d => { d with awaiting := d.awaiting ++ [t], progress := 1 }
        | none => s)

/-- The home has answered the REMOTE_HOLD of a SNAP_OPEN (R249): the snapshot records the hold. -/
def State.holdOpened (s : State) (id : Nat) (m : SxfMsg) : State :=
  match s.desc id with
  | none => s
  | some d =>
    if d.done.isSome then s
    else if m.status ≠ Status.ok then s.finish id m.status 0 m.cause 0 0
    else
      let h := s.freeHandle
      let mark := m.value % 2 ^ 48
      let p := s.pullOf d.gpa0 1
      let base := (p.map (·.gpa)).getD d.gpa0
      let s := s.addSnap ⟨h, 65535, d.guest, mark, .opened, false, some (m.src, m.value / 2 ^ 48), none, base, (p.map (·.len)).getD 1⟩
      s.ok id (mark + h * 2 ^ 48) ((s.store.snaps.filter fun x => x.gpa = base ∧ x.remote.isSome).length % 65536)

/-! ### SNAP_CLOSE (Table 05-3) -/

/-- The open handle of a guest. -/
def State.snapOf (s : State) (handle guest : Nat) : Option Snapshot :=
  s.store.snaps.find? fun x => x.handle = handle ∧ x.guest = guest ∧ x.state ≠ .releasing ∧ x.holder.isNone

/-- SNAP_CLOSE (opcode 0x69). -/
def opSnapClose : DescOp where
  sizes := [0]
  check := fun s d => firstFail [badFormat (d.nonzero 18 46) Cause.reserved, badFormat (s.snapOf (d.f 16 2) d.guest).isNone Cause.badHandle]
  price := fun s d => s.priced d 8000 [(resQuay, 64)]

/-- A snapshot ends (R246, R249, R251, R254): an aliased one stays RELEASING until its extent is released or revoked; a remote
hold is released at its home; the pulled granules of a remote snapshot are dropped (R119). -/
def State.closeSnap (s : State) (x : Snapshot) : State :=
  let s := match x.remote with
    | some (home, h) =>
      let s := (s.control Sxf.remoteHold x.guest (gpaOf home (gpaOffset x.gpa)) (holdUnit 0 x.gpa h false true)).1
      { s with store := { s.store with pulled := s.store.pulled.filter fun p =>
          !(p.tidemark == x.tidemark && inside p.gpa granuleSize x.gpa x.len) } }
    | none => s
  let s := if (s.cove x.cove).any s.parityCovers then (s.replicate x.cove 6 (handlePayload x.handle x.guest x.tidemark)).1 else s
  if s.host.extents.any fun e => e.snap = some x.handle then
    (s.setSnap x.handle fun x => { x with state := .releasing, released := true }).releaseAlias x
  else { s with store := { s.store with snaps := s.store.snaps.filter fun y => y.handle ≠ x.handle } }

/-- `SNAP_CLOSE` (R246). -/
def execSnapClose (d : Nat) (s : State) : Host.Outcome State Fault Refusal :=
  .next (s.work d 0x69 s.stop fun d =>
    match s.snapOf (d.f 16 2) d.guest with
    | none => s.finish d.id Status.abortedTeardown 0 Cause.badHandle 0 0
    | some x =>
      let s := s.closeSnap x
      s.ok d.id x.tidemark (s.handlesOn x.cove % 65536 + b2n (x.state = .broken) * 2 ^ 31))

/-! ### PUBLISH (Table 05-4) -/

/-- 8,000 ticks between publish points (R223). -/
abbrev publishGap : Nat := 8000

/-- Every publish point of a cove, performed or scheduled. -/
def Versions.allPoints (v : Versions) : List Nat := v.points.map (·.2) ++ v.scheduled.map (·.2)

/-- PUBLISH_TIME breaks R248. -/
def State.publishTimeBad (s : State) (d : Desc) (v : Versions) : Bool :=
  let t := d.f 24 8
  t ≠ 0 && (d.fenceBefore || decide (t < s.now + 80000) || decide (t > d.deadline) ||
    v.allPoints.any fun p => decide (t < p + publishGap ∧ p < t + publishGap))

/-- The checks of Table 05-5 for PUBLISH. -/
def State.publishCheck (s : State) (d : Desc) : Option (Nat × Nat × Nat) :=
  let gpa := d.gpa0
  let here := s.isHere gpa
  let v := if here then s.versionedAt (gpaOffset gpa) else none
  firstFail [
    badFormat (d.nonzero 32 32) Cause.reserved,
    badFormat (here && v.isNone) Cause.notVersioned,
    badFormat (!here) Cause.remote,
    badFormat (v.any fun x => s.publishTimeBad d x.2) Cause.publishTime,
    badFormat (v.any fun x => decide (x.2.latest + x.2.scheduled.length + 1 ≥ 2 ^ 48)) Cause.tidemarkExhausted,
    badRights (s.lacks d 0 .write) Cause.noGrant]

/-- The waits of R247 as a tail: to 8,000 ticks after the last publish point, performed or scheduled. -/
def State.publishTail (s : State) (d : Desc) : Nat :=
  match s.versionedAt (gpaOffset d.gpa0) with
  | some (_, v) => if d.f 24 8 ≠ 0 then d.f 24 8 - s.now else maxNat v.allPoints + publishGap - s.now
  | none => 0

/-- A timed PUBLISH is scheduled at its admission (R248). -/
def State.publishAdmit (s : State) (d : Desc) : State :=
  if d.f 24 8 = 0 then s
  else match s.coveAt (gpaOffset d.gpa0) with
    | none => s
    | some c => s.setCove c.id fun c =>
      { c with versions := c.versions.map fun v => { v with scheduled := v.scheduled ++ [(d.id, d.f 24 8)] } }

/-- PUBLISH (opcode 0x6A). -/
def opPublish : DescOp where
  sizes := [0]
  ranges := fun _ b => [⟨fld b 16 8, 1, false, true, false⟩]
  check := State.publishCheck
  price := fun s d => s.priced d (8000 + s.publishTail d) [(resQuay, 64)]
  enter := State.publishAdmit

/-- The publish point of a PUBLISH descriptor and its completion (R250). -/
def State.publishNow (s : State) (d : Desc) (cove : Nat) : State :=
  let s := s.setCove cove fun c => { c with versions := c.versions.map fun v => { v with scheduled := v.scheduled.filter fun x => x.1 ≠ d.id } }
  let (s, t, n) := s.publish cove
  let s := s.replicateFor d.id cove 4 (t + s.now * 2 ^ 64)
  s.ok d.id t n

/-- `PUBLISH` (R247): an untimed publish point comes at least 8,000 ticks after every earlier point of the cove; a timed one
waits for PUBLISH_POINT. -/
def execPublish (d : Nat) (s : State) : Host.Outcome State Fault Refusal :=
  .next (s.work d 0x6A s.stop fun d =>
    match s.coveAt (gpaOffset d.gpa0) with
    | some c =>
      match c.versions with
      | some v =>
        if d.f 24 8 ≠ 0 then s
        else if v.allPoints.all fun p => decide (p + publishGap ≤ s.now) then s.publishNow d c.id else s
      | none => s.stop d Status.abortedTeardown Cause.notVersioned
    | none => s.stop d Status.abortedTeardown Cause.notVersioned)

/-- `PUBLISH_POINT` (R248): PUBLISH_TIME of a timed PUBLISH has come. -/
def execPublishPoint (d : Nat) (s : State) : Host.Outcome State Fault Refusal :=
  .next (match s.desc d with
    | none => s
    | some x =>
      if x.opcode ≠ 0x6A ∨ x.done.isSome ∨ x.f 24 8 = 0 ∨ s.now < x.f 24 8 then s
      else match s.coveAt (gpaOffset x.gpa0) with
        | some c => if c.versions.isSome then s.publishNow x c.id else s.stop x Status.abortedTeardown Cause.notVersioned
        | none => s.stop x Status.abortedTeardown Cause.notVersioned)

/-! ### Bindings of descriptors (R237–R239) -/

/-- The ranges of a descriptor that lie in the cove of a snapshot. -/
def State.snapRanges (s : State) (x : Snapshot) (es : List Extent) : List Extent :=
  es.filter fun e => if x.remote.isSome then overlaps e.gpa e.len x.gpa x.len else
    s.isHere e.gpa && overlaps (gpaOffset e.gpa) e.len (gpaOffset x.gpa) x.len

/-- The SNAPSHOT checks of R238, for a handle field at a body offset and the extents that the opcode reads; without SNAPSHOT the
field is reserved. -/
def State.snapCheckOn (s : State) (d : Desc) (off : Nat) (es : List Extent) : List Failing :=
  if !d.snapshot then [badFormat (d.nonzero off 2) Cause.reserved]
  else match s.store.snaps.find? fun x => x.handle = d.f off 2 with
    | none => [badFormat true Cause.badHandle]
    | some x =>
      let mine := s.snapRanges x es
      [badFormat (decide (x.state = .releasing ∨ x.guest ≠ d.guest) || x.holder.isSome) Cause.badHandle,
       badFormat (decide (x.state = .broken)) Cause.snapBroken,
       badFormat mine.isEmpty Cause.badHandle,
       badFormat (mine.any fun e => !s.isHere e.gpa && (s.pullOf e.gpa e.len).isNone) Cause.remote]

/-- The SNAPSHOT checks of an opcode that reads its ranges only. -/
def State.snapCheck (s : State) (d : Desc) (off : Nat) : List Failing := s.snapCheckOn d off d.ranges.flatten

/-- The binding of an admitted descriptor with SNAPSHOT (R239). -/
def State.snapBind (s : State) (d : Desc) (off : Nat) : State :=
  if !d.snapshot then s
  else match s.store.snaps.find? fun x => x.handle = d.f off 2 with
    | none => s
    | some x => s.setDesc d.id fun d => { d with
        binding := if x.remote.isSome then none else some (x.cove, x.tidemark)
        snap := some x.handle }

/-! ### Remote holds (R249) -/

/-- `REMOTE_HOLD` (R249): open a hold on a cove of this shore, or close one. DONE's VALUE gives tidemark and handle (log 14). -/
def State.remoteHold (s : State) (m : SxfMsg) : State :=
  let u := m.f 0 16
  let off := bits u 99 64 * mib2
  let handle := bits u 115 100
  if bit u 117 then
    match s.store.snaps.find? fun x => x.handle = handle ∧ x.holder = some m.src with
    | none => s.refuse m Status.refusedFormat Cause.badHandle
    | some x => ({ s with store := { s.store with snaps := s.store.snaps.filter fun y => y.handle ≠ x.handle } }).reply m Sxf.done Status.ok 0 x.tidemark
        false false []
  else match s.versionedAt (gpaOffset off) with
    | none => s.refuse m Status.refusedFormat Cause.notVersioned
    | some (c, v) =>
      match s.selectMark c v (bits u 47 0) (bits u 63 0) (bit u 116) with
      | none => s.refuse m Status.refusedFormat Cause.notRetained
      | some t =>
        if !(c.grant m.guest).r then s.refuse m Status.refusedRights Cause.noGrant
        else if s.snapLimit c.id m.guest then s.refuse m Status.refusedBusy Cause.snapLimit
        else
          let h := s.freeHandle
          let s := s.addSnap ⟨h, c.id, m.guest, t, .opened, false, none, some m.src, gpaOf s.self c.base, c.size⟩
          let s := if s.parityCovers c then (s.replicate c.id 5 (handlePayload h m.guest t)).1 else s
          s.reply m Sxf.done Status.ok 0 (t + h * 2 ^ 48) false false []

/-- `REMOTE_HOLD` (R249). -/
def execRemoteHold (m : SxfMsg) (s : State) : Host.Outcome State Fault Refusal := .next (s.forSelf m fun s => s.remoteHold m)

/-- `HOLD_BROKEN` (R249): the reading shore's snapshot becomes BROKEN. -/
def execHoldBroken (m : SxfMsg) (s : State) : Host.Outcome State Fault Refusal :=
  .next (s.forSelf m fun s =>
    let h := bits (m.f 0 16) 115 100
    let s := { s with store := { s.store with
      snaps := mapIf (fun x => x.remote = some (m.src, h)) (fun x => { x with state := .broken }) s.store.snaps } }
    let hit := (s.store.snaps.filter fun x => x.remote = some (m.src, h)).map (·.handle)
    let s := ((s.queues.descs.filter fun d => d.done.isNone ∧ d.snap.any hit.contains).map (·.id)).foldl
      (fun s d => s.failDesc d Status.faultTranslation Cause.snapBroken) s
    s.reply m Sxf.ctlAck Status.ok 0 0 false false [])

/-- `IMAGE_FREE` (R224): a retained image that nothing references is freed in the background. -/
def execImageFree (cove granule lo : Nat) (s : State) : Host.Outcome State Fault Refusal :=
  .next (s.setCove cove fun c => match c.versions with
    | none => c
    | some v =>
      let v' := { v with images := v.images.filter fun i => s.imageUsed c v i || !(i.granule == granule && i.lo == lo) }
      let kept := c.versioned || !v'.images.isEmpty || (s.heldMarks c.id).length > 0
      { c with versions := if kept then some v' else none })

end Sys2Proof.Machine
end

