-- ==== Sys2Proof/Machine/Porter.lean ====
section
/-! DEFINITION. Porter and placement work: channels, bus errors, scratchpads, COPY, FILL, STAGE_IN, STAGE_OUT, PACED_COPY,
ADVISE and PREFETCH (spec 07: R308–R338; spec 02: R104–R107, R120; spec 17: R650). -/

namespace Sys2Proof.Machine

/-! ### Channels (R308, R309, R329–R332) -/

def State.setChannel (s : State) (n : Nat) (f : PorterChannel → PorterChannel) : State :=
  { s with porter := { s.porter with channels := mapIf (fun c => c.id = n) f s.porter.channels } }

/-- The channels that a descriptor runs on. -/
def State.channelsOf (s : State) (id : Nat) : List PorterChannel :=
  s.porter.channels.filter fun c => c.st = .running id

/-- Channels that a descriptor's booking gives it in each slot: ⌈c⌉ of its channel-µs per slot, at most 16 (R309). -/
def State.channelCount (s : State) (d : Desc) : Nat :=
  let n := ((s.brk.bookings.find? fun b => b.desc = d.id).map (·.slots)).getD 1
  min 16 (max 1 (ceilDiv (demandOn d.demand resPorter) (100 * n)))

/-- A descriptor takes idle channels, the lowest first (the device chooses, R308; log entry 16). -/
def State.takeChannels (s : State) (d : Desc) (n : Nat) : State :=
  if !(s.channelsOf d.id).isEmpty then s
  else
    let ids := ((s.porter.channels.filter fun c => c.st = .idle).map (·.id)).take n
    ids.foldl (fun s c => s.setChannel c fun x => { x with st := .running d.id, retries := [] }) s

/-- The channel that a chunk is dealt to (R310). -/
def State.channelFor (s : State) (d : Desc) (chunk : Nat) : Nat :=
  let cs := s.channelsOf d.id
  ((cs[chunk % max 1 cs.length]?).map (·.id)).getD 0

/-- ATTEMPTS (R313): the RETRY field of the body, 3 without EXPLICIT. -/
def Desc.attempts (d : Desc) : Nat :=
  let at' := match d.opcode with
    | 0x11 => 49
    | 0x12 => 34
    | 0x13 => 34
    | _ => 50
  let r := d.f at' 1
  if bit r 3 then bits r 2 0 else 3

/-- RETRY holds a reserved value (R313). -/
def retryBad (r : Nat) : Bool := decide (r ≥ 16) || (!bit r 3 && bits r 2 0 != 0)

/-- The opcode is one of Porter's. -/
def Desc.porter (d : Desc) : Bool := decide (0x10 ≤ d.opcode ∧ d.opcode ≤ 0x14)

/-- A descriptor no longer waits for an access. -/
def State.dropAccess (s : State) (id tag : Nat) : State :=
  s.setDesc id fun d => { d with
    remote := d.remote.filter fun (r : RemoteRead) => r.tag ≠ tag
    awaiting := d.awaiting.filter (· ≠ tag) }

/-- A channel halts on an access (R330–R332): the descriptor ends with FAULT_BUS and the accesses that were still to be repeated are
given up; a channel that halts 4 times within 1 s is reported, and its retirement announced 100 ms ahead (R650). -/
def State.haltChannel (s : State) (ch id cause : Nat) (r : Retry) : State :=
  match s.porter.channels.find? fun c => c.id = ch with
  | none => s
  | some c =>
    let info := ch + r.attempts * 2 ^ 8 + b2n (!r.msg.isRead) * 2 ^ 11
    let halts := (c.halts.filter fun t => decide (s.now < t + 8000000000)) ++ [s.now]
    let s := (s.failDesc id Status.faultBus cause).setDesc id fun d => { d with stamp := info }
    let s := (c.retries.filter (·.waiting)).foldl (fun s x => s.dropAccess id x.tag) (s.dropAccess id r.tag)
    let s := (s.setChannel ch fun x => { x with retries := [], halts := halts }).count 8 ch 1 1
    if halts.length ≥ 4 ∧ c.announced.isNone then
      let start := s.now + 800000000
      let s := s.report ⟨evFault, sevRecovered, 0x9, ch, 4, 0, 0, cause, 0⟩
      let cap := s.capAt resPorter (slotOf start)
      let s := { s with brk := { s.brk with reductions := s.brk.reductions ++ [Reduction.mk resPorter (slotOf start) (cap - 100)] } }
      s.setChannel ch fun x => { x with announced := some start }
    else s

/-- An access of a Porter descriptor meets a bus error (R329, R330): a retry is due, or the channel halts. An access that fails
after its descriptor has met such a halt is given up. -/
def State.busError (s : State) (o : Outstanding) (id cause : Nat) : State :=
  match s.desc id with
  | none => s
  | some d =>
    if (d.fail.map (·.1)) = some Status.faultBus then s.dropAccess id o.tag
    else
      let ch := s.channelFor d (d.base / 65536)
      let mine := ((s.porter.channels.find? fun c => c.id = ch).map (·.retries)).getD []
      let prior := ((mine.find? fun r => r.tag = o.tag).map (·.attempts)).getD 0
      let r : Retry := ⟨o.tag, o.msg, prior, s.now, true⟩
      let s := s.setChannel ch fun c => { c with retries := upsert (·.tag) r c.retries }
      if prior ≥ d.attempts then s.haltChannel ch id cause r
      else if s.now + 2000 > d.bookEnd then s.haltChannel ch id Cause.retryBooking r
      else s

/-- An access that a channel retried has succeeded: it is counted as cured (R330). -/
def State.cured (s : State) (id tag : Nat) : State :=
  match s.porter.channels.find? fun c => c.st = .running id ∧ c.retries.any fun r => r.tag = tag with
  | none => s
  | some c => (s.setChannel c.id fun x => { x with retries := x.retries.filter fun (r : Retry) => r.tag ≠ tag }).count 8 c.id 0 1

/-- A channel repeats a whole access (R330); an access that can no longer be made is given up. -/
def State.retryAccess (s : State) (channel id : Nat) (r : Retry) : State :=
  match s.desc id with
  | none => s
  | some d =>
    if !(s.porter.channels.any fun c => c.id = channel && c.retries.contains r) then s
    else if s.now > d.bookEnd then s.haltChannel channel id Cause.retryBooking r
    else match s.sendWork d r.msg.op r.msg.poison r.msg.gpa r.msg.units with
      | (s', some t) =>
        let swap (x : Nat) : Nat := if x = r.tag then t else x
        (s'.setDesc id fun d => { d with
          remote := d.remote.map fun x => { x with tag := swap x.tag }
          awaiting := d.awaiting.map swap }).setChannel channel fun x => { x with
            retries := mapIf (fun y => y.tag = r.tag) (fun y => { y with tag := t, attempts := y.attempts + 1, waiting := false }) x.retries }
      | (s', none) =>
        if (s'.desc id).any fun e => e.fail != d.fail then
          (s'.dropAccess id r.tag).setChannel channel fun x => { x with retries := x.retries.filter fun (y : Retry) => y.tag ≠ r.tag }
        else s'

/-- `PORTER_RETRY` (R330): 2,000 ticks after the failure the channel repeats the whole access. -/
def execPorterRetry (channel : Nat) (s : State) : Host.Outcome State Fault Refusal :=
  .next (match s.porter.channels.find? fun c => c.id = channel with
    | none => s
    | some c => match c.st with
      | .running id => (c.retries.filter fun r => r.waiting && decide (r.failedAt + 2000 ≤ s.now)).foldl (fun s r => s.retryAccess channel id r) s
      | _ => s)

/-- `PORTER_BUS_TIMEOUT` (R329): no response has come within 40,000 ticks of the request. -/
def execPorterBusTimeout (tag : Nat) (s : State) : Host.Outcome State Fault Refusal :=
  .next (match s.transaction tag with
    | none => s
    | some o => match o.desc with
      | none => s
      | some id =>
        if o.sent + 40000 ≤ s.now ∧ (s.desc id).any Desc.porter then (s.dropTransaction tag).busError o id Cause.busTimeout else s)

/-- `PORTER_CHANNEL_RETIRE` (R650): 100 ms after its announcement the channel is retired. -/
def execPorterChannelRetire (channel : Nat) (s : State) : Host.Outcome State Fault Refusal :=
  .next (match s.porter.channels.find? fun c => c.id = channel with
    | none => s
    | some c => match c.announced with
      | some t =>
        if t ≤ s.now ∧ c.st = .idle then
          ({ s with faults := { s.faults with retired := setAdd (0x9, channel) s.faults.retired } }.setChannel channel fun x => { x with
            st := .retired, announced := none }).report ⟨evRetired, sevFailed, 0x9, channel, 4, 0, 0, 0, 0⟩
        else s
      | none => s)

/-! ### Scratchpads (R319–R324) -/

abbrev scratchBlock : Nat := 65536
abbrev scratchSize : Nat := 4194304

/-- The block that an array's scratch offset lies in, when a guest owns it. -/
def State.scratchAt (s : State) (array off : Nat) : Option ScratchBlock :=
  s.porter.blocks.find? fun b => b.array = array ∧ b.block = off / scratchBlock

/-- Scratch bytes; a free block reads as zeros (R319). -/
def State.scratchRead (s : State) (array off n : Nat) : List Byte :=
  (List.range n).map fun i =>
    match s.scratchAt array (off + i) with
    | some b => Mem.get b.mem ((off + i) % scratchBlock)
    | none => 0

/-- Poisoned scratch sectors of a range, by sector number in the scratchpad. -/
def State.scratchPoison (s : State) (array off n : Nat) : List Nat :=
  (sectorsOf off n).filter fun p => (s.scratchAt array (p * 64)).any fun b => b.poison.contains (p % 1024)

/-- Blocks of a scratch range. -/
def scratchBlocks (off n : Nat) : List Nat := blocksOf scratchBlock off n

/-- Write scratch bytes and the poison marks of the sectors they touch (R323): a whole sector takes the new mark, a part
keeps an old one. -/
def State.scratchWrite (s : State) (array off : Nat) (bs : List Byte) (bad : List Nat) : State :=
  let whole := sectorsIn off bs.length
  (scratchBlocks off bs.length).foldl (fun s k =>
    let lo := max off (k * scratchBlock)
    let hi := min (off + bs.length) ((k + 1) * scratchBlock)
    let upd (b : ScratchBlock) : ScratchBlock := { b with
      mem := Mem.write b.mem (lo - k * scratchBlock) (slice bs (lo - off) (hi - lo))
      poison := uniq ((b.poison.filter fun p => !whole.contains (k * 1024 + p)) ++
        (bad.filter fun p => p / 1024 = k).map (· % 1024)) }
    { s with porter := { s.porter with blocks := mapIf (fun b => b.array = array && b.block = k) upd s.porter.blocks } }) s

/-- A guest claims every free block of a scratch range (R320). -/
def State.claimScratch (s : State) (guest array off n : Nat) : State :=
  let free := (scratchBlocks off n).filter fun k => !s.porter.blocks.any fun b => b.array = array ∧ b.block = k
  { s with porter := { s.porter with blocks := s.porter.blocks ++ free.map fun k => ⟨array, k, guest, [], [], [], none⟩ } }

/-- Another guest owns a block of the range (R320). -/
def State.scratchTaken (s : State) (guest array off n : Nat) : Bool :=
  (scratchBlocks off n).any fun k => s.porter.blocks.any fun b => b.array = array ∧ b.block = k ∧ b.owner ≠ guest

/-- Blocks of a guest that lie wholly inside a scratch range are zeroed and become free (R321). -/
def State.freeScratch (s : State) (array off n : Nat) : State :=
  { s with porter := { s.porter with blocks := s.porter.blocks.filter fun b =>
      !(b.array == array && inside (b.block * scratchBlock) scratchBlock off n) } }

/-! ### The movement of a chunk -/

/-- One side of a transfer: a range of the descriptor, a scratch range, or a repeated pattern (R312). -/
inductive Side where
  | range (i : Nat)
  | scratch (array off : Nat)
  | pattern (bytes : List Byte)
  deriving DecidableEq, Repr

/-- A transfer: its two sides, total length and start offset. -/
structure Transfer where
  src : Side
  dst : Side
  len : Nat
  start : Nat
  deriving DecidableEq, Repr

/-- LOGICAL array and offset of SCRATCH (Table 07-3). -/
def Desc.scratchArray (d : Desc) : Nat := bits (d.f 24 4) 26 22
def Desc.scratchOff (d : Desc) : Nat := bits (d.f 24 4) 21 0

/-- What a Porter descriptor moves (Tables 07-1 to 07-4). -/
def Desc.transfer (d : Desc) : Transfer :=
  match d.opcode with
  | 0x11 => ⟨.pattern ((slice d.bytes 40 8).take (2 ^ d.f 48 1)), .range 0, d.f 24 8, d.f 32 8⟩
  | 0x12 => ⟨.range 0, .scratch d.scratchArray d.scratchOff, d.f 28 4, 0⟩
  | 0x13 => ⟨.scratch d.scratchArray d.scratchOff, .range 0, d.f 28 4, 0⟩
  | _ => ⟨.range 0, .range 1, d.f 32 8, d.f 40 8⟩

/-- Pieces of a side on memory. -/
def Desc.sidePieces (d : Desc) (x : Side) (off n : Nat) : List (Nat × Nat) :=
  match x with
  | .range i => d.pieces i off n
  | _ => []

/-- Bytes of a side. -/
def State.sideBytes (s : State) (d : Desc) (x : Side) (off n : Nat) : List Byte :=
  match x with
  | .range i => s.rangeBytes d i off n
  | .scratch a o => s.scratchRead a (o + off) n
  | .pattern p => (List.range n).map fun i => p.getD ((off + i) % max 1 p.length) 0

/-- The poisoned parts of a side, as range offsets and lengths, one for each poisoned sector. -/
def State.sidePoison (s : State) (d : Desc) (x : Side) (off n : Nat) : List (Nat × Nat) :=
  match x with
  | .range i =>
    ((d.pieces i off n).foldl (fun (a : Nat × List (Nat × Nat)) p =>
      let bad := ((sectorsOf p.1 p.2).map (· * 64)).filter (s.poisonAt d)
      let here := bad.map fun g =>
        let lo := max g p.1
        let hi := min (g + 64) (p.1 + p.2)
        (a.1 + (lo - p.1), hi - lo)
      (a.1 + p.2, a.2 ++ here)) (off, [])).2
  | .scratch a o => (s.scratchPoison a (o + off) n).map fun p =>
      let lo := max (p * 64) (o + off)
      let hi := min (p * 64 + 64) (o + off + n)
      (lo - o, hi - lo)
  | .pattern _ => []

/-- Write a chunk to its destination; the sectors that take poison from the source take it here (R323, R333). -/
def State.sideWrite (s : State) (d : Desc) (x : Side) (off : Nat) (bs : List Byte) (bad : List (Nat × Nat)) : State :=
  match x with
  | .range i =>
    let secs := (bad.map fun b => ((d.pieces i b.1 b.2).map fun p => (sectorsOf p.1 p.2).map (· * 64)).flatten).flatten
    s.writeRange d.id i off bs secs.contains
  | .scratch a o => s.scratchWrite a (o + off) bs ((bad.map fun b => sectorsOf (o + b.1) b.2).flatten)
  | .pattern _ => s

/-- Poisoned source sectors that a chunk carries: a sector that an earlier chunk began is not counted again. -/
def State.poisonCarried (s : State) (d : Desc) (t : Transfer) (off n : Nat) : Nat :=
  let all := s.sidePoison d t.src off n
  let split := decide (off > t.start) && (s.sidePoison d t.src (off - 1) 1).length > 0 && (match all.head? with
    | some x => decide (x.1 = off) && (s.sidePoison d t.src (off - 1) 2).length == 1
    | none => false)
  all.length - b2n split

/-- The source extents of each block that a STAGE_IN writes (R324). -/
def State.noteSource (s : State) (d : Desc) (t : Transfer) : State :=
  match t.dst with
  | .scratch a o => (scratchBlocks o t.len).foldl (fun s k =>
      let lo := max o (k * scratchBlock)
      let hi := min (o + t.len) ((k + 1) * scratchBlock)
      let es := ((d.pieces 0 (lo - o) (hi - lo)).foldl (fun (x : List (Nat × Nat × Nat) × Nat) p =>
        (x.1 ++ [(x.2, p.1, p.2)], x.2 + p.2)) ([], lo - k * scratchBlock)).1
      { s with porter := { s.porter with blocks := mapIf (fun b => b.array = a && b.block = k) (fun b => { b with source := es }) s.porter.blocks } }) s
  | _ => s

/-- Move one chunk `[off, off+n)` of a transfer (R311, R316, R317): the reads, then the writes; the answer tells whether the
chunk has been moved. -/
def State.moveChunk (s : State) (id : Nat) (t : Transfer) (off n : Nat) : State × Bool :=
  match s.desc id with
  | none => (s, false)
  | some d =>
    let rd := d.sidePieces t.src off n
    let wr := d.sidePieces t.dst off n
    let (s, a) := s.readyRead id rd
    let (s, b) := s.readyWrite wr
    match s.desc id with
    | none => (s, false)
    | some d =>
      if !(a && b) ∨ d.fail.isSome then (s, false)
      else
        let bs := s.sideBytes d t.src off n
        let bad := s.sidePoison d t.src off n
        let carried := s.poisonCarried d t off n
        let s := (s.touchPieces rd).sideWrite d t.dst off bs bad
        let s := s.count 8 (s.channelFor d (d.progress / 65536)) 2 n
        (s.setDesc id fun d => { d with count := d.count + carried, remote := [] }, true)

/-- The end of a Porter descriptor that a failed access stops, at its stop offset (R334–R336). -/
def State.porterStop (s : State) (d : Desc) (st ca : Nat) : State :=
  let t := d.transfer
  let off := t.start + d.progress + if st = Status.abortedBySoftware ∧ d.opcode = 0x14 then d.aux.headD 0 else 0
  let far := d.opcode != 0x11 && (d.range 1).any fun e => overlaps e.gpa e.len d.failAt 1
  let gva := if far then d.f 24 8 else d.f 16 8
  if st = Status.faultBus then s.finish d.id st 0 ca off d.stamp
  else s.finish d.id st 0 ca (if st = Status.faultTranslation then gva + off else off) (min d.count 0xFFFFFFFF)

/-- The end of a transfer that has moved everything (R321, R336). -/
def State.porterDone (s : State) (d : Desc) : State :=
  let t := d.transfer
  let s := match d.opcode, t.src, t.dst with
    | 0x13, .scratch a o, _ => if bit (d.f 35 1) 0 then s.freeScratch a o t.len else s
    | 0x12, _, _ => s.noteSource d t
    | _, _, _ => s
  s.ok d.id t.len (min d.count 0xFFFFFFFF)

/-- One step of a chunked transfer: the chunk at `progress` once the writes of the last one are performed (R310, R335). -/
def State.porterStep (s : State) (d : Desc) : State :=
  let t := d.transfer
  let s := s.takeChannels d (s.channelCount d)
  if !d.awaiting.isEmpty then s
  else
    let off := t.start + d.progress
    if off ≥ t.len then s.porterDone d
    else
      let n := min 65536 (t.len - off)
      let (s, done) := s.moveChunk d.id t off n
      if !done then s
      else
        let s := s.setDesc d.id fun d => { d with progress := d.progress + n }
        match s.desc d.id with
        | some d => if d.awaiting.isEmpty ∧ d.fail.isNone ∧ off + n ≥ t.len then s.porterDone d else s
        | none => s

/-! ### Checks and prices (Table 07-5, R289, R318) -/

/-- Sector-rounded bytes of `[off, off+n)` of a range. -/
def Desc.rounded (d : Desc) (i off n : Nat) : Nat := sumNat ((d.pieces i off n).map fun p => roundedLen p.1 p.2)

/-- The guest lacks a right on some byte of this shore in `[off, …)` of a range. -/
def State.lacksFrom (s : State) (d : Desc) (i off n : Nat) (a : Access) : Bool :=
  (d.pieces i off n).any fun p => s.isHere p.1 && !s.allowedAll (s.store.coves.length + 1) d.guest (gpaOffset p.1) p.2 a

/-- A range of the descriptor starts or ends beyond the GVA space (R69). -/
def gvaEndBad (gva n : Nat) : Bool := decide (gva + n > 2 ^ 57)

/-- R315: a source byte and a destination byte share a GPA. -/
def Desc.overlap (d : Desc) (i j off n : Nat) : Bool :=
  (d.pieces i off n).any fun p => (d.pieces j off n).any fun q => overlaps p.1 p.2 q.1 q.2

/-- LENGTH or START out of range (Table 07-5). -/
def Transfer.lenBad (t : Transfer) (top : Nat) : Bool := decide (t.len = 0 ∨ t.len > top ∨ t.start ≥ t.len)

/-- The price of a Porter transfer (Table 06-10). -/
def State.porterPrice (s : State) (d : Desc) (rate : Nat) : Price :=
  let t := d.transfer
  let n := t.len - t.start
  let side (x : Side) (w : Bool) : List (Nat × Nat) := match x with
    | .range i => s.moveCharge d i t.start n w ++
        (if w then s.copyOnWrite d i t.start n ++ [(resDeep, (s.coldIn d i t.start n).length)] else [(resDeep, (s.absentIn d i t.start n).length)])
    | _ => []
  let size (x : Side) : Nat := match x with
    | .range i => d.rounded i t.start n
    | _ => 0
  let b := max (size t.src) (size t.dst)
  s.priced d 4000 (side t.src false ++ side t.dst true ++ [(resPorter, ceilDiv (100 * b) rate)])

/-- COPY (opcode 0x10, Table 07-1). -/
def opCopy : DescOp where
  sizes := [0]
  snapshot := true
  ranges := fun _ b => [rangeFrom (fld b 16 8) (fld b 40 8) (fld b 32 8) true false, rangeFrom (fld b 24 8) (fld b 40 8) (fld b 32 8) false true]
  check := fun s d =>
    let t := d.transfer
    firstFail ([badFormat (retryBad (d.f 50 1) || d.nonzero 51 13 || (!d.snapshot && d.nonzero 48 2)) Cause.reserved,
      badFormat (t.lenBad (2 ^ 36) || gvaEndBad (d.f 16 8) t.len || gvaEndBad (d.f 24 8) t.len) Cause.length,
      badFormat (d.overlap 0 1 t.start (t.len - t.start)) Cause.overlap, badFormat d.tooMany Cause.extentLimit] ++ s.snapCheck d 48 ++
      [badRights (s.lacksFrom d 0 t.start (t.len - t.start) .read || s.lacksFrom d 1 t.start (t.len - t.start) .write) Cause.noGrant])
  price := fun s d => s.porterPrice d 100000
  enter := fun s d => s.snapBind d 48

/-- `COPY` (R310, R316). -/
def execCopy (d : Nat) (s : State) : Host.Outcome State Fault Refusal := .next (s.work d 0x10 s.porterStop s.porterStep)

/-- FILL (opcode 0x11, Table 07-2). -/
def opFill : DescOp where
  sizes := [0]
  ranges := fun _ b => [rangeFrom (fld b 16 8) (fld b 32 8) (fld b 24 8) false true]
  check := fun s d =>
    let t := d.transfer
    let p := 2 ^ d.f 48 1
    firstFail [badFormat (decide (d.f 48 1 > 3) || d.nonzero (40 + p) (8 - p) || retryBad (d.f 49 1) || d.nonzero 50 14) Cause.reserved,
      badFormat (t.lenBad (2 ^ 36) || gvaEndBad (d.f 16 8) t.len) Cause.length, badFormat d.tooMany Cause.extentLimit,
      badRights (s.lacksFrom d 0 t.start (t.len - t.start) .write) Cause.noGrant]
  price := fun s d => s.porterPrice d 200000

/-- `FILL` (R312). -/
def execFill (d : Nat) (s : State) : Host.Outcome State Fault Refusal := .next (s.work d 0x11 s.porterStop s.porterStep)

/-- SCRATCH_RANGE: the array's reserved bits aside, the scratch range passes the scratchpad (Table 07-3). -/
def Desc.scratchRangeBad (d : Desc) : Bool := decide (d.scratchOff + d.f 28 4 > scratchSize)

/-- STAGE_IN (opcode 0x12, Table 07-3, R320). -/
def opStageIn : DescOp where
  sizes := [0]
  snapshot := true
  ranges := fun _ b => [⟨fld b 16 8, fld b 28 4, true, false, false⟩]
  check := fun s d =>
    firstFail ([badFormat (bits (d.f 24 4) 31 27 != 0 || retryBad (d.f 34 1) || d.nonzero 35 29 || (!d.snapshot && d.nonzero 32 2)) Cause.reserved,
      badFormat (d.transfer.lenBad scratchSize || gvaEndBad (d.f 16 8) (d.f 28 4)) Cause.length, badFormat d.scratchRangeBad Cause.scratchRange,
      badFormat d.tooMany Cause.extentLimit] ++ s.snapCheck d 32 ++
      [badRights (s.lacks d 0 .read) Cause.noGrant,
       badRights (s.scratchTaken d.guest d.scratchArray d.scratchOff (d.f 28 4)) Cause.scratchOwner])
  price := fun s d => s.porterPrice d 100000
  enter := fun s d => (s.snapBind d 32).claimScratch d.guest d.scratchArray d.scratchOff (d.f 28 4)

/-- `STAGE_IN` (R320, R323, R324). -/
def execStageIn (d : Nat) (s : State) : Host.Outcome State Fault Refusal := .next (s.work d 0x12 s.porterStop s.porterStep)

/-- STAGE_OUT (opcode 0x13, Table 07-3). -/
def opStageOut : DescOp where
  sizes := [0]
  ranges := fun _ b => [⟨fld b 16 8, fld b 28 4, false, true, false⟩]
  check := fun s d =>
    firstFail [badFormat (bits (d.f 24 4) 31 27 != 0 || d.nonzero 32 2 || retryBad (d.f 34 1) || decide (d.f 35 1 > 1) || d.nonzero 36 28) Cause.reserved,
      badFormat (d.transfer.lenBad scratchSize || gvaEndBad (d.f 16 8) (d.f 28 4)) Cause.length, badFormat d.scratchRangeBad Cause.scratchRange,
      badFormat d.tooMany Cause.extentLimit, badRights (s.lacks d 0 .write) Cause.noGrant,
      badRights (s.scratchTaken d.guest d.scratchArray d.scratchOff (d.f 28 4)) Cause.scratchOwner]
  price := fun s d => s.porterPrice d 100000

/-- `STAGE_OUT` (R321, R323). -/
def execStageOut (d : Nat) (s : State) : Host.Outcome State Fault Refusal := .next (s.work d 0x13 s.porterStop s.porterStep)

/-! ### PACED_COPY (Table 07-4, R325–R328) -/

def Desc.highMark (d : Desc) : Nat := d.f 72 8
def Desc.lowMark (d : Desc) : Nat := d.f 80 8
def Desc.chunkSize (d : Desc) : Nat := d.f 88 4
def Desc.poll (d : Desc) : Nat := d.f 96 4
def Desc.addLevel (d : Desc) : Bool := bit (d.f 100 1) 0

/-- REASON PACE_STALL (R328). -/
abbrev reasonPaceStall : Nat := 0x04

/-- A parameter of a paced copy is out of range (R325). -/
def State.paceBad (_s : State) (d : Desc) : Bool :=
  let t := d.transfer
  let b := max (d.rounded 0 t.start (t.len - t.start)) (d.rounded 1 t.start (t.len - t.start))
  decide (d.lowMark ≥ d.highMark ∨ d.chunkSize % 4096 ≠ 0 ∨ d.chunkSize < 4096 ∨ d.chunkSize > 4194304 ∨ d.f 92 4 = 0 ∨ d.f 92 4 > 100000 ∨
    d.poll < 2000 ∨ d.poll > 8000000 ∨ b > 100000 * d.f 92 4)

/-- PACED_COPY (opcode 0x14). -/
def opPacedCopy : DescOp where
  sizes := [1]
  snapshot := true
  ranges := fun _ b => [rangeFrom (fld b 16 8) (fld b 40 8) (fld b 32 8) true false, rangeFrom (fld b 24 8) (fld b 40 8) (fld b 32 8) false true,
    ⟨fld b 64 8, 8, !bit (fld b 100 1) 0, false, bit (fld b 100 1) 0⟩]
  check := fun s d =>
    let t := d.transfer
    firstFail ([badFormat (retryBad (d.f 50 1) || d.nonzero 51 13 || (!d.snapshot && d.nonzero 48 2) || decide (d.f 100 1 > 1) || d.nonzero 101 27) Cause.reserved,
      badFormat (t.lenBad (2 ^ 36) || gvaEndBad (d.f 16 8) t.len || gvaEndBad (d.f 24 8) t.len) Cause.length,
      badFormat (d.overlap 0 1 t.start (t.len - t.start)) Cause.overlap, badFormat (s.paceBad d || decide (d.f 64 8 % 8 ≠ 0)) Cause.paceParam,
      badFormat d.tooMany Cause.extentLimit] ++ s.snapCheck d 48 ++
      [badRights (s.lacksFrom d 0 t.start (t.len - t.start) .read || s.lacksFrom d 1 t.start (t.len - t.start) .write ||
        s.lacks d 2 (if d.addLevel then .atomic else .read)) Cause.noGrant])
  price := fun s d => { s.porterPrice d 100000 with floor := max 1 (d.f 92 4) }
  enter := fun s d => s.snapBind d 48

/-- booked_end: the end of the last booked slot (R326). -/
def State.bookedEnd (s : State) (d : Desc) : Nat :=
  ((s.brk.bookings.find? fun b => b.desc = d.id).map fun b => (b.first + b.slots) * slotTicks).getD s.now

/-- The stages of a paced copy's loop, kept in `wake`'s companion `scratch`: read the level, copy the chunk, wait until it is
performed, wait for the add. -/
abbrev paceLevel : Nat := 0
abbrev paceAsked : Nat := 1
abbrev paceCopy : Nat := 2
abbrev paceWait : Nat := 3
abbrev paceAdded : Nat := 4

/-- Stage and paused of a paced copy. -/
def Desc.paceStage (d : Desc) : Nat := d.scratch.getD 0 0
def Desc.pacePaused (d : Desc) : Bool := d.scratch.getD 1 0 == 1

def State.setPace (s : State) (id stage : Nat) (paused : Bool) : State := s.setDesc id fun d => { d with scratch := [stage, b2n paused] }

/-- The level word's piece. -/
def Desc.levelPieces (d : Desc) : List (Nat × Nat) := d.pieces 2 0 8

/-- The add to the level word, performed at its home (R326, R327). -/
def State.addToLevel (s : State) (d : Desc) (n : Nat) : State :=
  match d.levelPieces with
  | (g, _) :: _ =>
    if s.isHere g then
      let off := gpaOffset g
      if !s.allowedAll (s.store.coves.length + 1) d.guest off 8 .atomic then s.failDesc d.id Status.faultTranslation Cause.rights
      else s.applyWrite off (leBytes 8 (u64 (s.word off 8 + n)))
    else match s.sendWork d Sxf.atomic false g (leBytes 2 0 ++ zeros 14 ++ leBytes 16 n ++ zeros 16) with
      | (s', some t) => s'.setDesc d.id fun d => { d with awaiting := d.awaiting ++ [t] }
      | (s', none) => s'
  | [] => s

/-- One step of a paced copy: as far as the loop of R326 goes before it must wait. -/
def State.paceStep : Nat → Nat → State → State
  | 0, _, s => s
  | f + 1, id, s =>
    match s.desc id with
    | none => s
    | some d =>
      if d.done.isSome ∨ d.fail.isSome then s
      else
        let t := d.transfer
        let off := t.start + d.progress
        let n := min d.chunkSize (t.len - off)
        match d.paceStage with
        | 0 =>
          if off ≥ t.len then s.finish id Status.ok 0 0 t.len (min d.count 0xFFFFFFFF)
          else if s.bookedEnd d ≤ s.now then s.finish id Status.okPartial reasonPaceStall 0 off (min d.count 0xFFFFFFFF)
          else State.paceStep f id ((s.setPace id paceAsked d.pacePaused).setDesc id fun d => { d with remote := [] })
        | 1 =>
          let (s, ready) := s.readyRead id d.levelPieces
          match s.desc id, ready with
          | some d, true =>
            let level := s.rangeNat d 2 0 8
            let paused := if d.pacePaused then decide (d.lowMark < level) else decide (d.highMark ≤ level)
            if paused then (s.setPace id paceLevel true).setDesc id fun d => { d with phase := .waiting, wake := s.now + d.poll }
            else State.paceStep f id ((s.setPace id paceCopy false).setDesc id fun d => { d with remote := [] })
          | _, _ => s
        | 2 =>
          let (s, done) := s.moveChunk id t off n
          if done then State.paceStep f id (s.setPace id paceWait false) else s
        | 3 =>
          if !d.awaiting.isEmpty then s
          else
            let s := if d.addLevel then s.addToLevel d n else s
            State.paceStep f id ((s.setPace id paceAdded false).setDesc id fun d => { d with aux := [n] })
        | _ =>
          if !d.awaiting.isEmpty then s
          else State.paceStep f id ((s.setDesc id fun d => { d with progress := d.progress + n, aux := [] }).setPace id paceLevel false)

/-- `PACED_COPY` (R326): on exactly one channel (R309), until it must wait; a paused copy waits for its POLL. -/
def execPacedCopy (d : Nat) (s : State) : Host.Outcome State Fault Refusal :=
  .next (s.work d 0x14 s.porterStop fun d =>
    if d.phase = .waiting then s else State.paceStep 6 d.id (s.takeChannels d 1))

/-- `PACED_COPY_POLL` (R326): the POLL interval of a paused copy has ended and the level is read again. -/
def execPacedCopyPoll (d : Nat) (s : State) : Host.Outcome State Fault Refusal :=
  .next (s.work d 0x14 s.porterStop fun d =>
    if d.phase ≠ .waiting ∨ s.now < d.wake then s
    else State.paceStep 6 d.id (s.setDesc d.id fun d => { d with phase := .running }))

/-! ### ADVISE and PREFETCH (spec 02) -/

/-- Extents of a range, here. -/
def State.hereExtents (s : State) (d : Desc) (i : Nat) : List (Nat × Nat) :=
  (d.range i).filterMap fun e => if s.isHere e.gpa then some (gpaOffset e.gpa, e.len) else none

/-- The coves that extents of this shore touch, with the part of the extent in each. -/
def State.covePieces (s : State) (es : List (Nat × Nat)) : List (Cove × Nat × Nat) :=
  (es.map fun e => s.store.coves.filterMap fun c =>
    let lo := max e.1 c.base
    let hi := min (e.1 + e.2) (c.base + c.size)
    if lo < hi then some (c, lo, hi - lo) else none).flatten

/-- Overrides of every cove after ADVISE. -/
def State.advised (s : State) (es : List (Nat × Nat)) (cls : Option Cls) : State :=
  (s.covePieces es).foldl (fun s p => s.setCove p.1.id fun k => k.withClass p.2.1 p.2.2 cls) s

/-- Overrides held by the coves that the range covers. -/
def State.overridesHeld (s : State) (es : List (Nat × Nat)) : Nat :=
  sumNat ((uniq ((s.covePieces es).map (·.1.id))).map fun i => ((s.cove i).map (·.overrides.length)).getD 0)

/-- Bytes that the guest has pinned in this shore's coves. -/
def State.pinRoom (s : State) (g : Nat) : Nat := ((s.guestRec g).map (·.pinQuota)).getD 0 - s.pinnedBytes g

/-- ADVISE (opcode 0x15, Table 02-9, Table 02-11). -/
def opAdvise : DescOp where
  sizes := [0]
  ranges := fun _ b => [⟨fld b 16 8, fld b 24 8, true, false, false⟩]
  check := fun s d =>
    let es := s.hereExtents d 0
    let after := s.advised es (adviseCls (d.f 32 1))
    firstFail [badFormat (decide (d.f 32 1 > 4 ∨ d.f 33 1 > 1) || d.nonzero 34 30) Cause.reserved,
      badFormat (decide (d.f 24 8 = 0 ∨ d.f 24 8 % mib2 ≠ 0 ∨ d.f 16 8 % mib2 ≠ 0) || (d.range 0).any fun e => decide (e.gpa % mib2 ≠ 0)) Cause.alignment,
      badFormat d.tooMany Cause.extentLimit, badFormat (!s.allHere d 0) Cause.remote,
      badFormat (after.store.coves.any fun c => decide (c.overrides.length > 64)) Cause.placementLimit,
      badRights (s.lacks d 0 .read) Cause.noGrant, badRights (decide (d.f 32 1 = 0 ∧ d.f 24 8 > s.pinRoom d.guest)) Cause.pinQuota,
      badRights ((s.covePieces es).any fun p => p.1.kind = .translation) Cause.kind]
  price := fun s d => s.priced d 16000 ((s.hereExtents d 0).map fun e => [(resQuay, 64), (s.stackFor e.1, 64)]).flatten

/-- `ADVISE` (R104). -/
def execAdvise (d : Nat) (s : State) : Host.Outcome State Fault Refusal :=
  .next (s.work d 0x15 s.stop fun d =>
    let es := s.hereExtents d 0
    let cls := adviseCls (d.f 32 1)
    let changed := sumNat ((s.covePieces es).map fun p => p.1.changedBytes p.2.1 p.2.2 cls)
    let s := s.advised es cls
    let s := if bit (d.f 33 1) 0 then
        (s.covePieces es).foldl (fun s p => s.queueMoves p.2.1 p.2.2 (cls.getD p.1.cls)) s
      else s
    s.ok d.id changed (s.overridesHeld es))

/-- A PREFETCH range rounded outward to whole granules (Table 02-10). -/
def prefetchBase (b : List Byte) : Nat := fld b 16 8 / granuleSize * granuleSize
def prefetchLen (b : List Byte) : Nat :=
  if fld b 24 8 = 0 then 0 else roundUp (fld b 16 8 + fld b 24 8) granuleSize - prefetchBase b

/-- Remote granules of a range. -/
def State.remoteGranules (s : State) (d : Desc) (i : Nat) : List Nat :=
  uniq (((d.range i).map fun e => if s.isHere e.gpa then [] else (blocksOf granuleSize e.gpa e.len).map (· * granuleSize)).flatten)

/-- Local granules of a range. -/
def State.localGranules (s : State) (d : Desc) (i : Nat) : List Nat :=
  uniq (((s.hereExtents d i).map fun e => granulesOf e.1 e.2).flatten)

/-- PREFETCH (opcode 0x16, Table 02-10, R106, R120). -/
def opPrefetch : DescOp where
  sizes := [0]
  ranges := fun _ b => [⟨prefetchBase b, prefetchLen b, true, false, false⟩]
  check := fun s d =>
    firstFail [badFormat (decide (d.f 32 1 > 1) || d.nonzero 33 31) Cause.reserved, badFormat (decide (d.f 24 8 = 0)) Cause.alignment,
      badFormat d.tooMany Cause.extentLimit,
      badFormat ((d.range 0).any fun e => !s.isHere e.gpa && (s.pullOf e.gpa e.len).isNone) Cause.remote,
      badRights (s.lacks d 0 .read) Cause.noGrant]
  price := fun s d =>
    let gs := (s.localGranules d 0).filter s.absent
    s.priced d 8000 ((gs.map fun g => (resQuay, granuleSize) :: s.stackCharge (g * granuleSize) granuleSize granuleSize false).flatten ++
      [(resDeep, gs.length)])

/-- `PREFETCH` (R106, R107, R120): absent granules are filled, granules of pull ranges pulled; the descriptor completes when
every granule is resident. -/
def execPrefetch (d : Nat) (s : State) : Host.Outcome State Fault Refusal :=
  .next (s.work d 0x16 s.stop fun d =>
    let oldest (g : Nat) : Bool := d.f 32 1 == 1 || s.clsAt (g * granuleSize) == .stream || s.clsAt (g * granuleSize) == .cold
    let gs := s.localGranules d 0
    let rs := s.remoteGranules d 0
    let gone := gs.filter fun g => !s.store.harbour.resident g
    let missing := rs.filter fun g => (s.pulledAt g 0).isNone
    if d.progress = 0 then
      let s := s.setDesc d.id fun d => { d with progress := 1, count := gone.length + missing.length, phase := .waiting }
      let s := gone.foldl (fun s g =>
        if s.absent g ∨ s.missOpen g then
          let s := s.joinMiss g .fill true
          { s with store := { s.store with harbour := { s.store.harbour with
            misses := mapIf (fun m => m.granule = g) (fun m => { m with allocate := true, oldest := oldest g }) s.store.harbour.misses } } }
        else { s with store := { s.store with harbour := s.store.harbour.fill s.now g (s.clsAt (g * granuleSize)) (oldest g) [] } }) s
      let s := missing.foldl (fun s g => s.beginPull g 0 d.guest none []) s
      if (gs.all fun g => s.store.harbour.resident g) ∧ missing.isEmpty then
        s.ok d.id (gone.length + missing.length) (gs.length + rs.length - gone.length - missing.length)
      else s
    else if gone.isEmpty ∧ missing.isEmpty then s.ok d.id d.count (gs.length + rs.length - d.count)
    else s)

end Sys2Proof.Machine
end

