-- ==== Sys2Proof/Machine/Convert.lean ====
section
/-! DEFINITION. CONVERT (spec 08: R366–R372). -/

namespace Sys2Proof.Machine

/-- The numeric formats of a CONVERT: source and destination. -/
def Desc.srcFmt (d : Desc) : Option Format := formatOf (d.f 56 1)
def Desc.dstFmt (d : Desc) : Option Format := formatOf (d.f 57 1)

/-- COUNT or START out of range (R367). -/
def convertLenBad (count start : Nat) : Bool := decide (count = 0 ∨ count > 2 ^ 34 ∨ start ≥ count)

/-- The alignment rules of R367 for one side. -/
def sideMisaligned (f : Format) (count start addr : Nat) : Bool :=
  if f.mx then
    decide (count % 32 ≠ 0 ∨ start % 32 ≠ 0) || (f.elem.width == 6 && addr % 24 != 0) || (f.elem.width == 8 && addr % 32 != 0)
  else (f.elem.width == 4 && decide (count % 2 ≠ 0 ∨ start % 2 ≠ 0)) ||
    (decide (f.elem.width ≥ 16) && addr % (f.elem.width / 8) != 0)

/-- The ranges of a CONVERT in body order, from START on (R366): elements, then scales; none where the formats or counts do not
fix them. -/
def convertRanges (b : List Byte) : List Range :=
  let count := fld b 32 8
  let start := fld b 72 8
  match formatOf (fld b 56 1), formatOf (fld b 57 1) with
  | some x, some y =>
    if convertLenBad count start then []
    else
      let elems (gva : Nat) (f : Format) (r w : Bool) := rangeFrom gva (elemBytes f.elem start) (elemBytes f.elem count) r w
      let scales (gva : Nat) (f : Format) (r w : Bool) := if f.mx then rangeFrom gva (start / 32) (count / 32) r w else ⟨0, 0, r, w, false⟩
      [elems (fld b 16 8) x true false, elems (fld b 24 8) y false true, scales (fld b 40 8) x true false, scales (fld b 48 8) y false true]
  | _, _ => []

/-- Offset and length, within range `i`, of the bytes of elements `[j, j+n)`. -/
def elemSpan (f : Format) (i j n : Nat) : Nat × Nat :=
  if i < 2 then (elemBytes f.elem j, elemBytes f.elem (j + n) - elemBytes f.elem j)
  else if f.mx then (j / 32, ceilDiv (j + n) 32 - j / 32) else (0, 0)

/-- The pieces of range `i` that hold elements `[j, j+n)`. -/
def Desc.elemPieces (d : Desc) (i j n : Nat) : List (Nat × Nat) :=
  match formatOf (d.f (56 + i % 2) 1) with
  | some f => let x := elemSpan f i j n; d.pieces i x.1 x.2
  | none => []

/-- CONVERT (opcode 0x24, Table 08-6). -/
def opConvert : DescOp where
  sizes := [1]
  selectorBad := fun b => fld b 58 1 % 4 == 3
  ranges := fun _ b => convertRanges b
  check := fun s d =>
    let n := d.f 32 8
    let st := d.f 72 8
    let mx (f : Option Format) : Bool := f.any (·.mx)
    let bad (f : Option Format) (a : Nat) : Bool := f.any fun f => sideMisaligned f n st a
    firstFail [badFormat (decide (d.f 58 1 ≥ 8) || (d.f 58 1 % 4 != 2 && d.nonzero 60 12) || d.nonzero 80 48 ||
        (!mx d.srcFmt && d.nonzero 40 8) || (!mx d.dstFmt && d.nonzero 48 8)) Cause.reserved,
      badFormat (d.srcFmt.isNone || d.dstFmt.isNone) Cause.format, badFormat (convertLenBad n st) Cause.length,
      badFormat (bad d.srcFmt (d.f 16 8) || bad d.dstFmt (d.f 24 8)) Cause.alignment,
      badFormat ([0, 2].any fun i => [1, 3].any fun j => (d.range i).any fun x => (d.range j).any fun y => overlaps x.gpa x.len y.gpa y.len)
        Cause.overlap,
      badFormat d.tooMany Cause.extentLimit,
      badRights (s.lacks d 0 .read || s.lacks d 2 .read || s.lacks d 1 .write || s.lacks d 3 .write) Cause.noGrant]
  price := fun s d =>
    let st := d.f 72 8
    let n := d.f 32 8 - st
    let side (i : Nat) (w : Bool) : List (Nat × Nat) := match formatOf (d.f (56 + i % 2) 1) with
      | some f =>
        let x := elemSpan f i st n
        s.moveCharge d i x.1 x.2 w ++ (if w then s.copyOnWrite d i x.1 x.2 else [(resDeep, (s.absentIn d i x.1 x.2).length)])
      | none => []
    s.priced d 8000 (side 0 false ++ side 2 false ++ side 1 true ++ side 3 true ++ [(resArray, ceilDiv (100 * n) 1638400)])

/-- What the stop of a CONVERT answers (R369, R371): the stop offset in elements; under R338 the GVA of the stop offset on the
side that failed, as R80. -/
def State.convertStop (s : State) (d : Desc) (st ca : Nat) : State :=
  let j := d.f 72 8 + d.progress
  let r1 := min (d.count) 0xFFFF + min d.scratch.length 0xFFFF * 2 ^ 16
  if st = Status.faultTranslation then
    let i := ([0, 1, 2, 3].find? fun i => (d.range i).any fun e => overlaps e.gpa e.len d.failAt 1).getD 0
    let off := match formatOf (d.f (56 + i % 2) 1) with
      | some f => (elemSpan f i j 1).1
      | none => 0
    s.finish d.id st 0 ca (d.f ([16, 24, 40, 48].getD i 16) 8 + off) i
  else s.finish d.id st 0 ca j r1

/-- The elements of range `i` that poisoned sectors hold, as intervals from the vector's element 0; whole blocks under scales. -/
def State.poisonElems (s : State) (d : Desc) (f : Format) (i j n : Nat) : List (Nat × Nat) :=
  let x := elemSpan f i j n
  (s.sidePoison d (.range i) x.1 x.2).map fun p =>
    if i < 2 then
      let a := p.1 * 8 / f.elem.width
      (a, ceilDiv ((p.1 + p.2) * 8) f.elem.width - a)
    else (32 * p.1, 32 * p.2)

/-- Elements `[j, j+n)` of a CONVERT are converted and written, with the poison that they carry (R368, R370). -/
def State.convertChunk (s : State) (d : Desc) (x y : Format) (j n : Nat) : State :=
  let src := elemSpan x 0 j n
  let sc := elemSpan x 2 j n
  let vals := decodeVec x n (s.rangeBytes d 0 src.1 src.2) (s.rangeBytes d 2 sc.1 sc.2)
  let k := toSigned 8 (d.f 59 1)
  let rm := (rmodeOf (d.f 58 1)).getD rmodeDefault
  let (bs, ss, beyond) := encodeVec y (vals.map fun v => v.scale k) rm fun i => srBits (d.f 64 8) (d.f 60 4) (j + i)
  let poisoned := (s.poisonElems d x 0 j n ++ (if x.mx then s.poisonElems d x 2 j n else [])).map fun p =>
    if y.mx then
      let a := p.1 / 32 * 32
      (a, roundUp (p.1 + p.2) 32 - a)
    else p
  let secs (i : Nat) : List Nat := uniq ((poisoned.map fun p =>
    ((d.elemPieces i (max p.1 j) (min (p.1 + p.2) (j + n) - max p.1 j)).map fun q => (sectorsOf q.1 q.2).map (· * 64)).flatten).flatten)
  let s := s.touchPieces (d.elemPieces 0 j n ++ d.elemPieces 2 j n)
  let dst := elemSpan y 1 j n
  let s := s.writeRange d.id 1 dst.1 bs (secs 1).contains
  let s := if y.mx then s.writeRange d.id 3 (elemSpan y 3 j n).1 ss (secs 3).contains else s
  s.setDesc d.id fun d => { d with
    count := d.count + beyond, scratch := uniq (d.scratch ++ secs 1 ++ (if y.mx then secs 3 else [])),
    progress := d.progress + n, remote := [] }

/-- One chunk of a CONVERT (R369), once the writes of the last one are performed. -/
def State.convertStep (s : State) (d : Desc) : State :=
  let j := d.f 72 8 + d.progress
  match d.srcFmt, d.dstFmt with
  | some x, some y =>
    if !d.awaiting.isEmpty then s
    else if j ≥ d.f 32 8 then s.convertStop d Status.ok 0
    else
      let n := min 65536 (d.f 32 8 - j)
      let (s, a) := s.readyRead d.id (d.elemPieces 0 j n ++ d.elemPieces 2 j n)
      let (s, b) := s.readyWrite (d.elemPieces 1 j n ++ d.elemPieces 3 j n)
      match s.desc d.id with
      | none => s
      | some d =>
        if !(a && b) ∨ d.fail.isSome then s
        else
          let s := s.convertChunk d x y j n
          match s.desc d.id with
          | some d => if d.awaiting.isEmpty ∧ d.fail.isNone ∧ j + n ≥ d.f 32 8 then s.convertStop d Status.ok 0 else s
          | none => s
  | _, _ => s

/-- `CONVERT` (R368–R371). -/
def execConvert (d : Nat) (s : State) : Host.Outcome State Fault Refusal := .next (s.work d 0x24 s.convertStop s.convertStep)

end Sys2Proof.Machine
end

