-- ==== Sys2Proof/Machine/Rows.lean ====
section
/-! DEFINITION. The row cache, and rows read for gathers of other shores (spec 10: R424–R430; spec 14: R570). -/

namespace Sys2Proof.Machine

/-! ### The frequency sketch and the row cache (R424–R427) -/

/-- The counter that row `k` of the sketch uses for a row. -/
def sketchSlot (k tag x : Nat) : Nat := srBits k tag x % 2 ^ 20

/-- A counter of the sketch. -/
def Tables.sketchAt (t : Tables) (k h : Nat) : Nat :=
  match t.sketch.find? fun e => e.1 = k ∧ e.2.1 = h with
  | some e => e.2.2
  | none => 0

/-- est (R425). -/
def Tables.est (t : Tables) (tag x : Nat) : Nat :=
  ([1, 2, 3].map fun k => t.sketchAt k (sketchSlot k tag x)).foldl min (t.sketchAt 0 (sketchSlot 0 tag x))

/-- bump (R425): on every row read by a gather. -/
def Tables.bump (t : Tables) (tag x : Nat) : Tables :=
  let upd (l : List (Nat × Nat × Nat)) (k : Nat) : List (Nat × Nat × Nat) :=
    let h := sketchSlot k tag x
    upsert (fun e => (e.1, e.2.1)) (k, h, min (t.sketchAt k h + 1) 15) l
  let sk := [0, 1, 2, 3].foldl upd t.sketch
  if t.bumps + 1 = 2 ^ 23 then
    { t with bumps := 0, sketch := (sk.map fun e => (e.1, e.2.1, e.2.2 / 2)).filter fun e => e.2.2 ≠ 0 }
  else { t with bumps := t.bumps + 1, sketch := sk }

/-- Sets of the row cache: its bytes by 16,384 (R425). -/
def State.rowSets (s : State) : Nat := s.store.harbour.rowGib * 2 ^ 30 / 16384

/-- The set of a slot (R425). -/
def State.rowSet (s : State) (tag c k : Nat) : Nat := srBits 4 tag (c * 2 ^ 44 ||| k) % s.rowSets

/-- The entry of a slot. -/
def State.rowEntry (s : State) (t : Table) (c k : Nat) : Option RowEntry :=
  s.tables.cache.find? fun (e : RowEntry) => e.tag = t.tag ∧ e.cls = c ∧ e.slot = k

/-- The order of R426: est, last hit, key. -/
def Tables.before (t : Tables) (a b : RowEntry) : Bool :=
  let key (e : RowEntry) : List Nat := [t.est e.tag e.row, e.hit, e.tag, e.cls, e.slot]
  lexLt (key a) (key b)
where
  /-- Lists of numbers in lexicographic order. -/
  lexLt : List Nat → List Nat → Bool
    | a :: as, b :: bs => a < b || (a == b && lexLt as bs)
    | _, _ => false

/-- Entries that admission would have to evict, in order, until the new one fits (R426). -/
def takeEntries (need : Nat) : List RowEntry → Nat → Nat → List RowEntry → List RowEntry
  | [], _, _, acc => acc
  | e :: es, room, count, acc =>
    if room ≥ need ∧ count + 1 ≤ 64 then acc else takeEntries need es (room + e.len) (count - 1) (acc ++ [e])

/-- A row enters the cache (R426). -/
def State.admitRow (s : State) (t : Table) (x c k : Nat) : State :=
  let need := t.slotSize c
  if s.rowSets = 0 then s
  else
    let set := s.rowSet t.tag c k
    let mine := s.tables.cache.filter fun (e : RowEntry) => s.rowSet e.tag e.cls e.slot = set
    let sorted := sortBy (fun a b => s.tables.before a b) mine
    let taken := takeEntries need sorted (16384 - sumNat (mine.map (·.len))) mine.length []
    let f := s.tables.est t.tag x
    if taken.all fun e => s.tables.est e.tag e.row < f then
      let cache := s.tables.cache.filter fun (e : RowEntry) => !taken.contains e
      { s with tables := { s.tables with cache := cache ++ [⟨t.tag, c, k, t.slotOff c k, need, x, s.now⟩] } }
    else s

/-- What reading a row's slot for a gather leaves behind (R424–R426): the sketch, a hit of the row cache and its count, or a read
of the Harbour and an offer of admission. -/
def State.rowWasRead (s : State) (t : Table) (x c k : Nat) : State :=
  let s := { s with tables := s.tables.bump t.tag x }
  match t.cached, s.rowEntry t c k with
  | true, some e =>
    let s := { s with tables := { s.tables with cache := mapIf (fun y => y = e) (fun y => { y with hit := s.now }) s.tables.cache } }
    s.count 4 0 4 1
  | cached, _ =>
    let s := s.touchRead (t.slotOff c k / granuleSize)
    if cached then s.admitRow t x c k else s

/-- The row cache serves a slot. -/
def State.rowCached (s : State) (t : Table) (c k : Nat) : Bool := t.cached && (s.rowEntry t c k).isSome

/-! ### A row read at its home (R428, R429, R570) -/

/-- R on the table's regions for a guest. -/
def State.regionRight (s : State) (t : Table) (g : Nat) (a : Access) : Bool :=
  t.shardIndex = 0xFFFF || (s.allowed g t.region (max 1 t.regionNeed) a && (t.shadowNeed = 0 || s.allowed g t.shadow t.shadowNeed a))

/-- The latest time of a ROW_READ, as the end of its slot (R570). -/
def State.rowDeadline (s : State) (m : SxfMsg) : Nat :=
  let first := slotOf s.now - 16
  (first + (m.rowLatest + 2 ^ 17 - first % 2 ^ 17) % 2 ^ 17 + 1) * slotTicks

/-- A granule waits in the deep tier. -/
def State.notAtHand (s : State) (g : Nat) : Bool := s.absent g || s.missOpen g

/-- A ROW_DATA response (R570). -/
def State.rowReply (s : State) (m : SxfMsg) (status cause entry off n : Nat) : State :=
  s.reply m.norm Sxf.rowData status cause entry (status == Status.okDegraded) (n != 0 && !(s.poisonIn off n).isEmpty) (s.bytesAt off n)

/-- The home serves a row read: now, or when a granule that it needs has been filled (R428, R429, R570). -/
def State.serveRow (s : State) (m : SxfMsg) : State :=
  let guest := m.norm.guest
  match s.table m.rowTable with
  | none => s.rowReply m Status.refusedFormat Cause.badTable 0 0 0
  | some t =>
    if t.guest ≠ guest then s.rowReply m Status.refusedFormat Cause.badTable 0 0 0
    else if t.dying ∨ m.rowRow ≥ t.rows ∨ !t.isLocal m.rowRow then s.rowReply m Status.ok 0 0 0 0
    else if !s.regionRight t guest .read then (s.countRights guest).rowReply m Status.faultTranslation Cause.rights 0 0 0
    else
      let eo := t.entryOff (t.localRow m.rowRow)
      let eg := eo / granuleSize
      if s.notAtHand eg then s.joinMiss eg (.plain m []) (s.clsAt eo = .prefer)
      else
        let e := s.word eo 8
        if !t.validEntry e then s.rowReply m Status.ok 0 e 0 0
        else
          let c := entryClass e
          let k := entrySlot e
          let so := t.slotOff c k
          let g := so / granuleSize
          let s := s.touchRead eg
          if s.notAtHand g ∧ !s.rowCached t c k then
            if m.rowShadowOk ∧ Config.tierLate g s.now (s.rowDeadline m) then
              let sh := t.shadowOff c k
              let s := s.joinMiss g .fill (s.clsAt so = .prefer)
              if bit e 62 ∧ t.hasShadow c ∧ !s.notAtHand (sh / granuleSize) then
                s.rowReply m Status.okDegraded 0 e sh (t.shadowSlot c)
              else s.rowReply m Status.okPartial 0 e 0 0
            else s.joinMiss g (.plain m []) (s.clsAt so = .prefer)
          else (s.rowWasRead t m.rowRow c k).rowReply m Status.ok 0 e so (t.slotSize c)

/-- `ROW_READ` (R428, R570): served here, or on its way (R579); no endpoint sends one. -/
def execRowRead (m : SxfMsg) (s : State) : Host.Outcome State Fault Refusal :=
  .next (if m.op ≠ Sxf.rowRead then s
    else match s.portRefusal m.norm with
    | some (st, ca) => s.refuse m.norm st ca
    | none => match s.bundle m.via with
      | none => s
      | some b =>
        if b.kind = .jetty then s.refuse m.norm Status.refusedFormat Cause.format
        else if !s.fabric.hasShore m.dest then s.refuse m.norm Status.faultDeadTarget Cause.unreachable
        else if m.dest = s.self then s.serveRow m
        else
          let (s', sent) := s.forward m
          if sent then s'.setBundle b.id fun x => { x with forwarded := x.forwarded + 1 }
          else s.refuse m.norm Status.faultDeadTarget Cause.unreachable)

/-! ### A row read that comes back -/

/-- A row read of a gather is sent to the row's shore (R428); a shore that has failed has no replacement for it (R217). -/
def State.sendRow (s : State) (d : Desc) (table x home : Nat) (shadowOk : Bool) : State × Option Nat :=
  if !s.fabric.hasShore home then (s.failDesc d.id Status.faultDeadTarget Cause.unreachable (gpaOf home 0), none)
  else if s.faults.dead.contains home then (s.failDesc d.id Status.faultDeadTarget Cause.deadHome (gpaOf home 0), none)
  else match s.freeTag with
  | none => (s, none)
  | some tag =>
    let m : SxfMsg := ⟨noBundle, d.tc, SxfMsg.rowUnit home (slotOf d.deadline) x table d.guest tag s.self shadowOk, []⟩
    let (s', sent) := s.forward m
    if sent then (s'.addOutstanding ⟨tag, noBundle, 0, tag, home, m, false, false, some d.id, s.now⟩, some tag)
    else (s.failDesc d.id Status.faultDeadTarget Cause.unreachable (gpaOf home 0), none)

/-- What a ROW_DATA says of its position: invalid, the stored row, its shadow, or missing (R429, R570). -/
def RowRead.answered (r : RowRead) (m : SxfMsg) : RowRead :=
  let n := ceilDiv m.units.length 64
  { r with
    tag := none, entry := m.value, got := true, data := m.units, bad := if m.poison then List.range n else []
    st := if m.status = Status.okDegraded then .shadow else if m.status = Status.okPartial then .missing
      else if bit m.value 63 && !m.units.isEmpty then .primary else .invalid }

/-- A row read has been answered (R428). -/
def State.rowAnswered (s : State) (id : Nat) (m : SxfMsg) : State :=
  let mine (r : RowRead) : Bool := r.tag == some m.tag
  if m.good then s.setDesc id fun d => { d with rows := mapIf mine (fun r => r.answered m) d.rows }
  else
    let (st, ca) := if m.status = Status.refusedFormat then (Status.refusedFormat, m.cause)
      else if m.status = Status.faultTranslation then (Status.faultTranslation, m.cause)
      else if m.status = Status.faultTier then (Status.faultTier, m.cause)
      else (Status.faultDeadTarget, m.cause)
    (s.failDesc id st ca (gpaOf m.src 0)).setDesc id fun d => { d with rows := mapIf mine (fun r => { r with tag := none }) d.rows }

end Sys2Proof.Machine
end

