-- ==== Sys2Proof/Machine/Shards.lean ====
section
/-! DEFINITION. What an index shard holds and how it is searched: distances, ranking, visibility, the search of one query, caravans,
and searches for other shores (spec 11: R446–R461, R471–R484; spec 14: R571). -/

namespace Sys2Proof.Machine

def State.index (s : State) (id : Nat) : Option Index := s.indices.list.find? fun (x : Index) => x.id = id

def State.setIndex (s : State) (id : Nat) (f : Index → Index) : State :=
  { s with indices := { s.indices with list := mapIf (fun (x : Index) => x.id = id) f s.indices.list } }

/-! ### Layout (R447, R450, Table 11-4) -/

/-- The element format of a FLAT index's vectors; SQ stores INT8 codes. -/
def Index.elem (x : Index) : Elem := ((formatOf x.vfmt).map (·.elem)).getD .fp32
/-- Code bytes C, entry bytes ES, driftline slot bytes DS. -/
def Index.codeBytes (x : Index) : Nat :=
  match x.kind with
  | 0 => elemBytes x.elem x.dim
  | 1 => x.dim
  | _ => x.pqM
def Index.entryBytes (x : Index) : Nat := x.codeBytes + 16
def Index.slotBytes (x : Index) : Nat := roundUp (max x.entryBytes 32) 16
/-- Bytes of a centroid element. -/
def Index.cw (x : Index) : Nat := if x.centFmt = 0 then 4 else 2
def Index.centElem (x : Index) : Elem := if x.centFmt = 0 then .fp32 else .bf16
/-- Sizes of the parts of REGION before rounding to granules. -/
def Index.parts (x : Index) : List Nat :=
  [x.lists * x.dim * x.cw, (match x.kind with
    | 0 => 0
    | 1 => 8 * x.dim
    | _ => 1024 * x.dim), 64 * x.lists, 2 * x.maxVectors * x.entryBytes, x.driftPool * x.slotBytes]
def Index.paramBytes (x : Index) : Nat := x.parts.getD 1 0
/-- Bytes that REGION needs. -/
def Index.need (x : Index) : Nat := sumNat (x.parts.map fun n => roundUp n granuleSize)
/-- Shore offsets of a centroid and of the parameters. -/
def Index.centOff (x : Index) (l : Nat) : Nat := x.region + l * x.dim * x.cw
def Index.paramOff (x : Index) : Nat := x.region + roundUp (x.parts.getD 0 0) granuleSize
/-- This shore holds a shard. -/
def Index.here (x : Index) : Bool := x.shardIndex != 0xFFFF

/-! ### Distances (R455–R458) -/

/-- The FLAT distance of two vectors of `k` elements under the index's metric. -/
def Index.flat (x : Index) (q v : List Num) (k : Nat) : Num :=
  let a : Operand := ⟨q, [], false⟩
  let b : Operand := ⟨v, [], false⟩
  if x.metric = 0 then dist2 a b k else (dot a b k).neg

/-- An FP32 parameter at a byte of the parameter part. -/
def State.param (s : State) (x : Index) (off : Nat) : Num := decodeElem .fp32 (s.word (x.paramOff + off) 4)

/-- Codebook entry `c` of sub-vector `m`. -/
def State.codebook (s : State) (x : Index) (m c : Nat) : List Num :=
  let d := x.dim / x.pqM
  (List.range d).map fun i => s.param x (4 * (256 * d * m + d * c + i))

/-- The values of a stored code (R456). -/
def State.decodeCode (s : State) (x : Index) (code : List Byte) : List Num :=
  match x.kind with
  | 0 => decodeVec ⟨x.elem, false⟩ x.dim code []
  | 1 => (List.range x.dim).map fun j =>
      fp32 (((s.param x (4 * j)).mul (decodeElem .int8 (fld code j 1))).add (s.param x (4 * x.dim + 4 * j)))
  | _ => ((List.range x.pqM).map fun m => s.codebook x m (fld code m 1)).flatten

/-- The distance between a query and a stored code (R456). -/
def State.distance (s : State) (x : Index) (q : List Num) (code : List Byte) : Num :=
  if x.kind < 2 then x.flat q (s.decodeCode x code) x.dim
  else
    let d := x.dim / x.pqM
    (List.range x.pqM).foldl (fun acc m =>
      fp32 (acc.add (x.flat ((q.drop (m * d)).take d) (s.codebook x m (fld code m 1)) d))) (.fin false 0 1)

/-- A list's centroid, none where its bytes hold poison. -/
def State.centroid (s : State) (x : Index) (l : Nat) : Option (List Num) :=
  let n := x.dim * x.cw
  if (s.poisonIn (x.centOff l) n).isEmpty then some (decodeVec ⟨x.centElem, false⟩ x.dim (s.bytesAt (x.centOff l) n) []) else none

/-- `a` comes no later than `b` in ascending order of (distance, number), NaN after every number (R457). -/
def rankLe (a b : Nat × Num) : Bool :=
  match a.2, b.2 with
  | .nan, .nan => decide (a.1 ≤ b.1)
  | .nan, _ => false
  | _, .nan => true
  | u, v => u.lt v || (!v.lt u && decide (a.1 ≤ b.1))

/-- The lists of a shard in the order of their rank (R457). -/
def State.ranked (s : State) (x : Index) (q : List Num) : List Nat :=
  (sortBy rankLe ((List.range x.lists).map fun l => (l, ((s.centroid x l).map fun c => x.flat q c x.dim).getD .nan))).map (·.1)

/-- The order of results (R458). -/
def Hit.le (a b : Hit) : Bool :=
  let u := decodeElem .fp32 a.dist
  let v := decodeElem .fp32 b.dist
  u.lt v || (!v.lt u && (decide (a.vec < b.vec) || (a.vec == b.vec && (decide (a.shard < b.shard) || (a.shard == b.shard && decide (a.list ≤ b.list))))))

/-! ### What a version holds (R459–R461) -/

/-- The item lies in the version of a tidemark. -/
def VecItem.at (i : VecItem) (t : Nat) : Bool := decide (i.birth ≤ t) && i.drop.all fun w => decide (t < w)

def Index.items (x : Index) (l : Nat) : List VecItem :=
  match x.content.find? fun (v : VecList) => v.number = l with
  | some v => v.items
  | none => []

def Index.setItems (x : Index) (l : Nat) (is : List VecItem) : Index :=
  let rest := x.content.filter fun (v : VecList) => v.number ≠ l
  { x with content := if is.isEmpty then rest else rest ++ [⟨l, is⟩] }

/-- entries(l) in a version: vector entries, visible or not (R472). -/
def Index.entriesAt (x : Index) (l t : Nat) : Nat := ((x.items l).filter fun i => !i.tomb && i.at t).length

/-- An entry is hidden at a tidemark by a tombstone that committed after it (R459). -/
def hiddenBy (is : List VecItem) (e : VecItem) (t : Nat) : Bool := is.any fun i => i.tomb && i.at t && i.vec == e.vec && decide (e.pos < i.pos)

/-- The entries of a list that are visible at a tidemark. -/
def Index.visible (x : Index) (l t : Nat) : List VecItem :=
  let is := x.items l
  is.filter fun e => !e.tomb && e.at t && !hiddenBy is e t

/-! ### The search of one query at a shard (R471–R473, R487) -/

/-- What a search asks of a shard: Table 11-8's fields, the tidemark, when its booking ends, and whether lists may be skipped. -/
structure Quest where
  k : Nat
  flags : Nat
  nprobe : Nat
  cap : Nat
  fmask : Nat
  fvalue : Nat
  budget : Nat
  mark : Nat
  ends : Nat
  mayskip : Bool
  deriving DecidableEq, Repr

/-- The filter (R471). -/
def Quest.passes (a : Quest) (e : VecItem) : Bool :=
  if !bit a.flags 1 then true
  else if bit a.flags 2 then (e.attr &&& a.fmask) != 0
  else (e.attr &&& a.fmask) == a.fvalue

/-- The state of the loop of R472. -/
structure Scan where
  scanned : Nat
  find : Find
  beyond : Bool
  deriving DecidableEq, Repr

/-- A list is late (R473): a free value; only the time at which its granules come in tells. -/
def State.lateList (s : State) (x : Index) (a : Quest) (l : Nat) : Bool :=
  a.mayskip && Config.tierLate (x.region / granuleSize + x.lists + l) s.now a.ends

/-- A list holds poison that a search of it reads. -/
def State.badList (s : State) (x : Index) (a : Quest) (l : Nat) : Bool :=
  ((x.items l).any fun i => i.bad && i.at a.mark) || (s.centroid x l).isNone

/-- One list of a step (R472). -/
def State.scanList (s : State) (x : Index) (a : Quest) (q : List Num) (c : Scan) (l : Nat) : Scan :=
  if c.beyond then c
  else
    let n := x.entriesAt l a.mark
    if c.scanned + n > a.budget then { c with beyond := true, find := { c.find with stop := true } }
    else
      let f := { c.find with probed := c.find.probed + 1 }
      let c := { c with scanned := c.scanned + n }
      if s.lateList x a l then { c with find := { f with late := f.late + 1 } }
      else if s.badList x a l then { c with find := { f with bad := f.bad + 1 } }
      else
        let cand := ((x.visible l a.mark).filter a.passes).map fun (e : VecItem) => (e, s.distance x q e.code)
        let nan := cand.filter fun p => p.2 = .nan
        let hits := (cand.filter fun p => p.2 ≠ .nan).map fun p =>
          Hit.mk (roundTo .fp32 p.2 rmodeDefault 0).1 p.1.vec l x.shardIndex
        { c with find := { f with hits := f.hits ++ hits, nans := f.nans + nan.length } }

/-- The steps of R472: ranks `p` to `target − 1`, and on while the query asks for more. -/
def State.scanSteps (s : State) (x : Index) (a : Quest) (q : List Num) (order : List Nat) : Nat → Nat → Nat → Scan → Scan
  | 0, _, _, c => c
  | fuel + 1, p, target, c =>
    let c := ((order.drop p).take (target - p)).foldl (s.scanList x a q) c
    if c.beyond ∨ c.find.hits.length ≥ a.k ∨ !bit a.flags 0 ∨ target ≥ a.cap then c
    else if s.now ≥ a.ends then { c with find := { c.find with stop := true } }
    else State.scanSteps s x a q order fuel target (min (2 * target) a.cap) { c with find := { c.find with wide := true } }

/-- search_shard (R472): the first K results in the order of R458. -/
def State.searchShard (s : State) (x : Index) (a : Quest) (query : Nat) (q : List Num) : Find :=
  let c := s.scanSteps x a q (s.ranked x q) (a.cap + 1) 0 a.nprobe ⟨0, ⟨x.shardIndex, query, [], false, false, 0, 0, 0, 0⟩, false⟩
  { c.find with hits := (sortBy Hit.le c.find.hits).take a.k }

/-- The lists that a query visits open or join caravans; one with 256 visits departs (R478). -/
def State.joinCaravans (s : State) (x : Index) (mark : Nat) (ls : List Nat) : State :=
  let key (c : Caravan) (l : Nat) : Bool := c.index == x.id && c.list == l && c.mark == mark
  ls.foldl (fun s l =>
    let cs := s.indices.caravans
    let cs := if cs.any fun (c : Caravan) => key c l then mapIf (fun c => key c l) (fun c => { c with visits := c.visits + 1 }) cs
      else cs ++ [⟨x.id, l, mark, 1, s.now⟩]
    { s with indices := { s.indices with caravans := cs.filter fun (c : Caravan) => c.visits < 256 } }) s

/-- `CARAVAN_DEPART` (R478): CARAVAN_US has passed since the caravan opened. -/
def execCaravanDepart (index list mark : Nat) (s : State) : Host.Outcome State Fault Refusal :=
  .next { s with indices := { s.indices with caravans := s.indices.caravans.filter fun (c : Caravan) =>
    !(c.index == index && c.list == list && c.mark == mark &&
      (s.index index).all fun x => decide (c.opened + 8000 * x.caravanUs ≤ s.now)) } }

/-- A shard runs a query, and its visits travel in caravans. -/
def State.runQuery (s : State) (x : Index) (a : Quest) (query : Nat) (q : List Num) : State × Find :=
  let f := s.searchShard x a query q
  (s.joinCaravans x a.mark ((s.ranked x q).take f.probed), f)

/-! ### Searches for other shores (R481–R484, R571) -/

/-- The tidemark that a search binds to at this shore (R470): the one AT_TIME selects, or the latest published. -/
def State.searchMark (s : State) (x : Index) (flags atTime : Nat) : Option Nat :=
  match s.coveAt x.region with
  | some c => match c.versions with
    | some v => if bit flags 3 then s.selectMark c v 0 atTime true else some v.latest
    | none => none
  | none => none

/-- A summary unit and the result units of a query (R571). -/
def findUnits (f : Find) : List Byte :=
  leBytes 4 f.hits.length ++ leBytes 1 (b2n f.stop) ++ leBytes 1 (b2n f.wide) ++ zeros 2 ++ leBytes 4 f.probed ++ leBytes 4 (f.late + f.bad) ++
    (f.hits.map fun (h : Hit) => leBytes 8 (h.vec + h.list * 2 ^ 40) ++ leBytes 4 h.dist ++ leBytes 4 h.shard).flatten

/-- Query `i` of a packed run of queries. -/
def queryOf (x : Index) (e : Elem) (bs : List Byte) (i : Nat) : List Num :=
  let n := elemBytes e x.dim
  decodeVec ⟨e, false⟩ x.dim (slice bs (i * n) n) []

/-- The formats of queries. -/
def queryElem (code : Nat) : Option Elem := if code ≤ 2 then (formatOf code).map (·.elem) else none

/-- The shard serves a search request (R481, R571). -/
def State.serveSearch (s : State) (m : SxfMsg) : State :=
  let fail (st ca : Nat) : State := s.reply m Sxf.searchResult st ca 0 false false []
  match s.index (m.gpa % 1024), queryElem (m.f 0 1) with
  | some x, some e =>
    let n := m.f 4 2
    if x.guest ≠ m.guest ∨ x.dying ∨ !x.here then fail Status.refusedFormat Cause.badIndex
    else if m.units.length < 48 + n * elemBytes e x.dim then fail Status.refusedFormat Cause.format
    else if !s.allowed m.guest x.region (max 1 x.need) .read then
      (s.countRights m.guest).reply m Sxf.searchResult Status.faultTranslation Cause.rights 0 false false []
    else match s.searchMark x (m.f 1 1) (m.f 32 8) with
    | none => fail Status.faultTranslation Cause.notRetained
    | some t =>
      let now := slotOf s.now
      let first := now - 16 + (m.f 40 4 + 2 ^ 17 - (now - 16) % 2 ^ 17) % 2 ^ 17
      let a : Quest := ⟨m.f 2 2, m.f 1 1, m.f 8 4, m.f 12 4, m.f 16 4, m.f 20 4, m.f 24 8, t, (first + m.f 44 4) * slotTicks,
        s.power.state == .service⟩
      let (s', fs) := (List.range n).foldl (fun (acc : State × List Find) i =>
        let (s, f) := acc.1.runQuery x a i (queryOf x e (m.units.drop 48) i)
        (s, acc.2 ++ [f])) (s, [])
      let nans := sat 2 (sumNat (fs.map (·.nans)))
      let s' := s'.reply m Sxf.searchResult Status.ok 0 (s.missRatio64 2 x.id + nans * 2 ^ 16) false false (fs.map findUnits).flatten
      if fs.any fun f => f.bad ≠ 0 then s'.consume m.guest (gpaOf s.self x.region) else s'
  | _, _ => fail Status.refusedFormat Cause.badIndex

/-- `SEARCH_REQUEST` (R481, R571): served here, or on its way (R579); no endpoint sends one. -/
def execSearchRequest (m : SxfMsg) (s : State) : Host.Outcome State Fault Refusal :=
  .next (if m.op ≠ Sxf.search then s
    else match s.portRefusal m with
    | some (st, ca) => s.refuse m st ca
    | none => match s.bundle m.via with
      | none => s
      | some b =>
        if b.kind = .jetty then s.refuse m Status.refusedFormat Cause.format
        else if !s.fabric.hasShore m.dest then s.refuse m Status.faultDeadTarget Cause.unreachable
        else if m.dest = s.self then s.serveSearch m
        else
          let (s', sent) := s.forward m
          if sent then s'.setBundle b.id fun x => { x with forwarded := x.forwarded + 1 }
          else s.refuse m Status.faultDeadTarget Cause.unreachable)

/-- The answers of a SEARCH_RESULT, query by query (R571). -/
def findsOf (shard start : Nat) : Nat → Nat → List Byte → List Find
  | 0, _, _ => []
  | n + 1, i, bs =>
    let c := fld bs 0 4
    let hits := (List.range c).map fun j =>
      let o := 16 + 16 * j
      Hit.mk (fld bs (o + 8) 4) (fld bs o 8 % 2 ^ 40) (fld bs o 8 / 2 ^ 40) (fld bs (o + 12) 4 % 512)
    ⟨shard, start + i, hits, fld bs 4 1 == 1, bit (fld bs 5 1) 0, fld bs 8 4, fld bs 12 4, 0, 0⟩ ::
      findsOf shard start n (i + 1) (bs.drop (16 + 16 * c))

/-- A shard has answered a search (R481, R484, R485): its results are kept for the merge, its miss ratio for the next price; a
failure names the shard. -/
def State.searchAnswered (s : State) (id dest : Nat) (m : SxfMsg) : State :=
  match s.desc id with
  | none => s
  | some d => match s.index (d.f 16 2) with
    | none => s
    | some x =>
      let shard := (x.shards.findIdx? (· == dest)).getD 0
      if m.good then
        let s := s.setIndex x.id fun x => { x with ratios := upsert (·.1) (shard, m.value % 128) x.ratios }
        let fs := findsOf shard (d.f 80 4) (d.f 24 4 - d.f 80 4) 0 m.units
        s.setDesc id fun d => { d with finds := d.finds ++ fs, count := d.count + bits m.value 31 16 }
      else
        let (st, ca) := if m.status = Status.faultTranslation ∨ m.status = Status.refusedFormat ∨ m.status = Status.faultTier then (m.status, m.cause)
          else (Status.faultDeadTarget, m.cause)
        (s.failDesc id st ca (gpaOf dest 0)).setDesc id fun d => { d with wake := shard + 1 }

end Sys2Proof.Machine
end

