-- ==== Sys2Proof/Machine/Messages.lean ====
section
/-! DEFINITION. SXF messages: plain requests, fences, responses and their transactions, pull invalidations, span maps
(spec 02: R64, R113–R119; spec 04: R172–R190; spec 13: R531; spec 14: R567–R585). -/

namespace Sys2Proof.Machine

/-! ### Plain requests -/

/-- A message of some opcodes arrives; one of another opcode is not this command. -/
def State.arrival (s : State) (ok : Bool) (f : State → State) : Host.Outcome State Fault Refusal := .next (if ok then f s else s)

/-- `READ` (R64, R115, R579). -/
def execRead (m : SxfMsg) (s : State) : Host.Outcome State Fault Refusal := s.arrival m.isRead fun s => s.plainRequest m
/-- `WRITE` (R91, R189, R579). -/
def execWrite (m : SxfMsg) (s : State) : Host.Outcome State Fault Refusal :=
  s.arrival (m.isWrite && m.op != Sxf.writeMasked) fun s => s.plainRequest m
/-- `WRITE_MASKED` (R174, R660). -/
def execWriteMasked (m : SxfMsg) (s : State) : Host.Outcome State Fault Refusal :=
  s.arrival (m.op == Sxf.writeMasked) fun s => s.plainRequest m
/-- `ATOMIC` (R531–R533). -/
def execAtomic (m : SxfMsg) (s : State) : Host.Outcome State Fault Refusal := s.arrival m.isAtomic fun s => s.plainRequest m

/-- A fence at its ingress shore: only an endpoint sends one (Table 14-8). -/
def State.fenceRequest (s : State) (m : SxfMsg) : State :=
  match s.bundle m.via with
  | some b => if b.kind = .jetty then s.plainRequest m else s.refuse m Status.refusedFormat Cause.format
  | none => s

/-- `FENCE_RW` (R185). -/
def execFenceRw (m : SxfMsg) (s : State) : Host.Outcome State Fault Refusal := s.arrival (m.op == Sxf.fenceRw) fun s => s.fenceRequest m
/-- `FENCE_WW` (R185). -/
def execFenceWw (m : SxfMsg) (s : State) : Host.Outcome State Fault Refusal := s.arrival (m.op == Sxf.fenceWw) fun s => s.fenceRequest m
/-- `FENCE_RR` (R185). -/
def execFenceRr (m : SxfMsg) (s : State) : Host.Outcome State Fault Refusal := s.arrival (m.op == Sxf.fenceRr) fun s => s.fenceRequest m

/-- `HOME_FENCE` (R190): later accesses of the agent wait here behind the fence while earlier ones of its kind are not
performed. -/
def execHomeFence (m : SxfMsg) (s : State) : Host.Outcome State Fault Refusal :=
  s.arrival (m.op == Sxf.homeFence) fun s => s.forSelf m fun s =>
    if (s.heldBy m.via m.agent).isEmpty ∧ !s.blocked m then s else s.setHeld m.via m.agent (s.heldBy m.via m.agent ++ [m])

/-! ### Responses -/

/-- The status and cause that a failed remote access gives its descriptor (R338, R583). -/
def failureOf (m : SxfMsg) : Nat × Nat :=
  if m.status = Status.refusedRights ∨ m.status = Status.refusedQuarantine then (Status.faultTranslation, Cause.rights)
  else if m.status = Status.faultTranslation then (Status.faultTranslation, m.cause)
  else if m.status = Status.faultBus then (Status.faultBus, Cause.busTransport)
  else if m.status = Status.faultTier then (Status.faultTier, m.cause)
  else (Status.faultDeadTarget, m.cause)

/-- Take a tag from what a descriptor waits for. -/
def State.unwait (s : State) (id tag : Nat) : State := s.setDesc id fun d => { d with awaiting := d.awaiting.filter (· ≠ tag) }

/-- A response to a request of a descriptor (R311, R329, R338). -/
def State.descResponse (s : State) (o : Outstanding) (id : Nat) (m : SxfMsg) : State :=
  if o.msg.op = Sxf.bollard then ((s.unwait id o.tag).bollardAnswered id m).run [.record id]
  else if o.msg.op = Sxf.rowRead then (s.rowAnswered id m).run [.record id]
  else if o.msg.op = Sxf.search then ((s.unwait id o.tag).searchAnswered id o.dest m).run [.record id]
  else if o.msg.op = Sxf.remoteHold then ((s.unwait id o.tag).holdOpened id m).run [.record id]
  else if m.good then
    let s := s.cured id o.tag
    let s := if o.msg.isRead then
        s.setDesc id fun d => { d with remote := mapIf (fun r => r.tag = o.tag) (fun r => { r with data := some (fit 64 m.units), poisoned := m.poison }) d.remote }
      else s.unwait id o.tag
    s.run [.record id]
  else
    let (st, ca) := failureOf m
    if st = Status.faultBus ∧ (s.desc id).any Desc.porter then s.busError o id ca
    else
      let s := s.failDesc id st ca o.msg.gpa
      (s.dropAccess id o.tag).run [.record id]

/-- A pulled granule is complete: it is held, and the reads that waited for it are served (R115). -/
def State.pullDone (s : State) (p : PullFetch) : State :=
  let s := { s with store := { s.store with
    pulling := s.store.pulling.filter fun x => !(x.gpa == p.gpa && x.tidemark == p.tidemark)
    pulled := s.store.pulled ++ [⟨p.gpa, p.tidemark, p.mem, p.poisoned⟩] } }
  p.waiters.foldl (fun s m => s.takeRequest m) s

/-- A sector of a pull fetch has come; a refused one ends the fetch, and the reads that waited go on as ordinary remote ones. -/
def State.pullSector (s : State) (p : PullFetch) (tag sector : Nat) (m : SxfMsg) : State :=
  if !m.good then
    let s := { s with store := { s.store with pulling := s.store.pulling.filter fun x => !(x.gpa == p.gpa && x.tidemark == p.tidemark) } }
    let s := p.waiters.foldl (fun s m => s.forwardRequest m) s
    let (st, ca) := failureOf m
    ((s.queues.descs.filter fun d => d.done.isNone ∧ d.ranges.flatten.any fun e => overlaps e.gpa e.len p.gpa granuleSize).map (·.id)).foldl
      (fun s d => s.failDesc d st ca p.gpa) s
  else
    let p' := { p with
      tags := p.tags.filter fun x => x.1 ≠ tag
      mem := Mem.write p.mem (sector * 64) (fit 64 m.units)
      poisoned := if m.poison then setAdd sector p.poisoned else p.poisoned }
    let s := { s with store := { s.store with
      pulling := mapIf (fun x => x.gpa = p.gpa && x.tidemark == p.tidemark) (fun _ => p') s.store.pulling } }
    if p'.tags.isEmpty then s.pullDone p' else s

/-- A sector of a rebuild has come (R665): its product with the coefficient is added; the last one completes the granule, and
the requests that waited for it are served. -/
def State.rebuildSector (s : State) (r : Rebuild) (tag coef sector : Nat) (m : SxfMsg) : State :=
  let add := if m.good then gfScale coef (fit 64 m.units) else zeros 64
  let r' := { r with
    tags := r.tags.filter fun x => x.1 ≠ tag
    mem := Mem.write r.mem (sector * 64) (xorBytes (Mem.read r.mem (sector * 64) 64) add) }
  if !r'.tags.isEmpty then
    { s with faults := { s.faults with rebuilds := mapIf (fun x => x.gpa = r.gpa) (fun _ => r') s.faults.rebuilds } }
  else
    let whole := if r.scale = 1 then r'.mem else Mem.write [] 0 (gfScale r.scale (Mem.read r'.mem 0 granuleSize))
    let s := { s with faults := { s.faults with
      rebuilds := s.faults.rebuilds.filter fun (x : Rebuild) => x.gpa ≠ r.gpa
      taken := s.faults.taken ++ [⟨r.gpa, whole, [], false⟩] } }
    r.waiters.foldl (fun s m => s.homeAccess m) s

/-- A response to a message of this shore itself: a delta, a sector of a pull or of a rebuild, a control message. -/
def State.ownResponse (s : State) (o : Outstanding) (m : SxfMsg) : State :=
  let s := if o.msg.op = Sxf.writeMasked ∧ !m.good ∧ m.cause = Cause.deadHome then { s with faults := { s.faults with selfFenced := true } } else s
  let s := s.deltaDone o.tag
  let waiting := (s.queues.descs.filter fun d => d.awaiting.contains o.tag).map (·.id)
  let s := waiting.foldl (fun s d => (s.unwait d o.tag).run [.record d]) s
  match s.store.pulling.find? fun p => p.tags.any fun x => x.1 = o.tag with
  | some p => s.pullSector p o.tag (((p.tags.find? fun x => x.1 = o.tag).map (·.2)).getD 0) m
  | none =>
    match s.faults.rebuilds.find? fun r => r.tags.any fun x => x.1 = o.tag with
    | some r =>
      match r.tags.find? fun x => x.1 = o.tag with
      | some (_, coef, sec) => s.rebuildSector r o.tag coef sec m
      | none => s
    | none => s

/-- A response to an endpoint's request: the endpoint's tag comes back (R577), a posted Pilot write is only released (R189),
and the agent's held requests go on (R185). Poison that reaches the agent is consumed (R653). -/
def State.agentResponse (s : State) (o : Outstanding) (m : SxfMsg) : State :=
  let s := if o.posted then s
    else
      let r := m.retag m.src o.epTag
      let op := if m.op = Sxf.performed then Sxf.done else m.op
      let r : SxfMsg := { r with tc := o.msg.tc, unit0 := r.unit0 / 256 * 256 + op }
      let s := s.sendJetty o.bundle r
      if m.poison ∧ (m.op = Sxf.data ∨ m.op = Sxf.atomicOld) then s.consume o.msg.guest o.msg.gpa else s
  s.releaseAgent o.bundle o.agent

/-- A response arrives (R569, R579): it goes on toward DEST, ends a transaction of this shore, or is discarded and counted. -/
def State.takeResponse (s : State) (m : SxfMsg) : State :=
  if m.dest ≠ s.self then s.send m
  else match s.transaction m.tag with
    | none => { s with fabric := { s.fabric with discarded := s.fabric.discarded + 1 } }
    | some o =>
      let s := s.dropTransaction m.tag
      if o.bundle ≠ noBundle then s.agentResponse o m
      else match o.desc with
        | some id => s.descResponse o id m
        | none => s.ownResponse o m

/-- A response with a reserved field or a wrong length is discarded and counted (R569). -/
def State.response (s : State) (m : SxfMsg) (op : Nat) : Host.Outcome State Fault Refusal :=
  s.arrival (m.op == op) fun s =>
    if !wellFramed m then { s with fabric := { s.fabric with discarded := s.fabric.discarded + 1 } } else s.takeResponse m

/-- `DATA` (R176). -/
def execData (m : SxfMsg) (s : State) : Host.Outcome State Fault Refusal := s.response m Sxf.data
/-- `DONE` (R176). -/
def execDone (m : SxfMsg) (s : State) : Host.Outcome State Fault Refusal := s.response m Sxf.done
/-- `PERFORMED` (R189). -/
def execPerformed (m : SxfMsg) (s : State) : Host.Outcome State Fault Refusal := s.response m Sxf.performed
/-- `ATOMIC_OLD` (R531). -/
def execAtomicOld (m : SxfMsg) (s : State) : Host.Outcome State Fault Refusal := s.response m Sxf.atomicOld
/-- `BOLLARD_VALUE` (R528). -/
def execBollardValue (m : SxfMsg) (s : State) : Host.Outcome State Fault Refusal := s.response m Sxf.bollardValue
/-- `CTL_ACK` (R158). -/
def execCtlAck (m : SxfMsg) (s : State) : Host.Outcome State Fault Refusal := s.response m Sxf.ctlAck

/-! ### Invalidation of pulled copies (R117, R118) -/

/-- Drop the pull ranges that a range of the home touches: descriptors that have not read them end with STALE_PULL, plain reads
that waited go on as remote ones. -/
def State.invalidatePulls (s : State) (gpa n : Nat) : State :=
  let hit := s.store.pulls.filter fun p => overlaps p.gpa p.len gpa n
  let stale := (s.queues.descs.filter fun d => d.done.isNone ∧ d.ranges.flatten.any fun e =>
    hit.any fun p => overlaps e.gpa e.len p.gpa p.len).map (·.id)
  let cut := s.store.pulling.filter fun f => hit.any fun p => inside f.gpa granuleSize p.gpa p.len
  let s := hit.foldl (fun s p => s.dropPull p.index) s
  let s := { s with store := { s.store with pulling := s.store.pulling.filter fun f => !cut.contains f } }
  let s := stale.foldl (fun s d => s.failDesc d Status.faultTranslation Cause.stalePull gpa) s
  (cut.map (·.waiters)).flatten.foldl (fun s m => s.forwardRequest m) s

/-- `INVALIDATE` (R118): the holder drops its pulled granules and acknowledges. -/
def execInvalidate (m : SxfMsg) (s : State) : Host.Outcome State Fault Refusal :=
  s.arrival (m.op == Sxf.invalidate) fun s => s.forSelf m fun s =>
    (s.invalidatePulls (m.f 0 8 % 2 ^ 57) (m.f 8 4 * mib2)).reply m Sxf.invalidateAck Status.ok 0 (m.f 0 8 % 2 ^ 57) false false []

/-- One acknowledgement of an invalidation at the home (R117): with the last one the holder map is cleared, and the cove command
that waited takes hold. The invalidation's tag is the cove's number. -/
def State.invalAcked (s : State) (m : SxfMsg) : State :=
  let cove := m.tag
  let s := { s with store := { s.store with
    invals := mapIf (fun x => x.cove = cove) (fun x => { x with waiting := x.waiting.filter (· ≠ m.src) }) s.store.invals
    handovers := mapIf (fun x => x.cove = cove) (fun x => { x with waitAcks := x.waitAcks.filter (· ≠ m.src) }) s.store.handovers } }
  match s.store.invals.find? fun x => x.cove = cove ∧ x.waiting.isEmpty with
  | none => s
  | some x =>
    let s := { s with store := { s.store with invals := s.store.invals.filter fun (y : Inval) => y.cove ≠ cove } }
    let s := s.setCove cove fun k => { k with holders := [] }
    let s := s.applyCoveSet x.cmd
    if x.cmd.stage then s else s.answer x.cmd (Machine.response x.cmd Result.done 0 0 s.now [])

/-- `INVALIDATE_ACK` (R117). -/
def execInvalidateAck (m : SxfMsg) (s : State) : Host.Outcome State Fault Refusal :=
  s.arrival (m.op == Sxf.invalidateAck) fun s => s.forSelf m fun s => s.invalAcked m

/-! ### Span maps (R578, R663) -/

/-- The direction of a ring seen from this shore: causeway direction for plus or minus. -/
def ringDir (ring : Nat) (plus : Bool) : Nat := 2 * ring + if plus then 0 else 1

/-- This shore's own span on one side of a ring: its lower coordinate. -/
def State.ownSpan (s : State) (ring : Nat) (plus : Bool) : Nat :=
  let a := coordOf ring s.self
  let n := max 1 (s.fabric.size ring)
  if plus then a else (a + n - 1) % n

/-- A causeway carries traffic as far as this shore sees: it is open and has a link up. -/
def State.causewayUp (s : State) (d : Nat) : Bool := (s.causeway d).any fun b => !(s.upLinks b).isEmpty

/-- Since when every span of each ring neighbour has been down, for SPAN_DEAD_DETECT, and since when no causeway has been up,
for SELF_FENCE (R663, R664). -/
def State.watchSpans (s : State) : State :=
  let around (ring : Nat) : List Nat :=
    let n := s.fabric.size ring
    let a := coordOf ring s.self
    if n < 2 then []
    else uniq (([(a + 1) % n, (a + n - 1) % n]).filterMap fun c =>
      let sh := s.self + c * 8 ^ ring - a * 8 ^ ring
      if s.fabric.spansDown.contains (ring, c) ∧ s.fabric.spansDown.contains (ring, (c + n - 1) % n) then some sh else none)
  let down := (around 0 ++ around 1 ++ around 2).filter fun x => x ≠ s.self ∧ !s.faults.dead.contains x
  let old := s.faults.neighbourDown.filter fun x => down.contains x.1
  let new := (down.filter fun x => !old.any fun y => y.1 = x).map fun x => (x, s.now)
  let any := s.fabric.bundles.any fun b => b.kind = .causeway && b.opened
  let up := (List.range 6).any fun d => s.causewayUp d
  { s with faults := { s.faults with
    neighbourDown := old ++ new
    causewaysDown := if !any ∨ up then none else some (s.faults.causewaysDown.getD s.now) } }

/-- The span map of a ring as bits: 1 up (the model's reading of Table 14-8, log entry 19). -/
def State.spanBits (s : State) (ring : Nat) : Nat :=
  sumNat ((List.range (s.fabric.size ring)).map fun i => if s.fabric.spansDown.contains (ring, i) then 0 else 2 ^ i)

/-- Set one span. -/
def State.setSpan (s : State) (ring lower : Nat) (up : Bool) : State :=
  let rest := s.fabric.spansDown.filter fun x => x ≠ (ring, lower)
  { s with fabric := { s.fabric with spansDown := if up then rest else rest ++ [(ring, lower)] } }

/-- Send SPAN_STATE around a ring (R578), by every causeway of the ring that is up. -/
def State.sendSpan (s : State) (ring : Nat) : State :=
  let s := { s with fabric := { s.fabric with spanCount := (s.fabric.spanCount + 1) % 65536 } }
  let unit := SxfMsg.reqUnit Sxf.spanState false false s.self 0 0 0 (ring + s.spanBits ring * 4 + s.fabric.spanCount * 2 ^ 10)
  [true, false].foldl (fun s p => match s.causeway (ringDir ring p) with
    | some b =>
      if (s.upLinks b).isEmpty then s
      else
        let m : SxfMsg := ⟨noBundle, 3, unit + b.peer * 2 ^ 119, []⟩
        s.egress b (s.pickLink b m false) 0 true m
    | none => s) s

/-- A causeway of this shore has changed state: the map and the ring learn of it (R578). -/
def State.spanChanged (s : State) : State :=
  let go (s : State) (ring : Nat) (plus : Bool) : State :=
    if s.fabric.size ring < 2 ∨ (s.fabric.size ring = 2 ∧ !plus) then s
    else
      let sp := s.ownSpan ring plus
      let up := s.causewayUp (ringDir ring plus)
      if up = !s.fabric.spansDown.contains (ring, sp) then s else (s.setSpan ring sp up).sendSpan ring
  let s := [0, 1, 2].foldl (fun s r => go (go s r true) r false) s
  s.watchSpans

/-- `SPAN_STATE` (R578): the spans next to the sender are updated in this ring's map, and the message is passed on in its
direction; one that has been seen goes no further. -/
def State.takeSpan (s : State) (m : SxfMsg) : State :=
  let g := m.gpa
  let ring := g % 4
  let map := bits g 9 2
  let count := bits g 25 10
  if ring ≥ 3 ∨ m.src = s.self ∨ s.fabric.spanSeen.contains (m.src, ring, count) then s
  else
    let n := max 1 (s.fabric.size ring)
    let a := coordOf ring m.src
    let s := { s with fabric := { s.fabric with
      spanSeen := (s.fabric.spanSeen.filter fun (x : Nat × Nat × Nat) => !(x.1 == m.src && x.2.1 == ring)) ++ [(m.src, ring, count)] } }
    let s := (s.setSpan ring a (bit map a)).setSpan ring ((a + n - 1) % n) (bit map ((a + n - 1) % n))
    let s := match s.bundle m.via with
      | some b =>
        let onward := if b.direction % 2 = 0 then b.direction + 1 else b.direction - 1
        match s.causeway onward with
        | some k =>
          let r : SxfMsg := { m with unit0 := m.unit0 % 2 ^ 119 + k.peer * 2 ^ 119 }
          if (s.upLinks k).isEmpty then s else s.egress k (s.pickLink k r false) 0 true r
        | none => s
      | none => s
    s.watchSpans

/-- `SPAN_STATE` (R578). -/
def execSpanState (m : SxfMsg) (s : State) : Host.Outcome State Fault Refusal :=
  s.arrival (m.op == Sxf.spanState) fun s => s.ported m fun s => s.takeSpan m

end Sys2Proof.Machine
end

