-- ==== Sys2Proof/Machine/Reduce.lean ====
section
/-! DEFINITION. Reduction groups, RED messages, result reads and optimizer updates (spec 09: R373–R411). -/

namespace Sys2Proof.Machine

/-! ### Tiles and instances (R374–R378) -/

/-- Elements of a full tile. -/
def Group.tile (g : Group) : Nat := 2 ^ g.tileShift
/-- Tiles of the slice, and those that logical array `a` serves (R374). -/
def Group.tiles (g : Group) : Nat := ceilDiv g.sliceCount g.tile
def Group.tilesOn (g : Group) (a : Nat) : Nat := if a < g.tiles then (g.tiles - a + 31) / 32 else 0
/-- Elements of tile `t`: the last tile holds the remainder. -/
def Group.tileLen (g : Group) (t : Nat) : Nat := min g.tile (g.sliceCount - t * g.tile)
/-- The tile that holds a group element. -/
def Group.tileOf (g : Group) (e : Nat) : Nat := (e - g.sliceFirst) / g.tile

/-- Rounds from the base of the group to a round, modulo 2³² (R375). -/
def Group.ahead (g : Group) (round : Nat) : Nat := (round + (2 ^ 32 - g.base)) % 2 ^ 32

/-- Place of an instance in its array's order (R376). -/
def Group.place (g : Group) (round tile : Nat) : Nat := g.ahead round * g.tilesOn (tile % 32) + tile / 32

/-- The instance has been released; a round before the base is over (DEDUCED: a round before FIRST_ROUND counts as such). -/
def Group.isReleased (g : Group) (round tile : Nat) : Bool := decide (g.ahead round ≥ 2 ^ 31) || g.released.contains (round, tile)

/-- The instance is among the first SLOTS of its array that have not been released (R376). -/
def Group.resident (g : Group) (round tile : Nat) : Bool :=
  let gone := (g.released.filter fun x => x.2 % 32 = tile % 32 ∧ g.place x.1 x.2 < g.place round tile).length
  !g.isReleased round tile && decide (g.place round tile < g.slots + gone)

/-- What a contribution or a consumer finds at an instance (Table 09-1). -/
inductive Found where | notResident | filling | complete | failed | released
  deriving DecidableEq, Repr

def Group.inst (g : Group) (round tile : Nat) : Option Inst := g.insts.find? fun i => i.round = round ∧ i.tile = tile

/-- The state of an instance (R376–R378, R646). -/
def State.instAt (s : State) (g : Group) (round tile : Nat) : Found :=
  if g.isReleased round tile then .released
  else if !g.resident round tile then .notResident
  else if s.faults.arraysLost.contains (tile % 32) then .failed
  else match g.inst round tile with
  | none => .filling
  | some i => match i.state with
    | .complete => .complete
    | .failed => .failed
    | .filling => match i.first with
      | some t => if t + g.expiry ≤ s.now then .failed else .filling
      | none => .filling

/-- Change one instance, which starts in the reset state (R376). -/
def Group.setInst (g : Group) (round tile : Nat) (f : Inst → Inst) : Group :=
  let i := (g.inst round tile).getD ⟨round, tile, .filling, 0, none, List.replicate (g.tileLen tile) .zero⟩
  { g with insts := (g.insts.filter fun (x : Inst) => !(x.round == round && x.tile == tile)) ++ [f i] }

/-! ### The READY prefix (R401) -/

/-- READY_BOLLARD is signalled with ADD 1 under the group's guest. -/
def State.signalReady (s : State) (guest addr : Nat) : State :=
  match bollardAddr addr with
  | none => s
  | some (shore, n) =>
    if shore = s.self then
      match s.bollard n with
      | some b => if b.admits guest then s.signalRun n 0 1 else s
      | none => s
    else (s.control Sxf.bollard guest (addr % 2 ^ 57) (bollardUnit 0 0 1)).1

/-- Instances join the prefix while the next one is COMPLETE, FAILED or released. -/
def State.joinPrefix : Nat → Nat → State → State
  | 0, _, s => s
  | fuel + 1, id, s =>
    match s.group id with
    | none => s
    | some g => match g.ready with
      | none => s
      | some addr =>
        let st := s.instAt g g.readyRound g.readyTile
        if st = .notResident ∨ st = .filling then s
        else
          let last := decide (g.readyTile + 1 ≥ g.tiles)
          let s := s.setGroup id fun g => { g with
            readyRound := if last then u32 (g.readyRound + 1) else g.readyRound, readyTile := if last then 0 else g.readyTile + 1 }
          State.joinPrefix fuel id (s.signalReady g.guest addr)

/-- A group's instances have changed state. -/
def State.groupChanged (s : State) (id : Nat) : State :=
  match s.group id with
  | some g => State.joinPrefix (g.insts.length + g.released.length + g.tiles + 1) id s
  | none => s

/-! ### Adding, releasing, expiry -/

/-- Bytes that the keep area holds (R382). -/
def Group.kept (g : Group) : Nat := sumNat (g.keeps.map (·.size))
def Group.keepRoom (g : Group) (n : Nat) : Bool := decide (g.kept + n ≤ g.keepSize)

/-- Add values to the accumulators from position `p` on (R362, R408). -/
def addRun (accs : List Accum) (p : Nat) (xs : List (Num × Bool)) : List Accum :=
  accs.zipIdx.map fun (a, i) =>
    match (if p ≤ i then xs[i - p]? else none) with
    | some (x, bad) => let b := a.add x; { b with poison := b.poison || bad }
    | none => a

/-- A record is written into the keep area (R382), behind those it holds; its bytes are free values (log entry 26). -/
def State.writeKeep (s : State) (g : Group) (n : Nat) : State :=
  let bytes := (List.range n).map fun i => BitVec.ofNat 8 (s.freeAt i)
  ((piecesOf g.keep g.kept n).foldl (fun (a : State × List Byte) p =>
    (if a.1.isHere p.1 then a.1.writeAt (gpaOffset p.1) (a.2.take p.2) else a.1, a.2.drop p.2)) (s.drewN n, bytes)).1

/-- Add the contributions of a record to its instance, as many as it still lacks (R377); the record is kept (R382). The answer
is how many were added. -/
def State.addRecord (s : State) (id : Nat) (r : KeepRec) (xs : List (Num × Bool)) : State × Nat :=
  match s.group id with
  | none => (s, 0)
  | some g =>
    let had := ((g.inst r.round r.tile).map (·.count)).getD 0
    let full := g.participants * g.tileLen r.tile
    let k := min xs.length (full - had)
    if k = 0 then (s, 0)
    else
      let upd (i : Inst) : Inst := { i with
        count := i.count + k, first := some (i.first.getD s.now), state := if i.count + k ≥ full then .complete else i.state
        accs := addRun i.accs (r.elem - g.sliceFirst - r.tile * g.tile) (xs.take k) }
      let s := s.writeKeep g r.size
      let s := s.setGroup id fun g => { g.setInst r.round r.tile upd with keeps := g.keeps ++ [{ r with count := k }] }
      (s.groupChanged id, k)

/-- Rounds that have been released whole leave the list (R376). -/
def Group.advance : Nat → Group → Group
  | 0, g => g
  | fuel + 1, g =>
    if 0 < g.tiles ∧ (g.released.filter fun x => x.1 = g.base).length ≥ g.tiles then
      Group.advance fuel { g with base := u32 (g.base + 1), released := g.released.filter fun x => x.1 ≠ g.base }
    else g

/-- A RELEASE consumer has finished with an instance (R376, R398). -/
def State.releaseInst (s : State) (id round tile : Nat) : State :=
  let upd (g : Group) : Group :=
    let g := { g with
      insts := g.insts.filter fun (x : Inst) => !(x.round == round && x.tile == tile)
      keeps := g.keeps.filter fun (x : KeepRec) => !(x.round == round && x.tile == tile)
      released := setAdd (round, tile) g.released }
    g.advance (g.released.length + 1)
  (s.setGroup id upd).groupChanged id

/-- `INSTANCE_EXPIRY` (R378): not COMPLETE at its first arrival plus EXPIRY, an instance becomes FAILED; its accumulators are
discarded. -/
def execInstanceExpiry (group round tile : Nat) (s : State) : Host.Outcome State Fault Refusal :=
  .next (match s.group group with
    | none => s
    | some g => match g.inst round tile with
      | none => s
      | some i =>
        if i.state = .filling ∧ s.instAt g round tile = .failed then
          (s.setGroup group fun g => g.setInst round tile fun i => { i with state := .failed, accs := [] }).groupChanged group
        else s)

/-- Discard a group (R387): its descriptors stop with a status and cause, its blocks return zeroed. -/
def State.closeGroup (s : State) (id but status cause : Nat) : State :=
  let mine := (s.queues.descs.filter fun d => [0x20, 0x21, 0x22, 0x23].contains d.opcode ∧ d.f 16 2 = id ∧ d.id ≠ but ∧
    d.done.isNone ∧ d.hasCheckpoints).map (·.id)
  let s := mine.foldl (fun s d => s.failDesc d status cause) s
  { s with
    red := { s.red with groups := s.red.groups.filter fun (g : Group) => g.id ≠ id }
    porter := { s.porter with blocks := s.porter.blocks.filter fun (b : ScratchBlock) => b.group ≠ some id } }

/-! ### REDUCE_CONTRIB -/

/-- The formats of a contribution (Table 09-3). -/
def contribFmt (code : Nat) : Option Format := if code ≤ 4 then formatOf code else none

/-- Scratch blocks that a group claims on each array (R380). -/
def openBlocks (slots shift : Nat) : Nat := ceilDiv (slots * 2 ^ shift * 48) scratchBlock

/-- Free scratch blocks of an array, lowest first. -/
def State.freeBlocks (s : State) (a : Nat) : List Nat :=
  if s.faults.arraysLost.contains a then []
  else (List.range 64).filter fun k => !s.porter.blocks.any fun b => b.array = a ∧ b.block = k

/-- The rebuild load of the open groups (R385). -/
def State.rebuildLoad (s : State) : Nat := sumNat (s.red.groups.map fun g => g.slots * g.participants * g.tile)

/-- The checks of an OPEN (R381, R385, R386, Table 09-9). -/
def State.openCheck (s : State) (d : Desc) : Option (Nat × Nat × Nat) :=
  let keep := d.range 0
  let cove := (keep.head?).bind fun e => if s.isHere e.gpa then s.coveAt (gpaOffset e.gpa) else none
  let keepBad := decide (d.f 64 8 = 0 ∨ d.f 64 8 % 65536 ≠ 0) || match cove with
    | none => true
    | some c => decide (c.kind = .translation) || c.versioned ||
        keep.any fun e => !s.isHere e.gpa || !inside (gpaOffset e.gpa) e.len c.base c.size
  let ready := bit (d.f 93 1) 0
  let scale := decodeElem .fp32 (d.f 88 4)
  let need := openBlocks (d.f 19 1) (d.f 92 1)
  let all := 2 ^ 64 - 1
  firstFail [badFormat (decide (d.f 16 2 > 1023 ∨ d.f 93 1 > 1) || d.nonzero 94 34 || (!ready && d.nonzero 80 8) ||
      decide (d.f 72 8 < 80000 ∨ d.f 72 8 > 8000000000)) Cause.reserved,
    badFormat (decide (d.f 32 8 = 0 ∨ d.f 32 8 > 2 ^ 32 ∨ d.f 48 8 = 0 ∨ d.f 40 8 + d.f 48 8 > d.f 32 8)) Cause.length,
    badFormat (decide (d.f 92 1 < 5 ∨ d.f 92 1 > 10 ∨ d.f 19 1 = 0 ∨ d.f 19 1 > 64)) Cause.alignment,
    badFormat (decide (d.f 24 4 = 0 ∨ d.f 24 4 > 65536)) Cause.participant,
    badFormat (s.group (d.f 16 2)).isSome Cause.groupState, badFormat (!scale.isFinite || scale.isZero) Cause.scale,
    badFormat keepBad Cause.keep, badFormat d.tooMany Cause.extentLimit,
    badRights (s.lacks d 0 .read || s.lacks d 0 .write) Cause.noGrant,
    ((List.range 32).any fun a => decide ((s.freeBlocks a).length < need), Status.refusedBusy, Cause.scratchFull, all),
    (decide (s.rebuildLoad + d.f 19 1 * d.f 24 4 * 2 ^ d.f 92 1 > 26214400), Status.refusedBusy, Cause.rebuild, all)]

/-- The admission of an OPEN claims its blocks and its slot (R380). -/
def State.openAdmit (s : State) (d : Desc) : State :=
  let id := d.f 16 2
  let need := openBlocks (d.f 19 1) (d.f 92 1)
  let g : Group := {
    id := id, guest := d.guest, tag := d.f 20 4, participants := d.f 24 4, firstRound := d.f 28 4, base := d.f 28 4, opened := false
    total := d.f 32 8, sliceFirst := d.f 40 8, sliceCount := d.f 48 8, keep := d.range 0, keepSize := d.f 64 8, expiry := d.f 72 8
    ready := if bit (d.f 93 1) 0 then some (d.f 80 8) else none, scale := d.f 88 4, tileShift := d.f 92 1, slots := d.f 19 1
    blocks := need, insts := [], released := [], keeps := [], readyRound := d.f 28 4, readyTile := 0 }
  let blocks := ((List.range 32).map fun a => ((s.freeBlocks a).take need).map fun k => ScratchBlock.mk a k d.guest [] [] [] (some id)).flatten
  { s with
    red := { s.red with groups := s.red.groups ++ [g] }
    porter := { s.porter with blocks := s.porter.blocks ++ blocks } }

/-- The checks of a CLOSE (R387). -/
def State.closeCheck (s : State) (d : Desc) : Option (Nat × Nat × Nat) :=
  match s.group (d.f 16 2) with
  | none => firstFail [badFormat (decide (d.f 16 2 > 1023) || d.nonzero 19 1 || d.nonzero 24 104) Cause.reserved,
      (true, Status.refusedNotReady, Cause.groupClosed, 0)]
  | some g => firstFail [badFormat (d.nonzero 19 1 || d.nonzero 24 104) Cause.reserved,
      badFormat (decide (g.guest ≠ d.guest)) Cause.groupState, badFormat (decide (d.f 20 4 ≠ g.tag)) Cause.tag,
      (!g.opened, Status.refusedNotReady, Cause.groupClosed, 0)]

/-- The first element that a CONTRIBUTE or a consumer still has to deal with, and its end. -/
def Desc.elemNow (d : Desc) : Nat := d.f 40 8 + d.f 56 8 + d.progress
def Desc.elemEnd (d : Desc) : Nat := d.f 40 8 + d.f 48 8

/-- The tiles of `[START, COUNT)` of a CONTRIBUTE or a consumer. -/
def Desc.tilesFrom (d : Desc) (g : Group) : List Nat :=
  let a := g.tileOf (d.f 40 8 + d.f 56 8)
  span a (g.tileOf (d.elemEnd - 1) + 1 - a)

/-- COUNT or START out of range. -/
def Desc.countBad (d : Desc) : Bool := decide (d.f 48 8 = 0 ∨ d.f 48 8 > 2 ^ 32 ∨ d.f 56 8 ≥ d.f 48 8)

/-- The element range does not lie in the slice. -/
def Desc.offSlice (d : Desc) (g : Group) : Bool := decide (d.f 40 8 < g.sliceFirst ∨ d.elemEnd > g.sliceFirst + g.sliceCount)

/-- The checks of a CONTRIBUTE (R388, Table 09-9). -/
def State.contributeCheck (s : State) (d : Desc) : Option (Nat × Nat × Nat) :=
  let fm := contribFmt (d.f 19 1)
  let g? := s.group (d.f 16 2)
  let bad (p : Group → Bool) : Bool := g?.any fun g => g.opened && p g
  firstFail [badFormat (decide (d.f 16 2 > 1023) || d.nonzero 26 6 || d.nonzero 64 64) Cause.reserved, badFormat fm.isNone Cause.format,
    badFormat d.countBad Cause.length, badFormat (fm.any fun f => d.f 32 8 % (f.elem.width / 8) != 0) Cause.alignment,
    badFormat (bad d.offSlice) Cause.notSlice, badFormat (bad fun g => decide (d.f 24 2 ≥ g.participants)) Cause.participant,
    badFormat (bad fun g => (d.tilesFrom g).all fun t => g.isReleased (d.f 20 4) t) Cause.round,
    badFormat (bad fun g => decide (g.guest ≠ d.guest)) Cause.groupState, badFormat d.tooMany Cause.extentLimit,
    (!g?.any (·.opened), Status.refusedNotReady, Cause.groupClosed, 0), badRights (s.lacks d 0 .read) Cause.noGrant]

/-- REDUCE_CONTRIB (opcode 0x20, Tables 09-2 and 09-3). -/
def opReduceContrib : DescOp where
  sizes := [1]
  selectorBad := fun b => decide (fld b 18 1 > 2)
  ranges := fun _ b =>
    match fld b 18 1, contribFmt (fld b 19 1) with
    | 0, some f =>
      if fld b 48 8 = 0 ∨ fld b 48 8 > 2 ^ 32 ∨ fld b 56 8 ≥ fld b 48 8 then []
      else [rangeFrom (fld b 32 8) (elemBytes f.elem (fld b 56 8)) (elemBytes f.elem (fld b 48 8)) true false]
    | 1, _ => [⟨fld b 56 8, fld b 64 8, true, true, false⟩]
    | _, _ => []
  check := fun s d => match d.f 18 1 with
    | 0 => s.contributeCheck d
    | 1 => s.openCheck d
    | _ => s.closeCheck d
  price := fun s d =>
    match d.f 18 1, contribFmt (d.f 19 1) with
    | 0, some f =>
      let a := elemBytes f.elem (d.f 56 8)
      let n := elemBytes f.elem (d.f 48 8) - a
      s.priced d 8000 (s.moveCharge d 0 a n false ++
        [(resDeep, (s.absentIn d 0 a n).length), (resArray, ceilDiv (100 * (d.f 48 8 - d.f 56 8)) 102400)])
    | _, _ => s.priced d 8000 []
  enter := fun s d => if d.f 18 1 = 1 then s.openAdmit d else s

/-- `REDUCE_OPEN` (R386): from its completion on, the group accepts contributions and consumers. -/
def execReduceOpen (d : Nat) (s : State) : Host.Outcome State Fault Refusal :=
  .next (s.workMode d 0x20 1 s.stop fun d =>
    match s.group (d.f 16 2) with
      | none => s.finish d.id Status.internal 0 0 0 0
      | some g => (s.setGroup g.id fun g => { g with opened := true }).ok d.id g.blocks g.tiles)

/-- `REDUCE_CLOSE` (R387): the instances that were resident are SLOTS on each array that serves a tile (R376). -/
def execReduceClose (d : Nat) (s : State) : Host.Outcome State Fault Refusal :=
  .next (s.workMode d 0x20 2 s.stop fun d =>
    match s.group (d.f 16 2) with
      | none => s.ok d.id 0 0
      | some g => (s.closeGroup g.id d.id Status.abortedBySoftware Cause.groupClosed).ok d.id (g.slots * min 32 g.tiles) 0)

/-- What a CONTRIBUTE has met: bit 0 EXPIRED, 1 ROUND, 2 EXCESS (R390). -/
def Desc.note (d : Desc) (k n : Nat) : Desc := { d with
  stamp := d.stamp ||| 2 ^ k, count := d.count + n, progress := d.progress + n }

/-- The end of a CONTRIBUTE (R389, R390). `short` where the booking ended in a wait. -/
def State.contributeEnd (s : State) (d : Desc) (short : Bool) : State :=
  let off := d.f 56 8 + d.progress
  let missed := min (d.count + (d.f 48 8 - off)) 0xFFFFFFFF
  let r0 := if short then off else d.f 48 8
  let cause := if bit d.stamp 0 then Cause.expired else if bit d.stamp 1 then Cause.round else if bit d.stamp 2 then Cause.excess else 0
  if cause ≠ 0 then s.finish d.id Status.faultIncompleteGroup 0 cause r0 missed
  else if short then s.finish d.id Status.okPartial 0x05 0 r0 missed
  else s.ok d.id r0 missed

/-- The stop of a CONTRIBUTE: the offset of the piece, or under R338 its GVA (R80). -/
def State.contributeStop (s : State) (d : Desc) (st ca : Nat) : State :=
  let off := d.f 56 8 + d.progress
  match st == Status.faultTranslation, contribFmt (d.f 19 1) with
  | true, some f => s.finish d.id st 0 ca (d.f 32 8 + elemBytes f.elem off) 0
  | _, _ => s.finish d.id st 0 ca off (min (d.count + (d.f 48 8 - off)) 0xFFFFFFFF)

/-- The poison of each of `n` elements of a source range (R408). -/
def State.elemPoison (s : State) (d : Desc) (f : Elem) (i off n : Nat) : List Bool :=
  let bad := s.sidePoison d (.range i) (elemBytes f off) (elemBytes f (off + n) - elemBytes f off)
  (List.range n).map fun k => bad.any fun p => overlaps p.1 p.2 ((off + k) * f.width / 8) (max 1 (f.width / 8))

/-- One piece of a CONTRIBUTE (R389). -/
def State.contributePiece (s : State) (d : Desc) (g : Group) (f : Format) : State :=
  let e := d.elemNow
  let t := g.tileOf e
  let n := min d.elemEnd (g.sliceFirst + (t + 1) * g.tile) - e
  let off := e - d.f 40 8
  let round := d.f 20 4
  match s.instAt g round t with
  | .failed => s.setDesc d.id fun d => d.note 0 n
  | .released => s.setDesc d.id fun d => d.note 1 n
  | .complete => ({ s with red := { s.red with excess := s.red.excess + n } }).setDesc d.id fun d => d.note 2 n
  | .notResident => s
  | .filling =>
    if !g.keepRoom 32 then s
    else
      let a := elemBytes f.elem off
      let len := elemBytes f.elem (off + n) - a
      let ps := d.pieces 0 a len
      let (s, ready) := s.readyRead d.id ps
      match s.desc d.id with
      | none => s
      | some d =>
        if !ready ∨ d.fail.isSome then s
        else
          let bs := s.rangeBytes d 0 a len
          let bad := s.elemPoison d f.elem 0 off n
          let xs := (decodeVec f n bs []).zip bad
          let r : KeepRec := ⟨round, t, 32, d.f 19 1, e, n, bs, bad.any id, ps.map fun p => ⟨p.1, p.2, true, false, false⟩⟩
          let (s, k) := (s.touchPieces ps).addRecord g.id r xs
          let s := if k < n then { s with red := { s.red with excess := s.red.excess + (n - k) } } else s
          let (s, tags) := s.flushDeltas
          s.setDesc d.id fun d =>
            let d := { d with remote := [], awaiting := d.awaiting ++ tags }
            if k < n then { (d.note 2 (n - k)) with progress := d.progress + n } else { d with progress := d.progress + n }

/-- `REDUCE_CONTRIBUTE` (R389): one piece, or the end. -/
def execReduceContribute (d : Nat) (s : State) : Host.Outcome State Fault Refusal :=
  .next (s.workMode d 0x20 0 s.contributeStop fun d =>
    match s.group (d.f 16 2), contribFmt (d.f 19 1) with
      | some g, some f =>
        let s := if d.elemNow ≥ d.elemEnd then s else s.contributePiece d g f
        match s.desc d.id with
        | some d => if d.elemNow ≥ d.elemEnd ∧ d.fail.isNone then s.contributeEnd d false else s
        | none => s
      | _, _ => s.contributeStop d Status.abortedBySoftware Cause.groupClosed)

/-- A CONTRIBUTE waits before a piece (R389 step 1). -/
def State.contributeWaits (s : State) (d : Desc) : Bool :=
  match s.group (d.f 16 2) with
  | some g => match s.instAt g (d.f 20 4) (g.tileOf d.elemNow) with
    | .notResident => true
    | .filling => !g.keepRoom 32
    | _ => false
  | none => false

/-! ### Consumers (R396–R400) -/

/-- A RELEASE consumer: an update, or a REDUCE_READ with RELEASE. -/
def Desc.releases (d : Desc) : Bool := d.opcode != 0x21 || bit (d.f 76 1) 0
def Desc.noOut (d : Desc) : Bool := d.opcode != 0x21 && bit (d.f 76 1) 0
def Desc.skipsNonfinite (d : Desc) : Bool := d.opcode != 0x21 && bit (d.f 76 1) 1
def Desc.adamw (d : Desc) : Bool := d.opcode == 0x23

/-- Consumers of a round of a group that are admitted and have not ended. -/
def State.consumers (s : State) (group round : Nat) : List Desc :=
  s.queues.descs.filter fun d => [0x21, 0x22, 0x23].contains d.opcode ∧ d.f 16 2 = group ∧ d.f 20 4 = round ∧ d.done.isNone

/-- The consumer covers a tile that it has not passed. -/
def Desc.covers (d : Desc) (g : Group) (t : Nat) : Bool := (d.tilesFrom g).contains t && decide (g.tileOf d.elemNow ≤ t)

/-- The FP32 scalars of an update (Table 09-8). -/
def Desc.scalarOffs (d : Desc) : List Nat := if d.adamw then [104, 108, 112, 116, 120, 124, 128, 132, 136] else [104, 108, 112]

/-- Reserved fields of a consumer. -/
def Desc.consumerReserved (d : Desc) : Bool :=
  let fm := formatOf (d.f 18 1)
  let sr := !d.noOut && d.f 19 1 % 4 == 2
  decide (d.f 16 2 > 1023 ∨ d.f 19 1 ≥ 8) || (!sr && d.nonzero 64 12) || (d.noOut && (d.nonzero 18 2 || d.nonzero 24 16)) ||
    (!fm.any (·.mx) && d.nonzero 32 8) ||
    (if d.opcode = 0x21 then decide (d.f 76 1 > 1) || d.nonzero 77 51
     else decide (d.f 76 1 > 3) || d.nonzero 77 3 || d.nonzero 140 52 || (!d.adamw && (d.nonzero 96 8 || d.nonzero 116 24)))

/-- Two sets of extents share a GPA. -/
def shareGpa (a b : List Extent) : Bool := a.any fun x => b.any fun y => overlaps x.gpa x.len y.gpa y.len

/-- The checks of a consumer (R396, R398, R402, R404, Table 09-9). -/
def State.consumerCheck (s : State) (d : Desc) : Option (Nat × Nat × Nat) :=
  let fm := formatOf (d.f 18 1)
  let g? := s.group (d.f 16 2)
  let bad (p : Group → Bool) : Bool := g?.any fun g => g.opened && p g
  let n := d.f 48 8
  let st := d.f 56 8
  let off (g : Group) : Bool :=
    decide ((d.f 40 8 - g.sliceFirst) % g.tile ≠ 0 ∨ st % g.tile ≠ 0 ∨ (n % g.tile ≠ 0 ∧ d.elemEnd ≠ g.sliceFirst + g.sliceCount))
  let wmv : List Nat := if d.opcode = 0x21 then [] else if d.adamw then [80, 88, 96] else [80, 88]
  let sets := (d.range 0 ++ d.range 1) :: (if d.opcode = 0x21 then [] else [d.range 2, d.range 3, d.range 4])
  let crossed := (List.range sets.length).any fun i => (List.range i).any fun j => shareGpa (sets.getD i []) (sets.getD j [])
  firstFail [badFormat d.consumerReserved Cause.reserved, badFormat (!d.noOut && fm.isNone) Cause.format, badFormat d.countBad Cause.length,
    badFormat ((wmv.any fun o => d.f o 8 % 4 != 0) || bad off || (!d.noOut && fm.any (·.mx) && decide (n % 32 ≠ 0 ∨ st % 32 ≠ 0))) Cause.alignment,
    badFormat (bad d.offSlice) Cause.notSlice, badFormat (bad fun g => (d.tilesFrom g).any fun t => g.isReleased (d.f 20 4) t) Cause.round,
    badFormat (bad fun g => decide (g.guest ≠ d.guest)) Cause.groupState,
    badFormat (d.opcode != 0x21 && d.scalarOffs.any fun o => !(decodeElem .fp32 (d.f o 4)).isFinite) Cause.scale,
    badFormat (bad fun g => (s.consumers g.id (d.f 20 4)).any fun x => x.id ≠ d.id && x.releases &&
      (d.tilesFrom g).any fun t => (x.tilesFrom g).contains t) Cause.released,
    badFormat (crossed || bad fun g => sets.any fun x => shareGpa x g.keep) Cause.overlap, badFormat d.tooMany Cause.extentLimit,
    (!g?.any (·.opened), Status.refusedNotReady, Cause.groupClosed, 0),
    badRights (s.lacks d 0 .write || s.lacks d 1 .write || [2, 3, 4].any fun i => s.lacks d i .read || s.lacks d i .write) Cause.noGrant]

/-- The ranges of a consumer in body order, from START on: output, scales, and for an update W, M and V. -/
def consumerRanges (b : List Byte) : List Range :=
  let op := fld b 0 1
  let n := fld b 48 8
  let st := fld b 56 8
  let noOut := op != 0x21 && bit (fld b 76 1) 0
  if n = 0 ∨ n > 2 ^ 32 ∨ st ≥ n then []
  else
    let none' : Range := ⟨0, 0, false, true, false⟩
    let out : List Range := match noOut, formatOf (fld b 18 1) with
      | false, some f => [rangeFrom (fld b 24 8) (elemBytes f.elem st) (elemBytes f.elem n) false true,
          if f.mx then rangeFrom (fld b 32 8) (st / 32) (ceilDiv n 32) false true else none']
      | _, _ => [none', none']
    let f32 (o : Nat) : Range := rangeFrom (fld b o 8) (4 * st) (4 * n) true true
    if op = 0x21 then out else out ++ [f32 80, f32 88] ++ (if op = 0x23 then [f32 96] else [])

/-- The price of a consumer (Table 06-10). -/
def State.consumerPrice (s : State) (d : Desc) (fixed rate : Nat) : Price :=
  let st := d.f 56 8
  let n := d.f 48 8 - st
  let out : List (Nat × Nat) := match formatOf (d.f 18 1) with
    | some f =>
      if d.noOut then [] else
        let a := elemBytes f.elem st
        let k := elemBytes f.elem (d.f 48 8) - a
        s.moveCharge d 0 a k true ++ s.copyOnWrite d 0 a k ++ (if f.mx then s.moveCharge d 1 (st / 32) (n / 32) true else [])
    | none => []
  let both (i : Nat) : List (Nat × Nat) :=
    s.moveCharge d i (4 * st) (4 * n) false ++ s.moveCharge d i (4 * st) (4 * n) true ++ s.copyOnWrite d i (4 * st) (4 * n) ++
      [(resDeep, (s.absentIn d i (4 * st) (4 * n)).length)]
  let arrays := if d.opcode = 0x21 then [] else both 2 ++ both 3 ++ (if d.adamw then both 4 else [])
  s.priced d fixed (out ++ arrays ++ [(resArray, ceilDiv (100 * n) rate)])

def consumerOp (size fixed rate : Nat) : DescOp where
  sizes := [size]
  selectorBad := fun b => !(fld b 0 1 != 0x21 && bit (fld b 76 1) 0) && fld b 19 1 % 4 == 3
  ranges := fun _ b => consumerRanges b
  check := State.consumerCheck
  price := fun s d => s.consumerPrice d fixed rate

/-- REDUCE_READ (opcode 0x21), UPDATE_SGDM (0x22), UPDATE_ADAMW (0x23). -/
def opReduceRead : DescOp := consumerOp 1 8000 102400
def opUpdateSgdm : DescOp := consumerOp 2 16000 51200
def opUpdateAdamw : DescOp := consumerOp 2 16000 25600

/-- What a consumer notes: first FAILED offset plus one, FAILED instances, whether the outputs of the present instance have been
written. -/
def Desc.auxAt (d : Desc) (i : Nat) : Nat := d.aux.getD i 0
def Desc.withAux (d : Desc) (a b c : Nat) : Desc := { d with aux := [a, b, c] }

/-- The end of a consumer (R397, R400); `short` where the booking ended in a wait. -/
def State.consumerEnd (s : State) (d : Desc) (short : Bool) : State :=
  let poisoned := min d.scratch.length 0xFFFF * 2 ^ 16
  let off := d.f 56 8 + d.progress
  if short then s.finish d.id Status.okPartial 0x06 0 off (min d.count 0xFFFF + poisoned)
  else if d.auxAt 0 ≠ 0 then s.finish d.id Status.faultIncompleteGroup 0 Cause.expired (d.auxAt 0 - 1) (min (d.auxAt 1) 0xFFFF + poisoned)
  else s.ok d.id (d.f 48 8) (min d.count 0xFFFF + poisoned)

/-- The stop of a consumer: the offset of its instance, or under R338 the GVA there on the side that failed (R80). -/
def State.consumerStop (s : State) (d : Desc) (st ca : Nat) : State :=
  let off := d.f 56 8 + d.progress
  if st = Status.faultTranslation then
    let i := ([0, 1, 2, 3, 4].find? fun i => (d.range i).any fun e => overlaps e.gpa e.len d.failAt 1).getD 0
    let within := match i, formatOf (d.f 18 1) with
      | 0, some f => elemBytes f.elem off
      | 1, _ => off / 32
      | 0, none => 0
      | _, _ => 4 * off
    s.finish d.id st 0 ca (d.f ([24, 32, 80, 88, 96].getD i 24) 8 + within) i
  else s.finish d.id st 0 ca off (min d.count 0xFFFF + min d.scratch.length 0xFFFF * 2 ^ 16)

/-- One element of an update (R403): new weight and moments; none where the element is skipped. -/
def updateElem (d : Desc) (g w m v : Num) : Option (Num × Num × Num) :=
  let k (o : Nat) : Num := decodeElem .fp32 (d.f o 4)
  if d.skipsNonfinite && !g.isFinite then none
  else if d.adamw then
    let w1 := fp32 (w.sub (fp32 ((k 128).mul w)))
    let m := fp32 ((fp32 ((k 108).mul m)).add (fp32 ((k 112).mul g)))
    let v := fp32 ((fp32 ((k 116).mul v)).add (fp32 ((k 120).mul (fp32 (g.mul g)))))
    let mh := fp32 (m.mul (k 132))
    let vh := fp32 (v.mul (k 136))
    let den := fp32 ((fp32Sqrt vh).add (k 124))
    some (fp32 (w1.sub (fp32 ((k 104).mul (fp32 (mh.div den))))), m, v)
  else
    let g1 := fp32 (g.add (fp32 ((k 112).mul w)))
    let m := fp32 ((fp32 ((k 108).mul m)).add g1)
    some (fp32 (w.sub (fp32 ((k 104).mul m))), m, v)

/-- FP32 values as bytes. -/
def fp32Bytes (xs : List Num) : List Byte := (xs.map fun x => leBytes 4 (roundTo .fp32 x rmodeDefault 0).1).flatten

/-- Consecutive positions for which a list holds true: start and length. -/
def trueRuns : List Bool → Nat → List (Nat × Nat)
  | [], _ => []
  | false :: t, i => trueRuns t (i + 1)
  | true :: t, i =>
    match trueRuns t (i + 1) with
    | (j, n) :: r => if j = i + 1 then (i, n + 1) :: r else (i, 1) :: (j, n) :: r
    | [] => [(i, 1)]

/-- Sectors of range `i` that hold the poisoned elements of `[off, off + n)`; for an MX output the whole block (R408). -/
def Desc.badSectors (d : Desc) (i off : Nat) (f : Format) (bad : List Bool) : List Nat :=
  let each := bad.zipIdx.filterMap fun (b, k) => if b then some (off + k) else none
  let spans : List (Nat × Nat) := each.map fun e =>
    match i with
    | 0 => if f.mx then (elemBytes f.elem (e / 32 * 32), elemBytes f.elem 32) else (e * f.elem.width / 8, max 1 (f.elem.width / 8))
    | 1 => (e / 32, 1)
    | _ => (4 * e, 4)
  uniq ((spans.map fun p => ((d.pieces i p.1 p.2).map fun q => (sectorsOf q.1 q.2).map (· * 64)).flatten).flatten)

/-- Write the output elements `[off, off + n)` that are kept (R396, R403): packed, an MX output in whole blocks; the high half of
an odd last byte of INT4 is a free value (log entry 25). -/
def State.writeOut (s : State) (d : Desc) (f : Format) (off : Nat) (xs : List Num) (keep : List Bool) (bad : List Bool) : State × Nat :=
  let rm := (rmodeOf (d.f 19 1)).getD rmodeDefault
  let r (i : Nat) : Nat := srBits (d.f 64 8) (d.f 72 4) (d.f 40 8 + off + i)
  let secs := d.badSectors 0 off f bad
  if f.mx then
    let (bs, ss, beyond) := encodeVec f xs rm r
    let s := s.writeRange d.id 0 (elemBytes f.elem off) bs secs.contains
    (s.writeRange d.id 1 (off / 32) ss (d.badSectors 1 off f bad).contains, beyond)
  else
    let es := xs.zipIdx.map fun (p : Num × Nat) => roundTo f.elem p.1 rm (r p.2)
    let beyond := ((es.zip keep).filter fun p => p.2 && p.1.2).length
    if f.elem.width = 4 then
      let old := s.rangeBytes d 0 (off / 2) (ceilDiv xs.length 2)
      let fill := s.nextFree
      let nib (k : Nat) : Nat :=
        match es[k]?, keep[k]? with
        | some (e, _), some true => e
        | _, _ => if s.anyRemote d ∨ es.length ≤ k then fill % 16 else bits (fld old (k / 2) 1) (4 * (k % 2) + 3) (4 * (k % 2))
      let bs := (List.range (ceilDiv xs.length 2)).map fun k => BitVec.ofNat 8 (nib (2 * k) + 16 * nib (2 * k + 1))
      (s.drew.writeRange d.id 0 (off / 2) bs secs.contains, beyond)
    else
      let w := f.elem.width / 8
      ((trueRuns keep 0).foldl (fun s p =>
        s.writeRange d.id 0 ((off + p.1) * w) (((es.drop p.1).take p.2).map fun e => leBytes w e.1).flatten secs.contains) s, beyond)

/-- The outputs of one COMPLETE instance (R394, R396, R403, R408): the batch of R399. -/
def State.consumeInst (s : State) (d : Desc) (g : Group) (i : Inst) (off n : Nat) : State :=
  let accs := i.accs.take n
  let scale := decodeElem .fp32 g.scale
  let sums := accs.map fun a => a.value scale
  let fm := formatOf (d.f 18 1)
  let keepNote (s : State) (beyond : Nat) (bad : List Nat) : State := s.setDesc d.id fun d => { (d.withAux (d.auxAt 0) (d.auxAt 1) 1) with
    count := d.count + beyond, scratch := uniq (d.scratch ++ bad), remote := [] }
  if d.opcode = 0x21 then
    match fm with
    | some f =>
      let bad := accs.map (·.poison)
      let (s, beyond) := s.writeOut d f off sums (accs.map fun _ => true) bad
      keepNote s beyond (d.badSectors 0 off f bad ++ (if f.mx then d.badSectors 1 off f bad else []))
    | none => s
  else
    let col (k : Nat) : List Num := decodeVec ⟨.fp32, false⟩ n (s.rangeBytes d k (4 * off) (4 * n)) []
    let ranges := if d.adamw then [2, 3, 4] else [2, 3]
    let ws := col 2
    let ms := col 3
    let vs := if d.adamw then col 4 else ws
    let olds := ws.zip (ms.zip vs)
    let news := ((sums.map fp32).zip olds).map fun (p : Num × Num × Num × Num) => updateElem d p.1 p.2.1 p.2.2.1 p.2.2.2
    let now : List (Num × Num × Num) := (news.zip olds).map fun p => p.1.getD p.2
    let stale := ranges.map fun k => s.elemPoison d .fp32 k off n
    let bad := (accs.map (·.poison)).zipIdx.map fun (b, k) => b || stale.any fun l => l.getD k false
    let keep := news.map (·.isSome)
    let fresh : List Num := now.map fun (p : Num × Num × Num) => p.1
    let back (s : State) (k : Nat) (xs : List Num) : State :=
      s.writeRange d.id k (4 * off) (fp32Bytes xs) (d.badSectors k off ⟨.fp32, false⟩ bad).contains
    let s := s.touchPieces ((ranges.map fun k => d.pieces k (4 * off) (4 * n)).flatten)
    let s := back (back s 2 fresh) 3 (now.map (·.2.1))
    let s := if d.adamw then back s 4 (now.map (·.2.2)) else s
    let (s, beyond) := match d.noOut, fm with
      | false, some f => s.writeOut d f off fresh keep bad
      | _, _ => (s, 0)
    let skipped := (keep.filter fun b => !b).length
    let outBad : List Nat := match d.noOut, fm with
      | false, some f => d.badSectors 0 off f bad ++ (if f.mx then d.badSectors 1 off f bad else [])
      | _, _ => []
    keepNote s (if d.skipsNonfinite then skipped else beyond)
      ((ranges.map fun k => d.badSectors k off ⟨.fp32, false⟩ bad).flatten ++ outBad)

/-- A consumer admitted earlier covers the instance still (R398). -/
def State.earlierConsumer (s : State) (d : Desc) (g : Group) (t : Nat) : Bool :=
  (s.consumers g.id (d.f 20 4)).any fun x => decide (x.id < d.id) && x.covers g t

/-- A consumer has finished with its instance: a RELEASE consumer releases it (R398). -/
def State.passInst (s : State) (d : Desc) (g : Group) (t n : Nat) : State :=
  let s := if d.releases then s.releaseInst g.id (d.f 20 4) t else s
  s.setDesc d.id fun d => { (d.withAux (d.auxAt 0) (d.auxAt 1) 0) with progress := d.progress + n }

/-- One instance of a consumer (R397). -/
def State.consumerInst (s : State) (d : Desc) (g : Group) : State :=
  let e := d.elemNow
  let t := g.tileOf e
  let n := min (g.tileLen t) (d.elemEnd - e)
  let off := e - d.f 40 8
  if !d.awaiting.isEmpty then s
  else if d.auxAt 2 = 1 then s.passInst d g t n
  else if d.releases ∧ s.earlierConsumer d g t then s
  else match s.instAt g (d.f 20 4) t, g.inst (d.f 20 4) t with
    | .failed, _ =>
      (s.setDesc d.id fun d => d.withAux (if d.auxAt 0 = 0 then off + 1 else d.auxAt 0) (d.auxAt 1 + 1) 0) |> fun s =>
        match s.desc d.id with
        | some d => s.passInst d g t n
        | none => s
    | .released, _ => s.setDesc d.id fun d => { d with progress := d.progress + n }
    | .complete, some i =>
      let out : List (Nat × Nat) := match d.noOut, formatOf (d.f 18 1) with
        | false, some f => d.pieces 0 (elemBytes f.elem off) (elemBytes f.elem (off + n) - elemBytes f.elem off) ++
            (if f.mx then d.pieces 1 (off / 32) (ceilDiv n 32) else [])
        | _, _ => []
      let cols := ((if d.opcode = 0x21 then [] else if d.adamw then [2, 3, 4] else [2, 3]).map fun k => d.pieces k (4 * off) (4 * n)).flatten
      let (s, a) := s.readyRead d.id cols
      let (s, b) := s.readyWrite (out ++ cols)
      match s.desc d.id with
      | none => s
      | some d =>
        if !(a && b) ∨ d.fail.isSome then s
        else
          let s := s.consumeInst d g i off n
          match s.desc d.id with
          | some d => if d.awaiting.isEmpty ∧ d.fail.isNone then s.passInst d g t n else s
          | none => s
    | _, _ => s

/-- A step of a consumer: one instance, or the end. -/
def State.consumerStep (s : State) (d : Desc) : State :=
  match s.group (d.f 16 2) with
  | none => s.consumerStop d Status.abortedBySoftware Cause.groupClosed
  | some g =>
    let s := if d.elemNow ≥ d.elemEnd then s else s.consumerInst d g
    match s.desc d.id with
    | some d => if d.elemNow ≥ d.elemEnd ∧ d.fail.isNone then s.consumerEnd d false else s
    | none => s

/-- A consumer waits at its instance (R397, R398). -/
def State.consumerWaits (s : State) (d : Desc) : Bool :=
  match s.group (d.f 16 2) with
  | some g =>
    let t := g.tileOf d.elemNow
    d.auxAt 2 == 0 && ((d.releases && s.earlierConsumer d g t) || match s.instAt g (d.f 20 4) t with
      | .notResident => true
      | .filling => true
      | _ => false)
  | none => false

/-- `REDUCE_READ` (R397). -/
def execReduceRead (d : Nat) (s : State) : Host.Outcome State Fault Refusal := .next (s.work d 0x21 s.consumerStop s.consumerStep)
/-- `UPDATE_SGDM` (R403). -/
def execUpdateSgdm (d : Nat) (s : State) : Host.Outcome State Fault Refusal := .next (s.work d 0x22 s.consumerStop s.consumerStep)
/-- `UPDATE_ADAMW` (R403). -/
def execUpdateAdamw (d : Nat) (s : State) : Host.Outcome State Fault Refusal := .next (s.work d 0x23 s.consumerStop s.consumerStep)

/-! ### RED messages (R391–R393, Table 09-5) -/

/-- COUNT, CFMT and GROUP of a RED message (Table 14-6), and ROUND, PARTICIPANT and ELEM of its unit 1. -/
def redCount (m : SxfMsg) : Nat := bits m.unit0 96 89
def redFmt (m : SxfMsg) : Nat := bits m.unit0 88 81
def redGroup (m : SxfMsg) : Nat := bits m.unit0 80 71
def redRound (m : SxfMsg) : Nat := m.f 0 4
def redElem (m : SxfMsg) : Nat := m.f 6 4

/-- COUNT does not fit the flit, or CFMT is reserved. -/
def redFormatBad (m : SxfMsg) : Bool :=
  match contribFmt (redFmt m) with
  | some f => decide (redCount m = 0 ∨ redCount m * (f.elem.width / 8) > 224)
  | none => true

/-- Reserved fields, or a length that disagrees (R569). -/
def redFrameBad (m : SxfMsg) : Bool :=
  bits m.unit0 118 97 != 0 || (slice m.units 10 6).any (· != 0) || match contribFmt (redFmt m) with
    | some f => m.units.length != 16 + 16 * ceilDiv (redCount m * (f.elem.width / 8)) 16
    | none => false

/-- The retry-after of R392: the booked completion of the earliest admitted RELEASE consumer that covers an instance resident
on the same array; all ones without one. -/
def State.redRetry (s : State) (g : Group) (t : Nat) : Nat :=
  let cs := s.queues.descs.filter fun d => [0x21, 0x22, 0x23].contains d.opcode && d.f 16 2 == g.id && d.done.isNone && d.releases &&
    (d.tilesFrom g).any fun u => u % 32 == t % 32 && d.covers g u && g.resident (d.f 20 4) u
  cs.foldl (fun a d => min a d.bookEnd) (2 ^ 64 - 1)

/-- The first row of Table 09-5 that applies, with VALUE; none where the message is accepted. -/
def State.redRefusal (s : State) (m : SxfMsg) : Option (Nat × Nat × Nat) :=
  match s.group (redGroup m) with
  | none => some (Status.refusedNotReady, Cause.groupClosed, 0)
  | some g =>
    let e := redElem m
    let n := redCount m
    let t := g.tileOf e
    if !g.opened then some (Status.refusedNotReady, Cause.groupClosed, 0)
    else if m.guest ≠ g.guest then some (Status.refusedRights, Cause.noGrant, 0)
    else if s.quarantined m.guest then some (Status.refusedQuarantine, 0, 0)
    else if redFormatBad m then some (Status.refusedFormat, Cause.format, 0)
    else if e < g.sliceFirst ∨ e + n > g.sliceFirst + g.sliceCount ∨ g.tileOf (e + n - 1) ≠ t then some (Status.refusedFormat, Cause.notSlice, 0)
    else if m.f 4 2 ≥ g.participants then some (Status.refusedFormat, Cause.participant, 0)
    else match s.instAt g (redRound m) t with
      | .released => some (Status.refusedFormat, Cause.round, 0)
      | .notResident => some (Status.refusedBusy, Cause.notResident, s.redRetry g t)
      | x =>
        if !g.keepRoom 256 then some (Status.refusedBusy, Cause.keepFull, s.redRetry g t)
        else match x with
          | .failed => some (Status.faultIncompleteGroup, Cause.expired, 0)
          | .complete => some (Status.refusedFormat, Cause.excess, 0)
          | _ => none

/-- A RED message at its home (R391, R392). -/
def State.redHome (s : State) (m : SxfMsg) : State :=
  match s.redRefusal m with
  | some (st, ca, v) =>
    let s := if ca = Cause.excess ∧ st = Status.refusedFormat then { s with red := { s.red with excess := s.red.excess + redCount m } } else s
    s.reply m Sxf.done st ca v false false []
  | none =>
    match s.group (redGroup m), contribFmt (redFmt m) with
    | some g, some f =>
      let n := redCount m
      let data := slice m.units 16 (n * (f.elem.width / 8))
      let r : KeepRec := ⟨redRound m, g.tileOf (redElem m), 256, redFmt m, redElem m, n, data, m.poison, []⟩
      let (s, k) := s.addRecord g.id r ((decodeVec f n data []).map fun x => (x, m.poison))
      let s := if k < n then { s with red := { s.red with excess := s.red.excess + (n - k) } } else s
      let (s, tags) := s.flushDeltas
      s.replyAfter tags m.via (s.responseTo m Sxf.done Status.ok 0 0 false false [])
    | _, _ => s

/-- `RED` (R391, R407, R579): answered at the home, at a shore that serves in place of a dead one, or sent on its way. -/
def execRed (m : SxfMsg) (s : State) : Host.Outcome State Fault Refusal :=
  .next (if m.op ≠ Sxf.red then s else match s.portRefusal m with
    | some (st, ca) => s.refuse m st ca
    | none =>
      if redFrameBad m then s.refuse m Status.refusedFormat Cause.format
      else if !s.fabric.hasShore m.dest then s.refuse m Status.faultDeadTarget Cause.unreachable
      else if m.dest = s.self then s.redHome m
      else if s.deadTarget m then s.refuse m Status.faultDeadTarget Cause.deadHome
      else if s.target m = s.self then s.refuse m Status.refusedNotReady Cause.groupClosed
      else if (s.bundle m.via).any fun b => b.kind = .jetty then s.forwardRequest (m.retag s.self m.tag)
      else
        let (s', sent) := s.forward m
        if sent then s'.setBundle m.via (fun b => { b with forwarded := b.forwarded + 1 })
        else s.refuse m Status.faultDeadTarget Cause.unreachable)

/-! ### Rebuild after a spare switch (R405) -/

/-- Rebuild the resident instances of an array from their records; a reference record reads its local source as it stands. -/
def State.rebuildArray (s : State) (a : Nat) : State :=
  let values (r : KeepRec) : List (Num × Bool) :=
    let bs := if r.source.isEmpty then r.payload else
      (r.source.foldl (fun (x : List Byte × Nat) e =>
        (x.1 ++ (if s.isHere e.gpa then s.bytesAt (gpaOffset e.gpa) e.len else slice r.payload x.2 e.len), x.2 + e.len)) ([], 0)).1
    match formatOf r.fmt with
    | some f => (decodeVec f r.count bs []).map fun x => (x, r.poison)
    | none => []
  let upd (g : Group) : Group :=
    let redo (i : Inst) : Inst :=
      if i.tile % 32 ≠ a ∨ i.state = .failed then i
      else
        let mine := g.keeps.filter fun (r : KeepRec) => r.round = i.round ∧ r.tile = i.tile
        { i with accs := mine.foldl (fun accs r => addRun accs (r.elem - g.sliceFirst - r.tile * g.tile) (values r))
                  (List.replicate (g.tileLen i.tile) .zero) }
    { g with insts := g.insts.map redo }
  { s with red := { s.red with groups := s.red.groups.map upd } }

end Sys2Proof.Machine
end

