-- ==== Sys2Proof/Machine/Tables.lean ====
section
/-! DEFINITION. Embedding tables: their commands, and the descriptors GATHER_ROWS, SCATTER_ADD_ROWS and REPLACE_ROWS (spec 10:
R412–R423, R428–R445; spec 05: R256, R257). -/

namespace Sys2Proof.Machine

/-! ### Table commands (R421–R423) -/

/-- The table that a TABLE_CREATE body describes (Table 10-4). -/
def tableOf (c : RelasCmd) : Table :=
  let n := c.f 40 2
  { id := c.f 16 2, guest := c.guest, placement := c.f 18 1, shadowFmt := c.f 19 1, tag := c.f 20 4, rows := c.f 24 8, perShard := c.f 32 8
    shards := (List.range n).map fun i => c.f (128 + 2 * i) 2 % 512, shardIndex := c.f 42 2, dim := c.f 44 2, cached := bit (c.f 46 1) 0
    shadowMask := c.f 47 1, classFmt := (List.range 4).map fun i => c.f (48 + i) 1, region := c.f 56 8, regionSize := c.f 64 8
    shadow := c.f 72 8, shadowSize := c.f 80 8, slots := (List.range 4).map fun i => c.f (88 + 8 * i) 8, held := [], dying := false }

/-- A region fails a check of R421. -/
def State.regionFails (s : State) (t : Table) (off size need : Nat) : Bool :=
  let others := s.tables.list.any fun (x : Table) =>
    overlaps off size x.region (max 1 x.regionSize) || (x.shadowNeed != 0 && overlaps off size x.shadow x.shadowSize)
  decide (size < need) || others || match s.coveAt off with
    | none => true
    | some c => c.kind != .data || !(c.grant t.guest).r || !(c.grant t.guest).w || !inside off size c.base c.size ||
        c.coherence == .sharedHdmDb || c.pullable

/-- The fields of a TABLE_CREATE outside Table 10-4, R416 or R417. -/
def tableFieldBad (c : RelasCmd) : Option Nat :=
  let t := tableOf c
  let n := c.f 40 2
  let sharded := decide (t.placement ≠ 0)
  let noShadow := decide (t.shadowFmt = 0xFF)
  let used (k : Nat) : Bool := t.classFmt.getD k 0xFF != 0xFF
  firstBad ([(decide (t.id > 4095), 16), (decide (t.placement > 2), 18), (!noShadow && t.shFmt.isNone, 19),
    (decide (t.rows = 0 ∨ t.rows > 2 ^ 40), 24), (if t.placement = 1 then decide (t.perShard = 0) else decide (t.perShard ≠ 0), 32),
    (if sharded then decide (n = 0 ∨ n > 512) || (t.placement == 1 && n != ceilDiv t.rows t.perShard) else decide (n ≠ 0), 40),
    (if sharded then decide (t.shardIndex ≥ n ∧ t.shardIndex ≠ 0xFFFF) else decide (t.shardIndex ≠ 0), 42),
    (decide (t.dim % 32 ≠ 0 ∨ t.dim < 32 ∨ t.dim > 4096), 44), (decide (c.f 46 1 > 1), 46),
    (decide (t.shadowMask > 15) || (noShadow && t.shadowMask != 0) || ((List.range 4).any fun k => bit t.shadowMask k &&
      (!used k || decide (t.shadowSlot k ≥ t.slotSize k))), 47)] ++
    ((List.range 4).map fun k => ((k == 0 && !used 0) || (used k && (t.fmt k).isNone), 48 + k)) ++
    [(nonzero c 52 4, 52),
     (if t.shardIndex = 0xFFFF then decide (t.region ≠ 0) else decide (t.region % granuleSize ≠ 0), 56),
     (if noShadow then decide (t.shadow ≠ 0) else decide (t.shadow % granuleSize ≠ 0), 72)] ++
    ((List.range 4).map fun k => (decide (t.slotsOf k > 2 ^ 44) || (!used k && t.slotsOf k != 0), 88 + 8 * k)) ++
    [(nonzero c 120 8, 120)] ++ ((List.range n).map fun i => (decide (c.f (128 + 2 * i) 2 ≥ 512), 128 + 2 * i)) ++
    [(nonzero c (128 + 2 * n) (8 * ceilDiv n 4 - 2 * n), 128 + 2 * n)])

/-- TABLE_CREATE (0x0501, R421). -/
def opTableCreate : RelasOp where
  len := fun c => if c.len = 128 + 8 * ceilDiv (c.f 40 2) 4 then none else some (128 + 8 * ceilDiv (c.f 40 2) 4)
  fields := fun c _ => tableFieldBad c
  limits := fun _ s => if s.tables.list.length ≥ 4096 then some 4096 else none
  conflict := fun c s =>
    let t := tableOf c
    let here := decide (t.shardIndex ≠ 0xFFFF)
    firstBad [((s.table t.id).isSome, 16), (here && s.regionFails t t.region t.regionSize t.regionNeed, 56),
      (here && t.shFmt.isSome && (s.regionFails t t.shadow t.shadowSize t.shadowNeed || overlaps t.shadow t.shadowSize t.region t.regionSize ||
        (granulesOf t.shadow t.shadowSize).any fun g => s.clsAt (g * granuleSize) != .pin), 72)]
  effect := fun c _ s =>
    let t := tableOf c
    ({ s with tables := { s.tables with list := s.tables.list ++ [t] } },
      { Reply.done with body := leBytes 8 t.regionNeed ++ leBytes 8 t.shadowNeed })
  objects := fun c => [(.table (c.f 16 2), 16)]

/-- Only the guest of a table, or the system guest, may name it (R132, R422). -/
def ownsTable (c : RelasCmd) (s : State) : Bool :=
  match s.table (c.f 16 2) with
  | some t => decide (t.guest = c.guest)
  | none => true

/-- TABLE_DESTROY (0x0502, R422). -/
def opTableDestroy : RelasOp where
  len := lenIs 24
  owns := ownsTable
  fields := fun c _ => firstBad [(decide (c.f 16 2 > 4095), 16), (nonzero c 18 6, 18)]
  conflict := fun c s => match s.table (c.f 16 2) with
    | some t => if t.dying then some 16 else none
    | none => some 16
  effect := fun c _ s =>
    let id := c.f 16 2
    let tag := ((s.table id).map (·.tag)).getD 0
    let s := s.setTable id fun t => { t with dying := true }
    ({ s with tables := { s.tables with cache := s.tables.cache.filter fun (e : RowEntry) => e.tag ≠ tag } }, Reply.pending (.tableDestroy id))
  objects := fun c => [(.table (c.f 16 2), 16)]

/-- Descriptors in flight that name a table: the PROGRESS of its destruction (R422). -/
def State.tableUsers (s : State) (id : Nat) : Nat :=
  (s.queues.descs.filter fun d => [0x30, 0x31, 0x32].contains d.opcode ∧ d.f 16 2 = id).length

/-- One bits of a byte. -/
def onesOf (b : Byte) : Nat := ((List.range 8).filter fun i => b.toNat.testBit i).length

/-- Used slots of a class: the one bits of its free bitmap. -/
def State.usedSlots (s : State) (t : Table) (c : Nat) : Nat :=
  let off := t.bitmapOff c
  sumNat ((s.store.mem.filter fun x => decide (off ≤ x.1 ∧ x.1 < off + granuleSize * t.bitmapGranules c)).map fun x => onesOf x.2)

/-- The TABLE_CREATE body of a table, without the shard list. -/
def tableBody (t : Table) : List Byte :=
  leBytes 2 t.id ++ leBytes 1 t.placement ++ leBytes 1 t.shadowFmt ++ leBytes 4 t.tag ++ leBytes 8 t.rows ++ leBytes 8 t.perShard ++
    leBytes 2 t.shards.length ++ leBytes 2 t.shardIndex ++ leBytes 2 t.dim ++ leBytes 1 (b2n t.cached) ++ leBytes 1 t.shadowMask ++
    (t.classFmt.map (leBytes 1)).flatten ++ zeros 4 ++ leBytes 8 t.region ++ leBytes 8 t.regionSize ++ leBytes 8 t.shadow ++
    leBytes 8 t.shadowSize ++ (t.slots.map (leBytes 8)).flatten ++ zeros 8

/-- TABLE_QUERY (0x0503, R423). -/
def opTableQuery : RelasOp where
  len := lenIs 24
  owns := ownsTable
  fields := fun c _ => firstBad [(decide (c.f 16 2 > 4095), 16), (nonzero c 18 6, 18)]
  conflict := fun c s => if (s.table (c.f 16 2)).isSome then none else some 16
  effect := fun c _ s => match s.table (c.f 16 2) with
    | none => (s, Reply.read [])
    | some t =>
      let used := ((List.range 4).map fun k => leBytes 8 (if t.shardIndex = 0xFFFF then 0 else s.usedSlots t k)).flatten
      let cache := sumNat ((s.tables.cache.filter fun (e : RowEntry) => e.tag = t.tag).map (·.len))
      (s, Reply.read (tableBody t ++ used ++ leBytes 8 cache))

/-! ### What the three descriptors share -/

/-- The table of a descriptor: of its guest, and not being destroyed (R412, R422). -/
def State.tableOf (s : State) (d : Desc) : Option Table :=
  match s.table (d.f 16 2) with
  | some t => if t.guest = d.guest ∧ !t.dying then some t else none
  | none => none

/-- The table of a descriptor in flight. -/
def State.workTable (s : State) (d : Desc) : Option Table := s.table (d.f 16 2)

/-- A piece of this shore's own memory. -/
def State.ownPiece (s : State) (off n : Nat) : Nat × Nat := (gpaOf s.self off, n)

/-- Sectors of an own range that are poisoned, numbered from its start. -/
def State.slotPoison (s : State) (d : Desc) (off n : Nat) : List Nat :=
  (List.range (ceilDiv n 64)).filter fun i => s.poisonedBound d.binding (off / 64 + i)

/-- Elements of a stored row that its poisoned sectors hold, as intervals; whole blocks of an MX format (R435, R439). -/
def badElems (dim : Nat) (f : Format) (bad : List Nat) : List (Nat × Nat) :=
  let eb := elemBytes f.elem dim
  (bad.map fun p =>
    let a := 64 * p
    let inElems : List (Nat × Nat) := if a < eb then
        let x := a * 8 / f.elem.width
        let y := min dim (ceilDiv ((a + 64) * 8) f.elem.width)
        [(x, y - x)]
      else []
    let inScales : List (Nat × Nat) := if f.mx ∧ a + 64 > eb then
        let x := 32 * (a - eb)
        [(x, min dim (32 * (a + 64 - eb)) - x)]
      else []
    let all := inElems ++ inScales
    if f.mx then all.map fun (x, n) => (x / 32 * 32, roundUp (x + n) 32 - x / 32 * 32) else all).flatten

/-- Sectors of a stored row that hold elements of some intervals, and the scales of their blocks. -/
def rowSectors (dim : Nat) (f : Format) (iv : List (Nat × Nat)) : List Nat :=
  let eb := elemBytes f.elem dim
  uniq ((iv.map fun (x, n) =>
    sectorsOf (elemBytes f.elem x) (max 1 (elemBytes f.elem (x + n) - elemBytes f.elem x)) ++
      if f.mx then sectorsOf (eb + x / 32) (ceilDiv (x + n) 32 - x / 32) else []).flatten)

/-- The values of a stored row. -/
def rowValues (dim : Nat) (f : Format) (bs : List Byte) : List Num := decodeVec f dim bs (bs.drop (elemBytes f.elem dim))

/-- The demand that gathered rows and row writes charge evenly on the eight stacks (R444). -/
def State.evenly (s : State) (total : Nat) : List (Nat × Nat) :=
  (resQuay, total) :: (List.range 8).map fun k => (s.stackFrom k, ceilDiv total 8)

/-- The four budgets at a body offset. -/
def Desc.budgets (d : Desc) (off : Nat) : List Nat := (List.range 4).map fun c => d.f (off + 4 * c) 4

/-- Reserved RMODE, or a stochastic seed without stochastic rounding. -/
def Desc.rmodeReserved (d : Desc) (off seed seedLen : Nat) : Bool :=
  decide (d.f off 1 ≥ 8) || (d.f off 1 % 4 != 2 && d.nonzero seed seedLen)

/-- The elements of a class's rows. -/
def Table.isMx (f : Option Format) : Bool := f.any (·.mx)

/-! ### GATHER_ROWS (R429–R436) -/

def Desc.gPool (d : Desc) : Nat := d.f 18 1
def Desc.gPooled (d : Desc) : Bool := d.gPool != 0
def Desc.gFmt (d : Desc) : Option Format := formatOf (d.f 19 1)
def Desc.gWidth (d : Desc) : Nat := if bit (d.f 21 1) 0 then 8 else 4
def Desc.gShadow (d : Desc) : Bool := bit (d.f 21 1) 1 && !d.strict
def Desc.gPresence (d : Desc) : Bool := bit (d.f 21 1) 2
def Desc.gN (d : Desc) : Nat := d.f 32 4
/-- The number of outputs (R431). -/
def Desc.gOutputs (d : Desc) : Nat := if d.gPooled then d.f 36 4 else d.gN

/-- N, BAGS or START out of range. -/
def gatherLenBad (b : List Byte) : Bool :=
  let n := fld b 32 4
  let outs := if fld b 18 1 = 0 then n else fld b 36 4
  decide (n = 0 ∨ n > 65536 ∨ outs = 0 ∨ outs > 65536 ∨ fld b 112 4 ≥ outs)

/-- The ranges of a GATHER_ROWS in body order: IDX, OFFSETS, WEIGHTS, DST, DST_SCALE, PRESENCE. -/
def gatherRanges (s : State) (b : List Byte) : List Range :=
  match s.table (fld b 16 2), formatOf (fld b 19 1) with
  | some t, some f =>
    if gatherLenBad b then []
    else
      let n := fld b 32 4
      let pool := fld b 18 1
      let outs := if pool = 0 then n else fld b 36 4
      let flags := fld b 21 1
      [⟨fld b 24 8, n * (if bit flags 0 then 8 else 4), true, false, false⟩,
       ⟨fld b 40 8, if pool = 0 then 0 else 4 * (outs + 1), true, false, false⟩,
       ⟨fld b 48 8, if pool = 2 then 4 * n else 0, true, false, false⟩,
       ⟨fld b 56 8, elemBytes f.elem (outs * t.dim), false, true, false⟩,
       ⟨fld b 64 8, if f.mx then outs * t.dim / 32 else 0, false, true, false⟩,
       ⟨fld b 72 8, if bit flags 2 then ceilDiv n 4 else 0, false, true, false⟩]
  | _, _ => []

/-- The extents of a table's regions on this shore. -/
def State.tableExtents (s : State) (t : Table) : List Extent :=
  if t.shardIndex = 0xFFFF then [] else [⟨gpaOf s.self t.region, max 1 t.regionNeed, true, true, false⟩]

/-- GATHER_ROWS (opcode 0x30, Table 10-5). -/
def opGatherRows : DescOp where
  sizes := [1]
  snapshot := true
  selectorBad := fun b => decide (fld b 18 1 > 4) || fld b 20 1 % 4 == 3
  ranges := gatherRanges
  check := fun s d =>
    let t? := s.tableOf d
    let mx := Table.isMx d.gFmt
    firstFail ([badFormat (d.rmodeReserved 20 116 12 || decide (d.f 21 1 > 7) || (!d.gPooled && (d.nonzero 36 12)) ||
        (d.gPool != 2 && d.nonzero 48 8) || (!mx && d.nonzero 64 8) || (!d.gPresence && d.nonzero 72 8)) Cause.reserved,
      badFormat t?.isNone Cause.badTable, badFormat d.gFmt.isNone Cause.format,
      badFormat (gatherLenBad d.bytes || decide (sumNat (d.budgets 80 ++ d.budgets 96) > d.gN)) Cause.length,
      badFormat (decide (d.f 24 8 % d.gWidth ≠ 0 ∨ d.f 40 8 % 4 ≠ 0 ∨ d.f 48 8 % 4 ≠ 0)) Cause.alignment] ++
      s.snapCheckOn d 22 (d.ranges.flatten ++ (t?.map s.tableExtents).getD []) ++
      [badFormat d.tooMany Cause.extentLimit,
       badRights ((List.range 3).any (fun i => s.lacks d i .read) || (span 3 3).any (fun i => s.lacks d i .write) ||
        t?.any fun t => !s.regionRight t d.guest .read) Cause.noGrant])
  price := fun s d => match s.tableOf d, d.gFmt with
    | some t, some f =>
      let loc := d.budgets 80
      let rem := sumNat (d.budgets 96)
      let n := sumNat loc
      let rb := sumNat (loc.zipIdx.map fun (x, c) => x * t.slotSize c) + extentsLen (d.range 0) + extentsLen (d.range 1) + extentsLen (d.range 2)
      let outs := (d.gOutputs - d.f 112 4) * t.dim
      let ob := elemBytes f.elem outs + (if f.mx then outs / 32 else 0) + if d.gPresence then ceilDiv d.gN 4 else 0
      let ways := s.fabric.bundles.filter fun x => x.kind = .causeway ∧ x.opened
      let links := sumNat (ways.map fun x => x.links.length)
      let egress := ways.map fun x => (resEgress x.id, ceilDiv (16 * rem * x.links.length) links)
      let deep := ceilDiv (s.missRatio64 1 t.id * n) 64
      let hops := maxNat (t.shards.map fun x => s.fabric.hops s.self x)
      let base := s.priced d 16000 (s.evenly (8 * n + rb + ob) ++ [(resArray, ceilDiv (100 * t.dim * (n + rem)) 1638400), (resDeep, deep)] ++
        if rem = 0 then [] else egress)
      { base with tail := base.tail + if rem = 0 ∨ s.anyRemote d then 0 else 2 * hops * 720 + 2560 }
    | _, _ => s.priced d 16000 []
  enter := fun s d => s.snapBind d 22

/-- The positions of a bag, and of an output (R431), from the offsets held since they were read. -/
def Desc.bagOf (d : Desc) (o : Nat) : Nat × Nat :=
  if d.gPooled then
    let i := o - d.f 112 4
    (d.scratch.getD i 0, min (d.scratch.getD (i + 1) 0) d.gN)
  else (o, o + 1)

/-- Stages of a gather or scatter, kept in `aux`. -/
abbrev stageIndex : Nat := 0
abbrev stageClassify : Nat := 1
abbrev stageRows : Nat := 2

def Desc.setAux (d : Desc) (i v : Nat) : Desc := { d with aux := ((d.aux ++ zerosNat (i + 1 - d.aux.length)).set i v) }
where
  /-- Zeros. -/
  zerosNat (n : Nat) : List Nat := List.replicate n 0

/-- The first poisoned sector among bytes that the gather reads as indices, offsets, weights or map entries. -/
def State.firstPoison (s : State) (d : Desc) (ps : List (Nat × Nat)) : Option Nat :=
  ((ps.map fun (g, k) => ((sectorsOf g k).map (· * 64)).filter (s.poisonAt d)).flatten).head?

/-- The indices are read, and the rows of other shores are asked for (R428, R431). -/
def State.gatherBegin (s : State) (d : Desc) (t : Table) : State :=
  let start := d.f 112 4
  let (s, okOff) := s.readyRead d.id (d.pieces 1 (4 * start) (4 * (d.gOutputs - start + 1)))
  let (s, okIdx) := s.readyRead d.id ((d.pieces 0 0 (d.gN * d.gWidth)) ++ d.pieces 2 0 (4 * d.gN))
  match s.desc d.id with
  | none => s
  | some d =>
    if !(okOff && okIdx) ∨ d.fail.isSome then s
    else
      let offs := if d.gPooled then (List.range (d.gOutputs - start + 1)).map fun i => s.rangeNat d 1 (4 * (start + i)) 4 else []
      let d := { d with scratch := offs }
      let bags := (span start (d.gOutputs - start)).map d.bagOf
      let todo := (List.range d.gN).filter fun i => bags.any fun b => decide (b.1 ≤ i ∧ i < b.2)
      let reads := (if d.gPooled then d.pieces 1 (4 * start) (4 * (d.gOutputs - start + 1)) else []) ++
        (todo.map fun i => d.pieces 0 (i * d.gWidth) d.gWidth ++ d.pieces 2 (4 * i) 4).flatten
      match s.firstPoison d reads with
      | some g => s.poisonFault d g
      | none =>
        let s := s.touchPieces reads
        let mk (s : State) (i : Nat) : State × RowRead :=
          let x := s.rangeNat d 0 (i * d.gWidth) d.gWidth
          let w := s.rangeNat d 2 (4 * i) 4
          let r : RowRead := ⟨i, x, w, none, false, .pending, 0, false, [], []⟩
          if x ≥ t.rows then (s, { r with st := .invalid })
          else if t.isLocal x then (s, r)
          else
            let (s, tag) := s.sendRow d t.id x (t.shards.getD (t.shardOf x) 0) d.gShadow
            (s, { r with remote := true, tag := tag })
        let (s, rows) := todo.foldl (fun (a : State × List RowRead) i => let (s, r) := mk a.1 i; (s, a.2 ++ [r])) (s, [])
        s.setDesc d.id fun d => ({ d with rows := rows, scratch := offs }).setAux 0 stageClassify

/-- Classify the positions in ascending order, against the budgets (R432). -/
def classify (t : Table) (loc rem : List Nat) : List RowRead → List Nat → List Nat → List RowRead
  | [], _, _ => []
  | r :: rs, ul, ur =>
    if r.st = .invalid ∨ (!r.remote ∧ !t.validEntry r.entry) ∨ (t.fmt (entryClass r.entry)).isNone then { r with st := .invalid } :: classify t loc rem rs ul ur
    else
      let c := entryClass r.entry
      let used := if r.remote then ur else ul
      let top := if r.remote then rem else loc
      if used.getD c 0 ≥ top.getD c 0 then { r with st := .overBudget } :: classify t loc rem rs ul ur
      else
        let now := used.set c (used.getD c 0 + 1)
        let r := { r with st := if r.remote then r.st else .primary }
        if r.remote then r :: classify t loc rem rs ul now else r :: classify t loc rem rs now ur

/-- The map entries of local rows are read, once every row of another shore has been answered (R432). -/
def State.gatherClassify (s : State) (d : Desc) (t : Table) : State :=
  if d.rows.any fun r => r.remote ∧ r.tag.isSome then s
  else
    let mine := d.rows.filter fun r => !r.remote ∧ r.st = .pending
    let ps := mine.map fun r => s.ownPiece (t.entryOff (t.localRow r.row)) 8
    let (s, ok) := s.readyRead d.id ps
    match s.desc d.id with
    | none => s
    | some d =>
      if !ok ∨ d.fail.isSome then s
      else match s.firstPoison d ps with
      | some g => s.poisonFault d g
      | none =>
        let s := s.touchPieces ps
        let rows := d.rows.map fun r => if !r.remote ∧ r.st = .pending then
            { r with entry := leNat (s.bytesBound d.binding (t.entryOff (t.localRow r.row)) 8) } else r
        let rows := classify t (d.budgets 80) (d.budgets 96) rows [0, 0, 0, 0] [0, 0, 0, 0]
        s.setDesc d.id fun d => ({ d with rows := rows }).setAux 0 stageRows

/-- A local kept row whose slot waits in the deep tier takes the cheaper path where it would come too late (R429). -/
def State.cheaper (s : State) (d : Desc) (t : Table) (r : RowRead) : State × RowRead :=
  let c := entryClass r.entry
  let k := entrySlot r.entry
  let off := t.slotOff c k
  let g := off / granuleSize
  if r.remote ∨ r.got ∨ r.st ≠ .primary ∨ !s.notAtHand g ∨ (s.rowCached t c k ∧ !d.snapshot) ∨ !d.gShadow ∨
      !Config.tierLate g s.now d.deadline then (s, r)
  else
    let sh := t.shadowOff c k
    let s := if s.store.harbour.misses.any fun m => m.granule = g then s else s.joinMiss g .fill (s.clsAt off = .prefer)
    if bit r.entry 62 ∧ t.hasShadow c ∧ !s.notAtHand (sh / granuleSize) then (s, { r with st := .shadow })
    else (s, { r with st := .missing, got := true })

/-- Where a local kept row is read from: its slot, or its shadow. -/
def Table.sourceOf (t : Table) (r : RowRead) : Nat × Nat :=
  let c := entryClass r.entry
  let k := entrySlot r.entry
  if r.st = .shadow then (t.shadowOff c k, t.shadowSlot c) else (t.slotOff c k, t.slotSize c)

/-- The kept local rows of a chunk are read (R428): the answer tells whether all are at hand. -/
def State.gatherLoad (s : State) (d : Desc) (t : Table) (want : RowRead → Bool) : State × Bool :=
  let (s, rows) := d.rows.foldl (fun (a : State × List RowRead) r =>
    if want r then let (s, r) := a.1.cheaper d t r; (s, a.2 ++ [r]) else (a.1, a.2 ++ [r])) (s, [])
  let s := s.setDesc d.id fun d => { d with rows := rows }
  let load (r : RowRead) : Bool := want r && !r.remote && !r.got && (r.st == .primary || r.st == .shadow)
  let cached (r : RowRead) : Bool := r.st == .primary && !d.snapshot && s.rowCached t (entryClass r.entry) (entrySlot r.entry)
  let wait := (rows.filter fun r => load r && !cached r).map fun r => let (o, n) := t.sourceOf r; s.ownPiece o n
  let granules := (uniq (wait.map fun p => gpaOffset p.1 / granuleSize))
  let s := s.sample 1 t.id granules.length (granules.filter s.notAtHand).length
  let (s, ok) := s.readyRead d.id wait
  match s.desc d.id with
  | none => (s, false)
  | some d =>
    if !ok ∨ d.fail.isSome then (s, false)
    else
      let read (r : RowRead) : RowRead := if load r then
          let (o, n) := t.sourceOf r
          { r with got := true, data := s.bytesBound d.binding o n, bad := s.slotPoison d o n }
        else r
      let s := (rows.filter load).foldl (fun s r =>
        if r.st = .shadow ∨ d.snapshot then s.touchRead ((t.sourceOf r).1 / granuleSize)
        else s.rowWasRead t r.row (entryClass r.entry) (entrySlot r.entry)) s
      (s.setDesc d.id fun d => { d with rows := rows.map read }, true)

/-- A kept row's values and the element intervals that are poison. -/
def Table.kept (t : Table) (r : RowRead) : Option (List Num × List (Nat × Nat)) :=
  let f? := if r.st = .shadow then t.shFmt else if r.st = .primary then t.fmt (entryClass r.entry) else none
  f?.map fun f => (rowValues t.dim f r.data, badElems t.dim f r.bad)

/-- The largest of some values: −0 below +0, NaN if any of them is NaN (R433). -/
def largest (xs : List Num) : Num :=
  let zeroNeg (x : Num) : Bool := match x with
    | .fin n k _ => n && k == 0
    | _ => false
  match xs with
  | [] => .fin false 0 1
  | x :: t => t.foldl (fun a b => match a, b with
    | .nan, _ => .nan
    | _, .nan => .nan
    | a, b => if a.lt b || (a.isZero && b.isZero && zeroNeg a) then b else a) x

/-- The values of an output before rounding, and its poisoned element intervals (R433, R435). -/
def Desc.gather (d : Desc) (t : Table) (o : Nat) : List Num × List (Nat × Nat) :=
  let (a, b) := d.bagOf o
  let rows := (d.rows.filter fun r => decide (a ≤ r.pos ∧ r.pos < b)).filterMap fun (r : RowRead) =>
    (t.kept r).map fun k => (decodeElem .fp32 r.weight, k.1, k.2)
  let dims := List.range t.dim
  let column (j : Nat) : List Num := rows.map fun x => x.2.1.getD j .nan
  let one : Num := .fin false 1 1
  let op (xs : List Num) : Operand := ⟨xs, [], false⟩
  let n := rows.length
  let poison := if d.gPooled then (if rows.any fun x => !x.2.2.isEmpty then [(0, t.dim)] else []) else (rows.map fun x => x.2.2).flatten
  let vals := match d.gPool with
    | 0 => match rows with
      | x :: _ => x.2.1
      | [] => dims.map fun _ => .fin false 0 1
    | 1 => dims.map fun j => dot (op (List.replicate n one)) (op (column j)) n
    | 2 => dims.map fun j => dot (op (rows.map (·.1))) (op (column j)) n
    | 3 => dims.map fun j => if n = 0 then .fin false 0 1 else fp32 ((dot (op (List.replicate n one)) (op (column j)) n).div (.fin false n 1))
    | _ => dims.map fun j => largest (column j)
  (vals, poison)

/-- The presence code of a position (R434). -/
def RowRead.presence (r : RowRead) : Nat :=
  match r.st with
  | .primary => 1
  | .shadow => 2
  | .missing => 3
  | _ => 0

/-- Write the presence bits of the positions of a chunk; the other bits of their bytes stay (R434). -/
def State.writePresence (s : State) (d : Desc) (rows : List RowRead) : State :=
  (uniq (rows.map fun r => r.pos / 4)).foldl (fun s b =>
    let old := s.rangeNat d 5 b 1
    let new := (rows.filter fun r => r.pos / 4 = b).foldl (fun v r =>
      let i := 2 * (r.pos % 4)
      v - bits v (i + 1) i * 2 ^ i + r.presence * 2 ^ i) old
    s.writeRange d.id 5 b (leBytes 1 new) fun g => s.poisonAt d g) s

/-- Output `o` is computed and written (R433, R435). -/
def State.writeOutput (s : State) (d : Desc) (t : Table) (f : Format) (o : Nat) : State :=
  let (vals, poison) := d.gather t o
  let rm := (rmodeOf (d.f 20 1)).getD rmodeDefault
  let (bs, ss, _) := encodeVec f vals rm fun j => srBits (d.f 120 8) (d.f 116 4) (o * t.dim + j)
  let iv := if f.mx then poison.map fun (x, n) => (x / 32 * 32, roundUp (x + n) 32 - x / 32 * 32) else poison
  let first := o * t.dim
  let secs := ((iv.map fun (x, n) =>
    let a := elemBytes f.elem (first + x)
    ((d.pieces 3 a (elemBytes f.elem (first + x + n) - a)).map fun q => (sectorsOf q.1 q.2).map (· * 64)).flatten).flatten)
  let scales := ((iv.map fun (x, n) =>
    ((d.pieces 4 ((first + x) / 32) (ceilDiv n 32)).map fun q => (sectorsOf q.1 q.2).map (· * 64)).flatten).flatten)
  let s := s.writeRange d.id 3 (elemBytes f.elem first) bs secs.contains
  if f.mx then s.writeRange d.id 4 (first / 32) ss scales.contains else s

/-- Positions with a status. -/
def Desc.tally (d : Desc) (st : RowState) : Nat := (d.rows.filter fun r => r.st = st).length

/-- The end of a GATHER_ROWS (R436). -/
def State.gatherEnd (s : State) (d : Desc) : State :=
  let r0 := d.tally .primary + 2 ^ 32 * sat 2 (d.tally .invalid) + 2 ^ 48 * sat 2 (d.tally .overBudget)
  let r1 := sat 2 (d.tally .shadow) + 2 ^ 16 * sat 2 (d.tally .missing)
  if d.tally .missing ≠ 0 then s.finish d.id Status.okPartial 0x01 0 r0 r1
  else if d.tally .shadow ≠ 0 then s.finish d.id Status.okDegraded 0x01 0 r0 r1
  else s.ok d.id r0 r1

/-- The next chunk of up to 256 outputs (R435). -/
def State.gatherChunk (s : State) (d : Desc) (t : Table) (f : Format) : State :=
  let o := d.f 112 4 + d.progress
  let n := min 256 (d.gOutputs - o)
  let bags := (span o n).map d.bagOf
  let want (r : RowRead) : Bool := bags.any fun b => decide (b.1 ≤ r.pos ∧ r.pos < b.2)
  let (s, ok) := s.gatherLoad d t want
  match s.desc d.id with
  | none => s
  | some d =>
    let outs := (d.pieces 3 (elemBytes f.elem (o * t.dim)) (elemBytes f.elem (n * t.dim))) ++ (if f.mx then d.pieces 4 (o * t.dim / 32) (n * t.dim / 32) else [])
    let mine := d.rows.filter want
    let seen := (uniq (mine.map fun r => r.pos / 4)).map fun b => d.pieces 5 b 1
    let (s, okW) := s.readyWrite (outs ++ seen.flatten)
    let (s, okP) := if d.gPresence then s.readyRead d.id (seen.flatten.filter fun p => !s.isHere p.1) else (s, true)
    match s.desc d.id with
    | none => s
    | some d =>
      if !(ok && okW && okP) ∨ d.fail.isSome then s
      else
        let s := (span o n).foldl (fun s k => s.writeOutput d t f k) s
        let s := if d.gPresence then s.writePresence d mine else s
        s.setDesc d.id fun d => { d with progress := d.progress + n, remote := [] }

/-- The stop of a gather: the stop offset in outputs (R436). -/
def State.gatherStop (s : State) (d : Desc) (st ca : Nat) : State := s.finish d.id st 0 ca (d.f 112 4 + d.progress) 0

/-- `GATHER_ROWS` (R431–R436): one stage, or one chunk once the writes of the last are performed. -/
def execGatherRows (d : Nat) (s : State) : Host.Outcome State Fault Refusal :=
  .next (s.work d 0x30 s.gatherStop fun d =>
    match s.workTable d, d.gFmt with
    | some t, some f =>
      if !d.awaiting.isEmpty then s
      else if d.auxAt 0 = stageIndex then s.gatherBegin d t
      else if d.auxAt 0 = stageClassify then s.gatherClassify d t
      else
        let s := if d.f 112 4 + d.progress < d.gOutputs then s.gatherChunk d t f else s
        match s.desc d.id with
        | some d => if d.f 112 4 + d.progress ≥ d.gOutputs ∧ d.awaiting.isEmpty ∧ d.fail.isNone ∧ d.done.isNone then s.gatherEnd d else s
        | none => s
    | _, _ => s.gatherStop d Status.abortedBySoftware Cause.badTable)

/-! ### Slots and commits (R256, R257, R420, R438) -/

/-- The lowest-numbered free slot of a class (R420), of which the bitmap in memory tells. -/
def State.freeSlot (s : State) (t : Table) (c : Nat) : Option Nat :=
  let off := t.bitmapOff c
  let free (k : Nat) : Bool := !bit (Mem.get s.store.mem (off + k / 8)).toNat (k % 8)
  firstFrom (fun k => decide (k ≥ t.slotsOf c) || free k) (8 * s.store.mem.length + 1) 0 |>.bind fun k => if k < t.slotsOf c then some k else none

/-- Write this shore's own bytes for a descriptor: what the parity deltas need is awaited (R660). -/
def State.writeOwn (s : State) (id off : Nat) (bs : List Byte) (bad : List Nat) : State :=
  let s := s.applyWrite off bs
  let s := if bad.isEmpty then s else s.poisonSectors (bad.map fun i => off / 64 + i)
  let (s, tags) := s.flushDeltas
  if tags.isEmpty then s else s.setDesc id fun d => { d with awaiting := d.awaiting ++ tags }

/-- A new slot is taken and written with its shadow, and the map entry is switched to it in one atomic write (R256, R438). -/
def State.commitRow (s : State) (id : Nat) (t : Table) (x c k : Nat) (row : List Byte) (rowBad : List Nat) (shadow : Option (List Byte × List Nat)) :
    State :=
  let s := s.setSlotBit t c k true
  let s := s.writeOwn id (t.slotOff c k) row rowBad
  let s := match shadow with
    | some (b, bad) => s.writeOwn id (t.shadowOff c k) b bad
    | none => s
  s.writeOwn id (t.entryOff (t.localRow x)) (leBytes 8 (mapEntry c k shadow.isSome)) []

/-- The slot that a commit has left unused stays taken until every descriptor admitted before the commit has completed (R257). -/
def State.holdSlot (s : State) (t : Table) (e : Nat) : State :=
  if !t.validEntry e then s
  else s.setTable t.id fun t => { t with held := t.held ++ [(entryClass e, entrySlot e, s.queues.descs.map (·.id))] }

/-- The pieces of this shore that a commit reads first: the free bitmap up to its lowest free slot. -/
def State.bitmapPiece (s : State) (t : Table) (c : Nat) : Nat × Nat :=
  s.ownPiece (t.bitmapOff c) (((s.freeSlot t c).getD (t.slotsOf c - 1)) / 8 + 1)

/-! ### SCATTER_ADD_ROWS (R437–R440) -/

/-- The formats of contributions (Table 10-6). -/
def scatterFmt (code : Nat) : Option Format := if code ≤ 4 then formatOf code else none

def Desc.sWidth (d : Desc) : Nat := if bit (d.f 20 1) 0 then 8 else 4

/-- SCATTER_ADD_ROWS (opcode 0x31, Table 10-6). -/
def opScatterAddRows : DescOp where
  sizes := [1]
  selectorBad := fun b => fld b 19 1 % 4 == 3
  ranges := fun s b => match s.table (fld b 16 2), scatterFmt (fld b 18 1) with
    | some t, some f =>
      let n := fld b 32 4
      if n = 0 ∨ n > 65536 then []
      else [⟨fld b 24 8, n * (if bit (fld b 20 1) 0 then 8 else 4), true, false, false⟩,
            ⟨fld b 40 8, elemBytes f.elem (n * t.dim), true, false, false⟩]
    | _, _ => []
  check := fun s d =>
    let t? := s.tableOf d
    firstFail [badFormat (d.rmodeReserved 19 64 12 || decide (d.f 20 1 > 1) || d.nonzero 21 3 || d.nonzero 76 52) Cause.reserved,
      badFormat t?.isNone Cause.badTable, badFormat (scatterFmt (d.f 18 1)).isNone Cause.format,
      badFormat (decide (d.f 32 4 = 0 ∨ d.f 32 4 > 65536 ∨ sumNat (d.budgets 48) > d.f 32 4)) Cause.length,
      badFormat (decide (d.f 24 8 % d.sWidth ≠ 0)) Cause.alignment, badFormat (!(decodeElem .fp32 (d.f 36 4)).isFinite) Cause.scale,
      badFormat d.tooMany Cause.extentLimit,
      badRights (s.lacks d 0 .read || s.lacks d 1 .read || t?.any fun t => !s.regionRight t d.guest .read || !s.regionRight t d.guest .write)
        Cause.noGrant]
  price := fun s d => match s.tableOf d, scatterFmt (d.f 18 1) with
    | some t, some f =>
      let n := d.f 32 4
      let rows := sumNat ((d.budgets 48).zipIdx.map fun (x, c) => x * (t.slotSize c + t.shadowSlot c))
      let deep := ceilDiv (s.missRatio64 1 t.id * sumNat (d.budgets 48)) 64
      s.priced d 16000 (s.evenly (2 * rows + elemBytes f.elem (n * t.dim) + n * d.sWidth) ++
        [(resArray, ceilDiv (100 * n * t.dim) 102400), (resDeep, deep)])
    | _, _ => s.priced d 16000 []

/-- The distinct rows in the order of their first occurrence; an index that names no row held here is dropped (R437). -/
def State.scatterBegin (s : State) (d : Desc) (t : Table) : State :=
  let n := d.f 32 4
  let ps := d.pieces 0 0 (n * d.sWidth)
  let (s, ok) := s.readyRead d.id ps
  match s.desc d.id with
  | none => s
  | some d =>
    if !ok ∨ d.fail.isSome then s
    else match s.firstPoison d ps with
    | some g => s.poisonFault d g
    | none =>
      let s := s.touchPieces ps
      let idx := (List.range n).map fun i => s.rangeNat d 0 (i * d.sWidth) d.sWidth
      let good (x : Nat) : Bool := decide (x < t.rows) && t.isLocal x
      let rows := (uniq (idx.filter good)).map fun x =>
        RowRead.mk ((idx.findIdx? (· == x)).getD 0) x 0 none false .pending 0 false [] []
      let bad := (idx.filter fun x => !good x).length
      s.setDesc d.id fun d => (({ d with rows := rows, scratch := idx, remote := [] }).setAux 0 stageRows).setAux 2 bad

/-- What a distinct row's step needs to be at hand: its map entry, its slot, a free slot's bitmap and its contributions. -/
def Desc.occurrences (d : Desc) (x : Nat) : List Nat := (d.scratch.zipIdx.filter fun p => p.1 == x).map (·.2)

/-- The new values of a row (R437), with the number of elements that overflow: row bytes, shadow bytes, poison of each. -/
def scatterRow (d : Desc) (t : Table) (x c : Nat) (cf rf : Format) (old : List Byte) (oldBad : List Nat)
    (contribs : List (List Byte × List (Nat × Nat))) (hasShadow : Bool) :
    List Byte × List Nat × Option (List Byte × List Nat) × Nat :=
  let dims := List.range t.dim
  let accs := contribs.foldl (fun (accs : List Accum) (b : List Byte × List (Nat × Nat)) =>
    accs.zipWith (fun a v => a.add v) (decodeVec cf t.dim b.1 [])) (dims.map fun _ => Accum.zero)
  let scale := decodeElem .fp32 (d.f 36 4)
  let olds := rowValues t.dim rf old
  let news := olds.zipWith (fun o (a : Accum) => o.add (a.value scale)) accs
  let rm := (rmodeOf (d.f 19 1)).getD rmodeDefault
  let (bs, ss, beyond) := encodeVec rf news rm fun j => srBits (d.f 64 8) (d.f 72 4) (x * t.dim + j)
  let row := bs ++ if rf.mx then ss else []
  let iv := badElems t.dim rf oldBad ++ (contribs.map (·.2)).flatten
  let whole (f : Format) (iv : List (Nat × Nat)) : List (Nat × Nat) :=
    if f.mx then iv.map fun (p, n) => (p / 32 * 32, roundUp (p + n) 32 - p / 32 * 32) else iv
  let iv := whole rf iv
  let shadow := match hasShadow, t.shFmt with
    | true, some sf =>
      let (b2, s2, _) := encodeVec sf (rowValues t.dim rf row) rmodeDefault fun _ => 0
      some (b2 ++ (if sf.mx then s2 else []), rowSectors t.dim sf (whole sf iv))
    | _, _ => none
  let _ := c
  (row, rowSectors t.dim rf iv, shadow, beyond)

/-- One distinct row (R437–R439): dropped as invalid or over budget, skipped for lack of a slot, or committed. -/
def State.scatterOne (s : State) (d : Desc) (t : Table) (cf : Format) (r : RowRead) : State :=
  let occ := d.occurrences r.row
  let eo := t.entryOff (t.localRow r.row)
  let (s, ok) := s.readyRead d.id [s.ownPiece eo 8]
  let e := s.word eo 8
  let next (d : Desc) : Desc := { d with progress := d.progress + 1, remote := [] }
  if !ok then s
  else match s.firstPoison d [s.ownPiece eo 8] with
  | some g => s.poisonFault d g
  | none =>
    let c := entryClass e
    if !t.validEntry e then s.setDesc d.id fun d => (next d).setAux 2 (d.auxAt 2 + occ.length)
    else if d.auxAt (6 + c) ≥ (d.budgets 48).getD c 0 then s.setDesc d.id fun d => (next d).setAux 3 (d.auxAt 3 + 1)
    else
      let k := entrySlot e
      let so := t.slotOff c k
      let n := t.slotSize c
      let w := elemBytes cf.elem t.dim
      let src := (occ.map fun i => d.pieces 1 (i * w) w).flatten
      let (s, ok) := s.readyRead d.id (src ++ [s.ownPiece so n, s.bitmapPiece t c])
      match s.desc d.id, t.fmt c with
      | some d, some rf =>
        if !ok ∨ d.fail.isSome then s
        else
          let taken (d : Desc) : Desc := (next d).setAux (6 + c) (d.auxAt (6 + c) + 1)
          match s.freeSlot t c with
          | none => s.setDesc d.id fun d => (taken d).setAux 4 (d.auxAt 4 + 1)
          | some nk =>
            let s := s.touchPieces (src ++ [s.ownPiece so n])
            let contribs := occ.map fun i => (s.rangeBytes d 1 (i * w) w,
              ((s.sidePoison d (.range 1) (i * w) w).map fun p =>
                let a := (max p.1 (i * w) - i * w) * 8 / cf.elem.width
                (a, min t.dim (ceilDiv ((p.1 + p.2 - i * w) * 8) cf.elem.width) - a)))
            let (row, bad, shadow, beyond) := scatterRow d t r.row c cf rf (s.bytesAt so n) (s.slotPoison d so n) contribs (t.hasShadow c && bit e 62)
            let s := ((s.commitRow d.id t r.row c nk row bad shadow).holdSlot t e)
            s.setDesc d.id fun d => ((taken d).setAux 1 (d.auxAt 1 + 1)).setAux 5 (d.auxAt 5 + beyond)
      | _, _ => s

/-- REASON NO_SLOT (R445). -/
abbrev reasonNoSlot : Nat := 0x07

/-- The end of a SCATTER_ADD_ROWS, or its stop (R440). -/
def State.scatterEnd (s : State) (d : Desc) (st reason ca : Nat) : State :=
  s.finish d.id st reason ca (d.auxAt 1 + 2 ^ 32 * sat 2 (d.auxAt 2) + 2 ^ 48 * sat 2 (d.auxAt 3)) (sat 2 (d.auxAt 4) + 2 ^ 16 * sat 2 (d.auxAt 5))

def State.scatterStop (s : State) (d : Desc) (st ca : Nat) : State := s.scatterEnd d st 0 ca

/-- `SCATTER_ADD_ROWS` (R437–R440): the index list, or one distinct row. -/
def execScatterAddRows (d : Nat) (s : State) : Host.Outcome State Fault Refusal :=
  .next (s.work d 0x31 s.scatterStop fun d =>
    match s.workTable d, scatterFmt (d.f 18 1) with
    | some t, some cf =>
      if !d.awaiting.isEmpty then s
      else if d.auxAt 0 = stageIndex then s.scatterBegin d t
      else
        let s := match d.rows[d.progress]? with
          | some r => s.scatterOne d t cf r
          | none => s
        match s.desc d.id with
        | some d =>
          if d.progress ≥ d.rows.length ∧ d.awaiting.isEmpty ∧ d.fail.isNone ∧ d.done.isNone then
            (if d.auxAt 4 ≠ 0 then s.scatterEnd d Status.okPartial reasonNoSlot 0 else s.scatterEnd d Status.ok 0 0)
          else s
        | none => s
    | _, _ => s.scatterStop d Status.abortedBySoftware Cause.badTable)

/-! ### REPLACE_ROWS (R441, R442) -/

/-- REPLACE_ROWS (opcode 0x32, Table 10-7). -/
def opReplaceRows : DescOp where
  sizes := [0]
  ranges := fun _ b =>
    if fld b 32 4 = 0 ∨ fld b 32 4 > 65536 then [] else [⟨fld b 24 8, 8 * fld b 32 4, true, false, false⟩, ⟨fld b 40 8, fld b 48 8, true, false, false⟩]
  check := fun s d =>
    let t? := s.tableOf d
    firstFail [badFormat (d.nonzero 18 6 || d.nonzero 36 4 || d.nonzero 56 8) Cause.reserved, badFormat t?.isNone Cause.badTable,
      badFormat (decide (d.f 32 4 = 0 ∨ d.f 32 4 > 65536 ∨ d.f 48 8 % 64 ≠ 0)) Cause.length,
      badFormat (decide (d.f 24 8 % 8 ≠ 0 ∨ d.f 40 8 % 64 ≠ 0)) Cause.alignment, badFormat d.tooMany Cause.extentLimit,
      badRights (s.lacks d 0 .read || s.lacks d 1 .read || t?.any fun t => !s.regionRight t d.guest .write) Cause.noGrant]
  price := fun s d =>
    let n := d.f 32 4
    let rb := d.f 48 8
    s.priced d 16000 (s.evenly (2 * rb + 8 * n) ++ [(resPorter, ceilDiv rb 1000)])

/-- One record (R441). -/
def State.replaceOne (s : State) (d : Desc) (t : Table) : State :=
  let hp := d.pieces 0 (8 * d.progress) 8
  let (s, ok) := s.readyRead d.id hp
  let h := s.rangeNat d 0 (8 * d.progress) 8
  let next (d : Desc) : Desc := { d with progress := d.progress + 1, remote := [] }
  if !ok then s
  else match s.firstPoison d hp with
  | some g => s.poisonFault d g
  | none =>
    let x := bits h 39 0
    let c := bits h 41 40
    let shadow := bit h 49
    let del := bit h 48
    let used := d.auxAt 5
    let n := t.slotSize c + if shadow then t.shadowSlot c else 0
    let bad := bits h 63 50 ≠ 0 ∨ bits h 47 42 ≠ 0 ∨ x ≥ t.rows ∨ !t.isLocal x ∨ (t.fmt c).isNone ∨ (shadow ∧ (del ∨ !t.hasShadow c)) ∨
      (!del ∧ used + n > d.f 48 8)
    if bad then s.setDesc d.id fun d => (next d).setAux 2 (d.auxAt 2 + 1)
    else
      let eo := t.entryOff (t.localRow x)
      let (s, ok) := s.readyRead d.id ((if del then [] else d.pieces 1 used n ++ [s.bitmapPiece t c]) ++ [s.ownPiece eo 8])
      match s.desc d.id with
      | none => s
      | some d =>
        if !ok ∨ d.fail.isSome then s
        else
          let e := s.word eo 8
          if del then
            ((s.writeOwn d.id eo (leBytes 8 0) []).holdSlot t e).setDesc d.id fun d => (next d).setAux 1 (d.auxAt 1 + 1)
          else match s.freeSlot t c with
          | none => s.setDesc d.id fun d => ((next d).setAux 4 (d.auxAt 4 + 1)).setAux 5 (used + n)
          | some k =>
            let sb := t.slotSize c
            let secs (a m : Nat) : List Nat := (s.sidePoison d (.range 1) a m).map fun p => (max p.1 a - a) / 64
            let sh := if shadow then some (s.rangeBytes d 1 (used + sb) (n - sb), secs (used + sb) (n - sb)) else none
            let row := s.rangeBytes d 1 used sb
            let bad := secs used sb
            let s := ((s.touchPieces (d.pieces 1 used n)).commitRow d.id t x c k row bad sh).holdSlot t e
            s.setDesc d.id fun d => ((next d).setAux 1 (d.auxAt 1 + 1)).setAux 5 (used + n)

/-- The end of a REPLACE_ROWS, or its stop (R442). -/
def State.replaceEnd (s : State) (d : Desc) (st reason ca : Nat) : State :=
  s.finish d.id st reason ca (d.auxAt 1 + 2 ^ 32 * sat 2 (d.auxAt 2) + 2 ^ 48 * sat 2 (d.auxAt 4)) 0

def State.replaceStop (s : State) (d : Desc) (st ca : Nat) : State := s.replaceEnd d st 0 ca

/-- `REPLACE_ROWS` (R441, R442): one record, or the end. -/
def execReplaceRows (d : Nat) (s : State) : Host.Outcome State Fault Refusal :=
  .next (s.work d 0x32 s.replaceStop fun d =>
    match s.workTable d with
    | some t =>
      if !d.awaiting.isEmpty then s
      else
        let s := if d.progress < d.f 32 4 then s.replaceOne d t else s
        match s.desc d.id with
        | some d =>
          if d.progress ≥ d.f 32 4 ∧ d.awaiting.isEmpty ∧ d.fail.isNone ∧ d.done.isNone then
            (if d.auxAt 4 ≠ 0 then s.replaceEnd d Status.okPartial reasonNoSlot 0 else s.replaceEnd d Status.ok 0 0)
          else s
        | none => s
    | none => s.replaceStop d Status.abortedBySoftware Cause.badTable)

/-- `ROW_DATA` (R428): a row read of a gather is answered. -/
def execRowData (m : SxfMsg) (s : State) : Host.Outcome State Fault Refusal := Machine.State.response s m Sxf.rowData

end Sys2Proof.Machine
end

