-- ==== Sys2Proof/Machine/Kv.lean ====
section
/-! DEFINITION. KV sets: their commands, and the descriptors KV_APPEND, KV_FORK and KV_GATHER (spec 12: R488–R513). -/

namespace Sys2Proof.Machine

/-! ### Set commands (R495–R497) -/

/-- The set that a KVSET_CREATE body describes (Table 12-4). -/
def kvOf (c : RelasCmd) : KvSet :=
  { id := c.f 16 2, guest := c.guest, fmt := c.f 18 1, shadowed := bit (c.f 19 1) 0, shift := c.f 20 1, layers := c.f 22 2, heads := c.f 24 2
    headDim := c.f 26 2, maxSeqs := c.f 28 4, poolPages := c.f 32 4, tableBlocks := c.f 36 4, region := c.f 40 8, shadow := c.f 48 8
    heldPages := [], heldBlocks := [], dying := false }

/-- The fields of a KVSET_CREATE outside Table 12-4 or R489. -/
def kvFieldBad (c : RelasCmd) : Option Nat :=
  let k := kvOf c
  firstBad [(decide (k.id > 255), 16), (decide (k.fmt = 0 ∨ k.fmt > 4), 18), (decide (c.f 19 1 > 1) || (k.shadowed && decide (k.fmt > 2)), 19),
    (decide (k.shift < 4 ∨ k.shift > 8), 20), (nonzero c 21 1, 21), (decide (k.layers = 0 ∨ k.layers > 256), 22),
    (decide (k.heads = 0 ∨ k.heads > 64), 24), (decide (k.headDim % 32 ≠ 0 ∨ k.headDim < 32 ∨ k.headDim > 256) || decide (k.p * k.tb > 16777216), 26),
    (decide (k.maxSeqs = 0 ∨ k.maxSeqs > 1048576), 28), (decide (k.poolPages = 0 ∨ k.poolPages > 0xFFFFFFFE), 32),
    (decide (k.tableBlocks < 2 ∨ k.tableBlocks > 0xFFFFFFFE), 36), (decide (k.region % granuleSize ≠ 0), 40),
    (if k.shadowed then decide (k.shadow % granuleSize ≠ 0) else decide (k.shadow ≠ 0), 48), (nonzero c 56 8, 56)]

/-- A region of a set fails the checks of R421. -/
def State.kvRegionFails (s : State) (k : KvSet) (off need : Nat) : Bool :=
  let others := (s.kv.any fun (x : KvSet) => overlaps off need x.region x.need || overlaps off need x.shadow x.shadowNeed) ||
    s.tables.list.any fun (t : Table) => overlaps off need t.region (max 1 t.regionSize) || overlaps off need t.shadow t.shadowSize
  others || match s.coveAt off with
    | none => true
    | some c => c.kind != .data || !(c.grant k.guest).r || !(c.grant k.guest).w || !inside off need c.base c.size ||
        c.coherence == .sharedHdmDb || c.pullable

/-- KVSET_CREATE (0x0701, R495). -/
def opKvsetCreate : RelasOp where
  len := lenIs 64
  fields := fun c _ => kvFieldBad c
  limits := fun c s =>
    if s.kv.length ≥ 256 then some 256
    else if sumNat (s.kv.map fun (k : KvSet) => k.maxSeqs) + c.f 28 4 > 1048576 then some 1048576 else none
  conflict := fun c s =>
    let k := kvOf c
    firstBad [((s.kvSet k.id).isSome, 16), (s.kvRegionFails k k.region k.need, 40),
      (k.shadowed && (s.kvRegionFails k k.shadow k.shadowNeed || overlaps k.shadow k.shadowNeed k.region k.need ||
        (granulesOf k.shadow k.shadowNeed).any fun g => s.clsAt (g * granuleSize) != .pin), 48)]
  effect := fun c _ s =>
    let k := kvOf c
    ({ s with kv := s.kv ++ [k] }, { Reply.done with body := leBytes 8 k.need ++ leBytes 8 k.shadowNeed })
  objects := fun c => [(.kvset (c.f 16 2), 16)]

/-- Only the guest of a set, or the system guest, may name it (R132). -/
def ownsKv (c : RelasCmd) (s : State) : Bool :=
  match s.kvSet (c.f 16 2) with
  | some k => decide (k.guest = c.guest)
  | none => true

/-- Descriptors in flight of a set: the PROGRESS of its destruction (R496). -/
def State.kvUsers (s : State) (id : Nat) : Nat :=
  (s.queues.descs.filter fun d => [0x50, 0x51, 0x52].contains d.opcode ∧ d.f 16 2 = id).length

/-- KVSET_DESTROY (0x0702, R496). -/
def opKvsetDestroy : RelasOp where
  len := lenIs 24
  owns := ownsKv
  fields := fun c _ => firstBad [(decide (c.f 16 2 > 255), 16), (nonzero c 18 6, 18)]
  conflict := fun c s => match s.kvSet (c.f 16 2) with
    | some k => if k.dying then some 16 else none
    | none => some 16
  effect := fun c _ s => (s.setKv (c.f 16 2) fun k => { k with dying := true }, Reply.pending (.kvDestroy (c.f 16 2)))
  objects := fun c => [(.kvset (c.f 16 2), 16)]

/-! ### Pages, blocks and tables (R492–R494) -/

/-- REFCOUNT and FILL of a page (Table 12-3). -/
def State.pageRef (s : State) (k : KvSet) (pg : Nat) : Nat := s.word (k.infoOff pg) 2
def State.pageFill (s : State) (k : KvSet) (pg : Nat) : Nat := s.word (k.infoOff pg + 2) 2 % 512

/-- The lowest-numbered free page (R493). -/
def State.freePage (s : State) (k : KvSet) : Option Nat :=
  let free (p : Nat) : Bool := s.pageRef k p == 0 && !k.heldPages.any fun x => x.1 = p
  match firstFrom (fun p => decide (p ≥ k.poolPages) || free p) (s.store.mem.length + k.heldPages.length + 2) 0 with
  | some p => if p < k.poolPages then some p else none
  | none => none

/-- The lowest-numbered free table block. -/
def State.freeBlock (s : State) (k : KvSet) : Option Nat :=
  let free (b : Nat) : Bool := !bit (Mem.get s.store.mem (k.partOff 2 + b / 8)).toNat (b % 8)
  match firstFrom (fun b => decide (b ≥ k.tableBlocks) || free b) (8 * s.store.mem.length + 2) 0 with
  | some b => if b < k.tableBlocks then some b else none
  | none => none

/-- Pages and blocks that are free (R497); a held one is not. -/
def State.kvFree (s : State) (k : KvSet) : Nat × Nat :=
  let used := (uniq ((s.store.mem.filter fun x => decide (k.partOff 1 ≤ x.1 ∧ x.1 < k.partOff 1 + 4 * k.poolPages)).map fun x => (x.1 - k.partOff 1) / 4)).filter
    fun p => s.pageRef k p != 0
  let bits := sumNat ((s.store.mem.filter fun x => decide (k.partOff 2 ≤ x.1 ∧ x.1 < k.partOff 2 + ceilDiv k.tableBlocks 8)).map fun x => onesOf x.2)
  (k.poolPages - used.length - k.heldPages.length, k.tableBlocks - bits)

/-- The Table 12-4 layout of a KV set, bytes 16–63 (R497). -/
def KvSet.layout (k : KvSet) : List Byte :=
  leBytes 2 k.id ++ leBytes 1 k.fmt ++ leBytes 1 (b2n k.shadowed) ++ leBytes 1 k.shift ++ zeros 1 ++ leBytes 2 k.layers ++
    leBytes 2 k.heads ++ leBytes 2 k.headDim ++ leBytes 4 k.maxSeqs ++ leBytes 4 k.poolPages ++ leBytes 4 k.tableBlocks ++ leBytes 8 k.region ++
    leBytes 8 k.shadow ++ zeros 8

/-- Sequences of a KV set whose LENGTH is not 0 (R497). -/
def State.kvSeqs (s : State) (k : KvSet) : Nat :=
  ((uniq ((s.store.mem.filter fun x => decide (k.seqOff 0 ≤ x.1 ∧ x.1 < k.seqOff k.maxSeqs)).map fun x => (x.1 - k.seqOff 0) / 16)).filter
    fun q => s.word (k.seqOff q) 4 % 2 ^ 25 != 0).length

/-- KVSET_QUERY (0x0703, R497). -/
def opKvsetQuery : RelasOp where
  len := lenIs 24
  owns := ownsKv
  fields := fun c _ => firstBad [(decide (c.f 16 2 > 255), 16), (nonzero c 18 6, 18)]
  conflict := fun c s => if (s.kvSet (c.f 16 2)).isSome then none else some 16
  effect := fun c _ s => match s.kvSet (c.f 16 2) with
    | none => (s, Reply.read [])
    | some k =>
      let (pages, blocks) := s.kvFree k
      (s, Reply.read (k.layout ++ leBytes 8 pages ++ leBytes 8 blocks ++ leBytes 8 (s.kvSeqs k)))

/-- LENGTH and DIR of a sequence under a binding (Table 12-2). -/
def State.seqEntry (s : State) (k : KvSet) (b : Option (Nat × Nat)) (q : Nat) : Nat × Nat :=
  let e := leNat (s.bytesBound b (k.seqOff q) 8)
  (bits e 24 0, bits e 63 32)

/-- No entry of a directory or a leaf. -/
abbrev noEntry : Nat := 0xFFFFFFFF

/-- The leaf block of a sequence page, and its pool page, under a binding (R492). -/
def State.leafOf (s : State) (k : KvSet) (b : Option (Nat × Nat)) (dir page : Nat) : Nat :=
  leNat (s.bytesBound b (k.blockOff dir + 4 * (page / 1024)) 4)
def State.pageOf (s : State) (k : KvSet) (b : Option (Nat × Nat)) (dir page : Nat) : Nat :=
  let l := s.leafOf k b dir page
  if l = noEntry then noEntry else leNat (s.bytesBound b (k.blockOff l + 4 * (page % 1024)) 4)

/-- Allocate a table block filled with empty entries. -/
def State.newBlock (s : State) (id : Nat) (k : KvSet) : Option (State × Nat) :=
  (s.freeBlock k).map fun b => (((s.setBlockBit k b true).writeOwn id (k.blockOff b) (List.replicate 4096 0xFF) []), b)

/-- Set a page's REFCOUNT and FILL. -/
def State.setInfo (s : State) (id : Nat) (k : KvSet) (pg ref fill : Nat) : State := s.writeOwn id (k.infoOff pg) (leBytes 4 (ref + fill * 2 ^ 16)) []

/-- One sequence fewer references a page; a page that none references is held by the descriptors in flight (R493). -/
def State.unrefPage (s : State) (id : Nat) (k : KvSet) (pg : Nat) : State :=
  let r := s.pageRef k pg
  let s := s.setInfo id k pg (r - 1) (s.pageFill k pg)
  if r ≤ 1 then s.setKv k.id fun k => { k with heldPages := k.heldPages ++ [(pg, s.queues.descs.map fun (d : Desc) => d.id)] } else s

/-- A table block that no table references any longer (R493). -/
def State.unuseBlock (s : State) (k : KvSet) (b : Nat) : State :=
  s.setKv k.id fun k => { k with heldBlocks := k.heldBlocks ++ [(b, s.queues.descs.map fun (d : Desc) => d.id)] }

/-- Commit a sequence entry (R498). -/
def State.commitSeq (s : State) (id : Nat) (k : KvSet) (q len dir : Nat) : State :=
  s.writeOwn id (k.seqOff q) (leBytes 16 (len + dir * 2 ^ 32)) []

/-- The set of a descriptor: of its guest, and not being destroyed (R488, R496). -/
def State.kvFor (s : State) (d : Desc) : Option KvSet :=
  match s.kvSet (d.f 16 2) with
  | some k => if k.guest = d.guest ∧ !k.dying then some k else none
  | none => none

/-- REASON KV_STATE (R513). -/
abbrev reasonKvState : Nat := 0x09

/-! ### KV_APPEND (R501–R503) -/

/-- KV_APPEND (opcode 0x50, Table 12-5). -/
def opKvAppend : DescOp where
  sizes := [0]
  ranges := fun s b => match s.kvSet (fld b 16 2) with
    | none => []
    | some k => if fld b 24 4 = 0 ∨ fld b 24 4 > 65536 then [] else [⟨fld b 32 8, fld b 24 4 * k.tb, true, false, false⟩]
  check := fun s d =>
    let k? := s.kvFor d
    firstFail [badFormat (d.nonzero 18 2 || d.nonzero 28 4 || d.nonzero 40 24) Cause.reserved, badFormat k?.isNone Cause.badKvset,
      badFormat (k?.any fun k => decide (d.f 20 4 ≥ k.maxSeqs)) Cause.seq, badFormat (decide (d.f 24 4 = 0 ∨ d.f 24 4 > 65536)) Cause.length,
      badFormat (k?.any fun k => decide (d.f 32 8 % k.eb ≠ 0)) Cause.alignment, badFormat d.tooMany Cause.extentLimit,
      badRights (s.lacks d 0 .read) Cause.noGrant]
  price := fun s d => match s.kvFor d with
    | none => s.priced d 8000 []
    | some k =>
      let t := d.f 24 4
      let rest := (s.seqEntry k none (d.f 20 4)).1 % k.p
      let pages := ceilDiv (rest + t) k.p
      let shadow (n : Nat) : Nat := if k.shadowed then n / k.eb else 0
      let copy := if rest > 0 then 2 * (k.p * k.tb + shadow (k.p * k.tb)) else 0
      s.priced d 8000 (s.evenly (t * k.tb + shadow (t * k.tb) + 8 * pages + copy) ++ [(resPorter, ceilDiv (t * k.tb) 1000)])

/-- The state of an append under way: pages allocated and copied; none where pages or blocks ran out. -/
structure Growth where
  s : State
  dir : Nat
  pages : Nat
  copied : Nat

/-- Make a leaf entry name a page, in a new leaf where there is none. -/
def Growth.setLeaf (g : Growth) (id : Nat) (k : KvSet) (page pg : Nat) : Option Growth :=
  let l := g.s.leafOf k none g.dir page
  if l ≠ noEntry then some { g with s := g.s.writeOwn id (k.blockOff l + 4 * (page % 1024)) (leBytes 4 pg) [] }
  else (g.s.newBlock id k).map fun (s, b) =>
    let s := s.writeOwn id (k.blockOff g.dir + 4 * (page / 1024)) (leBytes 4 b) []
    { g with s := s.writeOwn id (k.blockOff b + 4 * (page % 1024)) (leBytes 4 pg) [] }

/-- Sectors of an own range of `n` bytes at `off` that poisoned parts `(offset, length)` of its bytes reach, from its start. -/
def sectorsFrom (off : Nat) (iv : List (Nat × Nat)) : List Nat :=
  uniq ((iv.map fun (a, n) => (sectorsOf (off + a) n).map fun x => x - off / 64).flatten)

/-- The element format of a set. -/
def KvSet.elem (k : KvSet) : Elem := ((formatOf k.fmt).map (·.elem)).getD .fp16

/-- One run of HEAD_DIM elements of a token: to the page, and rounded to its shadow (R490, R491). `run` is its number within a token. -/
def State.writeRun (s : State) (id : Nat) (k : KvSet) (pg slot run : Nat) (bs : List Byte) (bad : List (Nat × Nat)) : State :=
  let n := k.headDim * k.eb
  let at' := (run * k.p + slot) * k.headDim
  let off := k.pageOff pg + at' * k.eb
  let s := s.writeOwn id off (fit n bs) (sectorsFrom off bad)
  if !k.shadowed then s
  else
    let vals := decodeVec ⟨k.elem, false⟩ k.headDim bs []
    let (sb, _, _) := encodeVec ⟨.e4m3, false⟩ vals ((rmodeOf 0).getD rmodeDefault) fun _ => 0
    let so := k.shadowOff pg + at'
    s.writeOwn id so sb (sectorsFrom so (bad.map fun (a, m) => (a / k.eb, ceilDiv (a + m) k.eb - a / k.eb)))

/-- Copy the first `n` tokens of a page and of its shadow into another (R494). -/
def State.copyTokens (s : State) (id : Nat) (k : KvSet) (src dst n : Nat) : State :=
  (List.range (k.layers * 2 * k.heads)).foldl (fun s run =>
    let one (s : State) (a b at' len : Nat) : State :=
      let bad := (sectorsOf (a + at') len).filter s.isPoison
      s.writeOwn id (b + at') (s.bytesAt (a + at') len) (sectorsFrom (b + at') (bad.map fun x => (max (64 * x) (a + at') - (a + at'), 1)))
    let s := one s (k.pageOff src) (k.pageOff dst) (run * k.p * k.headDim * k.eb) (n * k.headDim * k.eb)
    if k.shadowed then one s (k.shadowOff src) (k.shadowOff dst) (run * k.p * k.headDim) (n * k.headDim) else s) s

/-- The page that holds tokens from `L` on is made writable (R494): the partial page itself, a copy of it, or a new page. -/
def Growth.page (g : Growth) (id : Nat) (k : KvSet) (page have' : Nat) : Option (Growth × Nat) :=
  let old := if have' = 0 then noEntry else g.s.pageOf k none g.dir page
  if have' ≠ 0 ∧ g.s.pageRef k old = 1 ∧ g.s.pageFill k old = have' then some (g, old)
  else match g.s.freePage k with
  | none => none
  | some pg =>
    let s := g.s.setInfo id k pg 1 0
    let s := if have' = 0 then s else (s.copyTokens id k old pg have').unrefPage id k old
    let g := { g with s := s, pages := g.pages + 1, copied := g.copied + b2n (have' != 0) }
    (g.setLeaf id k page pg).map fun g => (g, pg)

/-- Write tokens `[i, …)` of the source into the pages from token position `pos` on, page by page (R502). -/
def Growth.tokens (id : Nat) (k : KvSet) (rec_ : Nat → List Byte × List (Nat × Nat)) : Nat → Nat → Nat → Nat → Growth → Option Growth
  | 0, _, _, _, g => some g
  | fuel + 1, pos, i, left, g =>
    if left = 0 then some g
    else
      let have' := pos % k.p
      let n := min left (k.p - have')
      (g.page id k (pos / k.p) have').bind fun (g, pg) =>
        let s := (List.range n).foldl (fun s j =>
          let (bs, bad) := rec_ (i + j)
          let w := k.headDim * k.eb
          (List.range (k.layers * 2 * k.heads)).foldl (fun s run =>
            let mine := (bad.filter fun x => overlaps x.1 x.2 (run * w) w).map fun x =>
              (max x.1 (run * w) - run * w, min (x.1 + x.2) (run * w + w) - max x.1 (run * w))
            s.writeRun id k pg (have' + j) run (slice bs (run * w) w) mine) s) g.s
        let s := s.setInfo id k pg (s.pageRef k pg) (have' + n)
        Growth.tokens id k rec_ fuel (pos + n) (i + n) (left - n) { g with s := s }

/-- The append as one step (R498, R502): the state after it, or none where pages or blocks do not suffice. -/
def State.appendTokens (s : State) (d : Desc) (k : KvSet) : Option Growth :=
  let (len, dir) := s.seqEntry k none (d.f 20 4)
  let t := d.f 24 4
  let start : Option (State × Nat) := if len = 0 then s.newBlock d.id k else some (s, dir)
  start.bind fun (s0, dir) =>
    let rec_ (i : Nat) : List Byte × List (Nat × Nat) := (s.rangeBytes d 0 (i * k.tb) k.tb,
      (s.sidePoison d (.range 0) (i * k.tb) k.tb).map fun p => (max p.1 (i * k.tb) - i * k.tb, min (p.1 + p.2) ((i + 1) * k.tb) - max p.1 (i * k.tb)))
    (Growth.tokens d.id k rec_ (t + 1) len 0 t ⟨s0, dir, 0, 0⟩).map fun g => { g with s := g.s.commitSeq d.id k (d.f 20 4) (len + t) g.dir }

/-- Pieces of a sequence's tables that a step reads: its entry, directory, and the leaves of some pages. -/
def State.tablePieces (s : State) (k : KvSet) (b : Option (Nat × Nat)) (q first n : Nat) : List (Nat × Nat) :=
  let (len, dir) := s.seqEntry k b q
  s.ownPiece (k.seqOff q) 16 :: if len = 0 then [] else
    s.ownPiece (k.blockOff dir) 4096 :: ((uniq ((span first n).map fun p => p / 1024)).filterMap fun i =>
      let l := s.leafOf k b dir (1024 * i)
      if l = noEntry then none else some (s.ownPiece (k.blockOff l) 4096))

/-- The end of an append without effect (R502, R503). -/
def State.kvNothing (s : State) (d : Desc) (cause r0 : Nat) : State := s.finish d.id Status.okPartial reasonKvState cause r0 0

/-- `KV_APPEND` (R498–R503): once its source and its tables are at hand, it takes effect whole or not at all. -/
def execKvAppend (d : Nat) (s : State) : Host.Outcome State Fault Refusal :=
  .next (s.work d 0x50 s.stop fun d =>
    match s.kvSet (d.f 16 2) with
    | none => s.stop d Status.abortedBySoftware Cause.badKvset
    | some k =>
      let q := d.f 20 4
      let t := d.f 24 4
      let len := (s.seqEntry k none q).1
      let src := d.pieces 0 0 (t * k.tb)
      if d.auxAt 0 ≠ 0 then (if d.awaiting.isEmpty then s.ok d.id (d.auxAt 1) (d.auxAt 2) else s)
      else
        let (s, ok) := s.readyRead d.id (src ++ s.tablePieces k none q (len / k.p) (ceilDiv (len % k.p + t) k.p))
        match s.desc d.id with
        | none => s
        | some d =>
          if !ok ∨ d.fail.isSome then s
          else if len + t > 16777216 then s.kvNothing d Cause.seqFull len
          else match (s.touchPieces src).appendTokens d k with
          | none => s.kvNothing d Cause.noPage len
          | some g =>
            let r1 := sat 2 g.pages + 2 ^ 16 * sat 2 g.copied
            let s := g.s.setDesc d.id fun d => ((d.setAux 0 1).setAux 1 (len + t)).setAux 2 r1
            match s.desc d.id with
            | some d => if d.awaiting.isEmpty then s.ok d.id (len + t) r1 else s
            | none => s)

/-! ### KV_FORK (R504–R506) -/

/-- KV_FORK (opcode 0x52, Table 12-6). -/
def opKvFork : DescOp where
  sizes := [0]
  selectorBad := fun b => decide (fld b 18 1 > 1)
  check := fun s d =>
    let k? := s.kvFor d
    let fork := decide (d.f 18 1 = 0)
    firstFail [badFormat (d.nonzero 19 1 || d.nonzero 32 32 || (!fork && d.nonzero 24 4)) Cause.reserved, badFormat k?.isNone Cause.badKvset,
      badFormat ((k?.any fun k => decide (d.f 20 4 ≥ k.maxSeqs) || (fork && decide (d.f 24 4 ≥ k.maxSeqs))) ||
        (fork && d.f 24 4 == d.f 20 4)) Cause.seq,
      badFormat ((fork && d.f 28 4 == 0) || decide (d.f 28 4 > 16777216)) Cause.length]
  price := fun s d => match s.kvFor d with
    | none => s.priced d 8000 []
    | some k =>
      let len := (s.seqEntry k none (d.f 20 4)).1
      let n := ceilDiv (d.f 28 4) k.p
      let bytes := if d.f 18 1 = 0 then 64 * n + 4096 * (1 + ceilDiv n 1024)
        else
          let gone := ceilDiv len k.p - n
          64 * gone + if gone ≠ 0 ∧ n % 1024 ≠ 0 then 4096 else 0
      s.priced d 8000 (s.evenly bytes)

/-- New leaves with the first `n` leaf entries of a sequence (R504). -/
def State.copyLeaves (id : Nat) (k : KvSet) (dir dst n : Nat) : Nat → State → Option State
  | 0, s => some s
  | fuel + 1, s =>
    let i := ceilDiv n 1024 - (fuel + 1)
    (s.newBlock id k).map (fun (s, b) =>
      let s := s.writeOwn id (k.blockOff dst + 4 * i) (leBytes 4 b) []
      let m := min 1024 (n - 1024 * i)
      s.writeOwn id (k.blockOff b) (s.bytesAt (k.blockOff (s.leafOf k none dir (1024 * i))) (4 * m)) []) |>.bind
        (State.copyLeaves id k dir dst n fuel)

/-- The fork as one step (R504): a cause where it has no effect. -/
def State.forkSeq (s : State) (d : Desc) (k : KvSet) : Except Nat State :=
  let (len, dir) := s.seqEntry k none (d.f 20 4)
  let tokens := d.f 28 4
  let n := ceilDiv tokens k.p
  let pages := (List.range n).map fun i => s.pageOf k none dir i
  if (s.seqEntry k none (d.f 24 4)).1 > 0 then .error Cause.dstNotEmpty
  else if len < tokens then .error Cause.shortSource
  else match (s.newBlock d.id k).bind fun (s, b) => (State.copyLeaves d.id k dir b n (ceilDiv n 1024) s).map fun s => (s, b) with
  | none => .error Cause.noPage
  | some (s', b) =>
    if pages.any fun p => s.pageRef k p ≥ 65535 then .error Cause.refsFull
    else
      let s' := pages.foldl (fun s p => s.setInfo d.id k p (s.pageRef k p + 1) (s.pageFill k p)) s'
      .ok (s'.commitSeq d.id k (d.f 24 4) tokens b)

/-- The truncation as one step (R505), with the pages whose REFCOUNT it changed. -/
def State.truncateSeq (s : State) (d : Desc) (k : KvSet) : State × Nat :=
  let q := d.f 20 4
  let (len, dir) := s.seqEntry k none q
  let tokens := d.f 28 4
  if tokens ≥ len then (s, 0)
  else
    let keep := ceilDiv tokens k.p
    let gone := span keep (ceilDiv len k.p - keep)
    let pages := gone.map fun i => s.pageOf k none dir i
    let leaves := uniq (gone.map fun i => i / 1024)
    let empty := leaves.filter fun i => decide (keep ≤ 1024 * i)
    let s1 := s.commitSeq d.id k q tokens (if tokens = 0 then 0 else dir)
    let s1 := pages.foldl (fun s p => s.unrefPage d.id k p) s1
    let s1 := (gone.filter fun i => !empty.contains (i / 1024)).foldl (fun s1 i =>
      s1.writeOwn d.id (k.blockOff (s.leafOf k none dir i) + 4 * (i % 1024)) (leBytes 4 noEntry) []) s1
    let s1 := empty.foldl (fun s1 i =>
      (s1.writeOwn d.id (k.blockOff dir + 4 * i) (leBytes 4 noEntry) []).unuseBlock k (s.leafOf k none dir (1024 * i))) s1
    (if tokens = 0 then s1.unuseBlock k dir else s1, pages.length)

/-- A fork or truncation once its tables are at hand, and its end once its writes are performed. -/
def State.forkStep (s : State) (d : Desc) (go : State → Desc → KvSet → State × Completion) : State :=
  match s.kvSet (d.f 16 2) with
  | none => s.stop d Status.abortedBySoftware Cause.badKvset
  | some k =>
    let q := d.f 20 4
    let len := (s.seqEntry k none q).1
    if d.auxAt 0 ≠ 0 then s
    else
      let (s, ok) := s.readyRead d.id (s.tablePieces k none q 0 (ceilDiv len k.p) ++
        if d.f 18 1 = 0 then s.tablePieces k none (d.f 24 4) 0 0 else [])
      match s.desc d.id with
      | none => s
      | some d =>
        if !ok ∨ d.fail.isSome then s
        else
          let (s, c) := go s d k
          (s.setDesc d.id fun d => d.setAux 0 1).complete d.id c

/-- `KV_FORK`, MODE FORK (R504, R506). -/
def execKvFork (d : Nat) (s : State) : Host.Outcome State Fault Refusal :=
  .next (s.workMode d 0x52 0 s.stop fun d =>
    s.forkStep d fun s d k => match s.forkSeq d k with
      | .ok s' => (s', ⟨Status.ok, 0, d.f 28 4, ceilDiv (d.f 28 4) k.p, 0⟩)
      | .error ca => (s, ⟨Status.okPartial, reasonKvState, (s.seqEntry k none (d.f 24 4)).1, 0, ca⟩))

/-- `KV_FORK`, MODE TRUNCATE (R505, R506). -/
def execKvTruncate (d : Nat) (s : State) : Host.Outcome State Fault Refusal :=
  .next (s.workMode d 0x52 1 s.stop fun d =>
    s.forkStep d fun s d k =>
      let (s', n) := s.truncateSeq d k
      (s', ⟨Status.ok, 0, (s'.seqEntry k none (d.f 20 4)).1, n, 0⟩))

/-! ### KV_GATHER (R507–R511) -/

def Desc.kFmt (d : Desc) : Option Format := formatOf (d.f 18 1)
def Desc.kFlag (d : Desc) (i : Nat) : Bool := bit (d.f 20 1) i
def Desc.kNoOut (d : Desc) : Bool := d.kFlag 3
def Desc.kFirst (d : Desc) : Nat := d.f 28 4
def Desc.kCount (d : Desc) : Nat := d.f 32 4
/-- The first page of the range, and the pages that hold a token of it. -/
def Desc.kPage0 (d : Desc) (k : KvSet) : Nat := d.kFirst / k.p
def Desc.kPages (d : Desc) (k : KvSet) : Nat := (d.kFirst + d.kCount - 1) / k.p + 1 - d.kPage0 k
/-- The number of the first page that the gather processes, counted from the first page of the range (R508). -/
def Desc.kSkip (d : Desc) (k : KvSet) : Nat := (d.kFirst + d.f 64 4) / k.p - d.kPage0 k
/-- Elements of one part G (R507), and of the whole output. -/
def Desc.kPart (d : Desc) (k : KvSet) : Nat := k.heads * d.kCount * k.headDim
def Desc.kElems (d : Desc) (k : KvSet) : Nat := 2 * d.f 38 2 * d.kPart k

/-- TOK_COUNT, LAYER_COUNT or START out of range. -/
def kvGatherLenBad (k : KvSet) (b : List Byte) : Bool :=
  let first := fld b 28 4
  let count := fld b 32 4
  let start := fld b 64 4
  decide (count = 0 ∨ count > 16777216 ∨ first + count > 16777216 ∨ fld b 38 2 = 0 ∨ fld b 36 2 + fld b 38 2 > k.layers ∨ start ≥ count ∨
    (start ≠ 0 ∧ (first + start) % k.p ≠ 0))

/-- KV_GATHER (opcode 0x51, Table 12-7). -/
def opKvGather : DescOp where
  sizes := [1]
  snapshot := true
  selectorBad := fun b => fld b 19 1 % 4 == 3
  ranges := fun s b => match s.kvSet (fld b 16 2) with
    | none => []
    | some k =>
      if kvGatherLenBad k b then []
      else
        let n := 2 * fld b 38 2 * (k.heads * fld b 32 4 * k.headDim)
        let flags := fld b 20 1
        let fm := if bit flags 3 then none else formatOf (fld b 18 1)
        let pages := (fld b 28 4 + fld b 32 4 - 1) / k.p + 1 - fld b 28 4 / k.p
        [⟨fld b 40 8, (fm.map fun f => elemBytes f.elem n).getD 0, false, true, false⟩,
         ⟨fld b 48 8, if fm.any (·.mx) then n / 32 else 0, false, true, false⟩,
         ⟨fld b 56 8, if bit flags 2 then ceilDiv pages 4 else 0, false, true, false⟩]
  check := fun s d =>
    let k? := s.kvFor d
    let no := d.kNoOut
    let region := match k? with
      | some k => [Extent.mk (gpaOf s.self k.region) k.need true true false]
      | none => []
    firstFail ([badFormat (decide (d.f 20 1 > 31) || d.nonzero 21 1 || d.nonzero 80 48 || (no && (d.nonzero 18 2 || d.nonzero 40 8)) ||
        d.rmodeReserved 19 68 12 || (!(!no && d.kFmt.any (·.mx)) && d.nonzero 48 8) || (!d.kFlag 2 && d.nonzero 56 8)) Cause.reserved,
      badFormat k?.isNone Cause.badKvset, badFormat (!no && d.kFmt.isNone) Cause.format, badFormat (k?.any fun k => decide (d.f 24 4 ≥ k.maxSeqs)) Cause.seq,
      badFormat (k?.any fun k => kvGatherLenBad k d.bytes) Cause.length,
      badFormat (!no && d.kFmt.any fun f => f.mx && d.f 40 8 % (4 * f.elem.width) != 0) Cause.alignment] ++
      s.snapCheckOn d 22 (d.ranges.flatten ++ region) ++
      [badFormat d.tooMany Cause.extentLimit, badRights ((List.range 3).any fun i => s.lacks d i .write) Cause.noGrant])
  price := fun s d => match s.kvFor d with
    | none => s.priced d 16000 []
    | some k =>
      let c := d.kPages k - d.kSkip k
      let elems := 2 * d.f 38 2 * k.heads * (d.kCount - d.f 64 4) * k.headDim
      let ob := match d.kNoOut, d.kFmt with
        | false, some f => elemBytes f.elem elems + if f.mx then elems / 32 else 0
        | _, _ => 0
      let deep := ceilDiv (s.missRatio64 3 k.id * (c * d.f 38 2 * ceilDiv k.lb granuleSize)) 64
      s.priced d 16000 (s.evenly (c * d.f 38 2 * k.lb + 4 * c + 16 + ob + if d.kFlag 2 then ceilDiv c 4 else 0) ++
        [(resArray, ceilDiv (100 * ob) 3276800), (resDeep, deep)])
  enter := fun s d => s.snapBind d 22

/-- The sequence entry and the tables of the range are read in one step (R499): LENGTH and the pages are kept. -/
def State.kvBegin (s : State) (d : Desc) (k : KvSet) : State :=
  let q := d.f 24 4
  let first := d.kPage0 k
  let n := d.kPages k
  let ps := s.tablePieces k d.binding q first n
  let (s, ok) := s.readyRead d.id ps
  match s.desc d.id with
  | none => s
  | some d =>
    if !ok ∨ d.fail.isSome then s
    else match s.firstPoison d ps with
    | some g => s.poisonFault d g
    | none =>
      let (len, dir) := s.seqEntry k d.binding q
      let pages := (span first n).map fun p => if p * k.p < len then s.pageOf k d.binding dir p else noEntry
      (s.touchPieces ps).setDesc d.id fun d => ((({ d with scratch := pages }).setAux 7 0).setAux 0 stageRows).setAux 1 len

/-- Counts of a KV_GATHER in `aux`: 2 tokens produced, 3 pages from shadows, 4 absent pages, 5 overflowed elements, 6 tokens beyond
LENGTH; from 8 on the poisoned output sectors. -/
def Desc.kBad (d : Desc) : List Nat := d.aux.drop 8

/-- The granules of a page that hold the layers asked for. -/
def Desc.kGranules (d : Desc) (k : KvSet) (pg : Nat) : List Nat := granulesOf (k.pageOff pg + d.f 36 2 * k.lb) (d.f 38 2 * k.lb)

/-- The granules of a page leave for the deep tier first (DEMOTE, R508). -/
def State.demote (s : State) (gs : List Nat) : State :=
  let h := s.store.harbour
  { s with store := { s.store with harbour := { h with ways := mapIf (fun w => gs.contains w.gpa) (fun w => { w with oldest := true }) h.ways } } }

/-- The element intervals of an output run that poison reaches, and its sectors of DST and of the scales. -/
def State.runPoison (_s : State) (d : Desc) (f : Format) (pos : Nat) (iv : List (Nat × Nat)) : List Nat × List Nat :=
  let iv := if f.mx then iv.map fun (x, n) => (x / 32 * 32, roundUp (x + n) 32 - x / 32 * 32) else iv
  let el := (iv.map fun (x, n) =>
    let a := elemBytes f.elem (pos + x)
    ((d.pieces 0 a (max 1 (elemBytes f.elem (pos + x + n) - a))).map fun q => (sectorsOf q.1 q.2).map (· * 64)).flatten).flatten
  let sc := if !f.mx then [] else (iv.map fun (x, n) =>
    ((d.pieces 1 ((pos + x) / 32) (ceilDiv n 32)).map fun q => (sectorsOf q.1 q.2).map (· * 64)).flatten).flatten
  (uniq el, uniq sc)

/-- Output position of the run of a head (R507): part `j = i × 2 + kv`, head, token offset. -/
def Desc.kPos (d : Desc) (k : KvSet) (j h t : Nat) : Nat :=
  j * d.kPart k + if d.kFlag 0 then (h * d.kCount + t) * k.headDim else (t * k.heads + h) * k.headDim

/-- One run of HEAD_DIM elements is produced: from the page, from its shadow, or as zeros. -/
def State.kvRun (s : State) (d : Desc) (k : KvSet) (f : Format) (pg code j h t slot : Nat) : State :=
  let y := d.f 36 2 + j / 2
  let run := ((y * 2 + j % 2) * k.heads + h) * k.p + slot
  let w := if code = 1 then k.headDim * k.eb else k.headDim
  let off := if code = 1 then k.pageOff pg + run * w else k.shadowOff pg + run * w
  let elem : Elem := if code = 1 then k.elem else .e4m3
  let vals := if code = 3 then List.replicate k.headDim (Num.fin false 0 1)
    else decodeVec ⟨elem, false⟩ k.headDim (s.bytesBound d.binding off w) []
  let bad := if code = 3 then [] else ((sectorsOf off w).filter (s.poisonedBound d.binding)).map fun x =>
    let a := max (64 * x) off - off
    let b := min (64 * x + 64) (off + w) - off
    (a * 8 / elem.width, ceilDiv (b * 8) elem.width - a * 8 / elem.width)
  let pos := d.kPos k j h t
  let rm := (rmodeOf (d.f 19 1)).getD rmodeDefault
  let (bs, ss, beyond) := encodeVec f vals rm fun i => srBits (d.f 72 8) (d.f 68 4) (pos + i)
  let (e, c) := s.runPoison d f pos bad
  let s := s.writeRange d.id 0 (elemBytes f.elem pos) bs e.contains
  let s := if f.mx then s.writeRange d.id 1 (pos / 32) ss c.contains else s
  s.setDesc d.id fun d =>
    let d := d.setAux 5 (d.auxAt 5 + beyond)
    { d with aux := d.aux ++ (uniq (e ++ c)).filter fun x => !d.kBad.contains x }

/-- The mask bits of page `n` of the range (R510). -/
def State.kvMask (s : State) (d : Desc) (n code : Nat) : State :=
  let old := s.rangeNat d 2 (n / 4) 1
  let i := 2 * (n % 4)
  s.writeRange d.id 2 (n / 4) (leBytes 1 (old - bits old (i + 1) i * 2 ^ i + code * 2 ^ i)) (s.poisonAt d)

/-- A page's data would come too late, and the gather does not wait for it (R509). -/
def State.kvLate (s : State) (d : Desc) (k : KvSet) (pg : Nat) : Bool :=
  !d.strict && (d.kFlag 1 || k.shadowed) && (d.kGranules k pg).any fun g => s.notAtHand g && Config.tierLate g s.now d.bookEnd

/-- Page `n` of the range is processed with a code: its tokens, its mask bits, its counts (R507–R511). -/
def State.kvPage (s : State) (d : Desc) (k : KvSet) (n pg code : Nat) : State :=
  let len := d.auxAt 1
  let lo := max (d.kFirst + d.f 64 4) ((d.kPage0 k + n) * k.p)
  let hi := min (d.kFirst + d.kCount) ((d.kPage0 k + n + 1) * k.p)
  let top := max lo (min hi len)
  let s := match d.kNoOut, d.kFmt with
    | false, some f => (span lo (top - lo)).foldl (fun (s : State) tok =>
        (List.range (2 * d.f 38 2)).foldl (fun (s : State) j => (List.range k.heads).foldl (fun (s : State) h =>
          match s.desc d.id with
          | some d => s.kvRun d k f pg code j h (tok - d.kFirst) (tok % k.p)
          | none => s) s) s) s
    | _, _ => s
  let s := if d.kFlag 2 then s.kvMask d n code else s
  let s := if d.kFlag 4 ∧ code = 1 then s.demote (d.kGranules k pg) else s
  s.setDesc d.id fun d =>
    let d := if code = 1 ∨ code = 2 then d.setAux 2 (d.auxAt 2 + (top - lo)) else d
    let d := if code = 2 then d.setAux 3 (d.auxAt 3 + 1) else if code = 3 then d.setAux 4 (d.auxAt 4 + 1) else d
    let d := d.setAux 6 (d.auxAt 6 + (hi - top))
    { d with progress := d.progress + 1, remote := [] }

/-- The next page of a KV_GATHER. -/
def State.kvNext (s : State) (d : Desc) (k : KvSet) : State :=
  let n := d.kSkip k + d.progress
  let pg := d.scratch.getD n noEntry
  let (s, okW) := s.readyWrite (d.pieces 0 0 (extentsLen (d.range 0)) ++ d.pieces 1 0 (extentsLen (d.range 1)) ++ d.pieces 2 (n / 4) 1)
  let (s, okM) := if d.kFlag 2 then s.readyRead d.id ((d.pieces 2 (n / 4) 1).filter fun p => !s.isHere p.1) else (s, true)
  if !(okW && okM) then s
  else if pg = noEntry then s.kvPage d k n 0 0
  else if s.kvLate d k pg then
    let s := ((d.kGranules k pg).filter s.notAtHand).foldl (fun s g =>
      if s.store.harbour.misses.any fun m => m.granule = g then s else s.joinMiss g .fill true) s
    if d.kFlag 1 ∧ k.shadowed ∧ !d.kNoOut then s.kvPage d k n pg 2 else s.kvPage d k n pg 3
  else
    let ps := [s.ownPiece (k.pageOff pg + d.f 36 2 * k.lb) (d.f 38 2 * k.lb)]
    let gs := d.kGranules k pg
    let s := s.sample 3 k.id gs.length (gs.filter s.notAtHand).length
    let (s, ok) := s.readyRead d.id ps
    match s.desc d.id with
    | none => s
    | some d => if !ok ∨ d.fail.isSome then s else (s.touchPieces ps).kvPage d k n pg 1

/-- The end of a KV_GATHER (R511). -/
def State.kvEnd (s : State) (d : Desc) : State :=
  let r0 := d.auxAt 2 + 2 ^ 32 * sat 2 (d.auxAt 3) + 2 ^ 48 * sat 2 (d.auxAt 4)
  let r1 := sat 2 (d.auxAt 5) + 2 ^ 16 * sat 2 d.kBad.length
  if d.auxAt 4 ≠ 0 then s.finish d.id Status.okPartial 0x01 0 r0 r1
  else if d.auxAt 6 ≠ 0 then s.finish d.id Status.okPartial reasonKvState Cause.beyondLength r0 r1
  else if d.auxAt 3 ≠ 0 then s.finish d.id Status.okDegraded 0x01 0 r0 r1
  else s.ok d.id r0 r1

/-- The stop of a KV_GATHER: the stop offset in tokens (R511). -/
def State.kvStop (s : State) (d : Desc) (st ca : Nat) : State :=
  let off := match s.kvSet (d.f 16 2) with
    | some k => if d.progress = 0 then d.f 64 4 else (d.kPage0 k + d.kSkip k + d.progress) * k.p - d.kFirst
    | none => d.f 64 4
  s.finish d.id st 0 ca off 0

/-- `KV_GATHER` (R499, R507–R511): its tables, or one page once the writes of the last are performed. -/
def execKvGather (d : Nat) (s : State) : Host.Outcome State Fault Refusal :=
  .next (s.work d 0x51 s.kvStop fun d =>
    match s.kvSet (d.f 16 2) with
    | none => s.kvStop d Status.abortedBySoftware Cause.badKvset
    | some k =>
      if !d.awaiting.isEmpty then s
      else if d.auxAt 0 = stageIndex then s.kvBegin d k
      else
        let s := if d.kSkip k + d.progress < d.kPages k then s.kvNext d k else s
        match s.desc d.id with
        | some d => if d.kSkip k + d.progress ≥ d.kPages k ∧ d.awaiting.isEmpty ∧ d.fail.isNone ∧ d.done.isNone then s.kvEnd d else s
        | none => s)

end Sys2Proof.Machine
end

