-- ==== Sys2Proof/Machine/Deep.lean ====
section
/-! DEFINITION. The deep tier and the Harbour's background work (spec 02, 04, 16): misses, ways, write-back, NAND reads and programs,
stripes, lost granules, failed units, reclaim, wear, refresh, restriping, migration and scrub. -/

namespace Sys2Proof.Machine

/-! ### Units and counters of the deep tier (Table 17-1, Table 16-6) -/

/-- The channel of a die (Table 17-1). -/
def dieChannel (die : Nat) : Nat := die / 32

/-- The die exists in the population (R616, Table 17-1). -/
def State.dieThere (s : State) (die : Nat) : Bool :=
  s.deep.groups.contains (dieChannel die / 16) && decide (die % 32 / 4 < s.deep.enables) && decide (die % 4 < s.deep.luns)

/-- The die, or its channel, has failed (R634). -/
def State.dieFailed (s : State) (die : Nat) : Bool :=
  s.deep.failed.contains die || s.deep.failed.contains (0x8000 + dieChannel die)

/-- A die's record; one on which nothing has happened since power-up. -/
def State.die (s : State) (n : Nat) : Die :=
  (s.deep.dies.find? fun (d : Die) => d.number = n).getD ⟨n, none, false, 0, [], [], none, [], []⟩

def State.setDie (s : State) (n : Nat) (f : Die → Die) : State :=
  { s with deep := { s.deep with dies := upsert (fun (d : Die) => d.number) (f (s.die n)) s.deep.dies } }

/-- Facts of a die's wear record at power-up (R624, R639): 0 good blocks, 1 sum of their erase counts, 2 the largest, 3 retired,
4 spare. Log entry 10. -/
def wearFact (die i : Nat) : Nat := Config.unit (0x10000 + die * 8 + i)

/-- Spare blocks of a die (R637). -/
def State.spareBlocks (s : State) (die : Nat) : Nat := wearFact die 4 - (s.die die).retired.length

/-- The mean of a die's erase counts (Table 16-6). -/
def State.eraseMean (s : State) (die : Nat) : Nat :=
  (wearFact die 1 + sumNat ((s.die die).erases.map (·.2))) / (wearFact die 0 - (s.die die).retired.length)

/-- The largest of a die's erase counts (Table 16-6): the count of a block erased since power-up starts at a fact of the unit. -/
def State.eraseMax (s : State) (die : Nat) : Nat :=
  max (wearFact die 2) (maxNat ((s.die die).erases.map fun x => Config.unit (0x1000000 + die * 0x10000 + x.1) + x.2))

/-- LIFE_USED (Table 16-6) in 0.01 %, saturating at 10,000. -/
def State.lifeUsed (s : State) : Nat :=
  let dies := (List.range 2048).filter s.dieThere
  min 10000 (maxNat (dies.map fun d => 10000 * s.eraseMean d / s.deep.rated))

/-- The figures of Table 16-6 that are no plain counters, for COUNTER_READ (Table 20-3, group DEEP). -/
def State.deepFigure (s : State) (inst i : Nat) : Option Nat :=
  match i with
  | 0 => some (s.eraseMean inst)
  | 1 => some (s.eraseMax inst)
  | 2 => some s.deep.rated
  | 3 => some s.lifeUsed
  | 4 => some (s.spareBlocks inst)
  | 5 => some (wearFact inst 3 + (s.die inst).retired.length)
  | 6 => some (s.obs.counter 5 0xFFFF 6)
  | 7 => some (s.obs.counter 5 0xFFFF 7)
  | _ => none

/-- Count a page programmed (Table 16-6 BYTES_PROGRAMMED, log entry 40). -/
def State.programmed (s : State) (pages : Nat) : State := s.count 5 0xFFFF 7 (granuleSize * pages)

/-! ### Stripes and placement (R625–R627) -/

/-- A profile's stripe form is 14 + 2 (Table 16-3). -/
def Profile.dual : Profile → Bool
  | .xl => true
  | _ => false

/-- The channel positions of a stripe's parity pages (Table 16-3). -/
def NandStripe.parity (x : NandStripe) : List Nat := if x.dual then [x.number % 16, (x.number + 1) % 16] else [x.number % 16]

/-- The data positions of a stripe on live channels that have no page yet, in ascending channel order (R626). -/
def State.openPositions (s : State) (x : NandStripe) : List Nat :=
  (List.range 16).filter fun p => !x.parity.contains p && !(x.dies.any fun d => d.1 == p) &&
    !s.deep.failed.contains (0x8000 + 16 * x.group + p)

/-- The group of the next stripe (R626): the populated groups in rotation, those with every channel alive first (R634). -/
def State.stripeGroup (s : State) : Nat :=
  let whole := s.deep.groups.filter fun g => (span (16 * g) 16).all fun c => !s.deep.failed.contains (0x8000 + c)
  let gs := if whole.isEmpty then s.deep.groups else whole
  gs.getD (s.deep.nextStripe % gs.length) 0

/-- The open stripe: the last one opened while it has a data position left, in the form in force (R627), else a new one. -/
def State.openStripe (s : State) : NandStripe :=
  let fresh : NandStripe := ⟨s.deep.nextStripe, s.stripeGroup, s.fabric.profile.dual, []⟩
  match s.deep.stripes.getLast? with
  | some x => if (s.openPositions x).isEmpty || x.dual != fresh.dual then fresh else x
  | none => fresh

/-- Place a page: the next data position of the open stripe, on the die of its channel that the device picks (`sub`: chip enable
and LUN). A stripe whose data positions are full gets its parity pages. -/
def State.place (s : State) (sub : Nat) : Option (State × Nat × Nat) :=
  let x := s.openStripe
  match s.openPositions x with
  | [] => none
  | p :: rest =>
    let die := (16 * x.group + p) * 32 + sub
    if sub ≥ 32 ∨ !s.dieThere die ∨ s.dieFailed die then none
    else
      let x' := { x with dies := x.dies ++ [(p, die)] }
      let others := s.deep.stripes.filter fun (y : NandStripe) => y.number ≠ x.number
      let s := { s with deep := { s.deep with stripes := others ++ [x'], nextStripe := max s.deep.nextStripe (x.number + 1) } }
      some (if rest.isEmpty then s.programmed x.parity.length else s, die, x.number)

/-- Members of a stripe that lie on failed units (R634). -/
def State.membersLost (s : State) (stripe : Nat) : Nat :=
  match s.deep.stripes.find? fun (x : NandStripe) => x.number = stripe with
  | none => 0
  | some x => ((List.range 16).filter fun p =>
      s.deep.failed.contains (0x8000 + 16 * x.group + p) || x.dies.any fun d => d.1 == p && s.dieFailed d.2).length

/-- What a stripe's parity can rebuild (R630, Table 16-3). -/
def State.canRebuild (s : State) (stripe : Nat) : Bool :=
  match s.deep.stripes.find? fun (x : NandStripe) => x.number = stripe with
  | none => false
  | some x => decide (s.membersLost stripe ≤ (if x.dual then 2 else 1))

/-- A block that no map entry, program or read uses (R622). -/
def State.blockUnused (s : State) (die block : Nat) : Bool :=
  !(s.deep.map.any fun e => e.die = die ∧ e.block = block) && !(s.deep.queue.any fun w => w.die = die ∧ w.block = block) &&
    !(s.deep.reads.any fun r => r.die = die ∧ r.block = block)

/-- A block that has just lost its last page is erased in the background (R636); stripes without a page are forgotten. -/
def State.releasePage (s : State) (die block : Nat) : State :=
  let used := s.deep.map.map (·.stripe) ++ s.deep.queue.map (·.stripe) ++ s.deep.reads.map (·.stripe)
  let newest := (s.deep.stripes.getLast?).map (·.number)
  let s : State := { s with deep := { s.deep with
    stripes := s.deep.stripes.filter fun (x : NandStripe) => used.contains x.number || newest == some x.number } }
  if s.blockUnused die block ∧ (s.die die).erasing.isNone then s.setDie die fun d => { d with erasing := some block } else s

/-- A granule becomes zero-fill: the map leaves its page (R623). -/
def State.unmap (s : State) (g : Nat) : State :=
  match s.deep.map.find? fun e => e.granule = g with
  | none => s
  | some e =>
    ({ s with deep := { s.deep with
        map := s.deep.map.filter fun x => x.granule ≠ g
        refresh := s.deep.refresh.filter (· ≠ g) } }).releasePage e.die e.block

/-- Every granule of `[base, base+size)` becomes zero-fill: its content, poison, residence, misses and page go (R145, R623). -/
def State.zeroFill (s : State) (base size : Nat) : State :=
  let here (g : Nat) : Bool := inside (g * granuleSize) granuleSize base size
  let h := s.store.harbour
  let s := s.dropRows base size
  let s := { s with
    store := { s.store with
      mem := Mem.clear s.store.mem base size
      poison := s.store.poison.filter fun p => decide (p * 64 < base ∨ base + size ≤ p * 64)
      moving := s.store.moving.filter fun m => !here m.granule
      harbour := { h with
        ways := h.ways.filter fun w => !here w.gpa
        misses := h.misses.filter fun m => !here m.granule
        mirror := h.mirror.filter fun g => !here g } }
    deep := { s.deep with
      queue := s.deep.queue.filter fun w => !here w.granule
      reads := s.deep.reads.filter fun r => !here r.granule } }
  (s.deep.map.filter fun e => here e.granule).foldl (fun s e => s.unmap e.granule) s

/-! ### Misses and ways (R45, R90–R93) -/

/-- Answer one access that waited for a granule (R45); a descriptor and a fill go on by themselves. -/
def State.answerWaiter (s : State) : Waiter → State
  | .plain m data =>
    let s := if m.op = Sxf.rowRead then s.serveRow m else s.answerRead m data
    s.releaseAgent m.via m.agent
  | .host port tag guest off data => s.hostAnswer port tag guest off data (s.isPoison (off / 64))
  | .work _ => s
  | .fill => s

/-- The filled granule takes a way where its class allocates one (R90, Table 02-8), else its entry closes; an entry whose set
has no candidate way stays open (R93). -/
def State.seatGranule (s : State) (m : Miss) : State :=
  let h := { s.store.harbour with misses := s.store.harbour.misses.filter fun x => x.granule ≠ m.granule }
  let cls := s.clsAt (m.granule * granuleSize)
  if !m.allocate ∧ m.held.isEmpty then { s with store := { s.store with harbour := h } }
  else match h.allocate m.granule cls m.oldest m.held with
    | .placed h' => ({ s with store := { s.store with harbour := h' } }).mirrorDirty m.granule
    | .waits h' =>
      let m' : Miss := { m with waiters := [], filled := true, allocate := true }
      { s with store := { s.store with harbour := { h' with misses := h'.misses ++ [m'] } } }

/-- `HARBOUR_FILL` (R45, R90): valid data of an open miss entry is at hand; the granule is written, held writes stay over it, and
the accesses that waited are served in the order of their arrival. -/
def execHarbourFill (granule : Nat) (s : State) : Host.Outcome State Fault Refusal :=
  .next (match s.store.harbour.misses.find? fun m => m.granule = granule with
    | none => s
    | some m =>
      let read := s.deep.reads.find? fun r => r.granule = granule
      if m.filled ∨ (read.any fun r => !r.ready) then s
      else
        let s := { s with deep := { s.deep with reads := s.deep.reads.filter fun r => r.granule ≠ granule } }
        let s := match read with
          | some r => s.releasePage r.die r.block
          | none => s
        m.waiters.foldl State.answerWaiter (s.seatGranule m))

/-- `WAY_AVAILABLE` (R93): a filled granule that waited for a way takes the first candidate of its set. -/
def execWayAvailable (granule : Nat) (s : State) : Host.Outcome State Fault Refusal :=
  .next (match s.store.harbour.misses.find? fun m => m.granule = granule ∧ m.filled with
    | none => s
    | some m => s.seatGranule m)

/-- A granule's dirty data enters the deep-tier write queue under the next write sequence (R46, R621). -/
def State.enqueueWrite (s : State) (g sub block : Nat) : Option State :=
  match s.place sub with
  | none => none
  | some (s, die, stripe) =>
    let s := (s.count 4 (s.stackFor (g * granuleSize)) 2 1).count 5 0xFFFF 6 granuleSize
    let q : WriteBack := ⟨g, s.deep.lastSeq + 1, die, block, stripe⟩
    some { s with
      deep := { s.deep with queue := s.deep.queue ++ [q], lastSeq := s.deep.lastSeq + 1 }
      store := { s.store with harbour := { s.store.harbour with mirror := s.store.harbour.mirror.filter (· ≠ g) } } }

/-- Drop a granule's way. -/
def State.dropWay (s : State) (g : Nat) : State :=
  { s with store := { s.store with harbour := { s.store.harbour with ways := s.store.harbour.ways.filter fun w => w.gpa ≠ g } } }

/-- A granule's way is clean. -/
def State.cleanWay (s : State) (g : Nat) : State :=
  { s with store := { s.store with harbour := { s.store.harbour with
      ways := mapIf (fun w => w.gpa = g) (fun w => { w with dirty := [], writeBack := false }) s.store.harbour.ways } } }

/-- `WRITE_BACK` (R46, R92, R93): the data of a dirty victim has reached the deep-tier write queue, and its way is free. The device
places the page on a die of the next channel (R626). -/
def execWriteBack (granule sub block : Nat) (s : State) : Host.Outcome State Fault Refusal :=
  .next (match s.store.harbour.way granule with
    | none => s
    | some w =>
      if !w.writeBack then s
      else match s.enqueueWrite granule sub block with
        | none => s
        | some s => s.dropWay granule)

/-- Bytes of the mirror area in use: the dirty sectors of mirrored granules (R94). -/
def State.mirrorBytes (s : State) : Nat :=
  sumNat (s.store.harbour.mirror.map fun g => ((s.store.harbour.way g).map fun w => 64 * w.dirty.length).getD 0)

/-- `MIRROR_WRITE_BACK` (R94): at 75 % of the mirror area the oldest dirty mirrored granule is written back; its mirror copy is
freed and it stays resident. -/
def execMirrorWriteBack (sub block : Nat) (s : State) : Host.Outcome State Fault Refusal :=
  .next (match s.store.harbour.mirror with
    | [] => s
    | g :: _ =>
      if 4 * s.mirrorBytes < 3 * (s.store.harbour.mirrorGib * 2 ^ 30) then s
      else match s.enqueueWrite g sub block with
        | none => s
        | some s => s.cleanWay g)

/-- `MIGRATION_GRANULE` (R98–R101, R109): one granule of a class change is copied and switched; a copy that a write has overtaken
is made again, four times at most. -/
def execMigrationGranule (granule : Nat) (overtaken : Bool) (sub block : Nat) (s : State) : Host.Outcome State Fault Refusal :=
  let done (s : State) : State :=
    { s with store := { s.store with moving := s.store.moving.filter fun m => m.granule ≠ granule } }
  .next (match s.store.moving.find? fun m => m.granule = granule with
    | none => s
    | some m =>
      if overtaken ∧ m.copies < 4 then
        { s with store := { s.store with
          moving := mapIf (fun m => m.granule = granule) (fun m => { m with copies := m.copies + 1 }) s.store.moving } }
      else match s.store.harbour.way granule, m.target with
        | none, .pin =>
          if s.absent granule ∨ s.missOpen granule then
            (if s.store.harbour.misses.any fun x => x.granule = granule then s else s.joinMiss granule .fill true)
          else done { s with store := { s.store with harbour := s.store.harbour.fill s.now granule .pin false [] } }
        | none, _ => done s
        | some w, t =>
          let moved (s : State) : State := done { s with store := { s.store with harbour := { s.store.harbour with
            ways := mapIf (fun (x : Way) => x.gpa = granule) (fun x => { x with cls := t, pinned := t == .pin }) s.store.harbour.ways } } }
          -- leaving PIN and COLD write back the dirty sectors; COLD drops the granule (R98, Table 02-8)
          if t = .cold ∨ (w.pinned ∧ t ≠ .pin) then
            if w.dirty.isEmpty then done (s.dropWay granule)
            else match s.enqueueWrite granule sub block with
              | none => s
              | some s => done (s.dropWay granule)
          else moved s)

/-- `HARBOUR_SCRUB` (R301, Table 17-1): a resident granule is scrubbed; corrected errors are counted, an uncorrectable sector is
served from its mirror copy where one exists and otherwise poisoned. -/
def execHarbourScrub (granule corrected : Nat) (bad : List Nat) (s : State) : Host.Outcome State Fault Refusal :=
  .next (if !s.store.harbour.resident granule then s
    else
      let stack := s.stackFor (granule * granuleSize)
      let unit := stack * 64 + pseudoOf (((bad.filter (· < 256)).head?.getD 0 + granule * 256) * 64)
      let s := s.count 4 stack 5 1
      let s := if corrected = 0 then s else s.report ⟨evFault, sevCorrected, 0x1, unit, 1, 0, 0, 0, 0⟩
      let secs := (bad.filter (· < 256)).map (granule * 256 + ·)
      let dirty := ((s.store.harbour.way granule).map (·.dirty)).getD []
      let mirrored := s.store.harbour.mirror.contains granule
      let lost := secs.filter fun p => !(mirrored && dirty.contains p)
      if secs.isEmpty then s
      else if lost.isEmpty then s.report ⟨evFault, sevRecovered, 0x1, unit, 2, 0, gpaOf s.self (granule * granuleSize), 0, 0⟩
      else (s.poisonSectors lost).report ⟨evFault, sevUncorrected, 0x1, unit, 5, 0, gpaOf s.self (granule * granuleSize), 0, 0⟩)

/-! ### NAND reads (R628–R632) -/

/-- The reads that a die's queue holds (R628). -/
def State.dieReads (s : State) (die : Nat) : List DeepRead :=
  s.deep.reads.filter fun (r : DeepRead) => decide (r.die = die) && !r.ready

/-- The die runs a program or an erase. -/
def State.dieBusy (s : State) (die : Nat) : Bool :=
  (s.die die).erasing.isSome || s.deep.queue.any fun w => w.die = die

/-- Descriptors that wait for a granule have met an extended read of unit class 0x2 (R631). -/
def State.lateWaiters (s : State) (g : Nat) : State :=
  let ds := ((s.store.harbour.misses.filter fun m => m.granule = g).map fun m => m.waiters.filterMap fun w => match w with
    | .work d => some d
    | _ => none).flatten
  ds.foldl (fun s d => s.setDesc d fun d => { d with faults := d.faults ++ [(0x2, s.now)] }) s

/-- Change the read of a granule. -/
def State.setRead (s : State) (g : Nat) (f : DeepRead → DeepRead) : State :=
  { s with deep := { s.deep with reads := mapIf (fun (r : DeepRead) => r.granule = g) f s.deep.reads } }

/-- `NAND_READ_DONE` (R629–R631, R633): the page, soft step, re-read or rebuild (`path` 0–3) of an open read ends with data whose
CRC matches, or without. A hard-decode failure starts the other three at once; what they repair is a recovered fault, and in STRICT
state a stall (R103). -/
def execNandReadDone (granule path : Nat) (valid : Bool) (s : State) : Host.Outcome State Fault Refusal :=
  .next (match s.deep.reads.find? fun r => r.granule = granule with
    | none => s
    | some r =>
      let gone := s.dieFailed r.die
      let possible := match path with
        | 0 => !r.hardFailed && !gone
        | 1 => r.hardFailed && !r.softFailed && !gone
        | 2 => r.hardFailed && !gone
        | 3 => (r.hardFailed || gone) && s.canRebuild r.stripe
        | _ => false
      if r.ready ∨ !possible then s
      else if valid then
        let s := s.setRead granule fun r => { r with ready := true }
        let extended := gone || r.softFailed
        let s := if gone then (s.lateWaiters granule).count 5 r.die 9 1 else s
        let s := if !r.hardFailed && !gone then s
          else s.report ⟨evFault, sevRecovered, 0x2, r.die, 2, 0, gpaOf s.self (granule * granuleSize), 0, 0⟩
        if extended && s.power.state == .strict then
          s.count 5 r.die (if gone then 14 else if path = 3 then 12 else 11) 1
        else s
      else match path with
        | 0 =>
          let s := (s.setRead granule fun r => { r with hardFailed := true }).count 5 r.die 8 1
          { s with deep := { s.deep with refresh := setAdd granule s.deep.refresh } }
        | 1 => ((s.setRead granule fun r => { r with softFailed := true }).lateWaiters granule).count 5 r.die 9 1
        | _ => s)

/-- A descriptor or another access that waited for a granule that is lost (R632). -/
def State.failWaiter (s : State) (g : Nat) : Waiter → State
  | .plain m _ => (s.refuse m Status.faultTier 0).releaseAgent m.via m.agent
  | .host port tag guest off data => s.hostAnswer port tag guest off data true
  | .work d => s.failDesc d Status.faultTier 0 (gpaOf s.self (g * granuleSize))
  | .fill => s

/-- `GRANULE_LOST` (R632): 150 µs after ingress without valid data, every sector that no joined write has overwritten whole is
poisoned, the granule is filled so, the waiting accesses are answered, and the event is reported. -/
def execGranuleLost (granule : Nat) (s : State) : Host.Outcome State Fault Refusal :=
  .next (match s.store.harbour.misses.find? fun m => m.granule = granule, s.deep.reads.find? fun r => r.granule = granule with
    | some m, some r =>
      if m.filled ∨ r.ready ∨ s.now < m.began + 1200000 then s
      else
        let secs := (span (granule * 256) 256).filter fun p => !m.held.contains p
        let s : State := { s with
          store := { s.store with poison := uniq (s.store.poison ++ secs) }
          deep := { s.deep with reads := s.deep.reads.filter fun (x : DeepRead) => x.granule ≠ granule } }
        let s := (s.releasePage r.die r.block).seatGranule m
        let s := m.waiters.foldl (fun s w => s.failWaiter granule w) s
        (s.count 5 r.die 10 1).report ⟨evFault, sevUncorrected, 0x2, r.die, 5, 0, gpaOf s.self (granule * granuleSize), 0, 0⟩
    | _, _ => s)

/-- `NAND_SUSPEND` (R628): a die with reads waiting suspends its program or erase, 4 µs after its last resumption at the
earliest. -/
def execNandSuspend (die : Nat) (s : State) : Host.Outcome State Fault Refusal :=
  let x := s.die die
  .next (if s.dieBusy die && !x.suspended && !(s.dieReads die).isEmpty && (x.resumedAt == 0 || x.resumedAt + 32000 ≤ s.now) then
      s.setDie die fun d => { d with suspended := true }
    else s)

/-- `NAND_RESUME` (R628): the read queue of the die is empty. -/
def execNandResume (die : Nat) (s : State) : Host.Outcome State Fault Refusal :=
  .next (if (s.die die).suspended && (s.dieReads die).isEmpty then
      s.setDie die fun d => { d with suspended := false, resumedAt := s.now }
    else s)

/-! ### Programs, erases and failed units (R621, R634, R637) -/

/-- A die or channel has failed (R634): its capacity leaves admission from the next slot on. -/
def State.failNand (s : State) (unit : Nat) : State :=
  if s.deep.failed.contains unit then s
  else
    let s := { s with
      deep := { s.deep with failed := s.deep.failed ++ [unit] }
      faults := { s.faults with retired := setAdd (0x2, unit) s.faults.retired } }
    let s := { s with brk := { s.brk with
      reductions := s.brk.reductions ++ [Reduction.mk resDeep (slotOf s.now + 1) s.deepUnits] } }
    (s.report ⟨evRetired, sevFailed, 0x2, unit, 4, 0, 0, 0, 0⟩).report ⟨evCapacityReduced, sevFailed, 0x2, unit, 9, 0, 0, 0, 0⟩

/-- `NAND_UNIT_FAIL` (R634). -/
def execNandUnitFail (unit : Nat) (s : State) : Host.Outcome State Fault Refusal :=
  .next (if unit ≥ 0x8000 then (if s.deep.groups.contains ((unit - 0x8000) / 16) then (s.failNand unit).singleFault 0x2 else s)
    else if s.dieThere unit then (s.failNand unit).singleFault 0x2 else s)

/-- A block is retired; a die without spare blocks has failed (R637). -/
def State.retireBlock (s : State) (die block : Nat) : State :=
  let s := (s.setDie die fun d => { d with retired := setAdd block d.retired }).report ⟨evFault, sevRecovered, 0x2, die, 4, 0, 0, 0, 0⟩
  if s.spareBlocks die = 0 then s.failNand die else s

/-- The map moves to a page unless it names one with a higher write sequence (R621); the page that it leaves is freed (R622). -/
def State.moveMap (s : State) (w : WriteBack) : State :=
  let old := s.deep.map.find? fun e => e.granule = w.granule
  if old.any fun e => w.seq < e.seq then s
  else
    let e : MapEntry := ⟨w.granule, w.die, w.block, w.seq, w.stripe⟩
    let s := { s with deep := { s.deep with
      map := upsert (fun (e : MapEntry) => e.granule) e s.deep.map
      refresh := s.deep.refresh.filter (· ≠ w.granule) } }
    match old with
    | some o => s.releasePage o.die o.block
    | none => s

/-- `NAND_PROGRAM_DONE` (R621, R637): a page program of the write queue ends. A failed one retires its block, and the granule is
programmed elsewhere. -/
def execNandProgramDone (granule seq : Nat) (ok : Bool) (sub block : Nat) (s : State) : Host.Outcome State Fault Refusal :=
  .next (match s.deep.queue.find? fun w => w.granule = granule ∧ w.seq = seq with
    | none => s
    | some w =>
      let rest := s.deep.queue.filter fun (x : WriteBack) => !(x.granule == granule && x.seq == seq)
      if (s.die w.die).suspended then s
      else if ok then
        let s := { s with deep := { s.deep with queue := rest } }
        (s.programmed 1).moveMap w
      else match s.place sub with
        | none => s
        | some (s, die, stripe) =>
          let w' : WriteBack := { w with die := die, block := block, stripe := stripe }
          ({ s with deep := { s.deep with queue := rest ++ [w'] } }).retireBlock w.die w.block)

/-- `NAND_ERASE_DONE` (R622, R637): the erase of a block that nothing uses ends; a failed one retires the block. -/
def execNandEraseDone (die block : Nat) (ok : Bool) (s : State) : Host.Outcome State Fault Refusal :=
  .next (if !s.dieThere die ∨ !s.blockUnused die block ∨ (s.die die).suspended ∨ (s.die die).retired.contains block then s
    else
      let s := s.setDie die fun d => { d with erasing := if d.erasing == some block then none else d.erasing }
      if !ok then s.retireBlock die block
      else s.setDie die fun d =>
        { d with erases := upsert (fun x => x.1) (block, ((d.erases.find? fun x => x.1 = block).map (·.2)).getD 0 + 1) d.erases })

/-! ### Background tasks (Table 16-5, R636) -/

/-- Move the page of a granule: a new page of the open stripe takes its content and its write sequence, and the map switches. -/
def State.movePage (s : State) (g sub block : Nat) : State :=
  match s.deep.map.find? fun e => e.granule = g with
  | none => s
  | some e => match s.place sub with
    | none => s
    | some (s, die, stripe) => (s.programmed 1).moveMap ⟨g, e.seq, die, block, stripe⟩

/-- Valid pages of a block. -/
def State.validPages (s : State) (die block : Nat) : Nat := (s.deep.map.filter fun e => e.die = die ∧ e.block = block).length

/-- `RECLAIM` (Table 16-5): a valid page leaves the block with the fewest valid pages. -/
def execReclaim (granule sub block : Nat) (s : State) : Host.Outcome State Fault Refusal :=
  .next (match s.deep.map.find? fun e => e.granule = granule with
    | none => s
    | some e =>
      if s.deep.map.any fun x => s.validPages x.die x.block < s.validPages e.die e.block then s else s.movePage granule sub block)

/-- `WEAR_LEVELLING` (Table 16-5): a page of a die whose spread of erase counts passes 5 % of its rated cycles is moved. -/
def execWearLevelling (granule sub block : Nat) (s : State) : Host.Outcome State Fault Refusal :=
  .next (match s.deep.map.find? fun e => e.granule = granule with
    | none => s
    | some e =>
      let low := Config.unit (0x1000000 + e.die * 0x10000 + e.block) + (((s.die e.die).erases.find? fun x => x.1 = e.block).map (·.2)).getD 0
      if s.deep.rated < 20 * (s.eraseMax e.die - low) then s.movePage granule sub block else s)

/-- `RETENTION_REFRESH` (Table 16-5, R633, R637): a written page is read; one that needed a soft step or whose codewords are weak
is rewritten before it is read again, and a refreshed page that still needs the soft step retires its block. -/
def execRetentionRefresh (granule : Nat) (weak still : Bool) (sub block : Nat) (s : State) : Host.Outcome State Fault Refusal :=
  .next (match s.deep.map.find? fun e => e.granule = granule with
    | none => s
    | some e =>
      if !weak ∧ !s.deep.refresh.contains granule then s
      else
        let s' := s.movePage granule sub block
        if still then s'.retireBlock e.die e.block else s')

/-- A granule's stripe is of another form than the one in force, or has a member on a failed unit (R627, R634). -/
def State.restripes (s : State) (e : MapEntry) : Bool :=
  match s.deep.stripes.find? fun (x : NandStripe) => x.number = e.stripe with
  | none => false
  | some x => x.dual != s.fabric.profile.dual || decide (s.membersLost e.stripe > 0)

/-- `RESTRIPING` (R627, R634): one granule of a stripe of an old form, or with a lost member, is rewritten. -/
def execRestriping (granule sub block : Nat) (s : State) : Host.Outcome State Fault Refusal :=
  .next (match s.deep.map.find? fun e => e.granule = granule with
    | none => s
    | some e => if s.restripes e then s.movePage granule sub block else s)

/-- A die's wear record takes the present counts (R624). -/
def State.saveWear (s : State) (die : Nat) : State :=
  s.setDie die fun d => { d with wearAt := some s.now, savedErases := d.erases, savedRetired := d.retired }

/-- `WEAR_RECORD_WRITE` (R624): at most once every 10 min, and before a controlled power-down from DRAINING. -/
def execWearRecordWrite (die : Nat) (s : State) : Host.Outcome State Fault Refusal :=
  let due := match (s.die die).wearAt with
    | none => true
    | some t => decide (t + 4800000000000 ≤ s.now)
  .next (if s.dieThere die && (due || s.power.state == .draining) then (s.saveWear die).programmed 1
    else s)

end Sys2Proof.Machine
end

