-- ==== Sys2Proof/Machine/Queues.lean ====
section
/-! DEFINITION. Work queues: the queue commands, fetching, page requests, admission of a translated descriptor, the start
of a descriptor, calendar slots, NOP (spec 06: R262–R285, R295–R298; spec 02: R78–R86). -/

namespace Sys2Proof.Machine

/-! ### Fetching (R267, R268) -/

/-- The bytes of `n` slots of an SQ from its head on, wrapping (R265). -/
def State.slotBytes (s : State) (q : Sq) (n : Nat) : List Byte :=
  ((List.range n).map fun i => s.bytesAt (gpaOffset q.ring + 64 * ((q.head + i) % q.depth)) 64).flatten

/-- SIZE of the next descriptor's header, and the slots it takes (R268, R279). -/
def State.nextSize (s : State) (q : Sq) : Nat := fld (s.slotBytes q 1) 3 1
def slotsOf (size : Nat) : Nat := if size ≤ 3 then size + 1 else 1

/-- Slots made available by SQ_TAIL. -/
def Sq.avail (q : Sq) : Nat := (q.tail + q.depth - q.head) % q.depth

/-- Descriptors of an SQ in flight. -/
def State.inflight (s : State) (q : Nat) : Nat := (s.queues.descs.filter fun d => d.queue = q).length

/-- The conditions of R268, of R82 and of the device state (R284). -/
def State.fetchable (s : State) (q : Sq) : Bool :=
  let latch := bit (fld (s.slotBytes q 1) 1 1) 2
  (s.power.state == .strict || s.power.state == .service || s.power.state == .draining) && !q.closing && !q.stopped &&
    decide (0 < q.avail) && decide (slotsOf (s.nextSize q) ≤ q.avail) && decide (s.inflight q.id < q.maxInflight) &&
    q.errRoom && (match s.cq q.cq with
      | some c => c.hasRoom (1 + b2n latch)
      | none => false) && !s.queues.pageReqs.any fun p => p.queue = q.id

/-- A STATE_SET STRICT waits for non-system descriptors to end; new ones are refused (R771). -/
def State.leavingService (s : State) : Bool := s.power.state == .service && s.power.goal.any fun g => g.target = 0

/-- The checks of Table 06-5 in their order. -/
def headerCheck (table : Nat → Option DescOp) (s : State) (q : Sq) (b : List Byte) : Option (Nat × Nat × Nat) :=
  let flags := fld b 1 1
  match table (fld b 0 1) with
  | none => some (Status.refusedFormat, Cause.badOpcode, 0)
  | some op => firstFail
      [badFormat (!op.sizes.contains (fld b 3 1)) Cause.size, badFormat (decide (fld b 2 1 > min 3 q.maxClass)) Cause.cls,
       badFormat (decide (flags ≥ 64) || (bit flags 3 && !op.snapshot)) Cause.reserved, badFormat (op.selectorBad b) Cause.reserved,
       badFormat (bit flags 4 && q.bollard.isNone) Cause.noQueueBollard,
       (((s.power.state == .strict || s.leavingService) && q.guest != 0) || s.power.state == .draining, Status.refusedNotReady, Cause.state, 0),
       (s.quarantined q.guest, Status.refusedQuarantine, 0, 0)]

/-- Earlier descriptors of an SQ that a new one waits for, and the slot after their latest booked completion (R282). -/
def State.fenceSlot (s : State) (q : Nat) (before : Bool) : Nat :=
  let ds := s.queues.descs.filter fun d => d.queue = q && (before || d.fenceAfter)
  ceilDiv (maxNat (ds.map (·.bookEnd))) slotTicks

/-- A descriptor as fetched, before it is admitted. -/
def State.newDesc (s : State) (q : Sq) (slot : Nat) (bytes : List Byte) (ranges : List (List Extent)) : Desc where
  id := s.queues.nextDesc
  queue := q.id
  slot := slot
  seq := q.nextSeq
  bytes := bytes
  guest := q.guest
  strict := s.power.state == .strict
  ranges := ranges
  admitted := s.now
  deadline := s.deadlineOf (s.power.state == .strict) (fld bytes 8 8) (fld bytes 2 1)
  start := s.now
  bookEnd := s.now
  demand := []
  binding := none
  snap := none
  phase := .admitted
  progress := 0
  base := 0
  count := 0
  remote := []
  awaiting := []
  done := none
  stamp := s.now
  scratch := []
  bytesBuf := []
  wake := 0
  faults := []
  latch := []
  fail := none
  failAt := 0
  aux := []
  ats := []
  rows := []
  finds := []

/-- A descriptor takes its in-flight entry and its CQ slots (R269, R283). -/
def State.enter (s : State) (q : Sq) (d : Desc) : State :=
  let s := { s with queues := { s.queues with descs := s.queues.descs ++ [d], nextDesc := s.queues.nextDesc + 1 } }
  let s := s.setSq q.id fun x => { x with nextSeq := x.nextSeq + 1 }
  s.setCq q.cq fun c => { c with reserved := c.reserved + (1 + b2n d.latched) }

/-- A descriptor that completes at its fetch because a walk failed (R74, R80). -/
def State.walkFault (s : State) (q : Sq) (slot : Nat) (bytes : List Byte) (status cause r0 r1 : Nat) : State :=
  let d := s.newDesc q slot bytes []
  (s.enter q d).finish d.id status 0 cause r0 r1

/-- The resource that a demand weighs most on (R298's size), for the refusal counters. -/
def State.dominant (s : State) (p : Price) : Nat :=
  ((resourcesOf p.demand).foldl (fun (best : Nat × Frac) r =>
    let v := (Frac.ofNat (demandOn p.demand r)).div (s.foreground r (slotOf s.now))
    if best.2.lt v then (r, v) else best) (resQuay, ⟨0, 1⟩)).1

/-- A translated descriptor is checked, priced, and admitted or refused (R279, R295, R821). -/
def State.admitOrRefuse (s : State) (op : DescOp) (q : Sq) (d : Desc) : State :=
  match op.check s d with
  | some (st, ca, r0) =>
    (if ca = Cause.noGrant then s.countRights d.guest else s).refusal q.id d.descId d.slot st ca r0
  | none =>
    let p := op.price s d
    let size := s.sizeOf p
    let a : Ask := ⟨p, s.dmin p (slotOf s.now + 1), d.guest, d.cls⟩
    let earlier := s.queues.descs.filter fun x => x.queue = q.id
    let heldTo := if q.ordered then maxNat (earlier.map (·.bookEnd)) else 0
    let s := s.offer d.guest size
    match s.admission a d.strict d.deadline (s.fenceSlot q.id d.fenceBefore) heldTo with
    | .refuse st ca r0 =>
      let s := if ca = Cause.capacity then s.count 3 (s.dominant p) 4 1 else if ca = Cause.overShare then s.count 3 (s.dominant p) 5 1 else s
      s.refusal q.id d.descId d.slot st ca r0
    | .enter first n =>
      let b : Booking := ⟨d.id, d.guest, d.cls, first, n, p.tail, p.demand⟩
      let fin := if p.held = 0 then max b.finish heldTo else d.deadline
      let d' := { d with start := first * slotTicks, bookEnd := fin, demand := p.demand }
      let s := op.enter (((s.book b size).enter q d').count 1 d.guest 0 1) d'
      (resourcesOf p.demand).foldl (fun s r => s.count 3 r 0 (demandOn p.demand r)) (s.count 2 q.id 1 1)

/-! ### Page requests (R82–R86, R573, R611) -/

/-- Page requests that count against the limits of R84. -/
def State.pagesOut (s : State) : List PageRequest :=
  s.queues.pageReqs.filter fun p => p.kind = .sxf ∨ p.kind = .pri

def State.pageRoom (s : State) (g : Nat) : Bool :=
  decide (s.pagesOut.length < 256 ∧ (s.pagesOut.filter fun p => p.guest = g).length < 16)

/-- Unit 0 of a PAGE_REQUEST (R573). -/
def pageUnit (src tag guest agent rights : Nat) : Nat :=
  SxfMsg.reqUnit Sxf.pageRequest false false src tag guest agent 0 + (rights % 8) * 2 ^ 8

/-- Send the request that a held walk stands for, when there is room (R84); while ATS or PRI of the port is off
nothing goes out and the walk runs into its timeout (R611). -/
def State.sendPage (s : State) (p : PageRequest) : State :=
  match s.guestRec p.guest with
  | none => s
  | some g =>
    let ats := g.mode = .ats && !p.asked.contains (p.gva / 4096 + 2 ^ 57)
    if ats then
      let s := if (s.port g.ownerPort).any (·.atsEnabled) then s.emit (.ats g.ownerPort p.tag p.guest p.gva) else s
      { s with queues := { s.queues with
        pageReqs := mapIf (fun x => x.queue = p.queue) (fun x => { x with kind := .ats, port := g.ownerPort, sent := s.now }) s.queues.pageReqs } }
    else if !s.pageRoom p.guest then s
    else
      let kind : PageKind := if g.ownerJetty then .sxf else .pri
      let s := { s with queues := { s.queues with
        pageReqs := mapIf (fun x => x.queue = p.queue) (fun x => { x with kind := kind, port := g.ownerPort, sent := s.now }) s.queues.pageReqs } }
      if g.ownerJetty then
        s.sendJetty g.ownerPort ⟨noBundle, 3, pageUnit s.self p.tag p.guest g.ownerId p.rights, leBytes 8 p.gva ++ zeros 8⟩
      else if (s.port g.ownerPort).any (·.priEnabled) then s.emit (.pri g.ownerPort p.tag p.guest p.gva p.rights)
      else s

/-- The walk of a fetched descriptor stops to ask for a GVA: a page request, or an ATS request, is held for its queue. A PRI
page request of an ATS guest is told from an ATS request by a mark among the pages asked for. -/
def State.holdWalk (s : State) (q : Sq) (slot : Nat) (bytes : List Byte) (pri : Bool) (gva rights i level : Nat)
    (asked : List Nat) (ats : List AtsEntry) : State :=
  let mark := if pri then [gva / 4096 + 2 ^ 57] else []
  let p : PageRequest := ⟨s.queues.nextPage % 65536, q.id, q.guest, slot, bytes, gva, rights, i, level, .place, 0, s.now, asked ++ mark, ats⟩
  ({ s with queues := { s.queues with pageReqs := s.queues.pageReqs ++ [p], nextPage := s.queues.nextPage + 1 } }).sendPage p

/-- Held walks that wait for a place are sent in order as places free (R84). -/
def State.pumpPages (s : State) : State :=
  (s.queues.pageReqs.filter fun p => p.kind = .place).foldl State.sendPage s

/-- Translate a fetched descriptor and go on with what follows: completion, a held walk, or admission (R279, R821). -/
def State.consider (table : Nat → Option DescOp) (s : State) (q : Sq) (slot : Nat) (bytes : List Byte) (asked : List Nat)
    (ats : List AtsEntry) : State :=
  match table (fld bytes 0 1), s.guestRec q.guest with
  | some op, some g =>
    match s.translate g (asked.filter (· < 2 ^ 57)) ats 0 (op.ranges s bytes) with
    | .error (.refuse st ca) => s.refusal q.id (fld bytes 4 4) slot st ca 0
    | .error (.fault cause gva i level) => s.walkFault q slot bytes Status.faultTranslation cause gva (i + level * 256)
    | .error (.poison gpa) => s.walkFault q slot bytes Status.faultPoison causePoisonRead gpa 0
    | .error (.ask pri gva rights i level) => s.holdWalk q slot bytes pri gva rights i level asked ats
    | .ok (ranges, path) => (s.cache q.guest path).admitOrRefuse op q { s.newDesc q slot bytes ranges with ats := ats }
  | _, _ => s

/-- Fetch the next descriptor of an SQ (R267, R279): its slots are copied and freed, the head word is written, and it is
refused by its header or considered. -/
def State.fetch (table : Nat → Option DescOp) (s : State) (id : Nat) : State :=
  match s.sq id with
  | none => s
  | some q =>
    if !s.fetchable q then s
    else
      let n := slotsOf (s.nextSize q)
      let bytes := s.slotBytes q n
      let head := (q.head + n) % q.depth
      let s := s.setSq id fun x => { x with head := head, fetched := x.fetched + 1 }
      let s := (s.writeAt (gpaOffset q.headGpa) (leBytes 4 head ++ zeros 4)).count 2 id 0 1
      let s := s.offer q.guest ⟨0, 1⟩
      match headerCheck table s q bytes with
      | some (st, ca, r0) => s.refusal id (fld bytes 4 4) q.head st ca r0
      | none => s.consider table q q.head bytes [] []

/-- The held walk of a tag and kind. -/
def State.pageReq (s : State) (tag : Nat) (kind : PageKind) : Option PageRequest :=
  s.queues.pageReqs.find? fun p => p.tag = tag ∧ p.kind = kind

def State.dropPage (s : State) (queue : Nat) : State :=
  { s with queues := { s.queues with pageReqs := s.queues.pageReqs.filter fun (p : PageRequest) => p.queue ≠ queue } }

/-- ATS invalidations that waited for a held walk wait for the descriptor that came of it, if one did, and no longer for
the walk once it is over (R612). -/
def State.walkOver (s : State) (queue next : Nat) : State :=
  if s.queues.pageReqs.any fun p => p.queue = queue then s
  else
    let new := (s.queues.descs.filter fun d => d.queue = queue ∧ next ≤ d.id).map (·.id)
    s.mapInvalidations fun x =>
      if x.walks.contains queue then { x with walks := x.walks.filter (· ≠ queue), descs := x.descs ++ new } else x

/-- A held walk goes on with a page asked for once more, or with a further ATS result (Table 02-4, R611). -/
def State.resume (table : Nat → Option DescOp) (s : State) (p : PageRequest) (asked : List Nat) (ats : List AtsEntry) : State :=
  let next := s.queues.nextDesc
  let s := s.dropPage p.queue
  match s.sq p.queue with
  | none => (s.walkOver p.queue next).pumpPages
  | some q => ((s.consider table q p.slot p.bytes asked ats).walkOver p.queue next).pumpPages

/-- A held walk fails (R80, R83). -/
def State.failWalk (s : State) (p : PageRequest) (cause : Nat) : State :=
  let next := s.queues.nextDesc
  let s := s.dropPage p.queue
  match s.sq p.queue with
  | none => (s.walkOver p.queue next).pumpPages
  | some q =>
    ((s.walkFault q p.slot p.bytes Status.faultTranslation cause p.gva (p.range + p.level * 256)).walkOver p.queue next).pumpPages

/-- The guest's page-request timeout in ticks (R83). -/
def State.pageTimeout (s : State) (g : Nat) : Nat := 8000 * ((s.guestRec g).map (·.prTimeout)).getD 1000

/-- PAGE_RESPONSE (R573, R83): in time, the walk is made again; otherwise the response is discarded and counted. -/
def State.pageResponse (table : Nat → Option DescOp) (s : State) (m : SxfMsg) : State :=
  match s.pageReq m.tag .sxf with
  | some p =>
    if p.port = m.via ∧ s.now ≤ p.sent + s.pageTimeout p.guest then s.resume table p (setAdd (p.gva / 4096) p.asked) p.ats
    else s.count 0x0C 0 2 1
  | none => s.count 0x0C 0 2 1

/-- A page request has had no response in time (R83). -/
def State.pageTimeoutEnd (s : State) (tag : Nat) : State :=
  match s.queues.pageReqs.find? fun p => p.tag = tag ∧ (p.kind = .sxf ∨ p.kind = .pri) with
  | some p => if p.sent + s.pageTimeout p.guest ≤ s.now then s.failWalk p Cause.timeout else s
  | none => s

/-- `PAGE_REQUEST_TIMEOUT` (R83). -/
def execPageRequestTimeout (tag : Nat) (s : State) : Host.Outcome State Fault Refusal := .next (s.pageTimeoutEnd tag)

/-! ### Start and slots -/

/-- The fences of R282 let a descriptor start. -/
def State.fencesAllow (s : State) (d : Desc) : Bool :=
  let earlier := s.queues.descs.filter fun x => x.queue = d.queue ∧ x.seq < d.seq
  (!d.fenceBefore || earlier.isEmpty) && !earlier.any (·.fenceAfter)

/-- `DESCRIPTOR_START` (R282, R288, R296): the work starts once its fences allow; idle capacity may start it before its first
booked slot. -/
def execDescriptorStart (d : Nat) (s : State) : Host.Outcome State Fault Refusal :=
  match s.desc d with
  | some x =>
    if x.phase = .admitted ∧ s.fencesAllow x then
      .next (s.setDesc d fun x => { x with phase := .running, stamp := s.now })
    else .next s
  | none => .next s

/-- The merged notification of a CQ (R273, Table 14-8 CQ_NOTIFY). -/
def State.sendCqNotify (s : State) (q : Cq) : State :=
  if q.merged = 0 then s
  else
    let s := s.setCq q.id fun x => { x with merged := 0 }
    match q.notifyKind with
    | 1 => s.msix q.notifyPort q.vector
    | 2 => s.sendJetty q.notifyPort ⟨noBundle, 3,
        SxfMsg.reqUnit Sxf.cqNotify false false s.self 0 0 q.agent (q.id % 1024 + (min q.merged 65535) * 2 ^ 10), []⟩
    | _ => s

/-- `CALENDAR_SLOT` (R273, R285): the slot has ended; bookings that lie wholly in the past leave the calendar, merged CQ
notifications go out, and so do the parity deltas of the device's own writes (R660). -/
def execCalendarSlot (s : State) : Host.Outcome State Fault Refusal :=
  if slotOf s.now ≤ s.brk.slot then .next s
  else
    let s := { s with brk := { s.brk with slot := slotOf s.now, bookings := s.brk.bookings.filter fun b => decide (slotOf s.now < b.first + b.slots) } }
    .next (s.queues.cqs.foldl State.sendCqNotify s).flushDeltas.1

/-! ### NOP -/

/-- NOP (R280): every SIZE, reserved body, no demand. -/
def opNop : DescOp where
  sizes := [0, 1, 2, 3]
  check := fun _ d => firstFail [badFormat (d.nonzero 16 240) Cause.reserved]
  price := fun _ _ => ⟨[], 1, 0, 0⟩

/-- `NOP` (R280). -/
def execNop (d : Nat) (s : State) : Host.Outcome State Fault Refusal :=
  .next (s.work d 0x7F s.stop fun d => s.ok d.id 0 0)

/-! ### QUEUE_CREATE and the other queue commands -/

/-- A power of two from `lo` to `hi`. -/
def pow2In (v lo hi : Nat) : Bool := (List.range 17).any fun i => v == 2 ^ i && decide (lo ≤ v ∧ v ≤ hi)

/-- A structure lies wholly in one DATA cove of this shore in which the guest holds R and W (R262). -/
def State.queueArea (s : State) (g gpa n : Nat) : Bool :=
  s.isHere gpa && match s.coveAt (gpaOffset gpa) with
    | some c => decide (c.kind = .data) && inside (gpaOffset gpa) n c.base c.size && (c.grant g).r && (c.grant g).w
    | none => false

/-- Field checks of the notification fields of a CQ (Table 06-1). -/
def notifyBad (c : RelasCmd) : List (Bool × Nat) :=
  let k := c.f 38 1
  [(decide (k > 2), 38), (if k = 1 then decide (c.f 48 2 > 3) else if k = 2 then decide (c.f 48 2 > 63) else nonzero c 48 2, 48),
   (if k = 1 then decide (c.f 50 2 > 2047) else nonzero c 50 2, 50), (if k = 2 then decide (c.f 52 4 ≥ 65536) else nonzero c 52 4, 52)]

/-- QUEUE_CREATE (0x0401, R262). -/
def opQueueCreate : RelasOp where
  len := lenIs 64
  owns := fun c _ => decide (c.f 20 2 = c.guest)
  fields := fun c _ =>
    let sq := c.f 18 1 = 0
    let gpaBad (off n : Nat) : Bool := decide (c.f off 8 % n ≠ 0 ∨ c.f off 8 ≥ 2 ^ 57)
    firstBad ([(decide (c.f 16 2 > 1023), 16), (decide (c.f 18 1 > 1), 18), (if sq then decide (c.f 19 1 > 3) else nonzero c 19 1, 19),
      (nonzero c 22 2, 22), (gpaBad 24 4096, 24), (!pow2In (c.f 32 4) 64 65536, 32)] ++
      (if sq then [(decide (c.f 36 2 > 1023), 36), (decide (c.f 38 1 > 3), 38), (nonzero c 39 1, 39), (gpaBad 40 4096, 40),
        (!pow2In (c.f 48 2) 64 4096, 48), (decide (c.f 50 2 = 0 ∨ c.f 50 2 > 4096), 50), (nonzero c 52 4, 52), (gpaBad 56 8, 56)]
      else [(nonzero c 36 2, 36), (nonzero c 39 1, 39), (nonzero c 40 8, 40)] ++ notifyBad c ++ [(nonzero c 56 8, 56)]))
  denied := fun c s =>
    let g := c.f 20 2
    if c.f 18 1 = 0 then
      !(s.queueArea g (c.f 24 8) (64 * c.f 32 4) && s.queueArea g (c.f 40 8) (32 * c.f 48 2) && s.queueArea g (c.f 56 8) 8)
    else !s.queueArea g (c.f 24 8) (32 * c.f 32 4)
  limits := fun c s =>
    let mine := (s.queues.sqs.filter fun q => q.guest = c.f 20 2).length
    if c.f 18 1 = 0 then
      let quota := ((s.guestRec (c.f 20 2)).map (·.queueQuota)).getD 0
      firstBad [(decide (s.queues.sqs.length ≥ 1024), 1024), (decide (c.f 20 2 ≠ 0 ∧ mine ≥ quota), quota),
        (decide ((s.queues.sqs.filter fun q => q.cq = c.f 36 2).length ≥ 64), 64)]
    else firstBad [(decide (s.queues.cqs.length ≥ 1024), 1024)]
  conflict := fun c s =>
    let guest := (s.guestRec (c.f 20 2)).isNone
    if c.f 18 1 = 0 then
      firstBad [((s.sq (c.f 16 2)).isSome, 16), (guest, 20), (!(s.cq (c.f 36 2)).any fun q => q.guest = c.f 20 2, 36)]
    else firstBad [((s.cq (c.f 16 2)).isSome, 16), (guest, 20)]
  effect := fun c _ s =>
    if c.f 18 1 = 0 then
      let q : Sq := {
        id := c.f 16 2, guest := c.f 20 2, ring := c.f 24 8, depth := c.f 32 4, cq := c.f 36 2, maxClass := c.f 38 1,
        errGpa := c.f 40 8, errDepth := c.f 48 2, maxInflight := c.f 50 2, headGpa := c.f 56 8, ordered := bit (c.f 19 1) 0,
        stopOnRefusal := bit (c.f 19 1) 1, head := 0, tail := 0, refusals := 0, stopped := false, errWrite := 0, errPhase := true,
        errHead := 0, badDoorbells := 0, bollard := none, closing := false, nextSeq := 0, fetched := 0,
        markLatch := (List.range 6).map fun i => s.obs.counter 1 (c.f 20 2) (5 + i) }
      ({ s with queues := { s.queues with sqs := s.queues.sqs ++ [q] } }, .done)
    else
      let q : Cq := {
        id := c.f 16 2, guest := c.f 20 2, ring := c.f 24 8, depth := c.f 32 4, notifyKind := c.f 38 1, notifyPort := c.f 48 2,
        vector := c.f 50 2, agent := c.f 52 4, write := 0, phase := true, head := 0, reserved := 0, merged := 0, badDoorbells := 0 }
      ({ s with queues := { s.queues with cqs := s.queues.cqs ++ [q] } }, .done)
  objects := fun c => [(if c.f 18 1 = 0 then .sq (c.f 16 2) else .cq (c.f 16 2), 16)]

/-- The queue that QUEUE_ID and KIND name does not exist. -/
def noQueue (c : RelasCmd) (s : State) : Bool := if c.f 18 1 = 0 then (s.sq (c.f 16 2)).isNone else (s.cq (c.f 16 2)).isNone

/-- A guest credential reaches its own queues (R132). -/
def ownsQueue (c : RelasCmd) (s : State) : Bool :=
  if c.f 18 1 = 0 then (s.sq (c.f 16 2)).all fun q => q.guest = c.guest else (s.cq (c.f 16 2)).all fun q => q.guest = c.guest

def queueObj (c : RelasCmd) : Obj := if c.f 18 1 = 0 then .sq (c.f 16 2) else .cq (c.f 16 2)

/-- Abort the descriptors of an SQ at their next checkpoint (R274): one that has none completes normally. -/
def State.abortQueue (s : State) (id : Nat) : State :=
  ((s.queues.descs.filter fun d => d.queue = id ∧ d.done.isNone ∧ d.hasCheckpoints).map (·.id)).foldl
    (fun s d => s.failDesc d Status.abortedBySoftware Cause.queueAbort) s

/-- QUEUE_DESTROY (0x0402, R274). -/
def opQueueDestroy : RelasOp where
  len := lenIs 24
  owns := ownsQueue
  fields := fun c _ => firstBad [(decide (c.f 16 2 > 1023), 16), (decide (c.f 18 1 > 1), 18), (decide (c.f 19 1 > 1), 19), (nonzero c 20 4, 20)]
  conflict := fun c s => if noQueue c s ∨ (c.f 18 1 = 1 ∧ s.queues.sqs.any fun q => q.cq = c.f 16 2) then some 16 else none
  effect := fun c _ s =>
    if c.f 18 1 = 0 then
      let s := s.setSq (c.f 16 2) fun q => { q with closing := true }
      (if c.f 19 1 = 1 then s.abortQueue (c.f 16 2) else s, .pending (.queueDestroy false (c.f 16 2)))
    else (s, .pending (.queueDestroy true (c.f 16 2)))
  objects := fun c => [(queueObj c, 16)]

/-- The admission settings form of QUEUE_SET (QUEUE_ID 0xFFFF, R275); the spec gives it no bytes. The model's: KIND 0 sets
RESERVE_PCT from bytes 24–25; KIND 1 sets PLAIN_RESERVE of the pool in bytes 20–21 (0–3 host ports, 4 + 4 × bundle + class)
from bytes 24–27 Harbour bytes, 28–31 Quay bytes, 32–35 egress bytes, 36–37 deep units and 40–43 array hundredths per slot
(log entry 13). -/
def admissionFields (c : RelasCmd) : Option Nat :=
  firstBad ([(!c.stage, 6), (decide (c.f 18 1 > 1), 18), (nonzero c 19 1, 19), (nonzero c 22 2, 22)] ++
    if c.f 18 1 = 0 then [(nonzero c 20 2, 20), (decide (c.f 24 2 < 2 ∨ c.f 24 2 > 12), 24), (nonzero c 26 38, 26)]
    else [(decide (c.f 20 2 ≥ 260), 20), (nonzero c 38 2, 38), (nonzero c 44 20, 44)])

/-- The standing demand of a pool. -/
def plainDemand (c : RelasCmd) : List (Nat × Nat) :=
  let pool := c.f 20 2
  ((List.range 8).map fun k => (k, ceilDiv (c.f 24 4) 8)) ++ [(resQuay, c.f 28 4),
    (if pool < 4 then resHost pool else resEgress ((pool - 4) / 4), c.f 32 4), (resDeep, c.f 36 2), (resArray, c.f 40 4)]

/-- The admission settings take hold (R275, R302): the configured reserve, or a pool's standing reservation. -/
def State.setAdmission (s : State) (c : RelasCmd) : State :=
  if c.f 18 1 = 0 then { s with brk := { s.brk with reservePct := c.f 24 2 } }
  else { s with brk := { s.brk with
    standing := upsert (·.pool) (Standing.mk (c.f 20 2) (plainDemand c)) s.brk.standing } }

/-- SET_MASK of QUEUE_SET (R275). -/
def qMask (c : RelasCmd) (i : Nat) : Bool := bit (c.f 22 2) i

/-- QUEUE_SET (0x0403, R275, R302). -/
def opQueueSet : RelasOp where
  len := lenIs 64
  owns := ownsQueue
  fields := fun c _ =>
    if c.f 16 2 = 0xFFFF then admissionFields c
    else
      let sq := c.f 18 1 = 0
      firstBad ([(decide (c.f 16 2 > 1023), 16), (decide (c.f 18 1 > 1), 18),
        (if sq && qMask c 0 then decide (c.f 19 1 > 3) else nonzero c 19 1, 19), (nonzero c 20 2, 20),
        (decide (c.f 22 2 ≥ 16) || (if sq then qMask c 3 else qMask c 0 || qMask c 1 || qMask c 2), 22), (nonzero c 24 8, 24),
        (nonzero c 32 4, 32), (nonzero c 36 2, 36)] ++
        (if sq then [(if qMask c 1 then decide (c.f 38 1 > 3) else nonzero c 38 1, 38), (nonzero c 39 1, 39), (nonzero c 40 8, 40),
          (nonzero c 48 2, 48), (if qMask c 2 then decide (c.f 50 2 = 0 ∨ c.f 50 2 > 4096) else nonzero c 50 2, 50), (nonzero c 52 4, 52)]
        else [(nonzero c 39 1, 39), (nonzero c 40 8, 40)] ++
          (if qMask c 3 then notifyBad c else [(nonzero c 38 1, 38), (nonzero c 48 2, 48), (nonzero c 50 2, 50), (nonzero c 52 4, 52)])) ++
        [(nonzero c 56 8, 56)])
  denied := fun c _ => decide (c.f 16 2 = 0xFFFF ∧ c.guest ≠ 0)
  conflict := fun c s =>
    if c.f 16 2 = 0xFFFF then
      (if c.f 18 1 = 0 ∧ s.brk.raises.any fun r => decide (c.f 24 2 < r.pct) &&
        !s.brk.calmSince.any fun x => x.1 = r.resource then some 24 else none)
    else if noQueue c s then some 16 else none
  effect := fun c _ s =>
    if c.f 16 2 = 0xFFFF then (s.setAdmission c, .done)
    else if c.f 18 1 = 0 then
      (s.setSq (c.f 16 2) fun q =>
        let q := if qMask c 0 then { q with ordered := bit (c.f 19 1) 0, stopOnRefusal := bit (c.f 19 1) 1 } else q
        let q := if qMask c 1 then { q with maxClass := c.f 38 1 } else q
        if qMask c 2 then { q with maxInflight := c.f 50 2 } else q, .done)
    else
      (s.setCq (c.f 16 2) fun q =>
        if qMask c 3 then { q with notifyKind := c.f 38 1, notifyPort := c.f 48 2, vector := c.f 50 2, agent := c.f 52 4 } else q, .done)
  objects := fun c => if c.f 16 2 = 0xFFFF then [(.settings, 16)] else [(queueObj c, 16)]

/-- The Table 06-1 layout of a queue, bytes 16–63. -/
def sqLayout (q : Sq) : List Byte :=
  leBytes 2 q.id ++ leBytes 1 0 ++ leBytes 1 (b2n q.ordered + 2 * b2n q.stopOnRefusal) ++ leBytes 2 q.guest ++ zeros 2 ++
    leBytes 8 q.ring ++ leBytes 4 q.depth ++ leBytes 2 q.cq ++ leBytes 1 q.maxClass ++ zeros 1 ++ leBytes 8 q.errGpa ++
    leBytes 2 q.errDepth ++ leBytes 2 q.maxInflight ++ zeros 4 ++ leBytes 8 q.headGpa

def cqLayout (q : Cq) : List Byte :=
  leBytes 2 q.id ++ leBytes 1 1 ++ zeros 1 ++ leBytes 2 q.guest ++ zeros 2 ++ leBytes 8 q.ring ++ leBytes 4 q.depth ++ zeros 2 ++
    leBytes 1 q.notifyKind ++ zeros 9 ++ leBytes 2 q.notifyPort ++ leBytes 2 q.vector ++ leBytes 4 q.agent ++ zeros 8

/-- QUEUE_QUERY (0x0404, R276). -/
def opQueueQuery : RelasOp where
  len := lenIs 24
  owns := ownsQueue
  fields := fun c _ => firstBad [(decide (c.f 16 2 > 1023), 16), (decide (c.f 18 1 > 1), 18), (nonzero c 19 5, 19)]
  conflict := fun c s => if noQueue c s then some 16 else none
  effect := fun c _ s =>
    if c.f 18 1 = 0 then
      match s.sq (c.f 16 2) with
      | some q => (s, .read (sqLayout q ++ leBytes 4 q.head ++ leBytes 4 q.tail ++ leBytes 4 (s.inflight q.id) ++ leBytes 4 q.refusals))
      | none => (s, .read [])
    else match s.cq (c.f 16 2) with
      | some q => (s, .read (cqLayout q ++ leBytes 4 q.head ++ leBytes 4 q.write ++ leBytes 4 q.reserved ++ leBytes 4 0))
      | none => (s, .read [])
  objects := fun c => [(queueObj c, 16)]

end Sys2Proof.Machine
end

