-- ==== Sys2Proof/Machine/HostRows.lean ====
section
/-! DEFINITION. The host ports' commands: CXL.mem requests and their answers, snoops, link events, FLR, extents, HDM
decoders, ATS invalidations, margining, the CXL mailbox and MSI-X (spec 04: R196–R202; spec 15: R587–R614; spec 17:
R648). -/

namespace Sys2Proof.Machine

/-! ### A port loses its host, or is fenced (R202, R593, R648) -/

/-- The event of the directory came from a port. -/
def DirEvent.fromPort (p : Nat) : DirEvent → Option Nat
  | .sharedRead q tag _ _ => if q = p then some tag else none
  | .ownRead q tag _ _ => if q = p then some tag else none
  | .hostWrite q tag _ _ _ _ _ _ => if q = p then some tag else none
  | _ => none

/-- Tags of a port's CXL.mem requests that have not been answered. -/
def State.hostWaiting (s : State) (p : Nat) : List Nat :=
  (s.dir.waiting ++ s.dir.recalls.filterMap (·.event)).filterMap (DirEvent.fromPort p) ++
    (s.store.harbour.misses.map fun m => m.waiters.filterMap fun w => match w with
      | .host q tag _ _ _ => if q = p then some tag else none
      | _ => none).flatten ++
    (s.faults.deltas.filterMap fun d => match d.host with
      | some (q, tag) => if q = p then some tag else none
      | none => none)

/-- The requests of a port that have not been answered are dropped (R593). -/
def State.dropHost (s : State) (p : Nat) : State :=
  let h := s.store.harbour
  let gone (w : Waiter) : Bool := match w with
    | .host q _ _ _ _ => q == p
    | _ => false
  { s with
    dir := { s.dir with
      waiting := s.dir.waiting.filter fun e => (e.fromPort p).isNone
      recalls := s.dir.recalls.map fun r => { r with event := r.event.filter fun e => (e.fromPort p).isNone } }
    store := { s.store with harbour := { h with misses := h.misses.map fun m => { m with waiters := m.waiters.filter fun w => !gone w } } }
    faults := { s.faults with deltas := s.faults.deltas.map fun d => if d.host.any fun x => x.1 = p then { d with host := none } else d } }

/-- R202: lines that the port held in E become poisoned, it leaves every holder mask, and no recall waits for it. -/
def State.loseHolder (s : State) (p : Nat) : State :=
  let lost := (s.dir.entries.filter fun e => e.st = .owned p).map (·.line)
  let s := { s with dir := { s.dir with entries := s.dir.entries.filterMap fun (e : DirEntry) => match e.st with
    | .owned q => if q = p then none else some e
    | .shared ps =>
      let rest := ps.filter (· ≠ p)
      if rest.isEmpty then none else some { e with st := .shared rest } } }
  let s := if lost.isEmpty then s else s.poisonSectors lost
  let rs := s.dir.recalls.map fun (r : Recall) => { r with waiting := r.waiting.filter (· ≠ p) }
  let s := { s with dir := { s.dir with recalls := rs } }
  (rs.filter fun (r : Recall) => r.waiting.isEmpty).foldl State.finishRecall s

/-- A fault of a host port (Table 17-1, class 0x6). -/
def portReport (kind sev port action detail : Nat) : Report := ⟨kind, sev, 0x6, port, action, 0, 0, detail, 0⟩

/-- A port is fenced (R648): what it waits for is answered as R602 states, and R202 applies to its lines. -/
def State.fencePort (s : State) (p detail : Nat) : State :=
  if (s.port p).all (·.fenced) then s
  else
    let tags := s.hostWaiting p
    let s := s.setPort p fun x => { x with fenced := true }
    let s := (tags.foldl (fun s t => (s.count 7 p 0 1).emit (.cxlAbort p t)) (s.dropHost p)).loseHolder p
    s.report (portReport evFenced sevFailed p 7 detail)

/-- `HOST_PORT_FENCE` (R610, R648): an IDE violation fences the port; so does the sixteenth uncorrectable link error within
1 s. -/
def execHostPortFence (port : Nat) (ide : Bool) (s : State) : Host.Outcome State Fault Refusal :=
  .next (if (s.port port).isNone then s
    else if ide then ((s.count 7 port 2 1).fencePort port 2)
    else
      let recent := (((s.port port).map (·.fenceErrors)).getD []).filter fun t => decide (s.now < t + 8000000000)
      let s := s.setPort port fun x => { x with fenceErrors := recent ++ [s.now] }
      let s := s.report (portReport evFault sevUncorrected port 1 3)
      if recent.length ≥ 15 then s.fencePort port 3 else s)

/-! ### CXL.mem requests (R42, R601, R602, R604, R610) -/

/-- The completer-abort-class answer of R602: counted, recorded, and nothing on the link. -/
def State.abortHost (s : State) (port tag : Nat) : State :=
  ((s.count 7 port 0 1).relasRecord (portReport evFault sevRecovered port 1 0) 0 0).emit (.cxlAbort port tag)

/-- What a CXL.mem request of a port reaches. -/
inductive HostReach where
  | nothing
  | abort
  | line (x : HostExtent) (off : Nat)

/-- The decode and rights check of a host request (R42, R590, R601, R604, R648, Table 17-3). -/
def State.hostReach (s : State) (port addr : Nat) (a : Access) : HostReach :=
  match s.port port with
  | none => .nothing
  | some p =>
    if !p.up then .nothing
    else if p.fenced then .abort
    else match s.hdm port (addr / 64 * 64) with
      | none => .abort
      | some (x, off, _) =>
        if (x.snap.isSome && a ≠ .read) || s.quarantined x.guest || !s.allowed x.guest off 64 a then .abort else .line x off

/-- A packet outside a secure stream once the port has one (R610): discarded, counted, and an IDE violation. -/
def State.insecure (s : State) (port : Nat) (secure : Bool) : Bool := !secure && (s.port port).any (·.memSecure)
def State.discardInsecure (s : State) (port : Nat) : State := (s.count 7 port 2 1).fencePort port 2

/-- The home can not give the data (R664): the answer is poison. -/
def State.homeFenced (s : State) (off : Nat) : Bool := s.faults.selfFenced && s.faults.guarded.contains (off / granuleSize)

/-- The device state serves no CXL.mem request of a live port: WAKING (R602), HALTED and the end of an OFFLINE drain (R771, R774). -/
def State.stopped (s : State) (port : Nat) : Bool :=
  (s.shut || s.power.state == .waking) && (s.port port).any (·.up)

/-- A read of 64 bytes: of an alias under its tidemark, of region 1 through the directory, of region 0 from the Harbour. -/
def State.hostRead (s : State) (port tag addr : Nat) (own secure : Bool) : State :=
  if s.insecure port secure then s.discardInsecure port
  else if s.stopped port then
    (if s.shut then s.emit (.cxlData port tag (zeros 64) true) else s.abortHost port tag)
  else match s.hostReach port addr .read with
    | .nothing => s
    | .abort => s.abortHost port tag
    | .line x off =>
      let line := off / 64
      match x.snap with
      | some _ =>
        let b := some (x.cove, x.tidemark)
        s.hostAnswer port tag x.guest off (s.bytesBound b off 64) (s.poisonedBound b line)
      | none =>
        if s.homeFenced off then s.hostAnswer port tag x.guest off (s.bytesAt off 64) true
        else if x.region = 1 then s.dirEvent (if own then .ownRead port tag x.guest line else .sharedRead port tag x.guest line)
        else s.hostData port tag x.guest line

/-- `HOST_MEM_READ` (R604); on region 1 it asks for a shared copy. -/
def execHostMemRead (port tag addr : Nat) (secure : Bool) (s : State) : Host.Outcome State Fault Refusal :=
  .next (s.hostRead port tag addr false secure)

/-- `HOST_SHARED_READ` (R196). -/
def execHostSharedRead (port tag addr : Nat) (secure : Bool) (s : State) : Host.Outcome State Fault Refusal :=
  .next (State.hostRead s port tag addr false secure)

/-- `HOST_OWNERSHIP_READ` (R196). -/
def execHostOwnershipRead (port tag addr : Nat) (secure : Bool) (s : State) : Host.Outcome State Fault Refusal :=
  .next (s.hostRead port tag addr true secure)

/-- A write of a sector with its byte enables. A write-back that meets an outstanding recall of its line at the port is the
data of that recall (R200). -/
def State.hostWriteAt (s : State) (port tag addr : Nat) (data : List Byte) (mask : Nat) (poison kept secure : Bool) : State :=
  if s.insecure port secure then s.discardInsecure port
  else if s.stopped port then (if s.shut then s.emit (.cxlDone port tag) else s.abortHost port tag)
  else match s.hostReach port addr .write with
    | .nothing => s
    | .abort => s.abortHost port tag
    | .line x off =>
      let line := off / 64
      if s.homeFenced off then s.abortHost port tag
      else if x.region = 1 then
        let taken := (s.dir.recalls.any fun r => r.line = line ∧ r.waiting.contains port) && s.lineState line = some (.owned port)
        if taken then (s.setLine line (if kept then some (.shared [port]) else none)).hostStore port tag line data mask poison
        else s.dirEvent (.hostWrite port tag x.guest line data mask poison kept)
      else s.hostStore port tag line data mask poison

/-- `HOST_MEM_WRITE` (R601, R604, R609); on region 1 every other holder is recalled first. -/
def execHostMemWrite (port tag addr : Nat) (data : List Byte) (mask : Nat) (poison secure : Bool) (s : State) :
    Host.Outcome State Fault Refusal :=
  .next (s.hostWriteAt port tag addr data mask poison false secure)

/-- `HOST_WRITE_BACK` (R196, R200). -/
def execHostWriteBack (port tag addr : Nat) (data : List Byte) (kept poison secure : Bool) (s : State) :
    Host.Outcome State Fault Refusal :=
  .next (s.hostWriteAt port tag addr data (2 ^ 64 - 1) poison kept secure)

/-- `HOST_CLEAN_EVICTION` (R196): the port leaves the line's holders. -/
def execHostCleanEviction (port addr : Nat) (s : State) : Host.Outcome State Fault Refusal :=
  .next (match s.hostReach port addr .read with
    | .line x off =>
      let line := off / 64
      if x.region ≠ 1 then s
      else match s.lineState line with
        | some (.owned q) => if q = port then s.setLine line none else s
        | some (.shared ps) => s.setLine line (some (.shared (ps.filter (· ≠ port))))
        | none => s
    | _ => s)

/-- `BI_RESPONSE` (R197, R200, R201): it ends the port's part of a recall; one later than 4 µs is counted. -/
def execBiResponse (port line : Nat) (kept : Bool) (data : List Byte) (s : State) : Host.Outcome State Fault Refusal :=
  let late := s.dir.recalls.any fun r => r.line = line ∧ r.waiting.contains port ∧ decide (r.began + 32000 < s.now)
  .next ((if late then s.count 7 port 1 1 else s).snoopAnswer port line kept (if data.isEmpty then none else some data))

/-- `SNOOP_TIMEOUT` (R201, R648): 50 µs have passed without the port's answer: the recall ends without it, the line it held
in E is poisoned, and the port is reported and fenced. -/
def execSnoopTimeout (port line : Nat) (s : State) : Host.Outcome State Fault Refusal :=
  if s.dir.recalls.any fun r => r.line = line ∧ r.waiting.contains port ∧ decide (r.began + 400000 ≤ s.now) then
    .next (((s.count 7 port 1 1).report (portReport evFault sevUncorrected port 7 1)).fencePort port 1)
  else .next s

/-! ### Link events and FLR (R588–R593) -/

/-- Offers of region 1 that the port held go out once it can serve them (R605). -/
def State.offerHeld (s : State) (port : Nat) : State :=
  if (s.port port).any HostPort.canShare then
    (s.host.extents.filter fun x => x.port = port ∧ x.st = .held).foldl (fun s x =>
      (((s.mapExtents (fun y => y.id = x.id) fun y => { y with st := .offered }).count 7 port 3 1).extentEvent x 0).emit
        (.extentOffer port x.id)) s
  else s

/-- `HOST_LINK_UP` (R588, R589, R648): the port reaches L0 at the widest of x16, x8 and x4 that both ends support; the link
that retrains ends a fence. With it comes what the host's configuration of the function selects: back-invalidation, ATS,
PRI and D3hot (log entry 21). -/
def execHostLinkUp (port width : Nat) (bi ats pri d3hot : Bool) (s : State) : Host.Outcome State Fault Refusal :=
  if (width = 16 ∨ width = 8 ∨ width = 4) ∧ (s.port port).any fun p => !p.perst then
    let s := if bi then s else s.loseHolder port
    .next ((s.setPort port fun p => { p with
      up := true, width := width, active := width, fenced := false, biEnabled := bi, atsEnabled := ats, priEnabled := pri, d3hot := d3hot }).offerHeld port)
  else .next s

/-- A port's link goes down (R202, R593). -/
def State.linkOff (s : State) (port : Nat) : State :=
  if (s.port port).any (·.up) then
    ((s.setPort port fun p => { p with up := false, active := 0 }).dropHost port).loseHolder port
  else s

/-- The link of a port is lost: an unannounced capacity reduction (R589). -/
def State.linkLost (s : State) (port : Nat) : State :=
  if (s.port port).any (·.up) then ((s.linkOff port).singleFault 0x6).report (portReport evCapacityReduced sevFailed port 9 0)
  else s

/-- `HOST_LINK_DOWN` (R593). -/
def execHostLinkDown (port : Nat) (s : State) : Host.Outcome State Fault Refusal := .next (s.linkLost port)

/-- `HOST_LINK_WIDTH_DROP` (R589): the egress capacity keeps the width of entry into L0; the drop is a single fault. -/
def execHostLinkWidthDrop (port width : Nat) (s : State) : Host.Outcome State Fault Refusal :=
  if (s.port port).any fun p => p.up && decide (width < p.active ∧ 0 < width) then
    .next (((s.setPort port fun p => { p with active := width }).singleFault 0x6).report (portReport evCapacityReduced sevRecovered port 9 width))
  else .next s

/-- What an FLR clears (R592): the MSI-X table, ATS and PRI state and the IDE streams; page requests of the port fail; the
mailboxes' commands complete without a response; a fence ends (R648). -/
def State.flr (s : State) (port : Nat) : State :=
  let reqs := s.queues.pageReqs.filter fun p => p.port = port ∧ (p.kind = .pri ∨ p.kind = .ats)
  let s := reqs.foldl (fun s p => s.failWalk p Cause.timeout) s
  let s := s.setPort port fun p => { p with
    unmasked := [], msixPending := [], atsEnabled := false, priEnabled := false, invalidations := [], memSecure := false, ioSecure := false, fenced := false }
  { s with inn := { s.inn with boxes := (s.inn.boxes.filter fun (b : Mailbox) => b.port ≠ port || b.busy).map fun b =>
      if b.port = port then { b with mute := true } else b } }

/-- `FLR` (R592). -/
def execFlr (port : Nat) (s : State) : Host.Outcome State Fault Refusal :=
  if (s.port port).isSome then .next (s.flr port) else .next s

/-! ### Extents and decoders (R596–R605) -/

/-- `EXTENT_OFFER` (R596, R597): the pair holds and has no extent, the host has not rejected it, and the port has room. -/
def execExtentOffer (port cove guest : Nat) (s : State) : Host.Outcome State Fault Refusal :=
  match s.cove cove with
  | none => .next s
  | some c =>
    if (s.extentsWanted port).contains (cove, guest) ∧ s.dataExtents port < 4096 then
      .next (s.offerExtent port (regionOf c.coherence) c.size cove guest none 0 (c.grant guest).code)
    else .next s

/-- An extent leaves the port's tables; with it ends the handle of a closed alias (R254, R600). -/
def State.removeExtent (s : State) (x : HostExtent) : State :=
  let s := s.dropExtents fun y => y.id = x.id
  match x.snap with
  | some h => { s with store := { s.store with snaps := s.store.snaps.filter fun y => !(y.handle == h && y.state == .releasing) } }
  | none => s

/-- `EXTENT_FORCED_RELEASE` (R600): 1 s after the request. -/
def execExtentForcedRelease (port extent : Nat) (s : State) : Host.Outcome State Fault Refusal :=
  .next (match s.host.extents.find? fun x => x.port = port ∧ x.id = extent with
    | none => s
    | some x => match x.st with
      | .releasing since _ =>
        if since + 8000000000 ≤ s.now then ((s.removeExtent x).count 7 port 4 1).extentEvent x 2 else s
      | _ => s)

/-- `ADD_DYNAMIC_CAPACITY_RESPONSE` (R599). -/
def execAddDynamicCapacityResponse (port extent : Nat) (accept : Bool) (s : State) : Host.Outcome State Fault Refusal :=
  .next (match s.host.extents.find? fun x => x.port = port ∧ x.id = extent ∧ x.st = .offered with
    | none => s.emit (.cxl port (leBytes 2 2))
    | some x =>
      let s := s.emit (.cxl port (leBytes 2 0))
      if accept then s.mapExtents (fun y => y.id = extent) fun y => { y with st := .accepted }
      else
        let s := s.removeExtent x
        if x.snap.isSome then s else s.setPort port fun p => { p with rejected := p.rejected ++ [(x.cove, x.guest)] })

/-- `RELEASE_DYNAMIC_CAPACITY` (R254, R600): the host gives an extent back. -/
def execReleaseDynamicCapacity (port extent : Nat) (s : State) : Host.Outcome State Fault Refusal :=
  .next (match s.host.extents.find? fun x => x.port = port ∧ x.id = extent ∧ x.st ≠ .held with
    | none => s.emit (.cxl port (leBytes 2 2))
    | some x =>
      let gone := (s.dir.entries.filter fun e => (e.st.ports.contains port) && (s.cove x.cove).any fun c =>
        decide (c.base / 64 ≤ e.line ∧ e.line < (c.base + c.size) / 64)).map (·.line)
      let alone := !(s.host.extents.any fun y => y.port = port ∧ y.cove = x.cove ∧ y.id ≠ x.id ∧ y.snap.isNone)
      let s := if x.region = 1 && alone then gone.foldl (fun s l => match s.lineState l with
          | some (.shared ps) => s.setLine l (some (.shared (ps.filter (· ≠ port))))
          | _ => s.setLine l none) s else s
      (s.removeExtent x).emit (.cxl port (leBytes 2 0)))

/-- The rules of R603. -/
def decoderBad (d : Decoder) : Bool :=
  let region := d.dpa / 2 ^ 48
  decide (d.index ≥ 8 ∨ d.size = 0 ∨ d.size % 2 ^ 28 ≠ 0 ∨ d.dpa % 2 ^ 28 ≠ 0 ∨ region > 2 ∨ (d.dpa + d.size - 1) / 2 ^ 48 ≠ region) ||
    (d.bi != decide (region = 1))

/-- `HDM_DECODER_COMMIT` (R603, R605). -/
def execHdmDecoderCommit (port index base size dpa : Nat) (bi : Bool) (s : State) : Host.Outcome State Fault Refusal :=
  let d : Decoder := ⟨index, base, size, dpa, bi⟩
  .next (if (s.port port).isNone then s
    else if decoderBad d then s.setPort port fun p => { p with
      badDecoders := setAdd index p.badDecoders, decoders := p.decoders.filter fun x => x.index ≠ index }
    else (s.setPort port fun p => { p with
      badDecoders := p.badDecoders.filter (· ≠ index), decoders := (p.decoders.filter fun x => x.index ≠ index) ++ [d] }).offerHeld port)

/-! ### ATS invalidation (R612) -/

/-- `ATS_INVALIDATION` (R612): held until every descriptor and held walk with an overlapping translation is over; at most 32
at once. -/
def execAtsInvalidation (port tag pasid gva len : Nat) (s : State) : Host.Outcome State Fault Refusal :=
  .next (match s.port port with
    | none => s
    | some p =>
      if p.invalidations.length ≥ 32 then s
      else
        let hit (l : List AtsEntry) : Bool := l.any fun e => overlaps e.gva e.len gva len
        let ds := (s.queues.descs.filter fun d => d.guest = pasid ∧ hit d.ats).map (·.id)
        let ws := (s.queues.pageReqs.filter fun r => r.guest = pasid ∧ hit r.ats).map (·.queue)
        (s.setPort port fun p => { p with invalidations := p.invalidations ++ [⟨tag, ds, ws⟩] }).mapInvalidations id)

/-! ### Margining (R591) and MSI-X (R613) -/

/-- Margining Ready (R591). -/
def State.marginReady (s : State) (port : Nat) : Bool :=
  !(s.power.state == .service && s.host.extents.any fun x => x.port = port ∧ x.st = .accepted)

/-- The values of Table 15-2, in its order; last the Margining Ready bit. -/
def State.marginValue (s : State) (port item : Nat) : Nat :=
  match item with
  | 0 => 16 | 1 => 25 | 2 => 32 | 3 => 160 | 4 => 1 | 5 => 1 | 6 => 1 | 7 => 1
  | _ => b2n (s.marginReady port)

/-- `MARGINING_COMMAND` (R591). -/
def execMarginingCommand (port item : Nat) (s : State) : Host.Outcome State Fault Refusal :=
  .next (if (s.port port).any (·.up) then s.emit (.margin port (s.marginValue port item)) else s)

/-- `MSIX_UNMASK` (R613): the message that waited is sent, one for all that merged. -/
def execMsixUnmask (port vector : Nat) (s : State) : Host.Outcome State Fault Refusal :=
  .next (match s.port port with
    | none => s
    | some p =>
      if vector ≥ 2048 then s
      else
        let s := s.setPort port fun p => { p with unmasked := setAdd vector p.unmasked, msixPending := p.msixPending.filter (· ≠ vector) }
        if p.msixPending.contains vector then s.msix port vector else s)

/-! ### The CXL mailbox (R595, R606, R609, R614); the layouts are those of CXL 3.1 (log entry 22) -/

/-- A command that succeeded answers with its payload. -/
def State.cxlOk (s : State) (port : Nat) (payload : List Byte) : State :=
  if (s.port port).isSome then s.emit (.cxl port (leBytes 2 0 ++ payload)) else s

/-- `IDENTIFY_MEMORY_DEVICE` (Table 15-6): capacities zero; firmware revision and log sizes are the unit's. -/
def execIdentifyMemoryDevice (port : Nat) (s : State) : Host.Outcome State Fault Refusal :=
  .next (s.cxlOk port (leBytes 16 (Config.unit 40) ++ zeros 32 ++ leBytes 8 (Config.unit 41) ++ zeros 4 ++ leBytes 3 1024 ++ zeros 4 ++
    leBytes 2 (Config.unit 42)))

/-- The command effects log: opcode and effect of each command of Table 15-6. -/
def effectsLog : List Byte :=
  ([0x0100, 0x0101, 0x0300, 0x0301, 0x0400, 0x0401, 0x4000, 0x4200, 0x4300, 0x4800, 0x4801, 0x4802, 0x4803].map fun op =>
    leBytes 2 op ++ leBytes 2 (Config.unit (0x10000 + op))).flatten

/-- UUID of the command effects log. -/
def effectsUuid : List Byte :=
  leBytes 4 0x0DA9C0B5 ++ leBytes 2 0xBF41 ++ leBytes 2 0x4B78 ++ [0x8F, 0x79, 0x96, 0xB1, 0x62, 0x3B, 0x3F, 0x17]

/-- `GET_SUPPORTED_LOGS` (Table 15-6): the command effects log only. -/
def execGetSupportedLogs (port : Nat) (s : State) : Host.Outcome State Fault Refusal :=
  .next (s.cxlOk port (leBytes 2 1 ++ zeros 6 ++ effectsUuid ++ leBytes 4 effectsLog.length))

/-- `GET_LOG` (Table 15-6). -/
def execGetLog (port off len : Nat) (s : State) : Host.Outcome State Fault Refusal :=
  .next (s.cxlOk port ((effectsLog.drop off).take len))

/-- One event record: number, kind, time (tidetime, R49), DPA, length, region and tag. -/
def CxlEvent.bytes (e : CxlEvent) : List Byte :=
  leBytes 2 e.number ++ leBytes 1 e.kind ++ leBytes 1 e.region ++ zeros 4 ++ leBytes 8 e.time ++ leBytes 8 e.dpa ++ leBytes 8 e.size ++ fit 16 e.tag

/-- `GET_EVENT_RECORDS` (Table 15-6). -/
def execGetEventRecords (port : Nat) (s : State) : Host.Outcome State Fault Refusal :=
  let es := ((s.port port).map (·.events)).getD []
  .next (s.cxlOk port (leBytes 2 es.length ++ (es.map CxlEvent.bytes).flatten))

/-- `CLEAR_EVENT_RECORDS` (Table 15-6): the records up to a number. -/
def execClearEventRecords (port number : Nat) (s : State) : Host.Outcome State Fault Refusal :=
  .next ((s.setPort port fun p => { p with events := p.events.filter fun e => decide (number < e.number) }).cxlOk port [])

/-- `GET_DYNAMIC_CAPACITY_CONFIGURATION` (R595): the regions of Table 15-4: base, length, block size and DSMAS handle. -/
def execGetDynamicCapacityConfiguration (port : Nat) (s : State) : Host.Outcome State Fault Refusal :=
  .next (s.cxlOk port (leBytes 1 3 ++ leBytes 1 3 ++ zeros 6 ++ (([0, 1, 2] : List Nat).map fun r =>
    leBytes 8 (r * 2 ^ 48) ++ leBytes 8 (2 ^ 20) ++ leBytes 8 (2 ^ 48) ++ leBytes 8 mib2 ++ leBytes 4 r ++ zeros 4).flatten))

/-- Accepted extents of a port, in ascending DPA. -/
def State.acceptedOn (s : State) (port : Nat) : List HostExtent :=
  sortBy (fun a b => decide (a.dpa ≤ b.dpa)) (s.host.extents.filter fun x => x.port = port ∧ x.st = .accepted)

/-- `GET_DYNAMIC_CAPACITY_EXTENT_LIST` (R598, Table 15-6); the generation number is a free value. -/
def execGetDynamicCapacityExtentList (port : Nat) (s : State) : Host.Outcome State Fault Refusal :=
  let xs := s.acceptedOn port
  .next (s.drew.cxlOk port (leBytes 4 xs.length ++ leBytes 4 xs.length ++ leBytes 4 s.nextFree ++ zeros 4 ++
    (xs.map fun x => leBytes 8 x.dpa ++ leBytes 8 x.size ++ x.tag ++ zeros 8).flatten))

/-- Poisoned sectors of a port's accepted extents, by DPA, ascending (R609). -/
def State.poisonList (s : State) (port : Nat) : List Nat :=
  ((s.acceptedOn port).map fun x => match s.cove x.cove with
    | none => []
    | some c =>
      let b := if x.snap.isSome then some (x.cove, x.tidemark) else none
      let inImages := match x.snap, c.versions with
        | some _, some v => (v.images.map (·.poisoned)).flatten
        | _, _ => []
      sortBy (· ≤ ·) (((uniq (s.store.poison ++ inImages)).filter fun sec =>
        decide (c.base ≤ 64 * sec ∧ 64 * sec < c.base + c.size) && s.poisonedBound b sec).map fun sec => x.dpa + (64 * sec - c.base))).flatten

/-- `GET_POISON_LIST` (R609): at most 1,024 sectors, with the more-records flag when there are more. -/
def execGetPoisonList (port : Nat) (s : State) : Host.Outcome State Fault Refusal :=
  let l := s.poisonList port
  .next (s.cxlOk port (leBytes 1 (b2n (decide (l.length > 1024))) ++ zeros 9 ++ leBytes 2 (min l.length 1024) ++ zeros 20 ++
    ((l.take 1024).map fun a => leBytes 8 a ++ leBytes 4 1 ++ zeros 4).flatten))

/-- `SET_TIMESTAMP` (R614): accepted; tidetime does not change. -/
def execSetTimestamp (port ns : Nat) (s : State) : Host.Outcome State Fault Refusal :=
  .next ((s.setPort port fun p => { p with timestamp := u64 ns, timestampAt := s.now }).cxlOk port [])

/-- `GET_TIMESTAMP` (R614): the timestamp set, moved on by the time that has passed; 0 while none has been set. -/
def execGetTimestamp (port : Nat) (s : State) : Host.Outcome State Fault Refusal :=
  .next (s.cxlOk port (leBytes 8 (match s.port port with
    | some p => if p.timestamp = 0 then 0 else u64 (p.timestamp + (s.now - p.timestampAt) / 8)
    | none => 0)))

end Sys2Proof.Machine
end

