-- ==== Sys2Proof/Machine/LinkRows.lean ====
section
/-! DEFINITION. Links at work: received frames, replay, lanes and failover, loss, training, keys and calibration, and the
bundle, fabric and link commands (spec 14: R542–R566; spec 18: R703). -/

namespace Sys2Proof.Machine

/-! ### CRC-32C (Table 14-2 SLOT_CRC) -/

/-- One bit of the reflected CRC-32C register. -/
def crcBit (c : Nat) : Nat := if c % 2 = 1 then (c / 2) ^^^ 0x82F63B78 else c / 2

def crcByte (c : Nat) (b : Byte) : Nat :=
  let x := c ^^^ b.toNat
  crcBit (crcBit (crcBit (crcBit (crcBit (crcBit (crcBit (crcBit x)))))))

/-- CRC-32C of a byte list. -/
def crc32c (b : List Byte) : Nat := (b.foldl crcByte 0xFFFFFFFF) ^^^ 0xFFFFFFFF

/-! ### Reports about links (Table 17-1 class 0x3) -/

/-- The unit number of a wavelength of a link; 15 names the whole link. -/
def linkUnit (link chan : Nat) : Nat := link * 16 + chan

/-- A fault of a link or a wavelength. -/
def linkReport (kind sev link chan action : Nat) : Report := ⟨kind, sev, 0x3, linkUnit link chan, action, 0, 0, 0, 0⟩

/-! ### Sending frames -/

/-- The ACK field of a link's trailer: the last accepted flit (R547). -/
def Link.ackField (l : Link) (nak : Bool) : Nat := (l.recvSeq + 4095) % 4096 + 2 ^ 12 + b2n nak * 2 ^ 13

/-- A trailer (Table 14-2); GCM_TAG is the cipher's (log entry 9). -/
def trailerOf (l : Link) (firstSeq : Nat) (nak : Bool) (flits : List Flit) (maint : Nat × Nat) (effect data : Nat) : List Byte :=
  let map := 2 ^ flits.length - 1 + b2n l.txPhase * 2 ^ 31
  let crcs := ((flits.map fun f => leBytes 4 (crc32c f.bytes)).flatten ++ zeros 72).take 72
  let pools := ((flits.map fun f => leBytes 1 (f.tc + f.vc * 4 + b2n f.rsp * 8 + b2n f.fin * 16)).flatten ++ zeros 18).take 18
  let creds := (List.range 32).map fun p => BitVec.ofNat 8 (countOf l.freed p)
  let body := leBytes 2 (firstSeq % 4096) ++ leBytes 2 (l.ackField nak) ++ leBytes 4 map ++ crcs ++ pools ++ creds ++ leBytes 1 maint.1 ++
    leBytes 1 maint.2 ++ leBytes 8 effect ++ leBytes 6 data ++ zeros 94
  body ++ leBytes 16 (Config.crypto body)

/-- Send one frame on a link: its trailer returns the freed credits, and the frame count rises (R544, R555). -/
def State.sendFrame (s : State) (link firstSeq : Nat) (nak : Bool) (flits : List Flit) (maint : Nat × Nat) (effect data : Nat) : State :=
  match s.link link with
  | none => s
  | some l =>
    let s := s.emit (.frame link (trailerOf l firstSeq nak flits maint effect data) (flits.zipIdx.map fun x => (x.2, x.1)))
    s.setLink link fun l => { l with txFrames := u64 (l.txFrames + 1), genFrames := l.genFrames + 1, freed := [] }

/-- Replay every held flit, in order and with its number, in frames of 18 (R548). -/
def State.sendReplay : Nat → Nat → List (Nat × Flit) → State → State
  | 0, _, _, s => s
  | _ + 1, _, [], s => s
  | f + 1, link, (q, x) :: rest, s =>
    let head := ((q, x) :: rest).take 18
    State.sendReplay f link (((q, x) :: rest).drop 18) (s.sendFrame link q false (head.map (·.2)) (0, 0) 0 0)

/-- A link goes out of service (R554): the flits it held unacknowledged, and those that waited, go first on another link of its
bundle; rings and reports learn of it. -/
def State.linkDown (s : State) (link : Nat) (again : Bool) : State :=
  match s.link link with
  | none => s
  | some l =>
    if l.state ≠ .up then s
    else
      let s := s.setLink link fun l => { l with
        state := if again then .training else .down, step := 0, retryAt := s.now, replay := [], waiting := [], credits := [], maint := [] }
      let s := match s.fabric.bundles.find? fun b => b.links.contains link with
        | none => s
        | some b => match s.upLinks b with
          | [] => s
          | k :: _ =>
            let moved : List (Flit × Option (Nat × SxfMsg)) := (l.replay.map fun (x : Nat × Flit) => (x.2, none)) ++ l.waiting
            (s.setLink k fun x => { x with waiting := moved ++ x.waiting }).pumpLink k
      s.spanChanged

/-- Loss of a whole link as a fault (R306, R554). -/
def State.loseLink (s : State) (link : Nat) : State :=
  if (s.link link).any fun l => l.state = .up then ((s.linkDown link false).singleFault 0x3).report (linkReport evFault sevFailed link 15 9)
  else s

/-- A replay (R548): counted; 16 within 1 ms are reported, and the link goes down. -/
def State.replay (s : State) (link : Nat) : State :=
  match s.link link with
  | none => s
  | some l =>
    if l.replay.isEmpty then s
    else
      let times := (l.replayTimes.filter fun t => decide (s.now < t + 8000000)) ++ [s.now]
      let s := s.setLink link fun l => { l with replays := l.replays + 1, replayTimes := times, ackedAt := s.now }
      let s := (State.sendReplay (l.replay.length + 1) link l.replay s).report (linkReport evFault sevCorrected link 15 2)
      if times.length ≥ 16 then s.loseLink link else s

/-- Acknowledged flits leave the replay buffer (R546). -/
def Link.acked (l : Link) (seq now : Nat) : Link :=
  match l.replay.findIdx? fun x => x.1 = seq with
  | some i => { l with replay := l.replay.drop (i + 1), ackedAt := now }
  | none => { l with ackedAt := now }

/-! ### FRAME (R543–R548, R553, R556) -/

/-- Flits of a frame in slot order, each checked: number, codewords, CRC, and the frame's tag (R547). The link afterwards, and
whether a flit failed. -/
def Link.takeFlits (l : Link) (trailer : List Byte) (slots : List (Nat × List Byte)) (bad : List Nat) (tagOk : Bool) : Link × Bool :=
  let first := fld trailer 0 2 % 4096
  let map := fld trailer 4 4
  ((List.range 18).foldl (fun (a : Link × Bool × Nat) k =>
    let (l, failed, n) := a
    if !bit map k then a
    else
      let seq := (first + n) % 4096
      let data := ((slots.find? fun x => x.1 = k).map (·.2)).getD []
      let pool := fld trailer (80 + k) 1
      let p := pool % 4 * 8 + bits pool 2 2 * 4 + bits pool 3 3 * 2 + bits pool 4 4
      if seq ≠ l.recvSeq then (l, failed, n + 1)
      else if tagOk && !bad.contains k && crc32c data == fld trailer (8 + 4 * k) 4 then
        ({ l with recvSeq := (l.recvSeq + 1) % 4096, accepted := l.accepted + 1, nakSent := false,
                  freed := setCount l.freed p (countOf l.freed p + 1) }, failed, n + 1)
      else (l, true, n + 1)) (l, false, 0)) |> fun x => (x.1, x.2.1)

/-- A frame's maintenance field (R553, R559, R566). -/
def State.maintenance (s : State) (link : Nat) (t : List Byte) : State :=
  let lane := fld t 131 1
  match fld t 130 1 with
  | 1 =>
    let at' := ((s.link link).map (·.txFrames)).getD 0 + 4
    (s.setLink link fun l => { l with effectFrame := some (lane, at') }).sendFrame link 0 false [] (2, lane) at' 0
  | 2 => s.setLink link fun l => { l with effectFrame := some (lane, fld t 132 8) }
  | 4 => s.setLink link fun l => { l with peerShore := fld t 140 2, peerLink := fld t 142 2, peerAgent := fld t 144 2 }
  | _ => s

/-- A received frame (R547, R548, R553, R555, R556, R576): `bad` names the slots whose codewords did not decode, `corrected` counts
corrected codewords, `tagOk` tells whether the GCM check passed. A message of an accepted flit reaches the shore as its own
command (log entry 18). -/
def State.takeFrame (s : State) (link : Nat) (t : List Byte) (slots : List (Nat × List Byte)) (bad : List Nat) (corrected : Nat) (tagOk : Bool) :
    State :=
  match s.link link with
  | none => s
  | some l0 =>
    if l0.state ≠ .up ∧ ¬ (l0.state = .training ∧ l0.step ≥ 5) then s
    else
      let (l1, failed) := l0.takeFlits t slots bad tagOk
      let tagTimes := if tagOk then l1.tagTimes else (l1.tagTimes.filter fun x => decide (s.now < x + 8000000000)) ++ [s.now]
      let nak := failed && !l1.nakSent
      let phase := bit (fld t 4 4) 31
      let l2 := { l1 with
        corrected := l1.corrected + corrected
        undecodable := l1.undecodable + bad.length
        tagFails := l1.tagFails + b2n (!tagOk)
        tagTimes := tagTimes
        nakSent := l1.nakSent || failed
        rxPhase := if tagOk then phase else l1.rxPhase
        keyGenRx := if tagOk && phase != l1.rxPhase then l1.keyGenRx + 1 else l1.keyGenRx }
      let l3 := if tagOk then { l2 with credits := (List.range 32).foldl (fun c p =>
        let n := fld t (98 + p) 1
        if n = 0 then c else setCount c p (countOf c p + n)) l2.credits } else l2
      let ackSeq := fld t 2 2 % 4096
      let l4 := if tagOk && (bit (fld t 2 2) 12 || bit (fld t 2 2) 13) then l3.acked ackSeq s.now else l3
      let s := (s.setLink link fun _ => l4).pumpLink link
      let s := if tagOk && bit (fld t 2 2) 13 then s.replay link else s
      let s := if tagOk then s.maintenance link t else s
      let s := if bits (fld t 4 4) 17 0 ≠ 0 then s.sendFrame link 0 nak [] (0, 0) 0 0 else s
      if tagTimes.length ≥ 16 ∧ !tagOk then (s.linkDown link false).report ⟨evFault, sevUncorrected, 0x3, linkUnit link 15, 7, 0, 0, 0, 0⟩ else s

/-- `FRAME` (R547). -/
def execFrame (link : Nat) (trailer : List Byte) (slots : List (Nat × List Byte)) (bad : List Nat) (corrected : Nat) (tagOk : Bool) (s : State) :
    Host.Outcome State Fault Refusal := .next (s.takeFrame link trailer slots bad corrected tagOk)

/-- `REPLAY_TIMEOUT` (R548): no acknowledgement for 10 µs. -/
def execReplayTimeout (link : Nat) (s : State) : Host.Outcome State Fault Refusal :=
  .next (match s.link link with
    | some l => if l.state = .up ∧ !l.replay.isEmpty ∧ l.ackedAt + 80000 ≤ s.now then s.replay link else s
    | none => s)

/-! ### Lanes (R550–R554, R542) -/

/-- The 9th wavelength is a spare (R550). -/
def Profile.spareLane (p : Profile) : Bool := match p with | .l => true | .xl => true | _ => false

/-- The lane map and spare that a link starts with, its failed wavelengths left out (R550, R553). -/
def startLanes (p : Profile) (failed : List Nat) : List Nat × Option Nat :=
  let good := (List.range 9).filter fun k => !failed.contains k
  if p.spareLane then (good.take 8, good[8]?) else (good, none)

/-- A lane fails (R551, R552, Table 14-3): the spare takes its place, or it is dropped from nine, or the link goes down. A failover
is applied by LANE_MAP_APPLY. -/
def State.failLane (s : State) (link lane : Nat) : State :=
  match s.link link with
  | none => s
  | some l =>
    match l.laneMap[lane]? with
    | none => s
    | some wave =>
      let s := s.setLink link fun l => { l with failedWaves := setAdd wave l.failedWaves }
      if l.spare.isSome then
        ((s.setLink link fun l => { l with maint := l.maint ++ [(1, lane)] }).sendFrame link 0 (!l.nakSent) [] (1, lane) 0 0).report
          (linkReport evSpareSwitch sevRecovered link wave 3)
      else if l.laneMap.length = 9 then
        (s.setLink link fun l => { l with laneMap := l.laneMap.eraseIdx lane }).report (linkReport evFault sevRecovered link wave 3)
      else s.loseLink link

/-- `LANE_FAIL` (R551). -/
def execLaneFail (link lane : Nat) (s : State) : Host.Outcome State Fault Refusal :=
  .next (if (s.link link).any fun l => l.state = .up then (s.failLane link lane).singleFault 0x3 else s)

/-- `LANE_MAP_APPLY` (R553): at EFFECT_FRAME the spare wavelength takes the failed lane's place, and the sender replays. -/
def execLaneMapApply (link : Nat) (s : State) : Host.Outcome State Fault Refusal :=
  .next (match s.link link with
    | none => s
    | some l => match l.effectFrame, l.spare with
      | some (lane, _), some sp =>
        let s := s.setLink link fun l => { l with
          laneMap := l.laneMap.set lane sp, spare := none, effectFrame := none, maint := l.maint.filter fun m => m.1 ≠ 1
          failedWaves := match l.laneMap[lane]? with
            | some w => setAdd w l.failedWaves
            | none => l.failedWaves }
        s.replay link
      | some _, none => s.setLink link fun l => { l with effectFrame := none }
      | none, _ => s)

/-- A wavelength's light of an input has left its range (R542): the lane that uses it fails on the four links; a spare that
loses its light is no longer available. Loss of a whole input (wavelength 9) takes the links down. -/
def State.lightLost (s : State) (input wave : Nat) : State :=
  let links := span (4 * input) 4
  if wave ≥ 9 then links.foldl (fun s l => s.loseLink l) s
  else links.foldl (fun s k => match s.link k with
    | none => s
    | some l =>
      if l.spare = some wave then s.setLink k fun l => { l with spare := none, failedWaves := setAdd wave l.failedWaves }
      else match l.laneMap.findIdx? fun w => w = wave with
        | some lane => if l.state = .up then s.failLane k lane else s.setLink k fun l => { l with failedWaves := setAdd wave l.failedWaves }
        | none => s) s

/-- `LIGHT_OUT_OF_RANGE` (R542). -/
def execLightOutOfRange (input wavelength : Nat) (s : State) : Host.Outcome State Fault Refusal :=
  .next (if input < 16 then s.lightLost input wavelength else s)

/-- `LINK_LOSS` (R554). -/
def execLinkLoss (link : Nat) (s : State) : Host.Outcome State Fault Refusal := .next (s.loseLink link)

/-! ### Training (R557–R559) -/

/-- The bound of a training step in ticks (Table 14-4). -/
def trainBound (step : Nat) : Nat :=
  match step with
  | 1 => 8000000
  | 2 => 160000000
  | 3 => 120000000
  | 4 => 40000000
  | _ => 8000000

/-- IDENT does not fit the bundle that names the link (R559): a causeway's peer is not PEER_SHORE, or a jetty's peer is a shore. -/
def State.identHeld (s : State) (link peer : Nat) : Bool :=
  match s.fabric.bundles.find? fun b => b.links.contains link with
  | none => false
  | some b => if b.kind = .causeway then peer != b.peer else peer != 0x3FE

/-- Credits that this shore advertises on a link that comes up: 512 flits in all, 16 in each pool (R576). -/
def startCredits : List (Nat × Nat) := (List.range 32).map fun p => (p, 16)

/-- The last training step has passed (R557, R559): the link is up, or held at step 5. -/
def State.linkTrained (s : State) (link peer peerLink agent : Nat) : State :=
  let held := s.identHeld link peer
  let was := ((s.link link).map (·.retrain)).getD false
  let s := s.setLink link fun l =>
    let clean := if l.retrain then [] else l.failedWaves
    let (map, spare) := startLanes s.fabric.profile clean
    { l with
      state := if held then .training else .up, step := 5, peerShore := peer, peerLink := peerLink, peerAgent := agent
      heldIdent := held, laneMap := map, spare := spare, failedWaves := clean, sendSeq := 0, recvSeq := 0, replay := [], nakSent := false
      ackedAt := s.now, freed := startCredits, credits := [], replayTimes := [], tagTimes := [], retrain := false }
  if held then s.report (linkReport evFault sevUncorrected link 15 0)
  else
    let t := ((s.link link).map (·.recalTicket)).getD 0
    let s := if was ∧ t ≠ 0 then (s.endTicket t Result.done 0 5).setLink link fun l => { l with recalTicket := 0 } else s
    s.spanChanged

/-- `LINK_TRAIN_STEP` (R557): a step has finished; the next begins, and step 5 brings the peer's IDENT. -/
def execLinkTrainStep (link peer peerLink agent : Nat) (s : State) : Host.Outcome State Fault Refusal :=
  .next (match s.link link with
    | none => s
    | some l =>
      if l.state ≠ .training then s
      else if l.step = 0 then (if l.retryAt ≤ s.now then s.setLink link fun l => { l with step := 1, stepBegan := s.now } else s)
      else if l.step < 5 then s.setLink link fun l => { l with step := l.step + 1, stepBegan := s.now }
      else s.linkTrained link peer peerLink agent)

/-- `LINK_TRAIN_TIMEOUT` (R557): a step has missed its bound; step 1 starts again after 100 ms. -/
def execLinkTrainTimeout (link : Nat) (s : State) : Host.Outcome State Fault Refusal :=
  .next (match s.link link with
    | none => s
    | some l =>
      if l.state = .training ∧ l.step ≠ 0 ∧ l.stepBegan + trainBound l.step ≤ s.now ∧ !l.heldIdent then
        s.setLink link fun l => { l with step := 0, retryAt := s.now + 800000000 }
      else s)

/-- The links of batch `k` are done with their first attempt. -/
def State.batchDone (s : State) (k : Nat) : Bool :=
  (span (8 * k) 8).all fun i => (s.link i).all fun l => l.state != .training || decide (l.retryAt > l.stepBegan)

/-- `LINK_TRAIN_BATCH` (R558): after boot, the next 8 links whose light is present start training, once the batch before has
finished or 50 ms after it started. -/
def execLinkTrainBatch (present : List Nat) (s : State) : Host.Outcome State Fault Refusal :=
  .next (
    let k := s.fabric.batch
    if !s.inn.booted ∨ k ≥ 8 then s
    else if k ≠ 0 ∧ !s.batchDone (k - 1) ∧ s.now < s.fabric.batchBegan + 400000000 then s
    else
      let s := ((span (8 * k) 8).filter present.contains).foldl (fun s i => s.setLink i fun l =>
        if l.state = .dark then { l with state := .training, step := 1, stepBegan := s.now } else l) s
      { s with fabric := { s.fabric with batch := k + 1, batchBegan := s.now } })

/-- `KEY_GENERATION_ROLL` (R703): after 2^30 frames a direction moves to the next generation and KEY_PHASE flips. -/
def execKeyGenerationRoll (link : Nat) (s : State) : Host.Outcome State Fault Refusal :=
  .next (if (s.link link).any fun l => l.state = .up ∧ l.genFrames ≥ 2 ^ 30 then
    s.setLink link fun l => { l with keyGenTx := l.keyGenTx + 1, txPhase := !l.txPhase, genFrames := 0 } else s)

/-- The rings of a link are recalibrated in service (R566). -/
def State.recalRings (s : State) (link : Nat) : State :=
  (s.setLink link fun l => { l with recalAt := s.now }).sendFrame link 0 false [] (5, 0) 0 0

/-- `RING_RECAL` (R566): every 200 ms in the background. -/
def execRingRecal (link : Nat) (s : State) : Host.Outcome State Fault Refusal :=
  .next (match s.link link with
    | some l => if l.state = .up ∧ l.recalAt + 1600000000 ≤ s.now then s.recalRings link else s
    | none => s)

/-! ### Bundle, link and fabric commands -/

def agentsOf (c : RelasCmd) : List (Nat × Nat) := (List.range (c.f 22 2)).map fun i => (c.f (40 + 4 * i) 2, c.f (42 + 4 * i) 2)
def linksOf (mask : Nat) : List Nat := (List.range 64).filter fun i => bit mask i

/-- An agent ID appears twice. -/
def dupAgents (l : List (Nat × Nat)) : Bool := (uniq (l.map (·.1))).length != l.length

/-- The neighbour of this shore in a direction (R561). -/
def State.neighbour (s : State) (d : Nat) : Nat :=
  let ring := d / 2
  let a := coordOf ring s.self
  let n := max 1 (s.fabric.size ring)
  let c := if d % 2 = 0 then (a + 1) % n else (a + n - 1) % n
  s.self + c * 8 ^ ring - a * 8 ^ ring

/-- A bundle definition fits the torus and the other bundles (R561, R562), in the state that the whole set leaves. -/
def bundleFits (c : RelasCmd) (s : State) : Bool :=
  match s.bundle (c.f 16 1) with
  | none => true
  | some b =>
    let others := s.fabric.bundles.filter fun x => x.id ≠ b.id
    let ring := b.direction / 2
    !(b.links.any fun l => others.any fun x => x.links.contains l) &&
      (b.kind = .jetty || (decide (s.fabric.size ring ≥ 2) && !(decide (s.fabric.size ring = 2) && b.direction % 2 == 1) &&
        b.peer == s.neighbour b.direction && !others.any fun x => x.kind = .causeway ∧ x.direction = b.direction))

/-- The definition that BUNDLE_SET gives. -/
def bundleOf (c : RelasCmd) : Bundle :=
  ⟨c.f 16 1, if c.f 17 1 = 1 then .causeway else .jetty, c.f 18 1, if c.f 17 1 = 1 then (if c.f 19 1 = 0 then 25 else c.f 19 1) else 0,
    c.f 20 2, agentsOf c, linksOf (c.f 24 8), false, false, 0⟩

/-- BUNDLE_SET (0x0901, R562). -/
def opBundleSet : RelasOp where
  len := fun c => let n := roundUp (40 + 4 * c.f 22 2) 8; if c.len = n then none else some n
  fields := fun c _ =>
    let k := c.f 17 1
    firstBad [(decide (c.f 16 1 > 63), 16), (decide (k > 2), 17), (if k = 1 then decide (c.f 18 1 > 5) else nonzero c 18 1, 18),
      (if k = 1 then decide (c.f 19 1 ≠ 0 ∧ (c.f 19 1 < 10 ∨ c.f 19 1 > 50)) else nonzero c 19 1, 19),
      (if k = 1 then decide (c.f 20 2 > 511) else nonzero c 20 2, 20),
      (if k = 2 then decide (c.f 22 2 = 0 ∨ c.f 22 2 > 512) else decide (c.f 22 2 ≠ 0), 22),
      (if k = 0 then nonzero c 24 8 else decide ((linksOf (c.f 24 8)).length = 0 ∨ (linksOf (c.f 24 8)).length > 16), 24), (nonzero c 32 8, 32),
      (nonzero c (40 + 4 * c.f 22 2) (c.len - 40 - 4 * c.f 22 2), 40 + 4 * c.f 22 2)]
  conflict := fun c s =>
    let new := bundleOf c
    match s.bundle (c.f 16 1) with
    | some b =>
      if b.closing then some 16
      else if b.opened ∧ c.f 17 1 ≠ 0 ∧ (b.links ≠ new.links ∨ b.kind ≠ new.kind ∨ (b.kind = .causeway ∧ (b.direction ≠ new.direction ∨ b.peer ≠ new.peer)))
      then some 17
      else if dupAgents new.agents then some 40 else none
    | none =>
      if dupAgents new.agents then some 40
      else if s.fabric.bundles.any fun b => b.closing && new.links.any b.links.contains then some 24 else none
  effect := fun c _ s =>
    let new := bundleOf c
    let rest := s.fabric.bundles.filter fun b => b.id ≠ c.f 16 1
    match s.bundle (c.f 16 1) with
    | some b =>
      if c.f 17 1 = 0 then
        (if b.opened then s.setBundle b.id fun b => { b with closing := true } else { s with fabric := { s.fabric with bundles := rest } }, .done)
      else if b.opened then (s.setBundle b.id fun b => { b with agents := new.agents, fwdPct := new.fwdPct }, .done)
      else ({ s with fabric := { s.fabric with bundles := rest ++ [new] } }, .done)
    | none => (if c.f 17 1 = 0 then s else { s with fabric := { s.fabric with bundles := rest ++ [new] } }, .done)
  objects := fun c => [(.bundle (c.f 16 1), 16)]
  consistent := bundleFits

/-- The bundle can be opened (R563): defined, not closing, and a link of it has passed step 5. -/
def State.openable (s : State) (b : Nat) : Bool := (s.bundle b).any fun x => !x.closing && !(s.upLinks x).isEmpty

/-- TAKEOVER CAPACITY when a causeway opens (R658). -/
def State.announceCapacity (s : State) : State :=
  if s.fabric.parity = 0 then s
  else s.peers.foldl (fun s x => (s.takeover x 3 s.self 0 0 s.store.capacity).1) s

/-- BUNDLE_OPEN (0x0902, R563). -/
def opBundleOpen : RelasOp where
  len := lenIs 24
  fields := fun c _ => firstBad [(decide (c.f 16 1 > 63), 16), (nonzero c 17 7, 17)]
  conflict := fun c s => if s.openable (c.f 16 1) then none else some 16
  effect := fun c _ s =>
    let s := s.setBundle (c.f 16 1) fun b => { b with opened := true }
    let mask := match s.bundle (c.f 16 1) with
      | some b => sumNat ((s.upLinks b).map (2 ^ ·))
      | none => 0
    let s := if (s.bundle (c.f 16 1)).any fun b => b.kind = .causeway then s.spanChanged.announceCapacity else s
    (s, { Reply.done with body := leBytes 8 mask })
  objects := fun c => [(.bundle (c.f 16 1), 16)]

/-- `BUNDLE_CLOSE` (R562): a bundle set to NONE closes once none of its transactions is outstanding. -/
def execBundleClose (bundle : Nat) (s : State) : Host.Outcome State Fault Refusal :=
  .next (match s.bundle bundle with
    | none => s
    | some b =>
      if b.closing ∧ !(s.inUse bundle fun _ => true) ∧
        (b.kind = .jetty ∨ !s.ord.outstanding.any fun o => (s.fabric.route s.self (s.target o.msg)) = .direction b.direction) then
        ({ s with fabric := { s.fabric with bundles := s.fabric.bundles.filter fun x => x.id ≠ bundle } }).spanChanged
      else s)

/-- The state code of a link (R565). -/
def LinkState.code : LinkState → Nat | .dark => 0 | .training => 1 | .up => 2 | .down => 3

/-- The seven figures of LINK_QUERY. -/
def Link.figures (l : Link) : List Nat := [l.sent, l.accepted, l.replays, l.corrected, l.undecodable, l.tagFails, l.recalAt]

/-- LINK_QUERY (0x0903, R565): light power and BER are what the device measures, free values. -/
def opLinkQuery : RelasOp where
  len := lenIs 24
  fields := fun c _ => firstBad [(decide (c.f 16 1 > 63), 16), (nonzero c 17 7, 17)]
  effect := fun c _ s =>
    match s.link (c.f 16 1) with
    | none => (s, .read [])
    | some l =>
      let spare := if l.spare.isSome then 1 else if s.fabric.profile.spareLane then 2 else 0
      let waves := (List.range 9).map fun i => leBytes 2 (s.freeAt (2 * i)) ++ leBytes 2 (s.freeAt (2 * i + 1))
      (s.drewN 18, .read (leBytes 1 l.state.code ++ leBytes 1 l.step ++ leBytes 1 l.laneMap.length ++ leBytes 1 spare ++
        leBytes 2 (sumNat (l.failedWaves.map (2 ^ ·))) ++ zeros 2 ++ (l.figures.map (leBytes 8)).flatten ++ waves.flatten))

/-- The link is the last one up of an open bundle. -/
def State.lastLink (s : State) (link : Nat) : Bool :=
  s.fabric.bundles.any fun b => b.opened && b.links.contains link && decide (s.upLinks b = [link])

/-- LINK_RECAL (0x0904, R566). -/
def opLinkRecal : RelasOp where
  len := lenIs 24
  fields := fun c _ => firstBad [(decide (c.f 16 1 > 63), 16), (decide (c.f 17 1 > 1), 17), (nonzero c 18 6, 18)]
  conflict := fun c s => if c.f 17 1 = 1 ∧ s.lastLink (c.f 16 1) then some 16 else none
  effect := fun c t s =>
    if c.f 17 1 = 0 then (s.recalRings (c.f 16 1), .pending (.linkRecal (c.f 16 1)))
    else
      let s := s.linkDown (c.f 16 1) true
      (s.setLink (c.f 16 1) fun l => { l with
        state := .training, step := 1, stepBegan := s.now, retrain := true, heldIdent := false, recalTicket := t }, .pending (.linkRecal (c.f 16 1)))
  objects := fun c => [(.link (c.f 16 1), 16)]

def profileOf (v : Nat) : Profile := match v with | 0 => .s | 1 => .m | 2 => .l | _ => .xl
def Profile.code : Profile → Nat | .s => 0 | .m => 1 | .l => 2 | .xl => 3

/-- The shore range of a profile (Table 17-4). -/
def Profile.range : Profile → Nat × Nat | .s => (1, 16) | .m => (17, 64) | .l => (65, 256) | .xl => (257, 512)

/-- FABRIC_SET fits (R564): coordinates below their dimensions, the shore count in the profile's range, and no cove in a
protection region (R658). -/
def fabricFits (_c : RelasCmd) (s : State) : Bool :=
  let f := s.fabric
  let n := f.dimX * f.dimY * f.dimZ
  decide (coordOf 0 f.shoreId < f.dimX ∧ coordOf 1 f.shoreId < f.dimY ∧ coordOf 2 f.shoreId < f.dimZ ∧ f.profile.range.1 ≤ n ∧ n ≤ f.profile.range.2) &&
    s.store.coves.all fun c => decide (c.base + c.size ≤ s.protBase)

/-- FABRIC_SET (0x0905, R564): the lane maps change with the profile (R550). -/
def opFabricSet : RelasOp where
  len := lenIs 24
  fields := fun c _ =>
    let dim (o : Nat) : Bool := decide (c.f o 1 = 0 ∨ c.f o 1 > 8)
    firstBad [(decide (c.f 16 2 > 511), 16), (dim 18, 18), (dim 19, 19), (dim 20, 20), (decide (c.f 21 1 > 3), 21), (nonzero c 22 2, 22)]
  conflict := fun c s => if c.f 16 2 ≠ s.fabric.shoreId ∧ s.fabric.bundles.any (·.opened) then some 16 else none
  effect := fun c _ s =>
    let p := profileOf (c.f 21 1)
    let lanes (l : Link) : Link := if p = s.fabric.profile ∨ l.state ≠ .up then l else
      let (map, spare) := startLanes p l.failedWaves
      { l with laneMap := map, spare := spare }
    -- the mirror area's default outside profile S (Table 02-7)
    let h := s.store.harbour
    let s := if !s.fabric.set && p != .s && h.mirrorGib == 0 then { s with store := { s.store with harbour := { h with mirrorGib := 16 } } } else s
    ({ s with fabric := { s.fabric with
      set := true, shoreId := c.f 16 2, dimX := c.f 18 1, dimY := c.f 19 1, dimZ := c.f 20 1, profile := p
      links := s.fabric.links.map lanes } }, .done)
  objects := fun _ => [(.fabric, 16)]
  consistent := fabricFits

end Sys2Proof.Machine
end

