-- ==== Sys2Proof/Machine/Faults.lean ====
section
/-! DEFINITION. Faults, failover and records: TAKEOVER messages, dead shores, self-fencing, protection changes, rebuilds, HBM
retirement, directory entries, reserves, event datagrams, the Logbook and the reliability commands (spec 06: R302; spec 17:
R640–R679). -/

namespace Sys2Proof.Machine

/-! ### A shore is dead (R189, R213, R663–R667) -/

/-- The response that a transaction gets when its home is dead and nothing serves it (R583, R667). -/
def deadResponse (self tag : Nat) : SxfMsg :=
  ⟨noBundle, 3, SxfMsg.rspUnit Sxf.done false false self tag Status.faultDeadTarget Cause.deadHome 0 self, []⟩

/-- A delta that this shore has sent. -/
def Outstanding.isDelta (o : Outstanding) : Bool := o.msg.op == Sxf.writeMasked && o.bundle == noBundle && o.desc.isNone

/-- A transaction whose home has died is sent again to the serving shore, or fails; a delta or a control message to it waits
no longer. -/
def State.redirect (s : State) (h : Nat) (o : Outstanding) : State :=
  if o.isDelta then (s.dropTransaction o.tag).ownResponse o
      ⟨noBundle, 3, SxfMsg.rspUnit Sxf.done false false h o.tag Status.ok 0 0 s.self, []⟩
  else if forMemory o.msg.op && !s.deadFor o.msg.gpa then
    s.send (if o.bundle = noBundle then o.msg else { o.msg.retag s.self o.tag with via := o.bundle })
  else s.takeResponse (deadResponse s.self o.tag)

/-- Mark a shore dead in the home map (R663), and resend what waited for it (Table 17-6). -/
def State.markDead (s : State) (h : Nat) : State :=
  if s.faults.dead.contains h then s
  else
    let s := { s with faults := { s.faults with
      dead := s.faults.dead ++ [h], neighbourDown := s.faults.neighbourDown.filter fun x => x.1 ≠ h } }
    let s := s.report ⟨evTakeover, sevFailed, 0, 0, 8, 0, 0, h, 0⟩
    let s := s.singleFault 0x5
    ((s.ord.outstanding.filter fun o => o.dest = h)).foldl (fun s o => s.redirect h o) s

/-- Flood a DECLARE for a shore on all open causeways (R663). -/
def State.flood (s : State) (h time : Nat) : State :=
  (s.fabric.bundles.filter fun b => b.kind = .causeway && b.opened && decide (b.peer ≠ h)).foldl
    (fun s b => (s.takeover b.peer 0 h 0 0 time).1) s

/-- This shore fences itself (R664). -/
def State.selfFence (s : State) : State :=
  if s.faults.selfFenced then s
  else ({ s with faults := { s.faults with selfFenced := true } }).report ⟨evFenced, sevFailed, 0, 0, 7, 0, 0, s.self, 0⟩

/-- `SPAN_DEAD_DETECT` (R663): every span of a ring neighbour has been down for 8 µs. -/
def execSpanDeadDetect (shore : Nat) (s : State) : Host.Outcome State Fault Refusal :=
  .next (if s.faults.neighbourDown.any fun x => x.1 = shore ∧ x.2 + 64000 ≤ s.now then (s.markDead shore).flood shore s.now else s)

/-- `SELF_FENCE` (R664): no causeway of this shore has been up for 4 µs. -/
def execSelfFence (s : State) : Host.Outcome State Fault Refusal :=
  .next (match s.faults.causewaysDown with
    | some t => if t + 32000 ≤ s.now then s.selfFence else s
    | none => s)

/-! ### TAKEOVER messages (Table 17-5) -/

def SxfMsg.toKind (m : SxfMsg) : Nat := m.gpa % 16
def SxfMsg.toSubject (m : SxfMsg) : Nat := m.gpa / 2 ^ 4 % 512
def SxfMsg.toWord (m : SxfMsg) : Nat := m.gpa / 2 ^ 13 % 65536
def SxfMsg.toField (m : SxfMsg) : Nat := m.gpa / 2 ^ 29 % 256
def SxfMsg.toPayload (m : SxfMsg) : Nat := m.f 0 16

/-- A TAKEOVER message of a kind that has reached its destination is acknowledged with CTL_ACK; one on its way goes on. -/
def State.takeoverKind (s : State) (m : SxfMsg) (kind : Nat) (f : State → State) : Host.Outcome State Fault Refusal :=
  s.arrival (m.op == Sxf.takeover && SxfMsg.toKind m == kind) fun s => s.forSelf m fun s => (f s).reply m Sxf.ctlAck Status.ok 0 0 false false []

/-- A DECLARE or SELF: the first copy is forwarded; one that names this shore makes it fence itself (R663, R664). -/
def State.learnDead (s : State) (m : SxfMsg) : State :=
  let h := SxfMsg.toSubject m
  if h = s.self then s.selfFence
  else if s.faults.dead.contains h then s
  else (s.markDead h).flood h (SxfMsg.toPayload m)

/-- `TAKEOVER_DECLARE` (R663). -/
def execTakeoverDeclare (m : SxfMsg) (s : State) : Host.Outcome State Fault Refusal := s.takeoverKind m 0 fun s => s.learnDead m

/-- `TAKEOVER_SELF` (R663). -/
def execTakeoverSelf (m : SxfMsg) (s : State) : Host.Outcome State Fault Refusal := s.takeoverKind m 1 fun s => s.learnDead m

/-- `TAKEOVER_REBUILT` (R666). -/
def execTakeoverRebuilt (m : SxfMsg) (s : State) : Host.Outcome State Fault Refusal :=
  s.takeoverKind m 2 fun s => { s with faults := { s.faults with rebuilt := setAdd (SxfMsg.toSubject m, m.src) s.faults.rebuilt } }

/-- `TAKEOVER_CAPACITY` (R658): a capacity that differs between this shore and its set's lowest ordinal is reported as class
0x2, under a unit number that the spec does not give. -/
def execTakeoverCapacity (m : SxfMsg) (s : State) : Host.Outcome State Fault Refusal :=
  s.takeoverKind m 3 fun s =>
    let before := s.takesPart
    let s := { s with faults := { s.faults with
      capacities := (s.faults.capacities.filter fun x => x.1 ≠ m.src) ++ [(m.src, SxfMsg.toPayload m)] } }
    if (s.fabric.members s.self).head? = some m.src ∧ !s.takesPart ∧ (before ∨ s.store.capacity ≠ SxfMsg.toPayload m) then
      s.drew.report ⟨evFault, sevUncorrected, 0x2, s.nextFree % 65536, 0, 0, 0, 0, 0⟩
    else s

/-- `TAKEOVER_MARK` (R661): the protected bit of a data position of a parity granule here. -/
def execTakeoverMark (m : SxfMsg) (s : State) : Host.Outcome State Fault Refusal :=
  s.takeoverKind m 4 fun s =>
    let st := s.fabric.stripe m.src (SxfMsg.toPayload m % 2 ^ 40)
    let key := ((s.ownParity st).1, st.pos)
    { s with faults := { s.faults with
      parityBits := if bit (SxfMsg.toPayload m) 64 then setAdd key s.faults.parityBits else s.faults.parityBits.filter (· ≠ key) } }

/-- A replicated change of a protected cove's state (R662, Table 17-5). -/
def Replica.change (r : Replica) (field p : Nat) : Replica :=
  match field with
  | 0 => { r with base := p }
  | 1 => { r with size := p }
  | 2 => { r with attrs := p }
  | 3 =>
    let g : Grant := ⟨p % 65536, bit p 16, bit p 17, bit p 18⟩
    let rest := r.grants.filter fun x => x.guest ≠ g.guest
    { r with grants := if g.r then rest ++ [g] else rest }
  | 4 => { r with mark := p % 2 ^ 64, publishTime := p / 2 ^ 64 }
  | 5 => { r with handles := setAdd p r.handles }
  | 6 => { r with handles := r.handles.filter (· ≠ p) }
  | _ => r

/-- `TAKEOVER_STATE` (R662). -/
def execTakeoverState (m : SxfMsg) (s : State) : Host.Outcome State Fault Refusal :=
  s.takeoverKind m 5 fun s =>
    let h := SxfMsg.toSubject m
    let cove := SxfMsg.toWord m
    let rest := s.faults.replicas.filter fun r => !(r.shore == h && r.cove == cove)
    let old := (s.faults.replicas.find? fun r => r.shore = h ∧ r.cove = cove).getD ⟨h, cove, 0, 0, 0, [], 0, 0, []⟩
    { s with faults := { s.faults with
      replicas := if SxfMsg.toField m = 7 then rest else rest ++ [old.change (SxfMsg.toField m) (SxfMsg.toPayload m)] } }

/-- `TAKEOVER_ATOMIC` (R216, R662): the record is kept for 1 ms. -/
def execTakeoverAtomic (m : SxfMsg) (s : State) : Host.Outcome State Fault Refusal :=
  s.takeoverKind m 6 fun s => { s with faults := { s.faults with
    atomics := s.faults.atomics ++ [⟨SxfMsg.toSubject m, SxfMsg.toWord m, SxfMsg.toPayload m, s.now⟩] } }

/-- `ATOMIC_RECORD_EXPIRY` (R662). -/
def execAtomicRecordExpiry (src tag : Nat) (s : State) : Host.Outcome State Fault Refusal :=
  .next { s with faults := { s.faults with
    atomics := s.faults.atomics.filter fun x => !(x.src == src && x.tag == tag && decide (x.time + 8000000 ≤ s.now)) } }

/-- The 12 attribute bytes of Table 03-9, 18–19 and 36–45, as one number (Table 17-5 field 2). -/
def Cove.attrBits (c : Cove) : Nat :=
  leNat (leBytes 2 c.owner ++ leBytes 1 c.cls.code ++ leBytes 1 (b2n (decide (c.order = .pilot))) ++
    leBytes 1 (b2n (decide (c.coherence = .sharedHdmDb))) ++ leBytes 1 (b2n c.versioned) ++ leBytes 2 c.keySlot ++
    leBytes 1 c.protection.code ++ leBytes 1 (b2n c.pullable) ++ zeros 2)

/-- What the set must learn of one cove (R662): field and payload. -/
def coveNews (old : Option Cove) (c : Cove) : List (Nat × Nat) :=
  let is {α : Type} [DecidableEq α] (f : Cove → α) : Bool := (old.map f) == some (f c)
  (if is (·.base) then [] else [(0, c.base)]) ++ (if is (·.size) then [] else [(1, c.size)]) ++
    (if is Cove.attrBits then [] else [(2, c.attrBits)]) ++
    (c.grants.filter fun g => !(old.any fun o => o.grants.contains g)).map (fun g => (3, g.guest + g.code * 2 ^ 16)) ++
    ((old.map (·.grants)).getD []).filterMap fun g => if c.grants.any fun x => x.guest = g.guest then none else some (3, g.guest)

/-- After a change of coves: protected ones are replicated to the set (R662). The EFFECT is not held back for the
acknowledgements (log entry 24). -/
def State.replicateChanges (old s : State) : State :=
  if s.fabric.parity = 0 then s
  else
    let s' := s.store.coves.foldl (fun t c =>
      if s.parityCovers c then (coveNews (old.cove c.id) c).foldl (fun t x => (t.replicate c.id x.1 x.2).1) t else t) s
    (old.store.coves.filter fun c => (s.cove c.id).isNone && old.parityCovers c).foldl (fun t c => (t.replicate c.id 7 0).1) s'

/-! ### Protection of granules and rebuilds (R661, R665, R666) -/

/-- A granule of this shore is covered by cross-shore parity (R656). -/
def State.covered (s : State) (k : Nat) : Bool :=
  decide (k < s.protBase / granuleSize) && (s.coveAt (k * granuleSize)).any s.parityCovers

/-- The whole content of a granule goes out as a delta, sector by sector (R661). -/
def State.contentDelta (s : State) (k : Nat) : State :=
  (s.sendOwed (k * granuleSize) (s.bytesAt (k * granuleSize) granuleSize)).1

/-- MARK to every live parity member of a granule's stripe (R661). -/
def State.sendMark (s : State) (k : Nat) (set : Bool) : State :=
  (s.liveParity (s.fabric.stripe s.self k)).foldl (fun s p => (s.takeover p.1 4 s.self 0 0 (k + b2n set * 2 ^ 64)).1) s

/-- `PROTECTION_UPDATE` (R661): a granule that enters or leaves protection. -/
def execProtectionUpdate (granule : Nat) (s : State) : Host.Outcome State Fault Refusal :=
  let is := s.faults.guarded.contains granule
  .next (if s.covered granule = is then s
    else
      let s := (s.contentDelta granule).sendMark granule (!is)
      { s with faults := { s.faults with
        guarded := if is then s.faults.guarded.filter (· ≠ granule) else s.faults.guarded ++ [granule] } })

/-- The shore and granule of a data position of a parity granule of this shore (R659). -/
def State.parityTarget (s : State) (idx pos : Nat) : Nat × Nat :=
  let f := s.fabric
  let ms := f.members s.self
  let n := max 1 ms.length
  let p := max 1 f.parity
  let m := f.memberIndex s.self
  let st := if idx % p = 0 then m else (m + n - 1) % n
  (ms.getD ((st + f.parity + pos) % n) 0, idx / p * (n - f.parity) + pos)

/-- Protected granules of a dead shore that this shore serves and has not rebuilt yet. -/
def State.unbuilt (s : State) (h : Nat) : List Nat :=
  (s.faults.parityBits.filterMap fun x =>
    let t := s.parityTarget x.1 x.2
    let gpa := gpaOf t.1 (t.2 * granuleSize)
    if t.1 = h ∧ s.servingFor gpa = s.self ∧ (s.takenAt gpa).isNone then some gpa else none)

/-- `PROTECTION_REBUILD` (R666): one granule of a dead shore in the background; REBUILT to every shore of the fabric once none
is left. -/
def execProtectionRebuild (gpa : Nat) (s : State) : Host.Outcome State Fault Refusal :=
  let h := gpaShore gpa
  let g := gpa / granuleSize * granuleSize
  .next (if !s.faults.dead.contains h then s
    else if (s.unbuilt h).contains g then (if s.faults.rebuilds.any fun r => r.gpa = g then s else s.beginRebuild g [])
    else if (s.unbuilt h).isEmpty ∧ !s.faults.rebuilt.contains (h, s.self) then
      let all := (List.range 512).filter fun x => s.fabric.hasShore x && decide (x ≠ s.self) && !s.faults.dead.contains x
      all.foldl (fun s x => (s.takeover x 2 h 0 0 0).1) { s with faults := { s.faults with rebuilt := s.faults.rebuilt ++ [(h, s.self)] } }
    else s)

/-! ### HBM (R643, R644) -/

/-- The sector lies on a stack and, where one is named, on a channel of two pseudo-channels (R88). -/
def sectorOn (stack : Nat) (channel : Option Nat) (sec : Nat) : Bool :=
  decide (stackOf (sec * 64) = stack) && channel.all fun c => decide (pseudoOf (sec * 64) / 2 = c)

/-- Dirty sectors on lost HBM are restored from their mirror copies or poisoned; clean ones are fetched again (R643). -/
def State.loseHbm (s : State) (stack : Nat) (channel : Option Nat) : State :=
  let h := s.store.harbour
  let dirty := (h.ways.filter fun w => !h.mirror.contains w.gpa).map (·.dirty) |>.flatten
  let lost := dirty.filter (sectorOn stack channel)
  if lost.isEmpty then s else s.poisonSectors lost

/-- A stack leaves service (R644); where it was announced, its data has been moved first. -/
def State.retireStack (s : State) (stack : Nat) (announced : Bool) : State :=
  if s.faults.stacksOut.contains stack then s
  else
    let s := if announced then s else (s.loseHbm stack none).singleFault 0x1
    let s := { s with faults := { s.faults with
      stacksOut := s.faults.stacksOut ++ [stack], retired := setAdd (0x1, 0x8000 + stack) s.faults.retired
      announced := s.faults.announced.filter fun x => !(x.1 == 0x1 && x.2.1 == 0x8000 + stack) } }
    (s.report ⟨evRetired, sevFailed, 0x1, 0x8000 + stack, 4, 0, 0, 0, 0⟩).report ⟨evCapacityReduced, sevFailed, 0x1, 0x8000 + stack, 9, 0, 0, 0, 0⟩

/-- A channel leaves service (R643): the first of its stack into the row-redundancy area, a second takes the stack (R644). -/
def State.retireChannel (s : State) (stack channel : Nat) (announced : Bool) : State :=
  if s.faults.stacksOut.contains stack ∨ s.faults.channelsOut.contains (stack, channel) then s
  else if s.faults.channelsOut.any fun x => x.1 = stack then s.retireStack stack announced
  else
    let s := if announced then s else s.loseHbm stack (some channel)
    let unit := stack * 64 + 2 * channel
    let s := { s with faults := { s.faults with
      channelsOut := s.faults.channelsOut ++ [(stack, channel)]
      retired := uniq (s.faults.retired ++ [(0x1, unit), (0x1, unit + 1)]) } }
    (s.singleFault 0x1).report ⟨evRetired, sevFailed, 0x1, unit, 4, 0, 0, 0, 6⟩

/-- `HBM_CHANNEL_FAIL` (R643, R644). -/
def execHbmChannelFail (stack channel : Nat) (s : State) : Host.Outcome State Fault Refusal :=
  .next (if stack < 8 ∧ channel < 32 then s.retireChannel stack channel false else s)

/-- `HBM_STACK_RETIRE` (R644): announced 100 ms ago, or by the failure of a second channel. -/
def execHbmStackRetire (stack : Nat) (s : State) : Host.Outcome State Fault Refusal :=
  let due := s.faults.announced.any fun x => x.1 = 0x1 ∧ x.2.1 = 0x8000 + stack ∧ x.2.2.1 ≤ s.now
  .next (if due then s.retireStack stack true
    else if s.faults.channelsOut.any fun x => x.1 = stack then s.retireStack stack false else s)

/-! ### Directory entries (R647) -/

/-- `DIRECTORY_ENTRY_ERROR` (R647): every host port is asked for the line, which then enters I. -/
def execDirectoryEntryError (line : Nat) (s : State) : Host.Outcome State Fault Refusal :=
  .next (if (s.dirEntry line).isNone ∨ s.lineBusy line then s
    else
      let ports := (s.host.ports.filter fun p => p.up && p.biEnabled && !p.fenced).map (·.id)
      let s := s.report ⟨evFault, sevRecovered, 0x8, dirSlice line, 2, 0, gpaOf s.self (line * 64), 0, 0⟩
      if ports.isEmpty then s.setLine line none
      else ({ s with faults := { s.faults with directoryBad := setAdd line s.faults.directoryBad } }).recall line true ports none)

/-! ### Background debts and reserves (R301, R302) -/

/-- Excess of a task's debt on a resource over its limit, as last read. -/
def State.debtOver (s : State) (task resource : Nat) : Nat :=
  ((s.brk.debts.find? fun x => x.1 = task ∧ x.2.1 = resource).map (·.2.2)).getD 0

/-- The end of the calendar (R302). -/
def State.calendarEnd (s : State) : Nat := slotOf s.now + calendarSlots

/-- `RESERVE_RAISE` (R302): a task's debt is read. One that newly exceeds its limit raises RESERVE_PCT by 2 points, to at most
12 %, from the end of the calendar; when every debt on the resource is within its limit again, the calm begins. -/
def execReserveRaise (task resource debt limit : Nat) (s : State) : Host.Outcome State Fault Refusal :=
  let was := s.debtOver task resource
  let debts := (s.brk.debts.filter fun x => !(x.1 == task && x.2.1 == resource)) ++ [(task, resource, debt - limit)]
  let beyond := debts.any fun x => x.2.1 = resource ∧ x.2.2 > 0
  let calm := s.brk.calmSince.filter fun x => x.1 ≠ resource
  let calm' := if beyond then calm
    else if s.brk.calmSince.any fun x => x.1 = resource then s.brk.calmSince else calm ++ [(resource, s.now)]
  let s' := { s with brk := { s.brk with debts := debts, calmSince := calm' } }
  .next (if limit < debt ∧ was = 0 then
      let pct := min 12 (s.reservePct resource s.calendarEnd + 2)
      ({ s' with brk := { s'.brk with raises := s'.brk.raises ++ [Raise.mk resource s.calendarEnd pct] } }).count 3 resource 3 1
    else s')

/-- `RESERVE_LOWER` (R302): 100 ms of calm lower the reserve by one point, down to the configured value. -/
def execReserveLower (resource : Nat) (s : State) : Host.Outcome State Fault Refusal :=
  let pct := s.reservePct resource s.calendarEnd
  let due := s.brk.calmSince.any fun x => x.1 = resource ∧ x.2 + 800000000 ≤ s.now
  .next (if due ∧ s.brk.reservePct < pct then
      { s with brk := { s.brk with
        raises := s.brk.raises ++ [Raise.mk resource s.calendarEnd (pct - 1)]
        calmSince := (s.brk.calmSince.filter fun x => x.1 ≠ resource) ++ [(resource, s.now)] } }
    else s)

/-! ### Datagrams and the Logbook (R674, R675) -/

/-- The datagram of some events (R674). -/
def State.datagram (s : State) (es : List Event) : List Byte :=
  let b := leBytes 1 1 ++ zeros 1 ++ leBytes 2 s.self ++ zeros 4 ++ leBytes 8 ((es.head?.map (·.seq)).getD 0) ++ (es.map Event.bytes).flatten
  b ++ leBytes 16 (Config.crypto (((s.obs.stream.key).getD []) ++ b))

/-- `EVENT_DATAGRAM` (R674): up to 16 of the waiting events go out. -/
def execEventDatagram (s : State) : Host.Outcome State Fault Refusal :=
  let st := s.obs.stream
  .next (if !st.on || st.waiting.isEmpty then s
    else
      let s := (s.emit (.datagram (s.datagram (st.waiting.take 16)))).count 0x0D 0 2 1
      { s with obs := { s.obs with stream := { st with waiting := st.waiting.drop 16, since := s.now } } })

/-- The 48 bytes of a Logbook entry (Table 17-10). -/
def LogEntry.bytes (x : LogEntry) : List Byte :=
  leBytes 1 x.cls ++ leBytes 1 x.flags ++ leBytes 2 x.unit ++ leBytes 4 x.corrected ++ leBytes 4 x.recovered ++ leBytes 4 x.uncorrected ++
    leBytes 4 x.failures ++ leBytes 2 x.weatherMax ++ leBytes 2 x.weatherNow ++ leBytes 8 x.first ++ leBytes 8 x.last ++
    leBytes 4 x.powerUps ++ zeros 4

/-- Write the Logbook to the boot NOR, and mirror it into cove 16,383 if the system guest owns it (R675). -/
def State.writeLog (s : State) : State :=
  let b := (s.obs.log.map LogEntry.bytes).flatten
  let s := ({ s with obs := { s.obs with logWritten := s.obs.log, logTime := s.now } }).emit (.nor b)
  match s.cove 16383 with
  | some c => if c.owner = 0 then s.writeAt c.base (b.take (min mib2 c.size)) else s
  | none => s

/-- `LOGBOOK_WRITE` (R675): every 10 min with changes, and before a power-down from DRAINING. -/
def execLogbookWrite (s : State) : Host.Outcome State Fault Refusal :=
  .next (if s.obs.log ≠ s.obs.logWritten ∧ (s.obs.logTime + 4800000000000 ≤ s.now ∨ s.power.state = .draining) then s.writeLog else s)

/-! ### Commands of family 0x0A but UNIT_RETIRE (Table 17-12) -/

/-- FAULT_READ (0x0A01, R676): START counts records since power-up (log entry 23). -/
def opFaultRead : RelasOp where
  len := lenIs 24
  fields := fun c _ => firstBad [(decide (c.f 20 2 = 0 ∨ c.f 20 2 > 119), 20), (nonzero c 22 2, 22)]
  effect := fun c _ s =>
    let oldest := s.obs.recordNext - s.obs.records.length
    let first := min (max (c.f 16 4) oldest) s.obs.recordNext
    let rs := (s.obs.records.drop (first - oldest)).take (c.f 20 2)
    (s, .read (leBytes 4 (first + rs.length) ++ leBytes 4 s.obs.recordLost ++ rs.flatten))

/-- A unit of Table 17-1. -/
def unitBad (cls unit : Nat) : Bool :=
  match cls with
  | 0x1 => !(decide (unit < 512) || decide (0x8000 ≤ unit ∧ unit < 0x8008))
  | 0x2 => !(decide (unit < 2048) || decide (0x8000 ≤ unit ∧ unit < 0x8040))
  | 0x3 => decide (unit ≥ 1024)
  | 0x4 => decide (unit ≥ 34)
  | 0x5 => decide (unit ≥ 3)
  | 0x6 => decide (unit ≥ 4)
  | 0x7 => decide (unit ≥ 2)
  | 0x8 => decide (unit ≥ 16)
  | 0x9 => decide (unit ≥ 64)
  | 0xA => decide (unit ≥ 11)
  | 0xB => decide (unit ≥ 9)
  | _ => decide (unit ≠ 0)

/-- The FP32 nearest to a fraction. -/
def fracFp32 (x : Frac) : Nat := (roundTo .fp32 (.fin false x.num x.den) rmodeDefault 0).1

/-- WEATHER_QUERY (0x0A03, R671). -/
def opWeatherQuery : RelasOp where
  len := lenIs 24
  fields := fun c _ => firstBad [(decide (c.f 16 1 = 0 ∨ c.f 16 1 > 0xC), 16), (nonzero c 17 1, 17), (unitBad (c.f 16 1) (c.f 18 2), 18),
    (nonzero c 20 4, 20)]
  effect := fun c _ s =>
    let r := s.ratios (c.f 16 1) (c.f 18 2) ++ [Frac.mk' (s.marginOf (c.f 16 1) (c.f 18 2)) 1000]
    (s, .read (leBytes 2 (s.score (c.f 16 1) (c.f 18 2)) ++ zeros 6 ++ (r.map fun x => leBytes 4 (fracFp32 x)).flatten))

/-- LOGBOOK_READ (0x0A04, R675). -/
def opLogbookRead : RelasOp where
  len := lenIs 24
  fields := fun c _ => firstBad [(decide (c.f 20 2 = 0 ∨ c.f 20 2 > 79), 20), (nonzero c 22 2, 22)]
  effect := fun c _ s =>
    let es := (s.obs.log.drop (c.f 16 4)).take (c.f 20 2)
    (s, .read (leBytes 4 (min (c.f 16 4) s.obs.log.length + es.length) ++ zeros 4 ++ (es.map LogEntry.bytes).flatten))

/-- QUARANTINE_RELEASE (0x0A05, R655, R678). -/
def opQuarantineRelease : RelasOp where
  len := lenIs 24
  fields := fun c _ => firstBad [(nonzero c 20 4, 20)]
  conflict := fun c s => match s.guestRec (c.f 16 2) with
    | some g => if !g.quarantined then some 16 else if g.epoch ≠ c.f 18 2 then some 18 else none
    | none => some 16
  effect := fun c _ s =>
    ((s.setGuest (c.f 16 2) fun g => { g with quarantined := false }).report
      ⟨evQuarantineReleased, sevCorrected, 0, 0, 0, c.f 16 2, 0, 0, 7⟩, .done)
  objects := fun c => [(.guest (c.f 16 2), 16)]

end Sys2Proof.Machine
end

