-- ==== Sys2Proof/Machine/Time.lean ====
section
/-! DEFINITION. Tidetime: the counter, TIME messages, headland and upstream, lock, holdover, references, and the counters that
COUNTER_READ returns (spec 20: R733–R749). -/

namespace Sys2Proof.Machine

/-! ### The counter (R733, R734) -/

/-- One cycle of the tidetime domain: 8 ticks and the rate correction, in 2⁻³² tick. -/
def Clock.cycle (c : Clock) : Clock :=
  let total : Int := c.fraction + c.rate + 8 * 2 ^ 32
  { c with tidetime := u64 (c.tidetime + (total / 2 ^ 32).toNat), fraction := (total % 2 ^ 32).toNat }

/-- The limit of the rate correction, 10 ppm of 8 ticks, in 2⁻³² tick. -/
abbrev rateLimit : Nat := 343597

/-- A correction within the limit, in the direction of an offset: how large it is, no rule says (R739). -/
def steer (offset : Int) (free : Nat) : Int :=
  let k : Int := (free % (rateLimit + 1) : Nat)
  if offset < 0 then -k else if offset = 0 then 0 else k

/-- The stamp of this instant, in 1/65,536 tick. -/
def State.stamp (s : State) : Nat := s.clock.tidetime * 65536 + s.clock.fraction / 65536

/-! ### Headland and upstream (R737, R743) -/

/-- The shore's own class (Table 20-2). -/
def Clock.cls (c : Clock) : Nat := if c.classZero then 0 else if c.classOne then 1 else 2

/-- What was heard within the last 3 ms. -/
def State.fresh (s : State) : List Heard := s.clock.heard.filter fun h => decide (s.now ≤ h.time + 24000000)

/-- (CLASS, HEADLAND) pairs in order of preference. -/
def betterHead (a b : Nat × Nat) : Nat × Nat := if b.1 < a.1 ∨ (b.1 = a.1 ∧ b.2 < a.2) then b else a

/-- The headland: the best pair heard, its own included (R743). -/
def State.headland (s : State) : Nat × Nat :=
  ((s.fresh.map fun h => (h.cls, h.headland)).foldl betterHead (s.clock.cls, s.self))

/-- The upstream (R743): the causeway naming the headland with the fewest HOPS, then the lowest DIRECTION. -/
def State.upstream (s : State) : Option Heard :=
  if s.headland.2 = s.self then none
  else
    let dir (h : Heard) : Nat := ((s.bundle h.bundle).map (·.direction)).getD 6
    let better (a b : Heard) : Heard := if b.hops < a.hops ∨ (b.hops = a.hops ∧ dir b < dir a) then b else a
    match s.fresh.filter fun h => h.headland = s.headland.2 ∧ h.cls = s.headland.1 with
    | [] => none
    | x :: l => some (l.foldl better x)

/-- HOPS that the shore announces. -/
def State.hopsOut (s : State) : Nat := ((s.upstream).map fun h => h.hops + 1).getD 0

/-- EPOCH_TAI: the headland's own, or as heard from upstream. -/
def State.epochTai (s : State) : Nat := ((s.upstream).map (·.epoch)).getD s.clock.epochTai

/-- The content of the shore's ANNOUNCE (Table 20-1). -/
def State.saying (s : State) : List Nat := [s.headland.2, s.headland.1, s.hopsOut, b2n s.clock.locked, s.epochTai]

/-- The lock is lost (R746). -/
def State.loseLock (s : State) : State :=
  if s.clock.locked then
    ((({ s with clock := { s.clock with locked := false, good := 0, headSince := if s.headland.2 = s.self then some s.now else none } }).count 0x0B 0 6 1).interrupt 2).report
      ⟨evFault, sevUncorrected, 0xB, 7, 1, 0, 0, 0, 0⟩
  else s

/-- After what was heard, the references or the causeways changed: the role of headland is taken or given up, and holdover
begins when every path to the headland is gone (R744, R746). -/
def State.reclock (old s : State) : State :=
  let me := s.headland.2 = s.self
  let followed := old.headland.2 ≠ old.self
  let lost := followed && me && !(s.fresh.any fun h => h.headland = old.headland.2) && decide (s.clock.cls ≥ old.headland.1)
  let c := { s.clock with
    headSince := if me then some (s.clock.headSince.getD s.now) else none
    holdover := if !me then none else if lost ∧ s.clock.locked then some (s.clock.holdover.getD s.now) else s.clock.holdover }
  { s with clock := if !me ∧ old.headland.2 ≠ s.headland.2 then { c with good := 0 } else c }

/-! ### Lock (R734, R735, R745) -/

/-- A booking moves by STEP (R735). -/
def moveSlot (first : Nat) (step : Int) : Nat := ((first : Int) + step / 8000).toNat
def moveTime (t : Nat) (step : Int) : Nat := ((t : Int) + step).toNat

/-- The device enters SERVICE, and a STATE_SET that waited for it ends (R771). -/
def State.enterService (s : State) (cause : Nat) : State :=
  let goal := s.power.goal
  let s := ({ s with power := { s.power with goal := none } }).become .service cause
  match goal with
  | some g => s.endTicket g.ticket Result.done 0 0
  | none => s

/-- A STATE_SET SERVICE waits for lock. -/
def State.wantsService (s : State) : Bool := s.power.goal.any fun g => g.target = 1

/-- A device in STRICT that may leave it enters SERVICE now that it is locked (Table 21-6). -/
def State.lockedIn (s : State) (may : Bool) (cause : Nat) : State :=
  if s.power.state == .strict && may then s.enterService cause else s

/-- The shore's tidetime is locked; at the first lock it steps once to the fabric tidetime, Breakwater's bookings move, and a device in
STRICT without the hold enters SERVICE (R735, Table 21-6). -/
def State.lock (s : State) : State :=
  if s.clock.locked then s
  else if s.clock.everLocked then
    (({ s with clock := { s.clock with locked := true, holdover := none } }).interrupt 2).lockedIn s.wantsService 1
  else
    let st := s.clock.step
    let c := { s.clock with
      locked := true, everLocked := true, lockSequence := some s.obs.nextSeq, tidetime := u64 (moveTime s.clock.tidetime st)
      headSince := s.clock.headSince.map fun t => moveTime t st }
    let moved := s.brk.bookings.map fun b => { b with first := moveSlot b.first st }
    let descs := s.queues.descs.map fun (d : Desc) =>
      { d with deadline := moveTime d.deadline st, start := moveTime d.start st, bookEnd := moveTime d.bookEnd st }
    let s : State := { s with
      clock := c
      brk := { s.brk with slot := slotOf c.tidetime, bookings := moved }
      queues := { s.queues with descs := descs } }
    (s.interrupt 2).lockedIn (!s.power.hold) 2

/-! ### TIME messages -/

/-- The time link of a causeway: its lowest-numbered link that is up. -/
def State.timeLink (s : State) (b : Bundle) : Option Nat :=
  match sortBy (· ≤ ·) (s.upLinks b) with
  | [] => none
  | l :: _ => some l

/-- Send a TIME message (Table 20-1). -/
def State.sendTime (s : State) (b : Bundle) (kind seq body resid : Nat) : State :=
  match s.timeLink b with
  | none => s
  | some l =>
    s.egress b l 0 true ⟨noBundle, 3, Sxf.time + kind * 2 ^ 8 + seq % 256 * 2 ^ 10 + body % 2 ^ 64 * 2 ^ 18 + resid % 2 ^ 32 * 2 ^ 82 +
      b.peer * 2 ^ 119, []⟩

/-- KIND, SEQ, BODY of a TIME message. -/
def timeKind (m : SxfMsg) : Nat := bits m.unit0 9 8
def timeSeq (m : SxfMsg) : Nat := bits m.unit0 17 10
def timeBody (m : SxfMsg) : Nat := bits m.unit0 81 18

/-- Open causeways. -/
def State.openCauseways (s : State) : List Bundle := s.fabric.bundles.filter fun b => b.kind = .causeway && b.opened

/-- A TIME message of a kind on an open causeway. -/
def State.timeMsg (s : State) (m : SxfMsg) (kind : Nat) (f : Bundle → State → State) : Host.Outcome State Fault Refusal :=
  s.arrival (m.op == Sxf.time && timeKind m == kind) fun s => s.ported m fun s => match s.bundle m.via with
    | some b => if b.kind = .causeway && b.opened then f b s else s
    | none => s

/-- `TIME_ANNOUNCE` (R743). -/
def execTimeAnnounce (m : SxfMsg) (s : State) : Host.Outcome State Fault Refusal :=
  s.timeMsg m 0 fun b s =>
    let body := timeBody m
    let h : Heard := ⟨b.id, bits body 8 0, bits body 10 9, bits body 14 11, bit body 15, bits body 63 16, s.now⟩
    s.reclock { s with clock := { s.clock with heard := upsert (·.bundle) h s.clock.heard } }

/-- `TIME_SYNC` (R737): the REPLY carries t2 and t3 − t2, which is 0 here as the answer leaves at once. -/
def execTimeSync (m : SxfMsg) (s : State) : Host.Outcome State Fault Refusal :=
  s.timeMsg m 1 fun b s => s.sendTime b 2 (timeSeq m) ((s.stamp / 65536 % 2 ^ 48) * 2 ^ 16 + s.stamp % 65536) 0

/-- A signed 32-bit value. -/
def resid (m : SxfMsg) : Int := toSigned 32 (bits m.unit0 113 82)

/-- Twice the offset of R738, in 1/65,536 tick, from t1, t4 and a REPLY, all stamps of the shore taken as they will stand
after the pending step. -/
def offset2 (t1 t4 : Int) (m : SxfMsg) : Int :=
  let low : Int := (timeBody m / 2 ^ 16 : Nat)
  let frac : Int := (timeBody m % 2 ^ 16 : Nat)
  let near := t1 / 65536
  let d := (low - near) % 2 ^ 48
  let ticks := near + if d ≥ 2 ^ 47 then d - 2 ^ 48 else d
  let t2 := ticks * 65536 + frac
  let t3 := t2 + resid m * 256
  (t2 - t1) + (t3 - t4)

/-- What a shore does with an offset (R739, R745, R746), in 1/131,072 tick. -/
def State.takeOffset (s : State) (up : Heard) (o2 : Int) : State :=
  let within : Bool := decide (o2.natAbs * 100 ≤ 24 * 131072)
  let good := if within then s.clock.good + 1 else 0
  let pending : Int := if s.clock.everLocked ∨ within then s.clock.step else s.clock.step + (o2 + 65536) / 131072
  let s := { s with clock := { s.clock with
    offset := o2 / 512, good := good, step := pending, rate := if s.clock.holdover.isSome then s.clock.rate else steer o2 s.nextFree } }
  let s := s.drew
  if s.clock.locked ∧ o2.natAbs > 8000 * 131072 then s.loseLock
  else if up.locked ∧ good ≥ 16 then s.lock else s

/-- `TIME_REPLY` (R738, R739, R745, R746). -/
def execTimeReply (m : SxfMsg) (s : State) : Host.Outcome State Fault Refusal :=
  s.timeMsg m 2 fun b s =>
    match s.clock.syncs.find? fun x => x.seq = timeSeq m ∧ x.bundle = b.id, s.upstream with
    | some x, some up =>
      let s := { s with clock := { s.clock with syncs := s.clock.syncs.filter fun (y : SyncOut) => y.seq ≠ x.seq } }
      if up.bundle ≠ b.id ∨ x.t1 + 80000 * 65536 < s.stamp then s
      else
        let shift : Int := if s.clock.everLocked then 0 else s.clock.step * 65536
        s.takeOffset up (offset2 ((x.t1 : Int) + shift) ((s.stamp : Int) + shift) m)
    | _, _ => s

/-- `ANNOUNCE_TIMER` (R737): every 1 ms, and after a change of what the shore announces. -/
def execAnnounceTimer (s : State) : Host.Outcome State Fault Refusal :=
  let say := s.saying
  .next (if s.clock.announced + 8000000 ≤ s.now ∨ s.clock.said ≠ say then
      let body := say.getD 0 0 + say.getD 1 0 * 2 ^ 9 + say.getD 2 0 % 16 * 2 ^ 11 + say.getD 3 0 * 2 ^ 15 + say.getD 4 0 % 2 ^ 48 * 2 ^ 16
      s.openCauseways.foldl (fun s b => s.sendTime b 0 0 body 0) { s with clock := { s.clock with announced := s.now, said := say } }
    else s)

/-- `SYNC_TIMER` (R737): every 125 µs, to the upstream. -/
def execSyncTimer (s : State) : Host.Outcome State Fault Refusal :=
  .next (match s.upstream with
    | none => s
    | some up =>
      match s.bundle up.bundle with
      | none => s
      | some b =>
        if s.now < s.clock.synced + 1000000 then s
        else
          let q := s.clock.nextSync
          ({ s with clock := { s.clock with
            synced := s.now, nextSync := (q + 1) % 256, syncs := s.clock.syncs ++ [SyncOut.mk q s.stamp b.id] } }).sendTime b 1 q 0 0)

/-- `SYNC_LOST` (R739). -/
def execSyncLost (seq : Nat) (s : State) : Host.Outcome State Fault Refusal :=
  .next (if s.clock.syncs.any fun x => x.seq = seq ∧ x.t1 + 80000 * 65536 ≤ s.stamp then
      ({ s with clock := { s.clock with syncs := s.clock.syncs.filter fun (x : SyncOut) => x.seq ≠ seq } }).count 0x0B 0 7 1
    else s)

/-- `ANNOUNCE_AGE_OUT` (R743): what was heard on a causeway is older than 3 ms. -/
def execAnnounceAgeOut (bundle : Nat) (s : State) : Host.Outcome State Fault Refusal :=
  .next (if s.clock.heard.any fun h => h.bundle = bundle ∧ h.time + 24000000 ≤ s.now then
      let before := { s with clock := { s.clock with heard := s.clock.heard.map fun (h : Heard) => if h.bundle = bundle then { h with time := s.now } else h } }
      before.reclock { s with clock := { s.clock with heard := s.clock.heard.filter fun (h : Heard) => h.bundle ≠ bundle } }
    else s)

/-- `HEADLAND_LOCK` (R745, Table 20-2): the lock time has passed: 2 s in class 2, at most 1.5 s and 1.9 s in classes 0 and 1. A
new epoch has no step (R744). -/
def execHeadlandLock (s : State) : Host.Outcome State Fault Refusal :=
  .next (match s.clock.headSince with
    | none => s
    | some t =>
      if s.headland.2 = s.self ∧ (s.clock.cls < 2 ∨ t + 16000000000 ≤ s.now) then
        (if s.clock.everLocked then s else { s with clock := { s.clock with step := 0 } }).lock
      else s)

/-- `HOLDOVER_EXPIRY` (R746). -/
def execHoldoverExpiry (s : State) : Host.Outcome State Fault Refusal :=
  .next (match s.clock.holdover with
    | none => s
    | some t => if t + 800000000 ≤ s.now then { s.loseLock with clock := { s.loseLock.clock with holdover := none } } else s)

/-! ### References (R742, R743, R816) -/

/-- `TIDE_REFERENCE_CHANGE` (R743): 10 MHz with 1PPS, and PTP, are in range or not. -/
def execTideReferenceChange (tide ptp : Bool) (s : State) : Host.Outcome State Fault Refusal :=
  .next (s.reclock { s with clock := { s.clock with
    classZero := tide, classOne := ptp, epochTai := if tide || ptp then s.clock.epochTai else 0 } })

/-- `PTP_MESSAGE` (R742): a class-1 headland learns the TAI time in µs and steers its rate by an offset that the message gives;
by how much, no rule says. -/
def execPtpMessage (tai : Nat) (late : Bool) (s : State) : Host.Outcome State Fault Refusal :=
  .next (if s.headland.2 = s.self ∧ s.clock.cls = 1 then
      ({ s with clock := { s.clock with epochTai := tai - s.now / 8000, rate := steer (if late then 1 else -1) s.nextFree } }).drew
    else s)

/-- `TIDE_1PPS_EDGE` (R742, R816): at a class-0 headland the edge is a whole second of tidetime; its rate is steered toward
that. -/
def execTide1ppsEdge (s : State) : Host.Outcome State Fault Refusal :=
  let into := s.now % 8000000000
  .next (if s.headland.2 = s.self ∧ s.clock.cls = 0 then
      let off : Int := if into < 4000000000 then -(into : Int) else 8000000000 - (into : Int)
      ({ s with clock := { s.clock with offset := off * 256, rate := steer off s.nextFree } }).drew
    else s)

/-! ### COUNTER_READ (Table 20-3, R749) -/

/-- Counters of a group for an instance; none outside Table 20-3. -/
def groupSize (group inst : Nat) : Option Nat :=
  match group with
  | 0x01 => some 12
  | 0x02 => if inst < 1024 then some 9 else none
  | 0x03 => if inst < 80 then some 7 else none
  | 0x04 => if inst < 8 then some 6 else none
  | 0x05 => if inst < 2048 ∨ inst = 0xFFFF then some 15 else none
  | 0x06 => if inst < 64 then some 7 else if inst < 128 then some 2 else none
  | 0x07 => if inst < 4 then some 5 else none
  | 0x08 => if inst < 64 then some 3 else none
  | 0x09 => if inst < 16 then some 3 else none
  | 0x0A => if inst = 0 then some 5 else none
  | 0x0B => if inst = 0 then some 10 else none
  | 0x0C => if inst = 0 then some 6 else if inst ≤ 32 then some 2 else none
  | 0x0D => if inst = 0 then some 6 else none
  | _ => none

/-- A signed value as a u64. -/
def ofSigned (v : Int) : Nat := (v % 2 ^ 64).toNat

/-- The TIME group's levels and figures. -/
def State.timeCounter (s : State) (i : Nat) : Nat :=
  match i with
  | 0 => ofSigned s.clock.offset
  | 1 => s.headland.2
  | 2 => s.headland.1
  | 3 => s.hopsOut
  | 4 => ((s.upstream).map (·.bundle)).getD 0
  | 5 => b2n s.clock.locked
  | 8 => if s.clock.everLocked then ofSigned s.clock.step else 0
  | 9 => s.clock.lockSequence.getD 0
  | _ => s.obs.counter 0x0B 0 i

/-- The value of a counter: a level is computed from the state, all others are counted. The DEEP figures come from the wear
record (`deep`). -/
def State.counterValue (s : State) (deep : Nat → Nat → Option Nat) (group inst i : Nat) : Nat :=
  match group with
  | 0x03 =>
    let f := s.foreground inst (slotOf s.now)
    if i = 1 then f.num / f.den else if i = 2 then s.reservePct inst (slotOf s.now) else s.obs.counter group inst i
  | 0x05 => (deep inst i).getD (s.obs.counter group inst i)
  | 0x06 => if inst < 64 then ((s.link inst).map fun l => l.figures.getD i 0).getD 0 else s.obs.counter group inst i
  | 0x0A => match i with
    | 0 => s.store.capacity - s.coveBytes
    | 1 => s.reserveBytes
    | 2 => sumNat (s.store.coves.map Cove.charged)
    | 3 => s.freePool.toNat
    | _ => s.obs.counter group inst i
  | 0x0B => s.timeCounter i
  | 0x0C => if inst > 0 ∧ i = 1 then b2n (s.inn.chans.any fun c => c.chan = .tls (inst - 1)) else s.obs.counter group inst i
  | _ => s.obs.counter group inst i

/-- A guest credential reads its own GUEST and QUEUE counters only. -/
def ownsCounter (c : RelasCmd) (s : State) : Bool :=
  match c.f 16 2 with
  | 0x01 => decide (c.f 18 2 = c.guest)
  | 0x02 => (s.sq (c.f 18 2)).any fun q => q.guest = c.guest
  | _ => false

/-- COUNTER_READ (0x0C02, R749). -/
def opCounterRead (deep : State → Nat → Nat → Option Nat) : RelasOp where
  len := lenIs 24
  owns := ownsCounter
  fields := fun c _ =>
    let n := groupSize (c.f 16 2) (c.f 18 2)
    firstBad [(decide (c.f 16 2 = 0 ∨ c.f 16 2 > 0x0D), 16),
      (n.isNone, 18), (decide (c.f 20 1 ≥ n.getD 0), 20), (decide (c.f 21 1 = 0 ∨ c.f 21 1 > 32 ∨ c.f 20 1 + c.f 21 1 > n.getD 0), 21),
      (nonzero c 22 2, 22)]
  effect := fun c _ s =>
    (s, .read (leBytes 8 s.now ++ ((List.range (c.f 21 1)).map fun i =>
      leBytes 8 (s.counterValue (deep s) (c.f 16 2) (c.f 18 2) (c.f 20 1 + i))).flatten))

/-! ### The event ring and its stream (Table 20-7, R752–R754) -/

/-- EVENT_RING_SET (0x0C03): CONFIGURE and READ. -/
def opEventRing : RelasOp where
  len := fun c => match c.f 16 1 with
    | 0 => lenIs 80 c
    | 1 => lenIs 32 c
    | _ => none
  fields := fun c _ => match c.f 16 1 with
    | 0 => firstBad [(decide (c.f 17 1 > 3), 17), (decide (c.f 18 1 > 1), 18), (nonzero c 19 1, 19), (decide (c.f 20 2 = 0), 20),
        (nonzero c 22 2, 22), (nonzero c 72 8, 72)]
    | 1 => firstBad [(c.stage, 16), (nonzero c 17 1, 17), (decide (c.f 18 2 = 0 ∨ c.f 18 2 > 59), 18), (nonzero c 20 4, 20)]
    | _ => some 16
  denied := fun c _ => c.f 16 1 = 0 && match c.chan with
    | .tls _ => false
    | _ => true
  effect := fun c _ s =>
    if c.f 16 1 = 0 then
      ({ s with obs := { s.obs with stream := {
        s.obs.stream with
        on := c.f 18 1 = 1, minSeverity := c.f 17 1, udpPort := c.f 20 2, collector := slice c.bytes 24 16, key := some (slice c.bytes 40 32)
        waiting := if c.f 18 1 = 1 then s.obs.stream.waiting else [] } } }, .done)
    else
      let oldest := s.obs.nextSeq - s.obs.events.length
      let first := max (c.f 24 8) oldest
      let es := (s.obs.events.drop (first - oldest)).take (c.f 18 2)
      let next := if es.isEmpty then s.obs.nextSeq else first + es.length
      (s, .read (leBytes 8 next ++ leBytes 8 oldest ++ leBytes 8 s.obs.overwritten ++ (es.map Event.bytes).flatten))
  objects := fun c => if c.f 16 1 = 0 then [(.settings, 16)] else []

/-! ### MARK (R751) -/

/-- The GUEST counters that a latch holds (5 HARBOUR_BYTES to 10 LINK_FLITS). -/
def State.guestUse (s : State) (g : Nat) : List Nat := (List.range 6).map fun i => s.obs.counter 1 g (5 + i)

def opMark : DescOp where
  sizes := [0]
  check := fun _ d => firstFail [badFormat (decide (d.f 20 1 > 2)) Cause.reserved, badFormat (d.nonzero 21 3) Cause.reserved,
    badFormat (d.nonzero 32 32) Cause.reserved]
  price := fun _ _ => ⟨[], 1, 0, 0⟩

/-- `MARK` (R751): completes OK with SOURCE_TAG and RANGE_ID; with LATCH_COUNTERS the span since the last such MARK of the SQ. -/
def execMark (d : Nat) (s : State) : Host.Outcome State Fault Refusal :=
  .next (s.work d 0x70 s.stop fun d =>
    let s := s.count 0x0D 0 4 1
    let s := if d.latched then
        let now := s.guestUse d.guest
        let old := ((s.sq d.queue).map (·.markLatch)).getD []
        let x := now.zipIdx.map fun y => (y.1 + 2 ^ 64 - old.getD y.2 0) % 2 ^ 64
        let l := [x.getD 0 0, x.getD 1 0, x.getD 5 0 * 256, x.getD 2 0, x.getD 3 0 / 10, x.getD 4 0 / 10]
        (s.setDesc d.id fun d => { d with latch := l }).setSq d.queue fun q => { q with markLatch := now }
      else s
    s.ok d.id (d.f 24 8) (d.f 16 4))

end Sys2Proof.Machine
end

