-- ==== Sys2Proof/Machine/Trust.lean ====
section
/-! DEFINITION. Isolation and trust (spec 18): channel bindings, key slots, TLS sessions, SPDM responders, debug unlocks and JTAG. -/

namespace Sys2Proof.Machine

/-! ### Facts of the unit -/

/-- The 16 B device serial number (R689). Log entry 10. -/
def serial : List Byte := leBytes 16 (Config.unit 1)
/-- The fused minimum SVN at manufacture, the debug-disable fuse, the revocation bits (R697, R706). Log entry 10. -/
def fusedSvn : Nat := Config.unit 2 % 64
def debugDisabled : Bool := Config.unit 3 % 2 == 1
def revoked : Nat := Config.unit 4 % 16

/-- The minimum SVN (R699). -/
def State.minSvn (s : State) : Nat := max fusedSvn s.trust.svnRaised

/-! ### Bindings (R130, R694, R695) -/

/-- The channel that MAILBOX_BIND names. -/
def boundChannel (c : RelasCmd) : Channel :=
  match c.f 16 1 with
  | 0 => .mailbox (c.f 17 1) (c.f 18 2)
  | 1 => .sxf (c.f 17 1) (c.f 18 2)
  | _ => .tls (c.f 18 2)

/-- MAILBOX_BIND (0x0B01, R695). A TLS session that is not open is no channel (R818). -/
def opMailboxBind : RelasOp where
  len := lenIs 32
  fields := fun c _ =>
    let t := c.f 16 1
    let unbind := c.f 20 1 = 1
    firstBad [(decide (t > 2), 16), (decide (c.f 17 1 > (if t = 0 then 3 else if t = 1 then 63 else 0)), 17),
      (decide (c.f 18 2 > (if t = 2 then 31 else 15)), 18), (decide (c.f 20 1 > 1), 20), (nonzero c 21 1, 21),
      (decide unbind && nonzero c 22 2, 22), (decide unbind && nonzero c 24 2, 24), (nonzero c 26 6, 26)]
  conflict := fun c s =>
    let g := c.f 22 2
    let active := if g = 0 then c.f 24 2 = 0 else (s.guestRec g).any fun x => x.epoch = c.f 24 2
    firstBad [(match boundChannel c with
        | .mailbox _ m => m == 0
        | .tls n => s.trust.managers.contains n
        | _ => false, 16),
      (match boundChannel c with
        | .tls n => !s.inn.chans.any fun x => x.chan = .tls n
        | _ => false, 18),
      (decide (c.f 20 1 = 0) && !active, 22)]
  effect := fun c _ s =>
    let x := s.chanRec (boundChannel c)
    (s.setChan { x with bound := if c.f 20 1 = 1 then none else some (c.f 22 2, c.f 24 2) }, .done)

/-! ### Key slots (R687–R693) -/

/-- A cove refers to the slot. -/
def State.keyInUse (s : State) (slot : Nat) : Bool := s.store.coves.any fun c => c.keySlot = slot

/-- Slots that count against a guest's KEY_QUOTA. -/
def State.keysOf (s : State) (g : Nat) : Nat := (s.trust.slots.filter fun k => k.holder = g ∧ !k.orphan).length

/-- A slot whose holder is gone is cleared when no cove refers to it (R692). -/
def State.sweepSlots (s : State) : State :=
  { s with trust := { s.trust with
      slots := s.trust.slots.filter fun k => !(k.orphan && !s.keyInUse k.slot)
      keyless := s.trust.keyless.filter fun id => (s.cove id).isSome } }

/-- GUEST_DESTROY ends the guest's holding of every slot (R692). -/
def State.endHolding (s : State) (g : Nat) : State :=
  ({ s with trust := { s.trust with
      slots := mapIf (fun k => k.holder = g) (fun k => { k with holder := 0, orphan := true }) s.trust.slots } }).sweepSlots

/-- The slot that a cove gets at hand-over step 7 with ZERO (R693): the lowest empty one with a random key, or slot 0. -/
def State.freshSlot (s : State) (owner : Nat) : State × Nat :=
  let quota := if owner = 0 then 4095 else ((s.guestRec owner).map (·.keyQuota)).getD 0
  match (span 1 4095).find? fun k => !s.trust.slots.any fun x => x.slot = k with
  | none => (s, 0)
  | some k =>
    if s.keysOf owner ≥ quota then (s, 0)
    else
      let key : KeySlot := ⟨k, owner, leBytes 64 s.nextFree, false⟩
      (({ s with trust := { s.trust with slots := s.trust.slots ++ [key] } }).drew, k)

/-- WRAP = CLEAR is accepted on the channel (R690). -/
def State.clearOk (s : State) (ch : Channel) : Bool :=
  match ch with
  | .tls _ => true
  | .sxf _ _ => true
  | .mailbox p _ => (s.port p).any (·.ioSecure)
  | .shore _ => false

/-- KEY_SLOT_LOAD (0x0B02, R689, R690). -/
def opKeySlotLoad : RelasOp where
  len := lenIs 192
  owns := fun c _ => decide (c.f 18 2 = c.guest)
  fields := fun c _ =>
    let clear := c.f 20 1 = 0
    firstBad [(decide (c.f 16 2 = 0 ∨ c.f 16 2 > 4095), 16), (decide (c.f 20 1 > 1), 20), (nonzero c 21 3, 21),
      (decide clear && nonzero c 88 32, 88), (decide clear && nonzero c 120 72, 120),
      (!decide clear && !Config.verifies (serial ++ slice c.bytes 16 176), 120)]
  denied := fun c s => c.f 20 1 == 0 && !s.clearOk c.chan
  limits := fun c s =>
    let quota := if c.f 18 2 = 0 then 4095 else ((s.guestRec (c.f 18 2)).map (·.keyQuota)).getD 4095
    firstBad [(decide (s.keysOf (c.f 18 2) ≥ quota), quota)]
  conflict := fun c s => firstBad [(s.trust.slots.any fun k => k.slot = c.f 16 2, 16),
    (decide (c.f 18 2 ≠ 0) && (s.guestRec (c.f 18 2)).isNone, 18)]
  effect := fun c _ s =>
    let key := if c.f 20 1 = 0 then slice c.bytes 24 64 else leBytes 64 (Config.crypto (serial ++ slice c.bytes 16 176))
    ({ s with trust := { s.trust with slots := s.trust.slots ++ [KeySlot.mk (c.f 16 2) (c.f 18 2) key false] } }, .done)
  objects := fun c => [(.keySlot (c.f 16 2), 16)]

/-- KEY_SLOT_CLEAR (0x0B03, R691). -/
def opKeySlotClear : RelasOp where
  len := lenIs 24
  owns := fun c s => s.trust.slots.any fun k => k.slot = c.f 16 2 ∧ k.holder = c.guest
  fields := fun c _ => firstBad [(decide (c.f 16 2 = 0 ∨ c.f 16 2 > 4095), 16), (nonzero c 18 6, 18)]
  conflict := fun c s => firstBad [(s.keyInUse (c.f 16 2), 16)]
  effect := fun c _ s =>
    ({ s with trust := { s.trust with slots := s.trust.slots.filter fun k => k.slot ≠ c.f 16 2 } }, .done)
  objects := fun c => [(.keySlot (c.f 16 2), 16)]

/-! ### Debug (R704–R707) -/

/-- A change of the debug state leaves a Logbook entry of unit class 0x7 (R707). -/
def State.debugChanged (s : State) : State :=
  let s := if bit s.debug 2 then s else { s with obs := { s.obs with trace := ⟨0, 0, 0, 0, 0, false⟩ } }
  s.logEvent ⟨evFault, sevCorrected, 0x7, 0, 1, 0, 0, s.debug, 0⟩ 1

/-- DEBUG_UNLOCK (0x0B04, R705, R706), both phases. -/
def opDebugUnlock : RelasOp where
  len := fun c => if c.f 16 1 = 1 then lenIs 128 c else lenIs 24 c
  fields := fun c _ => firstBad [(decide (c.f 16 1 > 1), 16), (decide (c.f 17 1 > 7), 17), (nonzero c 18 6, 18)]
  denied := fun c s => decide (c.f 16 1 = 1) &&
    (debugDisabled ||
      (match s.trust.nonce with
        | none => true
        | some n => decide (n.time + 480000000000 < s.now) || n.scope != c.f 17 1 || bit revoked 3 ||
            !Config.verifies (leBytes 48 n.value ++ serial ++ slice c.bytes 17 1 ++ slice c.bytes 24 104)) ||
      (bit (c.f 17 1) 1 && s.inn.guests.any fun g => g.id ≠ 0))
  effect := fun c _ s =>
    if c.f 16 1 = 0 then
      let n : Nonce := ⟨s.nextFree % 2 ^ 384, s.now, c.f 17 1⟩
      (({ s with trust := { s.trust with nonce := some n } }).drew, { Reply.done with body := leBytes 48 n.value })
    else
      let s := { s with trust := { s.trust with nonce := none, grants := s.trust.grants ++ [(c.f 17 1, c.f 24 8)] } }
      let gone := (s.store.coves.filter fun k => k.keySlot ≠ 0).map (·.id)
      let s := if bit (c.f 17 1) 1 then { s with trust := { s.trust with slots := [], keyless := uniq (s.trust.keyless ++ gone) } } else s
      (s.debugChanged, .done)

/-- `DEBUG_EXPIRY` (R706): grants whose EXPIRY has come end. -/
def execDebugExpiry (s : State) : Host.Outcome State Fault Refusal :=
  let left := s.trust.grants.filter fun g => decide (s.now < g.2)
  .next (if left = s.trust.grants then s else ({ s with trust := { s.trust with grants := left } }).debugChanged)

/-- `JTAG_INSTRUCTION` (R704, R708): IDCODE (0), BYPASS (1) and SAMPLE/PRELOAD (2) always answer; EXTEST (3) while the reset input holds
the logic dies in reset; every other instruction with the JTAG bit only. The values shifted out are the unit's own (log entry 41). -/
def execJtagInstruction (code : Nat) (s : State) : Host.Outcome State Fault Refusal :=
  .next (if !s.power.rails.contains 9 then s
    else if code ≤ 2 ∨ (code = 3 ∧ s.power.resetHeld) ∨ bit s.debug 1 then
      if code = 1 then s.emit (.jtag 0) else (s.emit (.jtag (if code = 0 then Config.unit 5 else s.nextFree))).drew
    else s.emit (.jtag 0))

/-! ### TLS sessions and Redfish (R694, R748) -/

/-- The management ports serve TLS: their domain runs and Innkeeper has booted (R772, Table 21-9, R776). -/
def State.managementUp (s : State) : Bool := s.inn.booted && s.power.rails.contains 9 && s.power.rails.contains 8

/-- `TLS_SESSION_OPEN` (R694, R748): a handshake whose client certificate chains to an anchor completes and takes the lowest free
number; the fabric manager's session is bound to the system guest. -/
def execTlsSessionOpen (chains manager : Bool) (s : State) : Host.Outcome State Fault Refusal :=
  .next (if !s.managementUp || !chains then s
    else match (List.range 32).find? fun n => !s.inn.chans.any fun x => x.chan = .tls n with
      | none => s
      | some n =>
        let s := s.setChan ⟨.tls n, if manager then some (0, 0) else none, 0, [], []⟩
        if manager then { s with trust := { s.trust with managers := setAdd n s.trust.managers } } else s)

/-- A TLS session ends: its number is free. -/
def State.closeTls (s : State) (n : Nat) : State :=
  { s with
    inn := { s.inn with chans := s.inn.chans.filter fun x => x.chan ≠ .tls n }
    trust := { s.trust with managers := s.trust.managers.filter (· ≠ n) } }

/-- `TLS_SESSION_CLOSE` (R748). -/
def execTlsSessionClose (session : Nat) (s : State) : Host.Outcome State Fault Refusal := .next (s.closeTls session)

/-- `REDFISH_REQUEST` (R694): refused without the fabric-manager role; the certificate service installs up to 8 trust anchors. HTTP
status codes are those of the HTTP standard (log entry 42). -/
def execRedfishRequest (manager : Bool) (anchor : List Byte) (s : State) : Host.Outcome State Fault Refusal :=
  .next (if !s.managementUp then s
    else if !manager then s.emit (.https 403)
    else if anchor.isEmpty then s.emit (.https 200)
    else if s.trust.anchors.contains anchor then s.emit (.https 200)
    else if s.trust.anchors.length ≥ 8 then s.emit (.https 507)
    else ({ s with trust := { s.trust with anchors := s.trust.anchors ++ [anchor] } }).emit (.https 201))

/-! ### SPDM (R606, R610, R700, R701) -/

/-- The measurement blocks that the model's state holds (Table 18-5): 1 to 7. -/
def State.measurements (s : State) : List Byte :=
  leBytes 8 (Config.unit 6) ++ leBytes 48 (Config.crypto ((if s.inn.fw.running = 0 then s.inn.fw.slotA else s.inn.fw.slotB).bytes.map (·.2))) ++
    leBytes 8 (Config.unit 7) ++ leBytes 1 revoked ++ leBytes 1 s.minSvn ++ leBytes 1 s.debug ++
    leBytes 4 s.trust.liveActivations ++ leBytes 4 s.trust.pairRestarts ++ leBytes 8 (Config.unit 8)

/-- The responder answers: a port's DOE mailbox once its registers are readable, the MCTP endpoint while the management domain runs. -/
def State.responds (s : State) (r : Nat) : Bool :=
  if r < 4 then s.inn.booted && (s.port r).any (·.up) else r == 4 && s.power.rails.contains 9 && s.power.rails.contains 8

/-- The CDAT of a port (R606): per DSMAS handle its DPA base and length, flags, latencies in ns and bandwidth in MB/s; its sequence
number follows the trained width (log entry 43). -/
def State.cdat (s : State) (r : Nat) : List Byte :=
  let w := ((s.port r).map (·.width)).getD 0
  leBytes 4 w ++ ((List.range 3).map fun h =>
    leBytes 1 h ++ leBytes 1 ([0x3, 0x7, 0x8].getD h 0) ++ leBytes 8 (h * 2 ^ 48) ++ leBytes 8 (2 ^ 48) ++ leBytes 2 320 ++ leBytes 2 280 ++
      leBytes 4 (121000 * w / 16)).flatten

/-- Change the SPDM sessions. -/
def State.setSpdm (s : State) (l : List (Nat × Nat)) : State := { s with trust := { s.trust with spdm := l } }

/-- `SPDM_MESSAGE` (R700, R606, R610, R701, R772): object 0 CDAT, 1 SPDM, 2 secured SPDM. KEY_EXCHANGE (0xE4) opens a session, up to 4 on a
DOE mailbox and 2 on MCTP; END_SESSION (0xEC) ends one; IDE key management in a secured session brings streams into the secure state
(`arg` 1 CXL.cachemem, 2 PCIe link stream). Before Innkeeper has booted MCTP answers Busy. Message codes are SPDM's (log entry 43). -/
def execSpdmMessage (responder object code session arg : Nat) (s : State) : Host.Outcome State Fault Refusal :=
  let mine := s.trust.spdm.filter fun x => x.1 = responder
  let error (s : State) (n : Nat) : State := s.emit (.spdm (leBytes 1 0x13 ++ leBytes 1 0x7F ++ leBytes 1 n ++ zeros 1))
  let reply (s : State) (k : Nat) (body : List Byte) : State :=
    s.emit (.spdm (leBytes 1 0x13 ++ leBytes 1 k ++ zeros 2 ++ body ++ leBytes 96 (Config.crypto (body ++ s.measurements))))
  .next (if !s.responds responder then s
    else if !s.inn.booted then error s 0x03
    else if object = 0 then (if responder < 4 then s.emit (.spdm (s.cdat responder)) else s)
    else if object = 2 ∧ !mine.contains (responder, session) then error s 0x02
    else if code = 0xE4 then
      if mine.length ≥ (if responder < 4 then 4 else 2) then error s 0x0A
      else match (List.range 6).find? fun i => !mine.contains (responder, i) with
        | none => error s 0x0A
        | some i => reply (s.setSpdm (s.trust.spdm ++ [(responder, i)])) 0x64 (leBytes 2 i)
    else if code = 0xEC then reply (s.setSpdm (s.trust.spdm.filter fun x => x != (responder, session))) 0x6C []
    else if code = 0xFE ∧ object = 2 ∧ responder < 4 then
      let s := if arg = 1 then s.setPort responder fun p => { p with memSecure := true }
        else if arg = 2 then s.setPort responder fun p => { p with ioSecure := true } else s
      reply s 0x7E []
    else if [0x81, 0x82, 0x83, 0x84, 0xE0, 0xE1, 0xE3, 0xE5, 0xE8].contains code then
      reply s (code - 0x80) (if code = 0xE0 then s.measurements else [])
    else error s 0x07)

end Sys2Proof.Machine
end

