-- ==== Sys2Proof/Machine/Power.lean ====
section
/-! DEFINITION. Supplies, reset, device states, power capping and temperatures (spec 21), and the faults that halt the device. -/

namespace Sys2Proof.Machine

/-! ### Entering and leaving states (R770, R774) -/

/-- SELF on every open causeway (R663, R774). -/
def State.sayDead (s : State) : State :=
  (s.fabric.bundles.filter fun b => b.kind = .causeway && b.opened).foldl (fun s b => (s.takeover b.peer 1 s.self 0 0 s.now).1) s

/-- The north die and the optical engines still run (R776). -/
def State.canSayDead (s : State) : Bool := [0, 1, 2, 3, 8].all fun r => s.power.rails.contains r

/-- The device enters HALTED (Table 21-6): running tickets end NOT_READY, and the neighbours hear SELF (R771, R776). -/
def State.halt (s : State) (cause : Nat) : State :=
  if s.power.state == .halted || s.power.state == .off then s
  else
    let s := if s.canSayDead then s.sayDead else s
    let s := ({ s with power := { s.power with offline := false, goal := none } }).become .halted cause
    s.running.foldl (fun s t => s.endTicket t.id Result.notReady s.devState t.progress) s

/-- A device that starts again (R763, R766, Table 21-2): everything is as after reset but what keeps its content: the boot NOR and the
fuses, the wear records, the Tollhouse, the trust anchors (log entry 44), the pins, and what the model itself counts. -/
def State.restart (s : State) (cause : Nat) : State :=
  let r := State.reset
  let log := s.obs.logWritten.map fun x => { x with powerUps := min (x.powerUps + 1) (2 ^ 32 - 1) }
  { r with
    pending := s.pending
    out := s.out
    free := s.free
    power := { r.power with cause := cause, rails := s.power.rails, resetHeld := s.power.resetHeld }
    inn := { r.inn with fw := { r.inn.fw with slotA := s.inn.fw.slotA, slotB := s.inn.fw.slotB, running := s.inn.fw.next, next := s.inn.fw.next } }
    clock := { r.clock with classZero := s.clock.classZero, classOne := s.clock.classOne }
    deep := { r.deep with dies := s.deep.dies.map fun d =>
      { d with erasing := none, suspended := false, resumedAt := 0, wearAt := none, erases := d.savedErases, retired := d.savedRetired } }
    host := { r.host with ports := s.host.ports.map fun p => { HostPort.fresh p.id with perst := p.perst } }
    obs := { r.obs with log := log, logWritten := log }
    trust := { r.trust with anchors := s.trust.anchors, svnRaised := s.trust.svnRaised }
    toll := s.toll }

/-- All ten rails other than VTOLL are good (R760). -/
def State.railsGood (s : State) : Bool := (List.range 10).all fun r => s.power.rails.contains r

/-- `RAIL_GOOD` (R760, R763, R776): a rail has stayed in its range for 1 ms. The last one starts a device that is OFF. -/
def execRailGood (rail : Nat) (s : State) : Host.Outcome State Fault Refusal :=
  .next (if rail > 10 ∨ s.power.rails.contains rail then s
    else
      let s := { s with power := { s.power with rails := s.power.rails ++ [rail] } }
      if s.railsGood && s.power.state == .off && !s.power.resetHeld then s.restart 0 else s)

/-- The management domain resets (Table 21-2, Table 21-8): TLS sessions close; the stream key and the UART rate are cleared. -/
def State.resetManagement (s : State) : State :=
  let s := (List.range 32).foldl State.closeTls s
  { s with
    obs := { s.obs with baud := 115200, stream := { s.obs.stream with key := none } }
    trust := { s.trust with spdm := s.trust.spdm.filter fun x => x.1 ≠ 4 } }

/-- `RAIL_FAULT` (R776, Table 21-8): a good rail leaves its range. Without VCORE, VSRAM or VAUX the device can not run, and is OFF
(Table 21-6). -/
def execRailFault (rail : Nat) (s : State) : Host.Outcome State Fault Refusal :=
  .next (if !s.power.rails.contains rail then s
    else
      let s := { s with power := { s.power with rails := s.power.rails.filter (· ≠ rail) } }
      if rail = 10 ∨ s.power.state == .off then s
      else
        let s := s.report ⟨evFault, sevFailed, 0xA, rail, if rail = 7 ∨ rail = 9 then 9 else 10, 0, 0, 0, 0⟩
        if rail = 7 then (List.range 4).foldl State.linkLost s
        else if rail = 9 then s.resetManagement
        else
          let s := s.halt 3
          if rail = 0 ∨ rail = 1 ∨ rail = 8 then { s with power := { s.power with state := .off } } else s)

/-- `SHORE_RST_N` (R766): asserted for 10 µs it resets every domain but the Tollhouse; on release the device starts again. -/
def execShoreRstN (asserted : Bool) (s : State) : Host.Outcome State Fault Refusal :=
  .next (if asserted then
      if s.power.resetHeld then s
      else if s.power.state == .off then { s with power := { s.power with resetHeld := true } }
      else ({ s with power := { s.power with resetHeld := true } }).restart 10
    else if !s.power.resetHeld then s
    else
      let s := { s with power := { s.power with resetHeld := false } }
      if s.railsGood then s.restart 10 else s)

/-- `CLOCK_FAULT` (R768, Table 17-1): the core, Innkeeper or management PLL (domains 0–2 of Table 01-3), or a SYS_REFCLK off by more
than 200 ppm, halts the device; another domain's loss is a fault of its unit. -/
def execClockFault (domain : Nat) (refclk : Bool) (s : State) : Host.Outcome State Fault Refusal :=
  .next (if domain > 8 ∨ s.power.state == .off then s
    else
      let halts := refclk || decide (domain ≤ 2)
      let s := s.report ⟨evFault, sevFailed, 0xB, domain, if halts then 10 else 9, 0, 0, 0, 0⟩
      if halts then s.halt 4 else s)

/-- `QUAY_ERROR` (Table 17-1): an error in carried data poisons the sectors it was for; one in control or routing state halts. -/
def execQuayError (unit : Nat) (control : Bool) (sectors : List Nat) (s : State) : Host.Outcome State Fault Refusal :=
  .next (if unit > 2 ∨ s.power.state == .off then s
    else if control then (s.report ⟨evFault, sevFailed, 0x5, unit, 10, 0, 0, 0, 0⟩).halt 6
    else
      let mine := sectors.filter fun p => decide (p * 64 < s.store.capacity)
      let s := if mine.isEmpty then s else s.poisonSectors mine
      s.report ⟨evFault, sevUncorrected, 0x5, unit, 5, 0, (mine.head?.map fun p => gpaOf s.self (p * 64)).getD 0, 0, 0⟩)

/-- Registers and bindings of a port's mailboxes return to their resets (R130, R765, R801). -/
def State.resetBoxes (s : State) (port : Nat) : State :=
  { s with inn := { s.inn with
    boxes := s.inn.boxes.filter fun (b : Mailbox) => b.port ≠ port
    chans := s.inn.chans.filterMap fun (x : Chan) => match x.chan with
      | .mailbox p 0 => if p = port then some ⟨.mailbox p 0, some (0, 0), 0, [], []⟩ else some x
      | .mailbox p _ => if p = port then none else some x
      | _ => some x } }

/-- `PERST` (R765): assertion resets domain HOST p, whose link is down; on release the bindings of the port return to those of R130 and
its mailboxes' commands end without a response. -/
def execPerst (port : Nat) (asserted : Bool) (s : State) : Host.Outcome State Fault Refusal :=
  .next (if (s.port port).isNone then s
    else if asserted then
      let s := (s.linkOff port).flr port
      let s := s.setPort port fun p => { p with perst := true, d3hot := false, biEnabled := false }
      { s with regs := s.regs.filter fun (x : ViewRegs) => x.view ≠ .host port }
    else if (s.port port).any (·.perst) then (s.setPort port fun p => { p with perst := false }).resetBoxes port
    else s)

/-! ### WAKING (R615–R618, R696, R773) -/

/-- What a channel carries, as its parameter pages say: channel, part in the qualified list (0: none), chip enables, LUNs per chip
enable, GiB per chip enable. -/
abbrev ChannelParts := Nat × Nat × Nat × Nat × Nat

/-- The parts of a group, in channel order. -/
def groupParts (parts : List ChannelParts) (g : Nat) : List ChannelParts :=
  (span (16 * g) 16).filterMap fun c => parts.find? fun x => x.1 = c

/-- A group meets R616 beside group 0's part: every channel populated alike. -/
def groupFits (parts : List ChannelParts) (g : Nat) : Bool :=
  match parts.find? fun x => x.1 = 0 with
  | none => false
  | some a =>
    let ps := groupParts parts g
    ps.length == 16 && decide (a.2.1 ≠ 0 ∧ 1 ≤ a.2.2.1 ∧ a.2.2.1 ≤ 8 ∧ 1 ≤ a.2.2.2.1 ∧ a.2.2.2.1 ≤ 4 ∧ a.2.2.2.2 ≤ 256) &&
      ps.all fun x => x.2 == a.2

/-- The populated groups that are used (R616, R617): the largest valid set with group 0. -/
def usedGroups (parts : List ChannelParts) : List Nat :=
  let ok := (List.range 4).filter (groupFits parts)
  if ok.length = 4 then [0, 1, 2, 3] else if ok.contains 0 && ok.contains 2 then [0, 2] else if ok.contains 0 then [0] else []

/-- The population is fixed: usable capacity and the figures of Table 16-2; groups left unused are reported (R617). -/
def State.populate (s : State) (parts : List ChannelParts) : State :=
  let gs := usedGroups parts
  let a : ChannelParts := ((parts.find? fun x => x.1 = 0).getD (0, 0, 0, 0, 0))
  let raw := gs.length * 16 * a.2.2.1 * a.2.2.2.2 * 2 ^ 30
  let cap := min (96 * 2 ^ 40) (raw * 3 / 4 / mib2 * mib2)
  let broken := (List.range 4).filter fun g => !gs.contains g && !(groupParts parts g).isEmpty
  let s := { s with
    deep := { s.deep with groups := gs, luns := a.2.2.2.1, enables := a.2.2.1, raw := raw, rated := Config.unit (0x20000 + a.2.1) }
    store := { s.store with capacity := cap } }
  broken.foldl (fun s g => s.report ⟨evFault, sevFailed, 0x2, 0x8000 + 16 * g, 4, 0, 0, 0, 0⟩) s

/-- The device commands VCORE over AVSBus within its range (R762), as the fused table and the temperature require: a free value. -/
def State.setVcore (s : State) : State :=
  let v := 650 + s.nextFree % 201
  ({ s with power := { s.power with vcore := v } }.emit (.vcore v)).drew

/-- `WAKING_COMPLETE` (R615–R617, Table 21-6): every stack trained or retired and the population fixed, a booted device enters
STRICT; one that has locked already goes on to SERVICE. -/
def execWakingComplete (parts : List (Nat × Nat × Nat × Nat × Nat)) (badStacks : List Nat) (s : State) : Host.Outcome State Fault Refusal :=
  .next (if s.power.state == .waking && s.inn.booted && !s.power.resetHeld && badStacks.all fun k => decide (k < 8) then
      let s := badStacks.foldl (fun s k => s.retireStack k true) (s.populate parts)
      let s := s.setVcore.become .strict 0
      s.lockedIn (s.clock.everLocked && !s.power.hold) 2
    else s)

/-! ### STATE_SET (R771) -/

/-- Descriptors of guests other than the system guest. -/
def State.guestWork (s : State) : Nat := (s.queues.descs.filter fun d => d.guest ≠ 0).length

/-- A STATE_SET that still waits gives way to a later one: its ticket ends CONFLICT (log entry 45). -/
def State.dropGoal (s : State) : State :=
  match s.power.goal with
  | some g => ({ s with power := { s.power with goal := none } }).endTicket g.ticket Result.conflict 16 0
  | none => s

/-- Set the goal of a STATE_SET. -/
def State.aim (s : State) (target ticket : Nat) : State := { s with power := { s.power with goal := some ⟨target, ticket⟩ } }

def State.setHold (s : State) (h : Bool) : State := { s with power := { s.power with hold := h } }

/-- What STATE_SET begins at EFFECT. -/
def State.stateSet (s : State) (target : Nat) (offline : Bool) (ticket : Nat) : State :=
  let s := s.dropGoal
  match target, s.power.state with
  | 0, .strict => s.setHold true
  | 0, .service => if s.guestWork = 0 then s.become .strict 1 else s.aim 0 ticket
  | 0, .draining => s.become .strict 1
  | 1, .strict => if s.clock.locked then (s.setHold false).become .service 1 else (s.setHold false).aim 1 ticket
  | 1, .draining => if s.clock.locked then (s.setHold false).become .service 1 else ((s.setHold false).become .strict 1).aim 1 ticket
  | 2, .draining => { s with power := { s.power with offline := offline } }
  | 2, _ => ({ s with power := { s.power with offline := offline } }).become .draining 1
  | _, _ => s

/-- STATE_SET (0x0E03, R771). -/
def opStateSet : RelasOp where
  len := lenIs 24
  fields := fun c _ => firstBad [(decide (c.f 16 1 > 2), 16), (decide (c.f 17 1 > (if c.f 16 1 = 2 then 1 else 0)), 17), (nonzero c 18 6, 18)]
  conflict := fun _ s => if s.power.offline then some 16 else none
  effect := fun c t s => (s.stateSet (c.f 16 1) (c.f 17 1 = 1) t, .pending .stateSet)

/-- `STATE_REACHED` (R771): the last non-system descriptor has completed. -/
def execStateReached (s : State) : Host.Outcome State Fault Refusal :=
  .next (match s.power.goal with
    | some g =>
      if g.target = 0 ∧ s.guestWork = 0 ∧ s.power.state = .service then
        (({ s with power := { s.power with goal := none } }).become .strict 1).endTicket g.ticket Result.done 0 0
      else s
    | none => s)

/-- Plain requests that have been admitted and not answered. -/
def State.plainWork (s : State) : Bool :=
  !s.waitingHere.isEmpty || (s.store.harbour.misses.any fun m => m.waiters.any fun w => match w with
    | .host _ _ _ _ _ => true
    | _ => false) || !s.dir.waiting.isEmpty || (s.dir.recalls.any fun r => r.event.isSome) || !s.ord.outstanding.isEmpty

/-- `OFFLINE_HALT` (R771): with nothing in flight the device writes the wear record and the Logbook, sends SELF and enters HALTED. -/
def execOfflineHalt (s : State) : Host.Outcome State Fault Refusal :=
  .next (if s.power.state = .draining ∧ s.power.offline ∧ s.queues.descs.isEmpty ∧ !s.plainWork then
      let s := (s.deep.dies.map (·.number)).foldl State.saveWear s
      s.writeLog.halt 9
    else s)

/-! ### Power capping (R777–R779) -/

/-- The first slot start at or after a tidetime. -/
def slotStart (t : Nat) : Nat := ceilDiv t slotTicks * slotTicks

/-- A cap lowers f (R779). -/
def State.capLowers (s : State) (w : Nat) : Bool := decide (min (fPower w) s.power.fThermal < s.fAt s.now)

/-- POWER_CAP_SET (0x0E01, R779). -/
def opPowerCapSet : RelasOp where
  len := lenIs 32
  fields := fun c _ => firstBad [(decide (c.f 16 2 < 700 ∨ c.f 16 2 > 1000), 16), (nonzero c 18 6, 18)]
  conflict := fun c s =>
    if s.capLowers (c.f 16 2) ∧ c.f 24 8 ≠ 0 ∧ c.f 24 8 < s.now + 800000000 then some 24 else none
  effect := fun c _ s =>
    let start := if c.f 24 8 ≠ 0 then c.f 24 8
      else if s.capLowers (c.f 16 2) then slotStart (s.now + 800000000) else (slotOf s.now + 1) * slotTicks
    (({ s with power := { s.power with capNext := some (c.f 16 2, start) } }).interrupt 5, .done)
  objects := fun _ => [(.powerCap, 16)]

/-- `POWER_CAP_EFFECT` (R778): announced changes of f whose start has come take effect. -/
def execPowerCapEffect (s : State) : Host.Outcome State Fault Refusal :=
  let p := s.power
  let due (x : Option (Nat × Nat)) : Bool := x.any fun y => decide (y.2 ≤ s.now)
  .next (if due p.capNext || due p.thermalNext then
      ({ s with power := { p with
        capW := inForce p.capW p.capNext s.now
        fThermal := inForce p.fThermal p.thermalNext s.now
        capNext := if due p.capNext then none else p.capNext
        thermalNext := if due p.thermalNext then none else p.thermalNext } }).interrupt 5
    else s)

/-- The tidetime of the next announced change of f; 0 if none (Table 21-12). -/
def State.nextChange (s : State) : Nat :=
  match s.power.capNext, s.power.thermalNext with
  | some a, some b => min a.2 b.2
  | some a, none => a.2
  | none, some b => b.2
  | none, none => 0

/-- A signed 16-bit value as two bytes. -/
def leSigned (v : Int) : List Byte := leBytes 2 (v % 65536).toNat

/-- THERMAL_QUERY (0x0E02, Table 21-12). -/
def opThermalQuery : RelasOp where
  len := lenIs 24
  fields := fun c _ => firstBad [(nonzero c 16 8, 16)]
  effect := fun _ _ s =>
    let n := s.nextChange
    (s, .read ((s.power.temps.map leSigned).flatten ++ leBytes 2 (inForce s.power.capW s.power.capNext s.now) ++ leBytes 2 (s.fAt s.now) ++
      leBytes 2 (inForce s.power.fThermal s.power.thermalNext s.now) ++ zeros 6 ++ leBytes 8 n ++
      leBytes 2 (if n = 0 then 0 else s.fAt n) ++ zeros 6))

/-! ### Temperatures (R780–R782) -/

/-- Junction limit of a sensor group in 0.125 °C (R780): logic 105 °C, stacks 95 °C, optical engines 80 °C. -/
def junctionLimit (i : Nat) : Int := if i < 2 then 840 else if i < 10 then 760 else 640

/-- Some, or every, sensor group stands at an offset from its limit, in °C. -/
def anyAt (temps : List Int) (off : Int) : Bool := (List.range 26).any fun i => decide (junctionLimit i + 8 * off ≤ temps.getD i 0)
def allBelow (temps : List Int) (off : Int) : Bool := (List.range 26).all fun i => decide (temps.getD i 0 ≤ junctionLimit i + 8 * off)

/-- f_thermal is announced 0.10 lower, down to 0.28, for 100 ms later (R781). -/
def State.coolDown (s : State) : State :=
  let s := s.interrupt 6
  if s.now < s.power.stepAt + 800000000 ∧ s.power.stepAt ≠ 0 then s
  else
    let from' := ((s.power.thermalNext).map (·.1)).getD s.power.fThermal
    let f := max 28 (from' - 10)
    if f = from' then s
    else ({ s with power := { s.power with
      fThermal := inForce s.power.fThermal s.power.thermalNext s.now
      thermalNext := some (f, s.now + 800000000), stepAt := s.now } }).interrupt 5

/-- f_thermal rises by 0.10 every 100 ms once every junction has been cool for 1 s (R781). -/
def State.warmUp (s : State) : State :=
  match s.power.coolSince with
  | some t =>
    if t + 8000000000 ≤ s.now ∧ s.power.fThermal < 100 ∧ s.power.stepAt + 800000000 ≤ s.now then
      ({ s with power := { s.power with fThermal := min 100 (s.power.fThermal + 10), thermalNext := none, stepAt := s.now } }).interrupt 5
    else s
  | none => s

/-- `THERMAL_SAMPLE` (R781, R782): the sensors as read, and whether the device projects some junction to reach its limit minus
5 °C within 200 ms. -/
def execThermalSample (temps : List Int) (projected : Bool) (s : State) : Host.Outcome State Fault Refusal :=
  .next (if temps.length ≠ 26 ∨ s.power.state == .off ∨ s.power.state == .halted then s
    else
      let s := s.setVcore
      let cool := allBelow temps (-10)
      let s := { s with power := { s.power with
        temps := temps, coolSince := if cool then some (s.power.coolSince.getD s.now) else none } }
      if anyAt temps 5 then (({ s with power := { s.power with tripped := true } }).halt 5).emit (.pin "THERM_TRIP_N" false)
      else if anyAt temps 0 then
        if s.fAt s.now ≤ 28 ∧ s.power.fThermal = 28 then s
        else ((({ s with power := { s.power with fThermal := 28, thermalNext := none, stepAt := s.now } }).singleFault 0xA).interrupt 5)
      else if projected then s.coolDown
      else s.warmUp)

/-! ### Get Health Info (Table 15-6) -/

/-- `GET_HEALTH_INFO` (Table 15-6): the device state, the highest weathering score and the junction temperatures. -/
def execGetHealthInfo (port : Nat) (s : State) : Host.Outcome State Fault Refusal :=
  .next (s.cxlOk port (leBytes 1 s.power.state.code ++ zeros 1 ++ leBytes 2 (maxNat (s.obs.scores.map (·.score))) ++
    (s.power.temps.map leSigned).flatten))

end Sys2Proof.Machine
end

