-- ==== Sys2Proof/Machine/Firmware.lean ====
section
/-! DEFINITION. Firmware images, boot, activation and the lockstep pairs (spec 03: R161–R165; spec 17: R649; spec 18: R696–R699). -/

namespace Sys2Proof.Machine

/-- A firmware slot: 0 A, 1 B. -/
def Firmware.slot (f : Firmware) (k : Nat) : FwSlot := if k = 0 then f.slotA else f.slotB

def Firmware.setSlot (f : Firmware) (k : Nat) (x : FwSlot) : Firmware := if k = 0 then { f with slotA := x } else { f with slotB := x }

def State.setFw (s : State) (f : Firmware) : State := { s with inn := { s.inn with fw := f } }

/-- A field of the image header (Table 18-4). -/
def FwSlot.header (x : FwSlot) (off n : Nat) : Nat := leNat (Mem.read x.bytes off n)

/-- RELEASE, SVN and COMMIT_SVN of an image. -/
def FwSlot.release (x : FwSlot) : Nat := x.header 6 2
def FwSlot.svn (x : FwSlot) : Nat := x.header 12 2
def FwSlot.commits (x : FwSlot) : Bool := bit (x.header 15 1) 0

/-- The test of R698: the header, the key and its revocation, the signature and digest, and the minimum SVN. -/
def State.imageOk (s : State) (x : FwSlot) : Bool :=
  x.header 0 4 == 0x54585749 && x.header 4 2 == 1 && decide (x.header 8 4 ≤ 2 ^ 24 - 512) && decide (x.header 14 1 < 4) &&
    !bit revoked (x.header 14 1) && decide (s.minSvn ≤ x.svn) && Config.verifies (Mem.read x.bytes 0 512 ++ x.bytes.map (·.2))

/-! ### Boot (R696) -/

/-- `INNKEEPER_BOOT` (R696, R773): the mask ROM starts the slot marked for use, or the other one where it fails R698; with neither the
device halts. `okA` and `okB` tell what the test of R698 finds of the image that each slot holds. -/
def execInnkeeperBoot (okA okB : Bool) (s : State) : Host.Outcome State Fault Refusal :=
  let ok (k : Nat) : Bool := if k = 0 then okA else okB
  let first := s.inn.fw.next
  let boot (k : Nat) (s : State) : State :=
    let s := s.setFw { s.inn.fw with running := k }
    { s with inn := { s.inn with booted := true } }
  .next (if s.power.state ≠ .waking ∨ s.inn.booted ∨ s.power.resetHeld then s
    else if ok first then boot first s
    else
      let s := { s with obs := { s.obs with boot := s.obs.boot ++ [first] } }
      if ok (1 - first) then boot (1 - first) s
      else ({ s with obs := { s.obs with boot := s.obs.boot ++ [1 - first] } }).halt 8)

/-! ### Commands of family 0x0F -/

/-- FW_WRITE (0x0F01, R161). -/
def opFwWrite : RelasOp where
  len := fun c => if c.len < 32 then some 32 else if c.len > 4088 then some 4088 else if c.len % 8 ≠ 0 then some (c.len / 8 * 8) else none
  fields := fun c _ => firstBad [(decide (c.f 16 1 > 1), 16), (nonzero c 17 3, 17),
    (decide (c.f 20 4 % 8 ≠ 0 ∨ c.f 20 4 + (c.len - 24) > 2 ^ 24), 20)]
  conflict := fun c s => if c.f 16 1 = s.inn.fw.running then some 16 else none
  effect := fun c _ s =>
    let x := s.inn.fw.slot (c.f 16 1)
    let data := slice c.bytes 24 (c.len - 24)
    ((s.setFw (s.inn.fw.setSlot (c.f 16 1) ⟨Mem.write x.bytes (c.f 20 4) data, false⟩)).emit (.nor data), .done)
  objects := fun c => [(.firmware (c.f 16 1), 16)]

/-- FW_VERIFY (0x0F02, R162). -/
def opFwVerify : RelasOp where
  len := lenIs 24
  fields := fun c _ => firstBad [(decide (c.f 16 1 > 1), 16), (nonzero c 17 7, 17)]
  effect := fun c _ s => (s, .pending (.fwVerify (c.f 16 1)))
  objects := fun c => [(.firmware (c.f 16 1), 16)]

/-- Every TLS session closes (R164). -/
def State.closeAllTls (s : State) : State := (List.range 32).foldl State.closeTls s

/-- FW_ACTIVATE (0x0F03, R163, R164). -/
def opFwActivate : RelasOp where
  len := lenIs 24
  fields := fun c _ => firstBad [(decide (c.f 16 1 > 1), 16), (decide (c.f 17 1 > 1), 17), (nonzero c 18 6, 18)]
  conflict := fun c s => if !(s.inn.fw.slot (c.f 16 1)).verified ∨ s.inn.fw.activating.isSome then some 16 else none
  effect := fun c t s =>
    let f := s.inn.fw
    if c.f 17 1 = 1 then (s.setFw { f with next := c.f 16 1 }, .pending (.fwActivate (c.f 16 1)))
    else
      let s := s.setFw { f with activating := some (c.f 16 1), started := s.now, actTicket := t, refusing := true }
      (s, .pending (.fwActivate (c.f 16 1)))
  objects := fun c => [(.firmware (c.f 16 1), 16)]

/-- FW_QUERY (0x0F04): the running slot, the slot of the next reset, which slots are verified, and the two releases (log entry 46: no
table gives its layout). -/
def opFwQuery : RelasOp where
  len := lenIs 24
  fields := fun c _ => firstBad [(nonzero c 16 8, 16)]
  effect := fun _ _ s =>
    let f := s.inn.fw
    (s, .read (leBytes 1 f.running ++ leBytes 1 f.next ++ leBytes 1 (b2n f.slotA.verified + 2 * b2n f.slotB.verified) ++ zeros 1 ++
      leBytes 2 f.slotA.release ++ leBytes 2 f.slotB.release))

/-! ### Live activation (R164, R165, R699, R701) -/

/-- `FW_SELF_CHECK_PASS` (R165, R699, R701): the new image serves, its slot is marked for use, COMMIT_SVN raises the fused minimum, and
SPDM sessions opened before end. -/
def execFwSelfCheckPass (s : State) : Host.Outcome State Fault Refusal :=
  let f := s.inn.fw
  .next (match f.activating with
    | none => s
    | some k =>
      let x := f.slot k
      let s := (s.setFw { f with running := k, next := k, activating := none, refusing := false }).closeAllTls
      let s := { s with trust := { s.trust with
        svnRaised := if x.commits then max s.trust.svnRaised x.svn else s.trust.svnRaised
        spdm := [], liveActivations := u32 (s.trust.liveActivations + 1) } }
      (s.count 0x0C 0 5 1).endTicket f.actTicket Result.done 0 0)

/-- `FW_SELF_CHECK_TIMEOUT` (R165): 500 ms after its start the new image has not passed; the previous one restarts. -/
def execFwSelfCheckTimeout (s : State) : Host.Outcome State Fault Refusal :=
  let f := s.inn.fw
  .next (match f.activating with
    | none => s
    | some _ =>
      if s.now < f.started + 4000000000 then s
      else ((s.setFw { f with activating := none, refusing := false }).closeAllTls).endTicket f.actTicket Result.internal 1 0)

/-! ### Lockstep pairs (R649) -/

/-- `LOCKSTEP_MISMATCH` (R649): a pair is reset and started again, or fails to; two failed starts within 10 s drain the device. -/
def execLockstepMismatch (pair : Nat) (started : Bool) (s : State) : Host.Outcome State Fault Refusal :=
  .next (if pair > 1 ∨ !s.inn.booted then s
    else
      let s := { s with trust := { s.trust with pairRestarts := u32 (s.trust.pairRestarts + 1) } }
      let s := (s.report ⟨evFault, if started then sevRecovered else sevFailed, 0x7, pair, 2, 0, 0, 0, 0⟩).closeAllTls
      if started then s.setFw { s.inn.fw with refusing := s.inn.fw.activating.isSome }
      else
        let recent := s.faults.restarts.filter fun t => decide (s.now ≤ t + 80000000000)
        let s := { s with faults := { s.faults with restarts := recent ++ [s.now] } }
        if recent.isEmpty then s.setFw { s.inn.fw with refusing := true, started := s.now }
        else if s.power.state == .strict || s.power.state == .service then s.become .draining 7
        else s)

end Sys2Proof.Machine
end

