-- ==== Sys2Proof/Machine/Registers.lean ====
section
/-! DEFINITION. Registers (spec 23): what each view reads, what a write does, the doorbells, the mailbox windows, and SXF control space
(R20–R26, R264, R572, R736, R792–R807). -/

namespace Sys2Proof.Machine

/-! ### Registers and their offsets -/

/-- What an offset of a BAR holds (Tables 23-1 and 23-2). -/
inductive RegPlace where
  | shore (off : Nat)
  | perView (off : Nat)
  | mbxRegister (box off : Nat)
  | mbxCmd (box off : Nat)
  | mbxRsp (box off : Nat)
  | sqWindow (q off : Nat)
  | cqWindow (q off : Nat)
  | doorbell (q kind : Nat)
  | reserved
  | standard
  deriving DecidableEq, Repr

/-- The registers for the whole shore: identity, capability and device state. -/
def shoreOffsets : List Nat := [0, 8, 0x10, 0x18, 0x20, 0x40, 0x48, 0x50, 0x1000, 0x1008, 0x1010, 0x1018, 0x1020]

/-- The place of a byte offset. -/
def placeOf (bar off : Nat) : RegPlace :=
  let reg := off / 8 * 8
  if bar = 1 then
    if off / 0x1000 > 1023 then .reserved
    else if reg % 0x1000 = 0 then .doorbell (off / 0x1000) 0
    else if reg % 0x1000 = 8 then .doorbell (off / 0x1000) 1
    else if reg % 0x1000 = 0x10 then .doorbell (off / 0x1000) 2
    else .reserved
  else if shoreOffsets.contains reg then .shore reg
  else if 0x1100 ≤ off ∧ off < 0x1128 then .perView reg
  else if 0x10000 ≤ off ∧ off < 0x30000 then
    let m := (off - 0x10000) / 0x2000
    let o := (off - 0x10000) % 0x2000
    if o < 0x18 then .mbxRegister m (reg % 0x2000)
    else if o < 0x100 then .reserved
    else if o < 0x1100 then .mbxCmd m (o - 0x100)
    else .mbxRsp m (o - 0x1100)
  else if 0x80000 ≤ off ∧ off < 0xA0000 then
    if reg % 0x80 < 0x40 then .sqWindow ((off - 0x80000) / 0x80) (reg % 0x80) else .reserved
  else if 0xA0000 ≤ off ∧ off < 0xC0000 then
    if reg % 0x80 < 0x28 then .cqWindow ((off - 0xA0000) / 0x80) (reg % 0x80) else .reserved
  else if 0xC0000 ≤ off ∧ off < 0xF0000 then .standard
  else .reserved

/-- The access has a width and alignment that Table 23-3 allows; reserved offsets and the blocks of other standards take any. -/
def regAllowed (a : RegAccess) : Bool :=
  match placeOf a.bar a.off with
  | .reserved => true
  | .standard => true
  | .doorbell _ _ => (a.width == 4 || a.width == 8) && a.off % 8 == 0
  | _ => (a.width == 4 || a.width == 8) && a.off % a.width == 0

/-! ### Values -/

/-- ID and FW (Tables 23-4, 23-5). The vendor ID is a fact of the unit (log entry 10). -/
def State.regId (_ : State) : Nat := Config.unit 5 % 2 ^ 16 + 0x6480 * 2 ^ 16 + 0xA1 * 2 ^ 32
def State.regFw (s : State) : Nat :=
  let f := s.inn.fw
  let other := 1 - f.running
  (f.slot f.running).release + (if s.obs.boot.contains other then 0 else (f.slot other).release) * 2 ^ 16 + f.running * 2 ^ 40 +
    (f.slot f.running).svn % 64 * 2 ^ 42 + s.minSvn % 64 * 2 ^ 48

/-- The device has been through WAKING (R797). -/
def State.awake (s : State) : Bool := s.power.state != .waking && s.power.state != .off

/-- CAP_MEM and CAP_UNITS (Tables 23-8, 23-9, R797). -/
def State.regCapMem (s : State) : Nat :=
  if !s.awake then 0
  else s.store.capacity / mib2 % 2 ^ 26 + sumNat (((List.range 8).filter fun k => !s.faults.stacksOut.contains k).map (2 ^ ·)) * 2 ^ 32 +
    sumNat (s.deep.groups.map (2 ^ ·)) * 2 ^ 44
def State.regCapUnits (s : State) : Nat :=
  if !s.awake then 0
  else (32 - s.faults.arraysLost.length) + (2 - s.faults.sparesUsed.length) * 2 ^ 6 +
    (s.porter.channels.filter fun c => c.st ≠ .retired).length * 2 ^ 16 + s.capAt resDeep (slotOf s.now) % 256 * 2 ^ 32

/-- FABRIC (Table 23-7). -/
def State.regFabric (s : State) : Nat :=
  let f := s.fabric
  f.shoreId % 2 ^ 10 + f.profile.code * 2 ^ 10 + f.dimX % 16 * 2 ^ 16 + f.dimY % 16 * 2 ^ 20 + f.dimZ % 16 * 2 ^ 24

/-- POWER (Table 23-13). -/
def State.regPower (s : State) : Nat :=
  s.fAt s.now % 256 + inForce s.power.fThermal s.power.thermalNext s.now % 256 * 2 ^ 8 +
    inForce s.power.capW s.power.capNext s.now % 1024 * 2 ^ 16

/-- A register that holds one value for the whole shore. -/
def State.shoreReg (s : State) (off : Nat) : Nat :=
  match off with
  | 0x00 => s.regId
  | 0x08 => s.regFw
  | 0x10 => leNat (serial.take 8)
  | 0x18 => leNat (serial.drop 8)
  | 0x20 => s.regFabric
  | 0x40 => s.regCapMem
  | 0x48 => s.regCapUnits
  | 0x50 => 0x400 + 0x10 * 2 ^ 16 + 0x10 * 2 ^ 24 + 0x800 * 2 ^ 32
  | 0x1000 => s.devState
  | 0x1008 => u64 s.power.stateTime
  | 0x1010 => u64 s.now
  | 0x1018 => s.regPower
  | 0x1020 => u64 s.obs.nextSeq
  | _ => 0

/-- BAD_ACCESS and DOORBELL_DENIED (Table 23-15). -/
def ViewRegs.bad (x : ViewRegs) : Nat := x.badCount + x.badLast * 2 ^ 32
def ViewRegs.denied (x : ViewRegs) : Nat := x.deniedCount + x.deniedLast * 2 ^ 32

/-- The view whose own registers a reader sees (R795): Wayfarer reads port 0's. -/
def ownView : View → View
  | .wayfarer => .host 0
  | v => v

/-- A per-view register; through SXF control space the interrupt registers read as zero (R795). -/
def State.viewReg (s : State) (v : View) (off : Nat) : Nat :=
  let x := s.view (ownView v)
  let jetty := match v with
    | .jetty _ => true
    | _ => false
  match off with
  | 0x1100 => if jetty then 0 else x.status
  | 0x1108 => if jetty then 0 else x.enable
  | 0x1110 => if jetty then 0 else x.status
  | 0x1118 => x.bad
  | _ => x.denied

/-- A mailbox register (Table 23-16, R801). -/
def State.mbxReg (s : State) (p m off : Nat) : Nat :=
  let b := s.box p m
  if b.mute then 0
  else match off with
    | 8 => b2n b.busy + 2 * b2n b.done + 4 * b2n b.overrun + fld b.rsp 2 2 * 2 ^ 16 + fld b.rsp 6 2 * 2 ^ 32
    | 0x10 => b.vector + b2n b.notify * 2 ^ 16
    | _ => 0

/-- The SQ window (Table 23-17). -/
def State.sqReg (s : State) (q : Sq) (off : Nat) : Nat :=
  match off with
  | 0x00 => 1 + 2 * b2n q.ordered + 4 * b2n q.stopOnRefusal + 8 * b2n q.stopped + q.maxClass % 4 * 2 ^ 4 +
      b2n (s.quarantined q.guest) * 2 ^ 6 + q.guest * 2 ^ 16 + q.cq * 2 ^ 32 + Nat.log2 q.depth * 2 ^ 48
  | 0x08 => q.ring
  | 0x10 => q.errGpa + Nat.log2 q.errDepth * 2 ^ 57
  | 0x18 => q.headGpa
  | 0x20 => q.head + q.tail * 2 ^ 16 + q.errWrite * 2 ^ 32 + q.errHead * 2 ^ 48
  | 0x28 => s.inflight q.id + q.maxInflight * 2 ^ 16
  | 0x30 => u32 q.refusals + u32 q.badDoorbells * 2 ^ 32
  | _ => match q.bollard with
    | some b => b + 2 ^ 17
    | none => 0

/-- The CQ window (Table 23-18). -/
def State.cqReg (s : State) (q : Cq) (off : Nat) : Nat :=
  match off with
  | 0x00 => 1 + q.notifyKind % 4 * 2 + Nat.log2 q.depth * 2 ^ 3 + q.guest * 2 ^ 16 + q.vector % 2048 * 2 ^ 32 + q.notifyPort % 64 * 2 ^ 48
  | 0x08 => q.ring
  | 0x10 => q.head + q.write * 2 ^ 16 + b2n q.phase * 2 ^ 32 + q.reserved * 2 ^ 33
  | 0x18 => q.agent % 2 ^ 16
  | _ => (s.queues.sqs.filter fun x => x.cq = q.id).length

/-- The view may use a queue of a guest (R572, R802, R806): the port that owns the guest, or every port for the system guest; a jetty
agent to which the guest is bound. Wayfarer reads what host port 0 reads. -/
def State.mayUse (s : State) (v : View) (agent g : Nat) : Bool :=
  let port (p : Nat) : Bool := g == 0 || (s.guestRec g).any fun x => !x.ownerJetty && x.ownerPort == p
  match v with
  | .host p => port p
  | .jetty b => (s.bundle b).any fun x => x.knows agent g
  | .wayfarer => port 0

/-- What an 8 B read of a register returns (Tables 23-4 to 23-19); `off` is the byte offset. -/
def State.regValue (s : State) (v : View) (agent bar off : Nat) : Nat :=
  match placeOf bar off with
  | .shore o => s.shoreReg o
  | .perView o => s.viewReg v o
  | .mbxRegister m o => match v with
    | .host p => s.mbxReg p m o
    | _ => 0
  | .mbxCmd m o => match v with
    | .host p => if (s.box p m).mute then 0 else fld (s.box p m).cmd (o / 8 * 8) 8
    | _ => 0
  | .mbxRsp m o => match v with
    | .host p => if (s.box p m).mute then 0 else fld (s.box p m).rsp (o / 8 * 8) 8
    | _ => 0
  | .sqWindow q o => match s.sq q with
    | some x => if s.mayUse v agent x.guest then s.sqReg x o else 0
    | none => 0
  | .cqWindow q o => match s.cq q with
    | some x => if s.mayUse v agent x.guest then s.cqReg x o else 0
    | none => 0
  | _ => 0

/-- The half or the whole of a register that an access reaches (R793). -/
def halfOf (a : RegAccess) (v : Nat) : Nat := if a.width = 4 then v / 2 ^ (8 * (a.off % 8)) % 2 ^ 32 else v

/-! ### Reads with an effect -/

/-- An access that R26 turns away is counted in its view, once more up to saturation, and BAD_ACCESS is raised (Tables 23-14, 23-15). -/
def State.countBad (s : State) (a : RegAccess) : State :=
  let x := s.view a.view
  let last := a.off % 2 ^ 22 + a.bar * 2 ^ 22 + b2n a.write * 2 ^ 23
  let s := s.setView { x with badCount := min (x.badCount + 1) (2 ^ 32 - 1), badLast := last }
  if x.badCount < 2 ^ 32 - 1 then s.interrupt 7 else s

/-- Who keeps a latch of TIDETIME (R736): the view and the agent. -/
def latchOf (a : RegAccess) (x : View × Nat × Nat) : Bool := x.1 == a.view && x.2.1 == a.agent

/-- A 4 B read of a half of TIDETIME (R736): the low half latches the high one for its requester. -/
def State.readTidetime (s : State) (a : RegAccess) : State × Nat :=
  let rest := s.clock.latches.filter fun x => !latchOf a x
  let high := u64 s.now / 2 ^ 32
  let s' (l : List (View × Nat × Nat)) : State := { s with clock := { s.clock with latches := l } }
  if a.off % 8 = 0 then (s' (rest ++ [(a.view, a.agent, high)]), u64 s.now % 2 ^ 32)
  else (s' rest, ((s.clock.latches.find? (latchOf a)).map (·.2.2)).getD high)

/-- A read of BAD_ACCESS or DOORBELL_DENIED whose bytes hold COUNT clears it (R23, R795). -/
def State.readCount (s : State) (a : RegAccess) : State × Nat :=
  let v := halfOf a (s.regValue a.view a.agent a.bar a.off)
  let x := s.view a.view
  if a.width = 4 ∧ a.off % 8 = 4 then (s, v)
  else if placeOf a.bar a.off = .perView 0x1118 then (s.setView { x with badCount := 0 }, v)
  else (s.setView { x with deniedCount := 0 }, v)

/-- A read of a register, with what it changes; one that R792 does not allow returns all ones (R26). -/
def State.regRead (s : State) (a : RegAccess) : State × Nat :=
  if !(regAllowed a) then (s.countBad a, 2 ^ (8 * a.width) - 1)
  else match placeOf a.bar a.off with
    | .shore 0x1010 => if a.width = 4 then s.readTidetime a else (s, s.regValue a.view a.agent a.bar a.off)
    | .perView 0x1118 => s.readCount a
    | .perView 0x1120 => s.readCount a
    | _ => (s, halfOf a (s.regValue a.view a.agent a.bar a.off))

/-- A host port's access whose row names the register. -/
def State.hostAccess (s : State) (a : RegAccess) (f : Nat → State) : Host.Outcome State Fault Refusal :=
  .next (match a.view with
    | .host p => if (s.port p).any (·.up) && s.power.state != .off then f p else s
    | _ => s)

/-- A read by a host port returns its value. -/
def State.hostRead' (s : State) (a : RegAccess) (place : RegPlace) : Host.Outcome State Fault Refusal :=
  s.hostAccess a fun _ =>
    if a.write || !(regAllowed a) || placeOf a.bar a.off != place then s
    else let (s, v) := s.regRead a; s.emit (.reg a.view v)

/-- `TIDETIME_LOW_READ` (R736): a 4 B read of a half of TIDETIME. -/
def execTidetimeLowRead (a : RegAccess) (s : State) : Host.Outcome State Fault Refusal :=
  if a.width = 4 then s.hostRead' a (.shore 0x1010) else .next s

/-- `BAD_ACCESS_READ` (R795). -/
def execBadAccessRead (a : RegAccess) (s : State) : Host.Outcome State Fault Refusal := s.hostRead' a (.perView 0x1118)

/-- `DOORBELL_DENIED_READ` (R795). -/
def execDoorbellDeniedRead (a : RegAccess) (s : State) : Host.Outcome State Fault Refusal := s.hostRead' a (.perView 0x1120)

/-- `BAD_REGISTER_ACCESS` (R26): no effect, all ones for a read, and counted. -/
def execBadRegisterAccess (a : RegAccess) (s : State) : Host.Outcome State Fault Refusal :=
  s.hostAccess a fun _ =>
    if (regAllowed a) then s
    else if a.write then s.countBad a
    else (s.countBad a).emit (.reg a.view (2 ^ (8 * a.width) - 1))

/-! ### Writes -/

/-- The data of a write at its place in the 64 bits of the register; a 4 B write reaches only the fields of its half (R793). -/
def regPlaced (a : RegAccess) : Nat := if a.width = 4 then a.data % 2 ^ 32 * 2 ^ (8 * (a.off % 8)) else u64 a.data

/-- The write covers the low half of the register. -/
def regLow (a : RegAccess) : Bool := a.width == 8 || a.off % 8 == 0

/-- Fields 9 to 0 of the interrupt registers. -/
def intBits (a : RegAccess) : Nat := if (regLow a) then (regPlaced a) % 2 ^ 10 else 0

/-- `INT_STATUS_WRITE` (R799): bits written as 1 are cleared. -/
def execIntStatusWrite (a : RegAccess) (s : State) : Host.Outcome State Fault Refusal :=
  s.hostAccess a fun p =>
    if !a.write || !(regAllowed a) || placeOf a.bar a.off != .perView 0x1100 then s
    else let x := s.view (.host p); s.setInt p (x.status - (x.status &&& intBits a)) x.enable

/-- `INT_ENABLE_WRITE` (R799): the enables take their values. -/
def execIntEnableWrite (a : RegAccess) (s : State) : Host.Outcome State Fault Refusal :=
  s.hostAccess a fun p =>
    if !a.write || !(regAllowed a) || !(regLow a) || placeOf a.bar a.off != .perView 0x1108 then s
    else s.setInt p (s.view (.host p)).status (intBits a)

/-- `INT_SET_WRITE` (R799): bits written as 1 are set. -/
def execIntSetWrite (a : RegAccess) (s : State) : Host.Outcome State Fault Refusal :=
  s.hostAccess a fun p =>
    if !a.write || !(regAllowed a) || placeOf a.bar a.off != .perView 0x1110 then s
    else let x := s.view (.host p); s.setInt p (x.status ||| intBits a) x.enable

/-- Bytes written into the command buffer. -/
def spliceCmd (cmd : List Byte) (off : Nat) (bs : List Byte) : List Byte :=
  let b := fit 4096 cmd
  b.take off ++ bs ++ b.drop (off + bs.length)

/-- `REGISTER_WRITE` (R21): MBX_STATUS clears OVERRUN, MBX_NOTIFY and MBX_CMD take their values; a write to a read-only or reserved place
changes nothing. -/
def execRegisterWrite (a : RegAccess) (s : State) : Host.Outcome State Fault Refusal :=
  s.hostAccess a fun p =>
    if !a.write || !(regAllowed a) then s
    else match placeOf a.bar a.off with
      | .mbxRegister m 8 =>
        let b := s.box p m
        if (regLow a) && bit (regPlaced a) 2 then s.setBox { b with overrun := false } else s
      | .mbxRegister m 0x10 =>
        if (regLow a) then s.setBox { s.box p m with vector := (regPlaced a) % 2048, notify := bit (regPlaced a) 16 } else s
      | .mbxCmd m o => s.setBox { s.box p m with cmd := spliceCmd (s.box p m).cmd o (leBytes a.width a.data) }
      | _ => s

/-! ### Doorbells (R804–R807) -/

/-- A write that fails R806 is counted in its view, and DOORBELL_DENIED is raised. -/
def State.countDenied (s : State) (a : RegAccess) (q kind : Nat) (missing : Bool) : State :=
  let x := s.view a.view
  let last := q % 2 ^ 10 + kind * 2 ^ 10 + b2n missing * 2 ^ 12
  let s := s.setView { x with deniedCount := min (x.deniedCount + 1) (2 ^ 32 - 1), deniedLast := last }
  if x.deniedCount < 2 ^ 32 - 1 then s.interrupt 8 else s

/-- A doorbell error of an SQ (R264, R807), also in its QUEUE counter. -/
def State.doorbellError (s : State) (q : Nat) : State :=
  (s.setSq q fun x => { x with badDoorbells := x.badDoorbells + 1 }).count 2 q 3 1

/-- A value lies between the last accepted one and the device's next write position, modulo the depth (R805). -/
def headFits (depth last write v : Nat) : Bool :=
  decide (v < 2 ^ 16 ∧ v < depth ∧ (v + depth - last) % depth ≤ (write + depth - last) % depth)

/-- SQ_TAIL of a queue that the writer may use (R264, R804, R807). -/
def State.writeTail (s : State) (q : Sq) (v : Nat) : State :=
  if v ≥ 2 ^ 16 ∨ v ≥ q.depth then s.doorbellError q.id else s.setSq q.id fun x => { x with tail := v }

/-- CQ_HEAD (R805); errors count at every SQ that the CQ serves. -/
def State.writeCqHead (s : State) (q : Cq) (v : Nat) : State :=
  if headFits q.depth q.head q.write v then s.setCq q.id fun x => { x with head := v }
  else
    let s := s.setCq q.id fun x => { x with badDoorbells := x.badDoorbells + 1 }
    ((s.queues.sqs.filter fun x => x.cq = q.id).map (·.id)).foldl State.doorbellError s

/-- ERR_HEAD (R272, R805): HEAD, then RESUME. -/
def State.writeErrHead (s : State) (q : Sq) (v : Nat) : State :=
  let head := v % 2 ^ 16
  if v ≥ 2 ^ 17 ∨ !headFits q.errDepth q.errHead q.errWrite head then s.doorbellError q.id
  else s.setSq q.id fun x => { x with errHead := head, stopped := x.stopped && !bit v 16 }

/-- A doorbell write of a view (R806): denied and counted, or applied. -/
def State.doorbell (s : State) (a : RegAccess) (q kind : Nat) : State :=
  let v := (regPlaced a)
  if kind = 1 then match s.cq q with
    | none => s.countDenied a q kind true
    | some x => if s.mayUse a.view a.agent x.guest then s.writeCqHead x v else s.countDenied a q kind false
  else match s.sq q with
    | none => s.countDenied a q kind true
    | some x =>
      if !s.mayUse a.view a.agent x.guest then s.countDenied a q kind false
      else if kind = 0 then s.writeTail x v else s.writeErrHead x v

/-- A host's doorbell write. -/
def State.hostDoorbell (s : State) (a : RegAccess) (kind : Nat) (resume : Bool) : Host.Outcome State Fault Refusal :=
  s.hostAccess a fun _ =>
    if !a.write || !(regAllowed a) then s
    else match placeOf a.bar a.off with
      | .doorbell q k => if k = kind && (k != 2 || bit (regPlaced a) 16 == resume) then s.doorbell a q k else s
      | _ => s

/-- `SQ_TAIL` (R804). -/
def execSqTail (a : RegAccess) (s : State) : Host.Outcome State Fault Refusal := s.hostDoorbell a 0 false

/-- `CQ_HEAD` (R805). -/
def execCqHead (a : RegAccess) (s : State) : Host.Outcome State Fault Refusal := s.hostDoorbell a 1 false

/-- `ERR_HEAD` (R805), RESUME clear. -/
def execErrHead (a : RegAccess) (s : State) : Host.Outcome State Fault Refusal := s.hostDoorbell a 2 false

/-- `ERR_HEAD_RESUME` (R272, R805): HEAD first, then RESUME. -/
def execErrHeadResume (a : RegAccess) (s : State) : Host.Outcome State Fault Refusal := s.hostDoorbell a 2 true

/-! ### Mailboxes (R122, R123) -/

/-- The command that a mailbox's buffer holds: as many bytes as its LENGTH says, within the buffer. -/
def bufferedCommand (cmd : List Byte) : List Byte := fit (max 16 (min 4096 (fld cmd 4 2))) cmd

/-- `MBX_DOORBELL` (R122, R123, R800): the command is copied and BUSY set, or, while BUSY, OVERRUN. -/
def execMbxDoorbell (a : RegAccess) (s : State) : Host.Outcome State Fault Refusal :=
  s.hostAccess a fun p =>
    if !a.write || !(regAllowed a) then s
    else match placeOf a.bar a.off with
      | .mbxRegister m 0 =>
        let b := s.box p m
        if b.busy then (s.setBox { b with overrun := true }).count 0x0C 0 4 1
        else
          let s := s.setBox { b with busy := true, done := false }
          s.setChan { s.chanRec (.mailbox p m) with outstanding := [bufferedCommand b.cmd] }
      | _ => s

/-! ### SXF control space (R572, R796) -/

/-- The access of a REG_READ or REG_WRITE. -/
def regAccessOf (m : SxfMsg) (write : Bool) : RegAccess :=
  let width := if bit m.unit0 9 then 8 else 4
  ⟨.jetty m.via, m.agent, b2n (bit m.unit0 8), m.gpa % 2 ^ 22, width, write, fld m.units 0 width⟩

/-- A jetty may read the place (R572, R802). -/
def State.jettyReads (s : State) (a : RegAccess) : Bool :=
  a.bar == 0 && (decide (a.off < 0x2000) ||
    (decide (0x80000 ≤ a.off ∧ a.off < 0xA0000) && (s.sq ((a.off - 0x80000) / 0x80)).any fun q => s.mayUse a.view a.agent q.guest) ||
    (decide (0xA0000 ≤ a.off ∧ a.off < 0xC0000) && (s.cq ((a.off - 0xA0000) / 0x80)).any fun q => s.mayUse a.view a.agent q.guest))

/-- A jetty may write the doorbell page (R572). -/
def State.jettyWrites (s : State) (a : RegAccess) : Bool :=
  let q := a.off / 0x1000
  let sq := (s.sq q).any fun x => s.mayUse a.view a.agent x.guest
  let cq := (s.cq q).any fun x => s.mayUse a.view a.agent x.guest
  a.bar == 1 && match placeOf 1 a.off with
    | .doorbell _ 1 => cq
    | .doorbell _ _ => sq
    | _ => sq || cq

/-- `REG_READ` (R572, R796). -/
def execRegRead (m : SxfMsg) (s : State) : Host.Outcome State Fault Refusal :=
  .next (if m.op ≠ Sxf.regRead then s
    else match s.portRefusal m with
      | some (st, ca) => s.refuse m st ca
      | none =>
        let a := regAccessOf m false
        if !s.jettyReads a then s.refuse m Status.refusedRights Cause.noGrant
        else
          let (s, v) := s.regRead a
          s.reply m Sxf.done Status.ok 0 (if (regAllowed a) then v else 2 ^ 64 - 1) false false [])

/-- `REG_WRITE` (R572, R796): only doorbells; a denied one is counted as well as refused (R806). -/
def execRegWrite (m : SxfMsg) (s : State) : Host.Outcome State Fault Refusal :=
  .next (if m.op ≠ Sxf.regWrite then s
    else match s.portRefusal m with
      | some (st, ca) => s.refuse m st ca
      | none =>
        let a := regAccessOf m true
        let place := placeOf a.bar a.off
        if !s.jettyWrites a then
          let s := match place with
            | .doorbell q k => s.doorbell a q k
            | _ => s
          s.refuse m Status.refusedRights Cause.noGrant
        else
          let s := if !(regAllowed a) then s.countBad a
            else match place with
              | .doorbell q k => s.doorbell a q k
              | _ => s
          s.reply m Sxf.done Status.ok 0 0 false false [])

end Sys2Proof.Machine
end

