-- ==== Sys2Proof/Machine/Search.lean ====
section
/-! DEFINITION. Vector indices: their commands, and the descriptors SEARCH, INSERT_VEC, DELETE_VEC and MERGE_DRIFTLINE (spec 11:
R446–R487). -/

namespace Sys2Proof.Machine

/-! ### Index commands (R451–R454) -/

/-- The index that an INDEX_CREATE body describes (Table 11-3). -/
def indexOf (c : RelasCmd) : Index :=
  let n := c.f 80 2
  { id := c.f 16 2, guest := c.guest, kind := c.f 18 1, metric := c.f 19 1, tag := c.f 20 4, dim := c.f 24 2, vfmt := c.f 26 1
    centFmt := c.f 27 1, lists := c.f 28 4, pqM := c.f 32 2, inMemory := c.f 34 1 == 1, caravanUs := c.f 36 4, maxVectors := c.f 40 8
    driftCap := c.f 48 4, driftPool := c.f 56 8, region := c.f 64 8, regionSize := c.f 72 8
    shards := (List.range n).map fun i => c.f (128 + 2 * i) 2 % 512, shardIndex := c.f 82 2, coordinators := c.f 84 2
    remoteDeep := c.f 86 2, remoteArray := c.f 88 4, remoteHbm := c.f 92 4, content := [], nextPos := 0, ratios := [], dying := false }

/-- VFMT does not fit KIND (Table 11-1). -/
def vfmtBad (x : Index) : Bool :=
  match x.kind with
  | 0 => decide (x.vfmt > 4)
  | 1 => decide (x.vfmt ≠ 0x05)
  | _ => decide (x.vfmt ≠ 0x10)

/-- The fields of an INDEX_CREATE outside Table 11-3 or R447. -/
def indexFieldBad (c : RelasCmd) : Option Nat :=
  let x := indexOf c
  let n := c.f 80 2
  let pq := decide (x.kind = 2)
  firstBad ([(decide (x.id > 1023), 16), (decide (x.kind > 2), 18), (decide (x.metric > 1), 19),
    (decide (x.dim % 8 ≠ 0 ∨ x.dim < 8 ∨ x.dim > 4096) || (pq && x.pqM != 0 && x.dim % x.pqM != 0), 24), (vfmtBad x, 26),
    (decide (x.centFmt ≠ 0 ∧ x.centFmt ≠ 2), 27), (decide (x.lists = 0 ∨ x.lists > 2 ^ 24), 28),
    (if pq then decide (x.pqM = 0 ∨ x.pqM > 256) else decide (x.pqM ≠ 0), 32), (decide (c.f 34 1 > 1), 34), (nonzero c 35 1, 35),
    (decide (x.caravanUs > 50), 36), (if x.here then decide (x.maxVectors = 0 ∨ x.maxVectors > 2 ^ 40) else decide (x.maxVectors ≠ 0), 40),
    (decide (x.driftCap < 64 ∨ x.driftCap > 2 ^ 20), 48), (nonzero c 52 4, 52), (decide (x.driftPool < 64 ∨ x.driftPool > 2 ^ 40), 56),
    (if x.here then decide (x.region % granuleSize ≠ 0) else decide (x.region ≠ 0), 64), (decide (n = 0 ∨ n > 512), 80),
    (decide (x.shardIndex ≥ n ∧ x.shardIndex ≠ 0xFFFF), 82), (decide (x.coordinators = 0 ∨ x.coordinators > 512), 84), (nonzero c 96 32, 96)] ++
    ((List.range n).map fun i => (decide (c.f (128 + 2 * i) 2 ≥ 512), 128 + 2 * i)) ++
    [(nonzero c (128 + 2 * n) (8 * ceilDiv n 4 - 2 * n), 128 + 2 * n)])

/-- Scratch blocks that an index claims on each array (R452). -/
def Index.blocks (x : Index) : Nat :=
  if x.inMemory ∨ !x.here then 0 else ceilDiv (ceilDiv x.lists 32 * x.dim * x.cw) scratchBlock

/-- The standing demand of an index's remote shares on a shard shore (R482). -/
def Index.standing (x : Index) (s : State) : List (Nat × Nat) :=
  [(resArray, x.remoteArray), (resDeep, x.remoteDeep)] ++ (List.range 8).map fun k => (s.stackFrom k, ceilDiv x.remoteHbm 8)

/-- The pool number under which an index's shares are reserved. -/
def indexPool (id : Nat) : Nat := 4096 + id

/-- REGION fails a check of R451. -/
def State.indexRegionFails (s : State) (x : Index) : Bool :=
  let others := (s.indices.list.any fun (y : Index) => y.here && overlaps x.region x.regionSize y.region y.regionSize) ||
    s.tables.list.any fun (t : Table) => overlaps x.region x.regionSize t.region (max 1 t.regionSize) || overlaps x.region x.regionSize t.shadow t.shadowSize
  decide (x.regionSize < x.need) || others || match s.coveAt x.region with
    | none => true
    | some c => c.kind != .data || !c.versioned || !(c.grant x.guest).r || !(c.grant x.guest).w ||
        !inside x.region x.regionSize c.base c.size || c.coherence == .sharedHdmDb || c.pullable

/-- The scratch blocks of an index on one array, with the centroids of its lists (R452). -/
def State.centroidBlocks (s : State) (x : Index) (a : Nat) : List ScratchBlock :=
  let n := x.dim * x.cw
  let bytes := ((List.range (ceilDiv (x.lists - a) 32)).map fun i => s.bytesAt (x.centOff (32 * i + a)) n).flatten
  (((s.freeBlocks a).take x.blocks).zipIdx).map fun (k, i) =>
    ScratchBlock.mk a k x.guest (Mem.write [] 0 (slice bytes (i * scratchBlock) scratchBlock)) [] [] (some (1024 + x.id))

/-- INDEX_CREATE (0x0601, R451, R452). -/
def opIndexCreate : RelasOp where
  len := fun c => if c.len = 128 + 8 * ceilDiv (c.f 80 2) 4 then none else some (128 + 8 * ceilDiv (c.f 80 2) 4)
  fields := fun c _ => indexFieldBad c
  limits := fun c s =>
    let x := indexOf c
    let t := slotOf s.now + 1
    if s.indices.list.length ≥ 1024 then some 1024
    else if (List.range 32).any fun a => decide ((s.freeBlocks a).length < x.blocks) then some x.blocks
    else if x.here ∧ (x.standing s).any fun r => (s.foreground r.1 t).lt (Frac.ofNat r.2) then some 0
    else none
  conflict := fun c s => firstBad [((s.index (c.f 16 2)).isSome, 16), ((indexOf c).here && s.indexRegionFails (indexOf c), 64)]
  effect := fun c _ s =>
    let x := indexOf c
    let blocks := if x.blocks = 0 then [] else ((List.range 32).map (s.centroidBlocks x)).flatten
    let standing := if x.here then s.brk.standing ++ [Standing.mk (indexPool x.id) (x.standing s)] else s.brk.standing
    let s := { s with indices := { s.indices with list := s.indices.list ++ [x] } }
    let s := { s with porter := { s.porter with blocks := s.porter.blocks ++ blocks } }
    ({ s with brk := { s.brk with standing := standing } }, { Reply.done with body := leBytes 8 x.need })
  objects := fun c => [(.index (c.f 16 2), 16)]

/-- Only the guest of an index, or the system guest, may name it (R132). -/
def ownsIndex (c : RelasCmd) (s : State) : Bool :=
  match s.index (c.f 16 2) with
  | some x => decide (x.guest = c.guest)
  | none => true

/-- Descriptors in flight that name an index: the PROGRESS of its destruction (R453). -/
def State.indexUsers (s : State) (id : Nat) : Nat :=
  (s.queues.descs.filter fun d => [0x40, 0x41, 0x42, 0x43].contains d.opcode ∧ d.f 16 2 = id).length

/-- INDEX_DESTROY (0x0602, R453). -/
def opIndexDestroy : RelasOp where
  len := lenIs 24
  owns := ownsIndex
  fields := fun c _ => firstBad [(decide (c.f 16 2 > 1023), 16), (nonzero c 18 6, 18)]
  conflict := fun c s => match s.index (c.f 16 2) with
    | some x => if x.dying then some 16 else none
    | none => some 16
  effect := fun c _ s => (s.setIndex (c.f 16 2) fun x => { x with dying := true }, Reply.pending (.indexDestroy (c.f 16 2)))
  objects := fun c => [(.index (c.f 16 2), 16)]

/-- The end of an index: its blocks are zeroed and free, its standing reservation ends (R453). -/
def State.dropIndex (s : State) (id : Nat) : State :=
  { s with
    indices := ⟨s.indices.list.filter fun (x : Index) => x.id ≠ id, s.indices.caravans.filter fun (c : Caravan) => c.index ≠ id⟩
    porter := { s.porter with blocks := s.porter.blocks.filter fun (b : ScratchBlock) => b.group ≠ some (1024 + id) }
    brk := { s.brk with standing := s.brk.standing.filter fun (x : Standing) => x.pool ≠ indexPool id } }

/-- Items of a list in the current version, by part. -/
def Index.current (x : Index) (l : Nat) : List VecItem := (x.items l).filter fun i => i.drop.isNone
/-- Driftline slots of a list in use. -/
def Index.drift (x : Index) (l : Nat) : Nat := ((x.current l).filter fun i => !i.main).length
def Index.driftAll (x : Index) : Nat := sumNat (x.content.map fun (v : VecList) => x.drift v.number)
/-- Vector entries that the shard holds. -/
def Index.vectors (x : Index) : Nat := sumNat (x.content.map fun (v : VecList) => ((x.current v.number).filter fun i => !i.tomb).length)

/-- The Table 11-3 layout of an index, bytes 16–111 (R454). -/
def Index.layout (x : Index) : List Byte :=
  leBytes 2 x.id ++ leBytes 1 x.kind ++ leBytes 1 x.metric ++ leBytes 4 x.tag ++ leBytes 2 x.dim ++ leBytes 1 x.vfmt ++
    leBytes 1 x.centFmt ++ leBytes 4 x.lists ++ leBytes 2 x.pqM ++ leBytes 1 (b2n x.inMemory) ++ zeros 1 ++ leBytes 4 x.caravanUs ++
    leBytes 8 x.maxVectors ++ leBytes 4 x.driftCap ++ zeros 4 ++ leBytes 8 x.driftPool ++ leBytes 8 x.region ++ leBytes 8 x.regionSize ++
    leBytes 2 x.shards.length ++ leBytes 2 x.shardIndex ++ leBytes 2 x.coordinators ++ leBytes 2 x.remoteDeep ++ leBytes 4 x.remoteArray ++
    leBytes 4 x.remoteHbm ++ zeros 32

/-- INDEX_QUERY (0x0603, R454). -/
def opIndexQuery : RelasOp where
  len := lenIs 24
  owns := ownsIndex
  fields := fun c _ => firstBad [(decide (c.f 16 2 > 1023), 16), (nonzero c 18 6, 18)]
  conflict := fun c s => if (s.index (c.f 16 2)).isSome then none else some 16
  effect := fun c _ s => match s.index (c.f 16 2) with
    | none => (s, Reply.read [])
    | some x =>
      let main := sumNat (x.content.map fun (v : VecList) => ((x.current v.number).filter fun i => i.main).length)
      let fullest := maxNat (x.content.map fun (v : VecList) => x.drift v.number)
      (s, Reply.read (x.layout ++ leBytes 8 main ++ leBytes 8 x.driftAll ++ leBytes 8 fullest ++ leBytes 8 (32 * x.blocks)))

/-! ### What the descriptors share -/

/-- The index of a descriptor: of its guest, and not being destroyed (R446, R453). -/
def State.indexOf (s : State) (d : Desc) : Option Index :=
  match s.index (d.f 16 2) with
  | some x => if x.guest = d.guest ∧ !x.dying then some x else none
  | none => none

/-- The index region lacks a right of the guest. -/
def State.indexLacks (s : State) (x : Index) (g : Nat) (a : Access) : Bool := x.here && !s.allowed g x.region (max 1 x.need) a

/-- The stamp W of the index's cove (R221, R259). -/
def State.stampOf (s : State) (x : Index) : Nat :=
  match (s.coveAt x.region).bind (·.versions) with
  | some v => v.latest + 1
  | none => 1

/-- Append an item to a list's driftline: it commits at this instant (R259, R459). -/
def State.appendItem (s : State) (id l vec attr : Nat) (tomb : Bool) (code : List Byte) (bad : Bool) : State :=
  match s.index id with
  | none => s
  | some x =>
    let i : VecItem := ⟨vec, attr, s.stampOf x, x.nextPos, tomb, false, code, bad, none⟩
    s.setIndex id fun x => { x.setItems l (x.items l ++ [i]) with nextPos := x.nextPos + 1 }

/-- A list's driftline or the pool has no room for one slot. -/
def Index.driftFull (x : Index) (l : Nat) : Bool := decide (x.drift l ≥ x.driftCap ∨ x.driftAll ≥ x.driftPool)

/-- REASON DRIFT_FULL (R486). -/
abbrev reasonDriftFull : Nat := 0x08

/-- The end of an INSERT_VEC or a DELETE_VEC (R464); `aux` counts committed, invalid and full. -/
def State.vecEnd (s : State) (d : Desc) : State :=
  let r1 := sat 2 (d.auxAt 1) + 2 ^ 16 * sat 2 (d.auxAt 2)
  if d.auxAt 2 ≠ 0 then s.finish d.id Status.okPartial reasonDriftFull 0 (d.auxAt 0) r1 else s.ok d.id (d.auxAt 0) r1

/-- Write an outcome (R463) and count it. -/
def State.outcome (s : State) (id range off code l : Nat) : State :=
  let s := s.writeRange id range off (leBytes 4 (l + code * 2 ^ 24)) clean
  s.setDesc id fun d => { (d.setAux (code - 1) (d.auxAt (code - 1) + 1)) with progress := d.progress + 1, remote := [] }

/-! ### INSERT_VEC (R462–R464) -/

def Desc.vecStart (d : Desc) : Nat := if d.opcode = 0x41 then d.f 56 8 else d.f 48 8
def Desc.vecN (d : Desc) : Nat := if d.opcode = 0x41 then d.f 20 4 else d.f 32 4
def Desc.hasAttrs (d : Desc) : Bool := bit (d.f 18 1) 0

/-- Bytes of an element of VFMT, for alignment. -/
def Index.vfmtBytes (x : Index) : Nat := if x.kind = 0 then max 1 (x.elem.width / 8) else 1

/-- INSERT_VEC (opcode 0x41, Table 11-5). -/
def opInsertVec : DescOp where
  sizes := [1]
  ranges := fun s b => match s.index (fld b 16 2) with
    | none => []
    | some x =>
      let n := fld b 20 4
      if n = 0 ∨ n > 65536 then []
      else [⟨fld b 24 8, n * x.codeBytes, true, false, false⟩, ⟨fld b 32 8, 8 * n, true, false, false⟩,
        ⟨fld b 40 8, if bit (fld b 18 1) 0 then 4 * n else 0, true, false, false⟩, ⟨fld b 48 8, 4 * n, false, true, false⟩]
  check := fun s d =>
    let x? := s.indexOf d
    firstFail [badFormat (decide (d.f 18 1 > 1) || d.nonzero 19 1 || d.nonzero 64 64 || (!d.hasAttrs && d.nonzero 40 8)) Cause.reserved,
      badFormat x?.isNone Cause.badIndex, badFormat (decide (d.f 20 4 = 0 ∨ d.f 20 4 > 65536 ∨ d.f 56 8 ≥ d.f 20 4)) Cause.length,
      badFormat (x?.any (fun x => d.f 24 8 % x.vfmtBytes != 0) || decide (d.f 32 8 % 8 ≠ 0 ∨ d.f 40 8 % 4 ≠ 0 ∨ d.f 48 8 % 4 ≠ 0)) Cause.alignment,
      badFormat (x?.any fun x => !x.here) Cause.remote, badFormat d.tooMany Cause.extentLimit,
      badRights ((List.range 3).any (fun i => s.lacks d i .read) || s.lacks d 3 .write || x?.any fun x => s.indexLacks x d.guest .write)
        Cause.noGrant]
  price := fun s d => match s.indexOf d with
    | none => s.priced d 16000 []
    | some x =>
      let n := d.vecN - d.vecStart
      s.priced d 16000 (s.evenly (n * x.entryBytes) ++ [(resArray, ceilDiv (100 * n * x.dim * x.lists) 1638400)])

/-- One vector (R462). -/
def State.insertOne (s : State) (d : Desc) (x : Index) : State :=
  let i := d.vecStart + d.progress
  let code := d.pieces 0 (i * x.codeBytes) x.codeBytes
  let words := d.pieces 1 (8 * i) 8 ++ d.pieces 2 (4 * i) 4
  let (s, ok) := s.readyRead d.id (code ++ words)
  let (s, okW) := s.readyWrite (d.pieces 3 (4 * i) 4)
  match s.desc d.id with
  | none => s
  | some d =>
    if !(ok && okW) ∨ d.fail.isSome then s
    else match s.firstPoison d words with
    | some g => s.poisonFault d g
    | none =>
      let s := s.touchPieces (code ++ words)
      let id := s.rangeNat d 1 (8 * i) 8
      if id ≥ 2 ^ 40 then s.outcome d.id 3 (4 * i) 2 0
      else
        let bs := s.rangeBytes d 0 (i * x.codeBytes) x.codeBytes
        let l := (s.ranked x (s.decodeCode x bs)).headD 0
        if x.driftFull l ∨ x.vectors ≥ x.maxVectors then s.outcome d.id 3 (4 * i) 3 l
        else
          let attr := if d.hasAttrs then s.rangeNat d 2 (4 * i) 4 else 0
          (s.appendItem x.id l id attr false bs (s.firstPoison d code).isSome).outcome d.id 3 (4 * i) 1 l

/-- A stop puts the stop offset, in vectors or records, in RESULT0 (R464). -/
def State.vecStop (s : State) (d : Desc) (st ca : Nat) : State := s.finish d.id st 0 ca (d.vecStart + d.progress) 0

/-- One vector or record of INSERT_VEC or DELETE_VEC, or the end. -/
def State.vecStep (s : State) (d : Desc) (one : Desc → Index → State) : State :=
  match s.index (d.f 16 2) with
  | none => s.vecStop d Status.abortedBySoftware Cause.badIndex
  | some x =>
    if !d.awaiting.isEmpty then s
    else
      let s := if d.vecStart + d.progress < d.vecN then one d x else s
      match s.desc d.id with
      | some d => if d.vecStart + d.progress ≥ d.vecN ∧ d.awaiting.isEmpty ∧ d.fail.isNone ∧ d.done.isNone then s.vecEnd d else s
      | none => s

/-- `INSERT_VEC` (R462–R464): one vector, or the end. -/
def execInsertVec (d : Nat) (s : State) : Host.Outcome State Fault Refusal :=
  .next (s.work d 0x41 s.vecStop fun d => s.vecStep d s.insertOne)

/-! ### DELETE_VEC (R465) -/

/-- DELETE_VEC (opcode 0x42, Table 11-6). -/
def opDeleteVec : DescOp where
  sizes := [0]
  ranges := fun _ b =>
    let n := fld b 32 4
    if n = 0 ∨ n > 65536 then [] else [⟨fld b 24 8, 8 * n, true, false, false⟩, ⟨fld b 40 8, 4 * n, false, true, false⟩]
  check := fun s d =>
    let x? := s.indexOf d
    firstFail [badFormat (d.nonzero 18 6 || d.nonzero 36 4 || d.nonzero 56 8) Cause.reserved, badFormat x?.isNone Cause.badIndex,
      badFormat (decide (d.f 32 4 = 0 ∨ d.f 32 4 > 65536 ∨ d.f 48 8 ≥ d.f 32 4)) Cause.length,
      badFormat (decide (d.f 24 8 % 8 ≠ 0 ∨ d.f 40 8 % 4 ≠ 0)) Cause.alignment, badFormat (x?.any fun x => !x.here) Cause.remote,
      badFormat d.tooMany Cause.extentLimit,
      badRights (s.lacks d 0 .read || s.lacks d 1 .write || x?.any fun x => s.indexLacks x d.guest .write) Cause.noGrant]
  price := fun s d => s.priced d 8000 (s.evenly (32 * (d.vecN - d.vecStart)))

/-- One record (R465). -/
def State.deleteOne (s : State) (d : Desc) (x : Index) : State :=
  let i := d.vecStart + d.progress
  let rec_ := d.pieces 0 (8 * i) 8
  let (s, ok) := s.readyRead d.id rec_
  let (s, okW) := s.readyWrite (d.pieces 1 (4 * i) 4)
  match s.desc d.id with
  | none => s
  | some d =>
    if !(ok && okW) ∨ d.fail.isSome then s
    else match s.firstPoison d rec_ with
    | some g => s.poisonFault d g
    | none =>
      let s := s.touchPieces rec_
      let r := s.rangeNat d 0 (8 * i) 8
      let l := r / 2 ^ 40
      if l ≥ x.lists then s.outcome d.id 1 (4 * i) 2 0
      else if x.driftFull l then s.outcome d.id 1 (4 * i) 3 l
      else (s.appendItem x.id l (r % 2 ^ 40) 0 true [] false).outcome d.id 1 (4 * i) 1 l

/-- `DELETE_VEC` (R465): one record, or the end. -/
def execDeleteVec (d : Nat) (s : State) : Host.Outcome State Fault Refusal :=
  .next (s.work d 0x42 s.vecStop fun d => s.vecStep d s.deleteOne)

/-! ### MERGE_DRIFTLINE (R466–R469) -/

/-- MERGE_DRIFTLINE (opcode 0x43, Table 11-7). -/
def opMergeDriftline : DescOp where
  sizes := [0]
  check := fun s d =>
    let x? := s.indexOf d
    firstFail [badFormat (d.nonzero 18 2 || d.nonzero 28 36) Cause.reserved, badFormat x?.isNone Cause.badIndex,
      badFormat (decide (d.f 24 4 = 0) || x?.any fun x => decide (d.f 20 4 + d.f 24 4 > x.lists)) Cause.length,
      badFormat (x?.any fun x => !x.here) Cause.remote, badRights (x?.any fun x => s.indexLacks x d.guest .write) Cause.noGrant]
  price := fun s d => match s.indexOf d with
    | none => s.priced d 16000 []
    | some x =>
      let ls := x.content.filter fun (v : VecList) => decide (d.f 20 4 ≤ v.number ∧ v.number < d.f 20 4 + d.f 24 4)
      let entries := sumNat (ls.map fun v => (x.current v.number).length)
      let read := sumNat (ls.map fun v => ((x.current v.number).filter fun i => i.main).length * x.entryBytes + x.drift v.number * x.slotBytes)
      let written := sumNat (ls.map fun v => ((x.current v.number).filter fun i => !i.tomb).length * x.entryBytes)
      s.priced d 16000 (s.evenly (read + written) ++ [(resArray, ceilDiv (100 * entries * x.dim) 1638400)])

/-- Items that no retained version holds any more. -/
def State.pruneItems (s : State) (x : Index) (is : List VecItem) : List VecItem :=
  let marks := match s.coveAt x.region with
    | some c => s.heldMarks c.id ++ (match c.versions with
        | some v => [v.latest]
        | none => [])
    | none => []
  is.filter fun i => i.drop.isNone || marks.any fun t => i.at t

/-- A list is merged as one step (R466): the hidden entries and the tombstones are dropped from the current version on, the others
move to the main part; the answer counts the entries moved there and what was dropped. -/
def State.mergeList (s : State) (id l : Nat) : State × Nat × Nat :=
  match s.index id with
  | none => (s, 0, 0)
  | some x =>
    let w := s.stampOf x
    let cur := x.current l
    let gone (i : VecItem) : Bool := i.drop.isNone && (i.tomb || cur.any fun t => t.tomb && t.vec == i.vec && decide (i.pos < t.pos))
    let is := (x.items l).map fun i => if gone i then { i with drop := some w } else if i.drop.isNone then { i with main := true } else i
    (s.setIndex id fun x => x.setItems l (s.pruneItems x is), (cur.filter fun i => !i.main && !gone i).length, (cur.filter gone).length)

/-- The end of a MERGE_DRIFTLINE, or its stop (R467). -/
def State.mergeStop (s : State) (d : Desc) (st ca : Nat) : State := s.finish d.id st 0 ca (d.auxAt 0) (sat 4 (d.auxAt 1))

/-- `MERGE_DRIFTLINE` (R466, R467): one list, or the end. -/
def execMergeDriftline (d : Nat) (s : State) : Host.Outcome State Fault Refusal :=
  .next (s.work d 0x43 s.mergeStop fun d =>
    if d.progress < d.f 24 4 then
      let (s, moved, dropped) := s.mergeList (d.f 16 2) (d.f 20 4 + d.progress)
      let s := s.setDesc d.id fun d => { ((d.setAux 0 (d.auxAt 0 + moved)).setAux 1 (d.auxAt 1 + dropped)) with progress := d.progress + 1 }
      match s.desc d.id with
      | some d => if d.progress ≥ d.f 24 4 then s.mergeStop d Status.ok 0 else s
      | none => s
    else s.mergeStop d Status.ok 0)

/-- `DRIFTLINE_AUTO_MERGE` (R469): the device merges a list whose driftline is 75 % full, or the list with the fullest driftline of
a pool that is 75 % full. -/
def execDriftlineAutoMerge (index list : Nat) (s : State) : Host.Outcome State Fault Refusal :=
  .next (match s.index index with
    | none => s
    | some x =>
      let due := decide (4 * x.drift list ≥ 3 * x.driftCap) || (decide (4 * x.driftAll ≥ 3 * x.driftPool) &&
        x.content.all fun (v : VecList) => decide (x.drift v.number ≤ x.drift list))
      if due then (s.mergeList index list).1 else s)

/-! ### SEARCH (R470–R485) -/

def Desc.bindAt (d : Desc) : Bool := bit (d.f 19 1) 3

/-- Q, K, NPROBE and the rest out of range (Table 11-8). -/
def searchLenBad (b : List Byte) : Bool :=
  decide (fld b 20 2 = 0 ∨ fld b 20 2 > 4096 ∨ fld b 24 4 = 0 ∨ fld b 24 4 > 256 ∨ fld b 72 8 = 0 ∨ fld b 72 8 > 2 ^ 40 ∨ fld b 80 4 ≥ fld b 24 4)

/-- Output bytes of a query (R475). -/
def Desc.outSize (d : Desc) : Nat := 16 + 16 * d.f 20 2

/-- The shards of an index on other shores. -/
def State.otherShards (s : State) (x : Index) : List (Nat × Nat) :=
  (x.shards.zipIdx.map fun (h, i) => (i, h)).filter fun p => p.1 ≠ x.shardIndex ∧ p.2 ≠ s.self

/-- Array hundredths of a search at one shard (Tables 06-10 and 11-10). -/
def searchArrays (x : Index) (q budget : Nat) : Nat :=
  match x.kind with
  | 0 => if x.elem.width ≥ 16 then ceilDiv (100 * q * (budget + x.lists) * x.dim) 1638400 else ceilDiv (100 * q * (budget + 2 * x.lists) * x.dim) 3276800
  | 1 => ceilDiv (100 * q * (budget + 2 * x.lists) * x.dim) 3276800
  | _ => ceilDiv (100 * q * (budget * x.pqM + (x.lists + 256) * 4 * x.dim)) 6553600

/-- SEARCH (opcode 0x40, Table 11-8). -/
def opSearch : DescOp where
  sizes := [1]
  snapshot := true
  ranges := fun s b => match s.index (fld b 16 2), queryElem (fld b 18 1) with
    | some x, some e =>
      if searchLenBad b then []
      else [⟨fld b 48 8, fld b 24 4 * elemBytes e x.dim, true, false, false⟩, ⟨fld b 56 8, fld b 24 4 * (16 + 16 * fld b 20 2), false, true, false⟩]
    | _, _ => []
  check := fun s d =>
    let x? := s.indexOf d
    let f := d.f 19 1
    let w : Nat := ((queryElem (d.f 18 1)).map fun e => e.width / 8).getD 1
    let region := match x? with
      | some x => if x.here then [Extent.mk (gpaOf s.self x.region) (max 1 x.need) true true false] else []
      | none => []
    firstFail ([badFormat (decide (f > 15) || (!bit f 1 && (d.nonzero 36 8 || bit f 2)) || (bit f 2 && d.nonzero 40 4) || d.nonzero 44 4 ||
        (!d.bindAt && d.nonzero 64 8) || d.nonzero 84 44 || (d.snapshot && d.bindAt)) Cause.reserved,
      badFormat x?.isNone Cause.badIndex, badFormat (queryElem (d.f 18 1)).isNone Cause.format, badFormat (searchLenBad d.bytes) Cause.length,
      badFormat (decide (d.f 28 4 = 0 ∨ d.f 28 4 > d.f 32 4) || x?.any fun x => decide (d.f 32 4 > x.lists)) Cause.probe,
      badFormat (decide ((d.f 36 4 &&& d.f 40 4) ≠ d.f 40 4)) Cause.filter,
      badFormat (decide (d.f 48 8 % w ≠ 0 ∨ d.f 56 8 % 16 ≠ 0)) Cause.alignment] ++
      s.snapCheckOn d 22 (d.ranges.flatten ++ region) ++
      [badFormat (d.snapshot && x?.any fun x => !(s.otherShards x).isEmpty) Cause.remote,
       badFormat (d.bindAt && x?.any fun x => x.here && (s.searchMark x f (d.f 64 8)).isNone) Cause.notRetained,
       badFormat d.tooMany Cause.extentLimit,
       badRights (s.lacks d 0 .read || s.lacks d 1 .write || x?.any fun x => s.indexLacks x d.guest .read) Cause.noGrant])
  price := fun s d => match s.indexOf d, queryElem (d.f 18 1) with
    | some x, some e =>
      let q := d.f 24 4
      let budget := d.f 72 8
      let qb := q * elemBytes e x.dim
      let lists := q * budget * x.entryBytes + x.paramBytes + (if x.inMemory then x.lists * x.dim * x.cw else 0) + qb
      let granules := ceilDiv (q * budget * x.entryBytes) granuleSize
      let arrays := searchArrays x q budget
      let mine := if x.here then s.evenly (lists + q * d.outSize) ++
          [(resArray, arrays), (resDeep, ceilDiv (s.missRatio64 2 x.id * granules) 64)]
        else s.evenly (qb + q * d.outSize)
      let others := s.otherShards x
      let far := (others.map fun (i, h) =>
        let ratio := ((x.ratios.find? fun r => r.1 = i).map (·.2)).getD 1
        [(resRemote x.id i 0, arrays), (resRemote x.id i 1, lists), (resRemote x.id i 2, ceilDiv (ratio * granules) 64)] ++
          match s.firstBundle h with
          | some b => [(resEgress b, qb + 64)]
          | none => []).flatten
      let base := s.priced d 40000 (mine ++ far)
      let deep := far.any fun r => decide (r.1 ≥ 1000 ∧ (r.1 - 1000) % 3 = 2 ∧ r.2 ≠ 0)
      let hops := maxNat (others.map fun p => s.fabric.hops s.self p.2)
      { base with tail := base.tail + (if deep && demandOn base.demand resDeep == 0 then 760000 else 0) +
          if others.isEmpty ∨ s.anyRemote d then 0 else 2 * hops * 720 + 2560 }
    | _, _ => s.priced d 40000 []
  enter := fun s d =>
    let s := s.snapBind d 22
    if d.snapshot then s
    else match s.indexOf d with
    | some x => match s.coveAt x.region, s.searchMark x (d.f 19 1) (d.f 64 8) with
      | some c, some t => if x.here then s.setDesc d.id fun d => { d with binding := some (c.id, t) } else s
      | _, _ => s
    | none => s

/-- The fields of a search at this shore. -/
def Desc.quest (d : Desc) : Quest :=
  ⟨d.f 20 2, d.f 19 1, d.f 28 4, d.f 32 4, d.f 36 4, d.f 40 4, d.f 72 8, ((d.binding).map (·.2)).getD 0, d.bookEnd, !d.strict⟩

/-- The request of a coordinator to a shard (R571). -/
def Desc.searchUnits (d : Desc) (queries : List Byte) (n slots : Nat) : List Byte :=
  leBytes 1 (d.f 18 1) ++ leBytes 1 (d.f 19 1) ++ leBytes 2 (d.f 20 2) ++ leBytes 2 n ++ zeros 2 ++ leBytes 4 (d.f 28 4) ++ leBytes 4 (d.f 32 4) ++
    leBytes 4 (d.f 36 4) ++ leBytes 4 (d.f 40 4) ++ leBytes 8 (d.f 72 8) ++ leBytes 8 (d.f 64 8) ++ leBytes 4 (slotOf d.start % 2 ^ 17) ++
    leBytes 4 slots ++ fit (16 * ceilDiv queries.length 16) queries

/-- A search request goes to a shard (R481); a shard that has failed has no replacement (R484). -/
def State.sendSearch (s : State) (d : Desc) (x : Index) (shard home : Nat) (queries : List Byte) (n : Nat) : State :=
  let failed (ca : Nat) : State := (s.failDesc d.id Status.faultDeadTarget ca (gpaOf home 0)).setDesc d.id fun d => { d with wake := shard + 1 }
  if !s.fabric.hasShore home then failed Cause.unreachable
  else if s.faults.dead.contains home then failed Cause.deadHome
  else match s.freeTag with
  | none => s
  | some tag =>
    let slots := (d.bookEnd - d.start) / slotTicks
    let m : SxfMsg := ⟨noBundle, d.tc, SxfMsg.reqUnit Sxf.search false false s.self tag d.guest 0 (gpaOf home x.id), d.searchUnits queries n slots⟩
    let (s', sent) := s.forward m
    if sent then (s'.addOutstanding ⟨tag, noBundle, 0, tag, home, m, false, false, some d.id, s.now⟩).setDesc d.id fun d =>
      { d with awaiting := d.awaiting ++ [tag] }
    else failed Cause.unreachable

/-- The queries are read, and the other shards are asked (R481). -/
def State.searchBegin (s : State) (d : Desc) (x : Index) (e : Elem) : State :=
  let st := d.f 80 4
  let n := d.f 24 4 - st
  let w := elemBytes e x.dim
  let ps := d.pieces 0 (st * w) (n * w)
  let (s, ok) := s.readyRead d.id ps
  match s.desc d.id with
  | none => s
  | some d =>
    if !ok ∨ d.fail.isSome then s
    else match s.firstPoison d ps with
    | some g => s.poisonFault d g
    | none =>
      let qs := s.rangeBytes d 0 (st * w) (n * w)
      let s := (s.touchPieces ps).setDesc d.id fun d => ({ d with bytesBuf := qs, remote := [] }).setAux 0 stageRows
      (s.otherShards x).foldl (fun s p => s.sendSearch d x p.1 p.2 qs n) s

/-- R474: the reason of a query, with its count of results. -/
def queryReason (k count : Nat) (fs : List Find) : Nat :=
  let short := decide (count < k)
  if fs.any fun f => f.late ≠ 0 then 0x01
  else if short ∧ fs.any (·.stop) then 0x03
  else if short then 0x02
  else if fs.any fun f => f.bad ≠ 0 then 0x01
  else 0

/-- The output of a query is written (R475, R483). -/
def State.writeHits (s : State) (d : Desc) (query : Nat) (fs : List Find) : State :=
  let k := d.f 20 2
  let hits := (sortBy Hit.le (fs.map fun (f : Find) => f.hits).flatten).take k
  let reason := queryReason k hits.length fs
  let late := sumNat (fs.map fun f => f.late + f.bad)
  let bytes := leBytes 4 hits.length ++ leBytes 1 reason ++ leBytes 1 (b2n (fs.any (·.wide))) ++ zeros 2 ++ leBytes 4 (sumNat (fs.map (·.probed))) ++
    leBytes 4 late ++ (hits.map fun (h : Hit) => leBytes 8 (h.vec + h.list * 2 ^ 40) ++ leBytes 4 h.dist ++ leBytes 4 h.shard).flatten
  let s := s.writeRange d.id 1 (query * d.outSize) bytes clean
  let short := hits.length < k
  s.setDesc d.id fun d =>
    let d := { d with progress := d.progress + 1, count := d.count + sumNat (fs.map fun (f : Find) => f.nans) }
    let d := (d.setAux 1 (d.auxAt 1 + hits.length)).setAux 3 (d.auxAt 3 + late)
    let d := if short then (d.setAux 2 (d.auxAt 2 + 1)).setAux (3 + reason) 1 else d
    if fs.any fun f => f.bad ≠ 0 then d.setAux 7 1 else d

/-- The end of a SEARCH (R476); poison that its own shard met is consumed (R487). -/
def State.searchEnd (s : State) (d : Desc) : State :=
  let r0 := d.auxAt 1 + 2 ^ 32 * d.auxAt 2
  let r1 := sat 2 (d.auxAt 3) + 2 ^ 16 * sat 2 d.count
  let reason := if d.auxAt 4 ≠ 0 then 0x01 else if d.auxAt 6 ≠ 0 then 0x03 else 0x02
  let s := if d.auxAt 2 ≠ 0 then s.finish d.id Status.okPartial reason 0 r0 r1
    else if d.auxAt 3 ≠ 0 then s.finish d.id Status.okDegraded 0x01 0 r0 r1
    else s.ok d.id r0 r1
  match d.auxAt 7, s.index (d.f 16 2) with
  | 1, some x => s.consume d.guest (gpaOf s.self x.region)
  | _, _ => s

/-- The next query: searched here, merged with the other shards' answers, and written. -/
def State.searchQuery (s : State) (d : Desc) (x : Index) (e : Elem) : State :=
  let o := d.f 80 4 + d.progress
  let (s, ok) := s.readyWrite (d.pieces 1 (o * d.outSize) d.outSize)
  if !ok then s
  else
    let far := d.finds.filter fun f => f.query = o
    let (s, mine) := if x.here then
        let (s, f) := s.runQuery x d.quest o (queryOf x e d.bytesBuf d.progress)
        (s, [f])
      else (s, [])
    s.writeHits d o (mine ++ far)

/-- The stop of a search: the failing shard (R484), or the stop offset in queries (R476). -/
def State.searchStop (s : State) (d : Desc) (st ca : Nat) : State :=
  s.finish d.id st 0 ca (if d.wake ≠ 0 then d.wake - 1 else d.f 80 4 + d.progress) 0

/-- `SEARCH` (R470–R477, R481, R483): its queries and requests, or one query once every shard has answered. -/
def execSearch (d : Nat) (s : State) : Host.Outcome State Fault Refusal :=
  .next (s.work d 0x40 s.searchStop fun d =>
    match s.index (d.f 16 2), queryElem (d.f 18 1) with
    | some x, some e =>
      if !d.awaiting.isEmpty then s
      else if d.auxAt 0 = stageIndex then s.searchBegin d x e
      else
        let s := if d.f 80 4 + d.progress < d.f 24 4 then s.searchQuery d x e else s
        match s.desc d.id with
        | some d => if d.f 80 4 + d.progress ≥ d.f 24 4 ∧ d.awaiting.isEmpty ∧ d.fail.isNone ∧ d.done.isNone then s.searchEnd d else s
        | none => s
    | _, _ => s.searchStop d Status.abortedBySoftware Cause.badIndex)

/-- `SEARCH_RESULT` (R483): a shard's answer for the coordinator's merge. -/
def execSearchResult (m : SxfMsg) (s : State) : Host.Outcome State Fault Refusal := Machine.State.response s m Sxf.searchResult

end Sys2Proof.Machine
end

