-- ==== Sys2Proof/Machine/Teardown.lean ====
section
/-! DEFINITION. The commands that end or pass on what others use: GUEST_SET, GUEST_DESTROY, COVE_GRANT with its extents, COVE_DESTROY
and COVE_HANDOVER with the steps of Table 02-13 (spec 02: R111, R112, R117; spec 03: R142, R143, R145, R147, R148; R251, R321, R409,
R496, R537, R692). -/

namespace Sys2Proof.Machine

/-! ### GUEST_SET and COVE_GRANT -/

/-- GUEST_SET (0x0103, R143): with its owner or mode the guest's extents change (R600, R597). -/
def opGuestSet : RelasOp where
  len := lenIs 64
  fields := fun c _ => guestSetBad c
  limits := fun c s =>
    match guestSetLimits c s with
    | some d => some d
    | none => if tooManyExtents (s.setGuest (c.f 16 2) (setGuestFields c)) then some 4096 else none
  conflict := guestConflict
  effect := fun c _ s => ((s.setGuest (c.f 16 2) (setGuestFields c)).reviewExtents, .done)
  objects := fun c => [(.guest (c.f 16 2), 16)]

/-- COVE_GRANT (0x0204, R147): a grant changes the extents that the host ports offer (R597, R600). -/
def opCoveGrantAll : RelasOp :=
  { opCoveGrant with
    limits := fun c s =>
      match opCoveGrant.limits c s with
      | some d => some d
      | none => if tooManyExtents (grantEffect c s) then some 4096 else none
    effect := fun c _ s => ((grantEffect c s).reviewExtents, .done) }

/-! ### GUEST_DESTROY (R142) -/

/-- The stop of a descriptor, by its opcode (R334, R369, R389, R397, R436, R440, R442, R464, R467, R476, R511). -/
def State.stopByOpcode (s : State) (d : Desc) (st ca : Nat) : State :=
  let op := d.opcode
  if 0x10 ≤ op ∧ op ≤ 0x14 then s.porterStop d st ca
  else if op = 0x20 ∧ d.f 18 1 = 0 then s.contributeStop d st ca
  else if 0x21 ≤ op ∧ op ≤ 0x23 then s.consumerStop d st ca
  else if op = 0x24 then s.convertStop d st ca
  else if op = 0x30 then s.gatherStop d st ca
  else if op = 0x31 then s.scatterStop d st ca
  else if op = 0x32 then s.replaceStop d st ca
  else if op = 0x40 then s.searchStop d st ca
  else if op = 0x41 ∨ op = 0x42 then s.vecStop d st ca
  else if op = 0x43 then s.mergeStop d st ca
  else if op = 0x51 then s.kvStop d st ca
  else s.stop d st ca

/-- A descriptor's work ends with ABORTED_TEARDOWN now (R142, R334): answers on their way are no longer waited for; one that has
ended already keeps its status. -/
def State.tearDesc (s : State) (id : Nat) : State :=
  let s := s.setDesc id fun d => { d with awaiting := [], fail := none }
  match s.desc id with
  | none => s
  | some d =>
    let s := if d.done.isSome then s.run [.record id] else s.stopByOpcode d Status.abortedTeardown 0
    match s.desc id with
    | some x => if x.done.isSome then s else s.finish id Status.abortedTeardown 0 0 0 0
    | none => s

/-- A fetched descriptor whose walk is held completes in the same way. -/
def State.tearWalk (s : State) (p : PageRequest) : State :=
  let next := s.queues.nextDesc
  let s := s.dropPage p.queue
  match s.sq p.queue with
  | none => s.walkOver p.queue next
  | some q => (s.walkFault q p.slot p.bytes Status.abortedTeardown 0 0 0).walkOver p.queue next

/-- A pending bollard operation ends with ABORTED_TEARDOWN: as a completion record, an SXF RSP, or a ticket that ends NOT_READY
(R537). -/
def State.tearWait (s : State) (w : Wait) : State :=
  let s := s.dropWait w.id
  match w.waiter with
  | .desc id => s.finish id Status.abortedTeardown 0 0 0 0
  | .sxf m => s.reply m Sxf.bollardValue Status.abortedTeardown 0 0 false false []
  | .ticket id => s.endTicket id Result.notReady s.devState 0

/-- The guest's bollards are freed, with every pending operation on them and the guest's own elsewhere (R537). -/
def State.tearBollards (s : State) (g : Nat) : State :=
  let ids := (s.boll.list.filter fun b => b.owner = g).map (·.id)
  let s := (s.boll.waits.filter fun w => ids.contains w.bollard || w.guest == g).foldl State.tearWait s
  { s with boll := { s.boll with list := s.boll.list.filter fun b => b.owner ≠ g } }

/-- What a guest holds besides work goes: groups, tables, indices, KV sets, scratch blocks, queues, grants and bindings (R142,
R321, R409, R496; tables and indices: log entry 47). -/
def State.tearObjects (s : State) (g : Nat) : State :=
  let s := (s.red.groups.filter fun x => x.guest = g).foldl
    (fun s (x : Group) => s.closeGroup x.id s.queues.nextDesc Status.abortedTeardown 0) s
  let s := (s.indices.list.filter fun x => x.guest = g).foldl (fun s (x : Index) => s.dropIndex x.id) s
  let tags := (s.tables.list.filter fun (t : Table) => t.guest = g).map (·.tag)
  let s := { s with
    tables := { s.tables with
      list := s.tables.list.filter fun (t : Table) => t.guest ≠ g
      cache := s.tables.cache.filter fun (e : RowEntry) => !tags.contains e.tag }
    kv := s.kv.filter fun (k : KvSet) => k.guest ≠ g
    porter := { s.porter with blocks := s.porter.blocks.filter fun (b : ScratchBlock) => b.owner ≠ g }
    queues := { s.queues with
      sqs := s.queues.sqs.filter fun q => q.guest ≠ g
      cqs := s.queues.cqs.filter fun q => q.guest ≠ g } }
  { s with
    store := { s.store with coves := s.store.coves.map fun c => { c with grants := c.grants.filter fun x => x.guest ≠ g } }
    inn := { s.inn with
      chans := s.inn.chans.map fun x => if x.bound.any fun b => b.1 = g then { x with bound := none } else x
      guests := s.inn.guests.filter fun x => x.id ≠ g } }

/-- The guest is torn down (R142, R668): its work ends first, then what it holds. -/
def State.teardown (s : State) (g : Nat) : State :=
  let s := s.guestNotice g
  let mine := sortBy (fun a b => decide (a.seq ≤ b.seq)) (s.queues.descs.filter fun d => d.guest = g)
  let s := (mine.map (·.id)).foldl State.tearDesc s
  let s := (s.queues.pageReqs.filter fun p => p.guest = g).foldl State.tearWalk s
  let s := s.tearBollards g
  let s := ((s.queues.descs.filter fun d => d.guest = g).map (·.id)).foldl State.forget s
  let s := (s.store.snaps.filter fun x => x.guest = g).foldl State.closeSnap s
  let s := ((s.tearObjects g).endHolding g).freeAllImages.reviewExtents.pumpPages
  s.report ⟨evTeardown, sevCorrected, 0, 0, 0, g, 0, 0, 7⟩

/-- GUEST_DESTROY (0x0102, R142). -/
def opGuestDestroy : RelasOp where
  len := lenIs 24
  fields := fun c _ => firstBad [(decide (c.f 16 2 = 0), 16), (nonzero c 20 4, 20)]
  conflict := guestConflict
  effect := fun c _ s => (s.teardown (c.f 16 2), .done)
  objects := fun c => [(.guest (c.f 16 2), 16)]

/-! ### COVE_DESTROY and COVE_HANDOVER -/

/-- Descriptors in flight that touch a cove. -/
def State.descsOn (s : State) (k : Cove) : List Nat :=
  (s.queues.descs.filter fun d => d.ranges.any fun r => r.any fun e =>
    s.isHere e.gpa && overlaps (gpaOffset e.gpa) e.len k.base k.size).map (·.id)

/-- Step 1 of Table 02-13. -/
def State.beginHandover (s : State) (k : Cove) (destroy zero : Bool) (owner : Nat) (grants : List Grant) (ticket : Nat) : State :=
  let h : Handover := ⟨k.id, 2, destroy, zero, owner, grants, s.now, s.descsOn k, [], ticket⟩
  let s := s.setCove k.id fun c => { c with state := .handingOver }
  ({ s with store := { s.store with handovers := s.store.handovers ++ [h] } }).reviewExtents

/-- COVE_DESTROY (0x0202, R145). -/
def opCoveDestroy : RelasOp where
  len := lenIs 24
  fields := fun c _ => firstBad [(decide (c.f 16 2 > 16383), 16), (nonzero c 18 6, 18)]
  conflict := coveConflict
  effect := fun c t s =>
    match s.cove (c.f 16 2) with
    | some k => (s.beginHandover k true false k.owner [] t, .pending (.handover k.id))
    | none => (s, .done)
  objects := fun c => [(.cove (c.f 16 2), 16)]

/-- The grant entries of a COVE_HANDOVER (R148), with the offset of each. -/
def handoverGrants (c : RelasCmd) : List (Grant × Nat) :=
  (List.range (c.f 22 2)).map fun i => (grantOf (c.f (24 + 4 * i) 2) (c.f (26 + 4 * i) 1), 24 + 4 * i)

/-- The cove that a COVE_HANDOVER leaves. -/
def handoverCove (c : RelasCmd) (k : Cove) : Cove :=
  (handoverGrants c).foldl (fun k g => k.setGrant g.1) { k with owner := c.f 18 2, grants := [] }

/-- COVE_HANDOVER (0x0205, R148): no W grant to another than the translation owner (R68), none on a PULLABLE cove (R63), and no
queue or KV set loses its structures (R263, R495). -/
def opCoveHandover : RelasOp where
  len := fun c => lenIs (roundUp (24 + 4 * c.f 22 2) 8) c
  fields := fun c _ =>
    let n := c.f 22 2
    firstBad ([(decide (c.f 16 2 > 16383), 16), (decide (c.f 20 1 > 1), 20), (nonzero c 21 1, 21), (decide (n > 256), 22)] ++
      ((List.range n).map fun i => [(rightsBad (c.f (26 + 4 * i) 1), 26 + 4 * i), (nonzero c (27 + 4 * i) 1, 27 + 4 * i)]).flatten ++
      [(n % 2 = 1 && nonzero c (24 + 4 * n) 4, 24 + 4 * n)])
  denied := fun c s =>
    match s.cove (c.f 16 2) with
    | some k => k.kind = .translation && (handoverGrants c).any fun g => g.1.w && g.1.guest != c.f 18 2
    | none => false
  conflict := fun c s =>
    match s.cove (c.f 16 2) with
    | none => some 16
    | some k => firstBad ([(decide (k.state ≠ .active), 16)] ++
        ((handoverGrants c).map fun g => (k.pullable && g.1.w, g.2)) ++ [(s.starvesQueue k (handoverCove c k), 22)])
  effect := fun c t s =>
    match s.cove (c.f 16 2) with
    | some k => (s.beginHandover k false (c.f 20 1 = 1) (c.f 18 2) (handoverCove c k).grants t, .pending (.handover k.id))
    | none => (s, .done)
  objects := fun c => [(.cove (c.f 16 2), 16)]

/-- Change one hand-over. -/
def State.setHandover (s : State) (cove : Nat) (f : Handover → Handover) : State :=
  { s with store := { s.store with handovers := mapIf (fun x => x.cove = cove) f s.store.handovers } }

def State.dropHandover (s : State) (cove : Nat) : State :=
  { s with store := { s.store with handovers := s.store.handovers.filter fun (x : Handover) => x.cove ≠ cove } }

/-- Lines of a cove that a host may hold. -/
def State.coveLines (s : State) (k : Cove) : List DirEntry :=
  s.dir.entries.filter fun e => inside (e.line * 64) 64 k.base k.size

/-- The step in progress has finished (R111): the work and accesses admitted before, the recalls, the extents, the acknowledgements. -/
def State.stepDone (s : State) (k : Cove) (h : Handover) : Bool :=
  match h.step with
  | 2 => !(s.queues.descs.any fun d => h.waitDescs.contains d.id) &&
      !(s.store.harbour.misses.any fun m => inside (m.granule * granuleSize) granuleSize k.base k.size && !m.waiters.isEmpty)
  | 3 => (s.coveLines k).isEmpty && !(s.dir.recalls.any fun r => inside (r.line * 64) 64 k.base k.size)
  | 4 => !(s.host.extents.any fun x => x.cove = k.id)
  | 5 => h.waitAcks.isEmpty
  | _ => true

/-- Protected granules of a range owe their parity the change to zeros before they are cleared (R660). -/
def State.clearRange (s : State) (base size : Nat) : State :=
  let gs := s.faults.guarded.filter fun g => inside (g * granuleSize) granuleSize base size
  (gs.foldl (fun s g => s.owe (g * granuleSize) (zeros granuleSize)) s).zeroFill base size

/-- Step 7 with ZERO (R111, R693, R251): a new key slot, every map entry zero-fill, no image retained, and a key that a debug unlock
had taken is a key again. -/
def State.rekey (s : State) (k : Cove) (owner : Nat) : State :=
  let (s, slot) := s.freshSlot owner
  let s := (s.clearRange k.base k.size).setCove k.id fun c => { c with
    keySlot := slot
    versions := c.versions.map fun v => { v with images := [], touched := [] } }
  let s := { s with trust := { s.trust with keyless := s.trust.keyless.filter (· ≠ k.id) } }
  s.sweepSlots

/-- The end of COVE_DESTROY (R145): the range is zero-fill and free, and the cove is no more. -/
def State.endCove (s : State) (k : Cove) : State :=
  let s := s.clearRange k.base k.size
  ({ s with store := { s.store with coves := s.store.coves.filter fun (c : Cove) => c.id ≠ k.id } }).sweepSlots

/-- Begin the next step of a hand-over (Table 02-13); step 7 of a destruction is its clearing. -/
def State.nextStep (s : State) (k : Cove) (h : Handover) : State :=
  let s := s.setHandover k.id fun x => { x with step := x.step + 1, began := s.now }
  match h.step + 1 with
  | 3 => s.recallFor ((s.coveLines k).filter fun e => !s.lineBusy e.line) true
  | 4 => (s.host.extents.filter fun x => x.cove = k.id).foldl State.requestRelease s
  | 5 => (s.sendInvalidates k).setHandover k.id fun x => { x with waitAcks := k.holders }
  | 6 =>
    let s := s.setCove k.id fun c => { c with holders := [] }
    ((s.store.snaps.filter fun x => x.cove = k.id).foldl State.closeSnap s).freeImages k.id
  | 7 =>
    if h.destroy then s.setCove k.id fun c => { c with state := .retiring }
    else if h.zero then s.rekey k h.newOwner else s
  | _ =>
    let s := s.dropHandover k.id
    if h.destroy then (s.endCove k).endTicket h.ticket Result.done 0 0
    else
      let s := s.setCove k.id fun c => { c with owner := h.newOwner, grants := h.newGrants, state := .active }
      let s := if h.zero then (s.publish k.id).1 else s
      s.reviewExtents.endTicket h.ticket Result.done 0 8

/-- `HANDOVER_STEP` (R111, R145): the next step begins once the one before it has finished. -/
def execHandoverStep (cove : Nat) (s : State) : Host.Outcome State Fault Refusal :=
  .next (match s.store.handovers.find? fun h => h.cove = cove with
    | none => s
    | some h =>
      match s.cove cove with
      | none => s
      | some k => if s.stepDone k h then State.replicateChanges s (s.nextStep k h) else s)

end Sys2Proof.Machine
end

