-- ==== Sys2Proof/Machine/Staging.lean ====
section
/-! DEFINITION. Tickets and staged configuration sets: their queries and ends, the check, schedule, verification, veto and turn of a set,
and the messages that carry Relas commands (spec 03: R122–R125, R138, R139, R151–R160, R819, R820; R572). -/

namespace Sys2Proof.Machine

/-! ### Tickets (R138, R139) -/

/-- Granules of a cove that its destruction still has to clear (R145). -/
def State.toClear (s : State) (cove : Nat) : Nat := ((s.cove cove).map fun k => k.size / granuleSize).getD 0

/-- PROGRESS of a running ticket (Table 03-6): the work remaining, in the unit of its command. -/
def State.progressOf (s : State) (t : Ticket) : Nat :=
  match t.work with
  | .xlateSync _ ds => (ds.filter fun d => (s.desc d).isSome).length
  | .handover cove =>
    match s.store.handovers.find? fun h => h.cove = cove with
    | some h => if h.destroy then s.toClear cove else h.step
    | none => 0
  | .queueDestroy false q => s.inflight q
  | .tableDestroy id => s.tableUsers id
  | .indexDestroy id => s.indexUsers id
  | .kvDestroy id => s.kvUsers id
  | .linkRecal l => ((s.link l).map (·.step)).getD 0
  | .stateSet => if s.power.goal.isSome then s.guestWork else 0
  | _ => t.progress

/-- TICKET_STATUS (0x0C01, R138, Table 03-6): a guest reads its own tickets; one that is no longer readable is BAD_FIELD. -/
def opTicketStatus : RelasOp where
  len := lenIs 24
  owns := fun c s => match s.inn.tickets.find? fun t => t.id = c.f 16 4 with
    | some t => decide (t.guest = c.guest ∧ t.epoch = c.epoch)
    | none => true
  fields := fun c s => firstBad [(!(s.inn.tickets.any fun t => t.id = c.f 16 4), 16), (nonzero c 20 4, 20)]
  effect := fun c _ s =>
    match s.inn.tickets.find? fun t => t.id = c.f 16 4 with
    | none => (s, .read [])
    | some t => match t.ended with
      | none => (s, .read (leBytes 2 0 ++ leBytes 2 0 ++ leBytes 4 0 ++ leBytes 8 0 ++ leBytes 8 (s.progressOf t)))
      | some e => (s, .read (leBytes 2 1 ++ leBytes 2 e.result ++ leBytes 4 e.detail ++ leBytes 8 e.time ++ leBytes 8 t.progress))

/-- The end of an object that is being destroyed, once nothing in flight names it (R422, R453, R496). -/
def State.dropTable (s : State) (id : Nat) : State :=
  { s with tables := { s.tables with list := s.tables.list.filter fun (t : Table) => t.id ≠ id } }
def State.dropKv (s : State) (id : Nat) : State := { s with kv := s.kv.filter fun (k : KvSet) => k.id ≠ id }

/-- Objects that a turn began to destroy have no ticket: they go when nothing names them any more. -/
def State.sweepDying (s : State) : State :=
  let s := (s.tables.list.filter fun (t : Table) => t.dying && s.tableUsers t.id == 0).foldl (fun s (t : Table) => s.dropTable t.id) s
  let s := (s.indices.list.filter fun (x : Index) => x.dying && s.indexUsers x.id == 0).foldl (fun s (x : Index) => s.dropIndex x.id) s
  (s.kv.filter fun (k : KvSet) => k.dying && s.kvUsers k.id == 0).foldl (fun s (k : KvSet) => s.dropKv k.id) s

/-- The unit is out of service. -/
def State.unitOut (s : State) (cls unit : Nat) : Bool :=
  s.faults.retired.contains (cls, unit) || match cls with
    | 1 => if unit ≥ 0x8000 then s.faults.stacksOut.contains (unit - 0x8000)
        else s.faults.stacksOut.contains (unit / 64) || s.faults.channelsOut.contains (unit / 64, unit % 64 / 2)
    | 2 => s.deep.failed.contains unit || (decide (unit < 0x8000) && s.deep.failed.contains (0x8000 + dieChannel unit))
    | 3 => decide (unit % 16 ≠ 15) && (s.link (unit / 16)).any fun l => l.failedWaves.contains (unit % 16)
    | 9 => s.porter.channels.any fun c => c.id = unit ∧ c.st = .retired
    | _ => false

/-- The work of a ticket has reached the end that its chapter states: the state after it, result, DETAIL and PROGRESS; none while it
goes on, or where another command of the block ends the ticket. -/
def State.ticketWork (s : State) (t : Ticket) : Option (State × Nat × Nat × Nat) :=
  match t.work with
  | .xlateSync _ ds => if ds.any fun d => (s.desc d).isSome then none else some (s, Result.done, 0, 0)
  | .pullRemove _ => some (s, Result.done, 0, 0)
  | .queueDestroy false q =>
    if s.inflight q ≠ 0 then none
    else some ({ s with queues := { s.queues with sqs := s.queues.sqs.filter fun x => x.id ≠ q } }, Result.done, 0, 0)
  | .queueDestroy true q =>
    some ({ s with queues := { s.queues with cqs := s.queues.cqs.filter fun x => x.id ≠ q } }, Result.done, 0, 0)
  | .tableDestroy id => if s.tableUsers id ≠ 0 then none else some (s.dropTable id, Result.done, 0, 0)
  | .indexDestroy id => if s.indexUsers id ≠ 0 then none else some (s.dropIndex id, Result.done, 0, 0)
  | .kvDestroy id => if s.kvUsers id ≠ 0 then none else some (s.dropKv id, Result.done, 0, 0)
  | .bollardWait v => if s.boll.waits.any fun w => w.waiter = .ticket t.id then none else some (s, Result.done, 0, v)
  | .linkRecal l => if (s.link l).any fun x => x.recalTicket = t.id then none else some (s, Result.done, 0, 5)
  | .turn id time =>
    if s.now < time ∨ (s.set id).any fun x => decide (x.state = .scheduled ∧ x.ticket = t.id) then none
    else some (s, Result.conflict, s.self, 0)
  | .retire cls unit => if s.unitOut cls unit then some (s, Result.done, 0, 0) else none
  | .stateSet => if s.power.goal.any fun g => g.ticket = t.id then none else some (s, Result.done, 0, 0)
  | .fwVerify k =>
    let x := s.inn.fw.slot k
    if s.imageOk x then some (s.setFw (s.inn.fw.setSlot k { x with verified := true }), Result.done, x.release, 0)
    else some (s, Result.denied, 0, 0)
  | .fwActivate _ => if s.inn.fw.activating.isSome ∧ s.inn.fw.actTicket = t.id then none else some (s, Result.done, 0, 0)
  | _ => none

/-- `TICKET_END` (R138): the work of a ticket reaches its stated end; ticket 0 stands for destructions that a turn began. -/
def execTicketEnd (ticket : Nat) (s : State) : Host.Outcome State Fault Refusal :=
  .next (if ticket = 0 then s.sweepDying
    else match s.running.find? fun t => t.id = ticket with
      | none => s
      | some t => match s.ticketWork t with
        | none => s
        | some (s', r, d, p) => s'.endTicket ticket r d p)

/-- `TICKET_EXPIRY` (R138): 10 s after its end, or when 1,024 later tickets have ended. Ended tickets stand in the order of their
ends. -/
def execTicketExpiry (ticket : Nat) (s : State) : Host.Outcome State Fault Refusal :=
  let ended := s.inn.tickets.filter (·.ended.isSome)
  let later := ((ended.dropWhile fun t => t.id ≠ ticket).drop 1).length
  .next (if ended.any fun t => t.id = ticket ∧ (later ≥ 1024 ∨ t.ended.any fun e => e.time + 80000000000 ≤ s.now) then
      { s with inn := { s.inn with tickets := s.inn.tickets.filter fun (t : Ticket) => t.id ≠ ticket } }
    else s)

/-! ### Sets (R151–R160, R820) -/

/-- SET_STATE (R820). -/
def SetState.code : SetState → Nat
  | .opened => 1 | .checked => 2 | .scheduled => 3 | .turned => 4 | .vetoed => 5 | .failed => 6 | .discarded => 7

/-- A set counts against R151. -/
def ConfigSet.live (x : ConfigSet) : Bool := x.state != .turned && x.state != .discarded

/-- FAILING_INDEX. -/
def failingIndex : Option Nat → Nat
  | some i => i
  | none => 2 ^ 32 - 1

/-- SET_ID, and 7 reserved bytes (Table 03-11). -/
def setIdBad (c : RelasCmd) : Option Nat := firstBad [(decide (c.f 16 1 = 0), 16), (nonzero c 17 7, 17)]

/-- CONFIG_OPEN (0x0D01). -/
def opConfigOpen : RelasOp where
  len := lenIs 24
  fields := fun c _ => setIdBad c
  limits := fun _ s => if (s.inn.sets.filter ConfigSet.live).length ≥ 8 then some 8 else none
  conflict := fun c s => if (s.set (c.f 16 1)).any ConfigSet.live then some 16 else none
  effect := fun c _ s => (s.setSet ⟨c.f 16 1, .opened, [], 0, 0, [], 0, none, false, none, 0⟩, .done)

/-- CONFIG_DISCARD (0x0D02). -/
def opConfigDiscard : RelasOp where
  len := lenIs 24
  fields := fun c _ => setIdBad c
  conflict := fun c s => match s.set (c.f 16 1) with
    | some x => if x.live && x.state != .scheduled then none else some 16
    | none => some 16
  effect := fun c _ s => match s.set (c.f 16 1) with
    | some x => (s.setSet { x with state := .discarded, verified := false }, .done)
    | none => (s, .done)

/-- CONFIG_QUERY (0x0D06, R820). -/
def opConfigQuery : RelasOp where
  len := lenIs 24
  fields := fun c _ => setIdBad c
  effect := fun c _ s => match s.set (c.f 16 1) with
    | some x => (s, .read (leBytes 1 x.state.code ++ zeros 7 ++ leBytes 8 x.turnTime ++ leBytes 4 x.staged.length ++
        leBytes 4 (failingIndex x.failing)))
    | none => (s, .read (zeros 8 ++ leBytes 8 0 ++ leBytes 4 0 ++ leBytes 4 (failingIndex none)))

/-- PREP_TICKS (R819): free between its bounds, from the set's bytes and SCOPE. Log entry 7. -/
def prepOf (x : ConfigSet) (scope : Nat) : Nat :=
  1600000 + Config.prepTicks (leBytes 1 scope ++ (x.staged.map (·.bytes)).flatten) % 78400001

/-- The body of a CONFIG_CHECK response (Table 03-11). -/
def checkBody (prep count : Nat) (failing : Option Nat) : List Byte :=
  leBytes 8 prep ++ leBytes 4 count ++ leBytes 4 (failingIndex failing)

/-- The outcome of a check is recorded in its set (R154); the answer. -/
def State.checked (s : State) (c : RelasCmd) (x : ConfigSet) (failing : Option Nat) : State × Reply :=
  let prep := prepOf x (c.f 17 1)
  let x := { x with state := if failing.isNone then .checked else .opened, tag := c.f 20 4, prep := prep, failing := failing }
  let body := checkBody prep x.staged.length failing
  match failing with
  | none => (s.setSet x, ⟨Result.done, 0, body, true, none, false⟩)
  | some i => (s.setSet x, ⟨Result.conflict, i, body, false, none, false⟩)

/-- What a staged command refers to on other shores (R155): the shards of a table or an index. Its index in the set, the shore, the
opcode of the QUERY command and the object. -/
def referencesOf (self : Nat) (c : RelasCmd) (i : Nat) : List (Nat × Nat × Nat × Nat) :=
  if c.opcode = 0x0501 then ((tableOf c).shards.filter (· ≠ self)).map fun n => (i, n, 0x0503, c.f 16 2)
  else if c.opcode = 0x0601 then ((indexOf c).shards.filter (· ≠ self)).map fun n => (i, n, 0x0603, c.f 16 2)
  else []

/-- The references of a set, each object of each shore once, in staging order. -/
def ConfigSet.references (x : ConfigSet) (self : Nat) : List (Nat × Nat × Nat × Nat) :=
  (x.staged.zipIdx.map fun p => referencesOf self p.1 p.2).flatten.foldl
    (fun acc r => if acc.any fun a => a.2 = r.2 then acc else acc ++ [r]) []

/-- The first staged command that refers to a shore. -/
def firstReference (rs : List (Nat × Nat × Nat × Nat)) (shore : Nat) : Nat :=
  ((rs.find? fun r => r.2.1 = shore).map (·.1)).getD 0

/-- Ask another shore about an object: its QUERY command in a MAILBOX message (R155, R572), with the FABRIC_TAG in the reserved bytes
20–23 and the message's tag as SEQUENCE (log entry 12). -/
def State.ask (s : State) (tag shore op id fabricTag : Nat) : State :=
  s.send ⟨noBundle, 3, SxfMsg.reqUnit Sxf.mailbox false false s.self tag 24 0 (gpaOf shore 0),
    leBytes 2 op ++ leBytes 2 tag ++ leBytes 2 24 ++ zeros 10 ++ leBytes 2 id ++ zeros 2 ++ leBytes 4 fabricTag⟩

/-- The next free tag of a query: the tags of PULL_ADD requests lie below 2,048. -/
def State.askTag (s : State) : Nat := maxNat (2047 :: (s.inn.checks.map fun x => x.waiting.map (·.1)).flatten) + 1

/-- The tags given to references, in order. -/
def tagged (first : Nat) (rs : List (Nat × Nat × Nat × Nat)) : List (Nat × Nat × Nat × Nat × Nat) :=
  rs.zipIdx.map fun p => (first + p.2, p.1)

/-- CONFIG_CHECK (0x0D03, R154, R155): on a copy after every scheduled set; with SCOPE = FABRIC the shores that hold what the set refers
to are asked, and the answer waits for theirs. -/
def opConfigCheck (table : Nat → Option RelasOp) : RelasOp where
  len := lenIs 24
  fields := fun c _ => firstBad [(decide (c.f 16 1 = 0), 16), (decide (c.f 17 1 > 1), 17), (nonzero c 18 2, 18)]
  conflict := fun c s => match s.set (c.f 16 1) with
    | some x => if x.state = .opened ∨ x.state = .checked then none else some 16
    | none => some 16
  effect := fun c _ s => match s.set (c.f 16 1) with
    | none => (s, .done)
    | some x =>
      match checkCmds table x.staged (copyAfter table s.scheduled s) with
      | some i => s.checked c x (some i)
      | none =>
        let rs := x.references s.self
        if c.f 17 1 = 0 ∨ rs.isEmpty then s.checked c x none
        else
          let dead := rs.filter fun r => s.faults.dead.contains r.2.1
          match dead.head? with
          | some r => s.checked c x (some (firstReference rs r.2.1))
          | none =>
            let qs := tagged s.askTag rs
            let k : FabricCheck := ⟨c, qs.map fun q => (q.1, q.2.2.1, q.2.1), [], s.now⟩
            let s := { s with inn := { s.inn with checks := s.inn.checks ++ [k] } }
            (qs.foldl (fun s q => s.ask q.1 q.2.2.1 q.2.2.2.1 q.2.2.2.2 (c.f 20 4)) s, { Reply.done with later := true })

/-- A query of a check has its answer, or has none in time: with the last one the check ends (R155). -/
def State.fabricAnswer (s : State) (tag : Nat) (fails : Option Nat) : State :=
  match s.inn.checks.find? fun k => k.waiting.any fun w => w.1 = tag with
  | none => s
  | some k =>
    let k' : FabricCheck := { k with
      waiting := k.waiting.filter fun w => w.1 ≠ tag
      failing := k.failing ++ fails.toList }
    let rest := s.inn.checks.filter fun x => !(x.waiting.any fun w => w.1 = tag)
    if !k'.waiting.isEmpty then { s with inn := { s.inn with checks := rest ++ [k'] } }
    else
      let s := { s with inn := { s.inn with checks := rest } }
      match s.set (k.cmd.f 16 1) with
      | none => s.fail k.cmd Result.conflict 16
      | some x =>
        let worst := k'.failing.foldl (fun (a : Option Nat) i => some (match a with
          | some j => min i j
          | none => i)) none
        let (s, r) := s.checked k.cmd x worst
        s.answer k.cmd (Machine.response k.cmd r.result r.detail 0 (if r.tookHold then s.now else 0) r.body)

/-- `FABRIC_CHECK_TIMEOUT` (R155): no answer within 1 ms. -/
def execFabricCheckTimeout (tag : Nat) (s : State) : Host.Outcome State Fault Refusal :=
  .next (match s.inn.checks.find? fun k => k.waiting.any fun w => w.1 = tag with
    | none => s
    | some k =>
      if s.now < k.began + 8000000 then s
      else
        let shore := ((k.waiting.find? fun w => w.1 = tag).map (·.2.1)).getD 0
        let rs := ((s.set (k.cmd.f 16 1)).map fun x => x.references s.self).getD []
        s.fabricAnswer tag (some (firstReference rs shore)))

/-- The sets that turn before a time and set (R154). -/
def State.before (s : State) (time id : Nat) : List ConfigSet :=
  s.scheduled.filter fun x => decide (x.turnTime < time ∨ (x.turnTime = time ∧ x.id < id))

/-- CONFIG_TURN (0x0D04, R154, R156, R158). -/
def opConfigTurn (table : Nat → Option RelasOp) : RelasOp where
  len := lenIs 96
  fields := fun c _ => firstBad [(decide (c.f 16 1 = 0), 16), (nonzero c 17 3, 17), (decide (c.f 20 4 = 0) && nonzero c 32 64, 32)]
  conflict := fun c s => match s.set (c.f 16 1) with
    | none => some 16
    | some x =>
      if x.state ≠ .checked then some 16
      else if x.tag ≠ c.f 20 4 then some 20
      else if c.f 24 8 < s.now + x.prep then some 24
      else checkCmds table x.staged (copyAfter table (s.before (c.f 24 8) x.id) s)
  effect := fun c t s => match s.set (c.f 16 1) with
    | none => (s, .done)
    | some x =>
      let parts := (List.range 512).filter fun n => bit (c.f 32 64) n
      (s.setSet { x with state := .scheduled, turnTime := c.f 24 8, parts := parts, verified := false, vetoer := none, ticket := t },
        .pending (.turn x.id (c.f 24 8)))

/-- A veto naming this shore goes to every other participant, with acknowledgement (R157, R158). -/
def State.sendVeto (s : State) (x : ConfigSet) : State :=
  (x.parts.filter fun n => n ≠ s.self).foldl (fun s n => (s.control Sxf.veto 0 (gpaOf n (x.tag % 2 ^ 32)) []).1) s

/-- CONFIG_CANCEL (0x0D05, R159). -/
def opConfigCancel : RelasOp where
  len := lenIs 24
  fields := fun c _ => setIdBad c
  conflict := fun c s => match s.set (c.f 16 1) with
    | some x => if x.state = .scheduled ∧ s.now + 800000 ≤ x.turnTime then none else some 16
    | none => some 16
  effect := fun c _ s => match s.set (c.f 16 1) with
    | some x => ((s.sendVeto x).setSet { x with state := .vetoed, vetoer := some s.self }, .done)
    | none => (s, .done)

/-- Run a change as of a tidetime. -/
def State.asOf (s : State) (t : Nat) (f : State → State) : State :=
  let s' := f { s with clock := { s.clock with tidetime := t } }
  { s' with clock := { s'.clock with tidetime := s.now } }

/-- The verification of R157: 800,000 ticks before TURN_TIME the set is verified against the running state; one that fails is FAILED and
vetoes. -/
def State.turnVerify (table : Nat → Option RelasOp) (set : Nat) (s : State) : State :=
  match s.set set with
  | none => s
  | some x =>
    if x.state ≠ .scheduled ∨ x.verified ∨ s.now + 800000 < x.turnTime then s
    else if (checkCmds table x.staged s).isNone then s.setSet { x with verified := true }
    else (s.sendVeto x).setSet { x with state := .failed, verified := false }

/-- The whole set takes hold as one change, whatever a change of the device itself has broken meanwhile (R157). -/
def applySet (table : Nat → Option RelasOp) (cs : List RelasCmd) (s : State) : State :=
  cs.foldl (fun s c => match table c.opcode with
    | some op => (op.effect c 0 s).1
    | none => s) s

/-- A row cache whose size changes is emptied (R427). -/
def State.resized (old s : State) : State :=
  if old.store.harbour.rowGib = s.store.harbour.rowGib then s else { s with tables := { s.tables with cache := [] } }

/-- The turn of a set at its TURN_TIME (R157, R160): sets that turn earlier have turned. -/
def State.turn (table : Nat → Option RelasOp) (set : Nat) (s : State) : State :=
  match s.set set with
  | none => s
  | some x =>
    if x.state ≠ .scheduled ∨ s.now < x.turnTime ∨ !(s.before x.turnTime x.id).isEmpty then s
    else match x.vetoer with
      | some v => s.asOf x.turnTime fun s => (s.setSet { x with state := .vetoed }).endTicket x.ticket Result.conflict v 0
      | none =>
        if !x.verified then s
        else s.asOf x.turnTime fun s =>
          let s' := State.resized s (applySet table x.staged s)
          let s' := State.replicateChanges s s'.sweepDying
          (s'.setSet { x with state := .turned, verified := false }).endTicket x.ticket Result.done 0 0

/-- `VETO` (R157, R158): a veto in time withholds the turn of the set with its FABRIC_TAG; a later one is ignored and counted. Both are
acknowledged. -/
def execVeto (m : SxfMsg) (s : State) : Host.Outcome State Fault Refusal :=
  s.arrival (m.op == Sxf.veto) fun s => s.forSelf m fun s =>
    let tag := bits m.unit0 102 71
    let s := match s.scheduled.find? fun x => tag ≠ 0 ∧ x.tag = tag ∧ s.now < x.turnTime with
      | some x => s.setSet { x with vetoer := some (x.vetoer.getD m.src) }
      | none => if s.inn.sets.any fun x => decide (tag ≠ 0 ∧ x.tag = tag ∧ x.turnTime ≠ 0 ∧ x.turnTime ≤ s.now) then s.count 0x0C 0 3 1 else s
    s.reply m Sxf.ctlAck Status.ok 0 0 false false []

/-! ### MAILBOX messages (R124, R572) -/

/-- The bytes of the command that a MAILBOX message brings: LENGTH stands in bits [54:39] of unit 0. -/
def commandOf (m : SxfMsg) : List Byte := m.units.take m.guest

/-- The bytes of the 16 B header. -/
def headerOf (b : List Byte) : List Byte := b.take 16

/-- BUSY for a command that meets an outstanding one on its control channel (R124). -/
def State.mailboxBusy (s : State) (bundle chan : Nat) (m : SxfMsg) : State :=
  let c : RelasCmd := ⟨.sxf bundle chan, commandOf m⟩
  let rsp := Machine.response c Result.busy (s.nextFree % 2 ^ 32) 0 0 []
  ((s.count 0x0C 0 1 1).sendJetty bundle ⟨bundle, 3, mailboxRspUnit chan m.tag rsp.length s.self 0, rsp⟩).drew

/-- `MAILBOX` (R572): on a jetty it brings the command of a control channel; between shores it brings a query of R155 or the request of
R114, which act under the system credential. -/
def execMailbox (m : SxfMsg) (s : State) : Host.Outcome State Fault Refusal :=
  s.arrival (m.op == Sxf.mailbox) fun s =>
    match s.portRefusal m with
    | some (st, ca) => s.refuse m st ca
    | none =>
      if (s.bundle m.via).any fun b => b.kind = .jetty then
        let k := bits m.unit0 11 8
        let x := s.chanRec (.sxf m.via k)
        if !s.inn.booted then s
        else match x.outstanding with
          | [] => s.setChan { x with outstanding := [commandOf m], tag := m.tag }
          | o :: _ => if headerOf o = headerOf (commandOf m) then s else s.mailboxBusy m.via k m
      else if m.dest ≠ s.self then s.send m
      else if !s.inn.booted then s
      else
        let x := s.chanRec (.shore m.src)
        s.setChan { x with bound := some (0, 0), outstanding := x.outstanding ++ [commandOf m], kept := [] }

/-- `MAILBOX_RSP` (R114, R155): the answer of another shore, to a query of a check or to the request of a PULL_ADD; toward another
shore it goes on its way. -/
def execMailboxRsp (m : SxfMsg) (s : State) : Host.Outcome State Fault Refusal :=
  s.arrival (m.op == Sxf.mailboxRsp) fun s => s.forSelf m fun s =>
    let ok := decide (m.f 6 2 = Result.done)
    if m.tag ≥ 2048 then
      let idx := ((s.inn.checks.map (·.waiting)).flatten.find? fun w => w.1 = m.tag).map (·.2.2)
      s.fabricAnswer m.tag (if ok then none else idx)
    else match s.store.pulls.find? fun p => p.index + 1 = m.tag ∧ !p.confirmed with
      | none => s
      | some p =>
        if ok then
          ({ s with store := { s.store with
            pulls := mapIf (fun x => x.index = p.index) (fun x => { x with confirmed := true }) s.store.pulls } }).endTicket p.ticket Result.done 0 0
        else (s.dropPull p.index).endTicket p.ticket Result.conflict 16 0

/-- The home's side of a PULL_ADD (R114): it records the reading shore, unless the cove is not PULLABLE. -/
def opPullHold : RelasOp where
  len := lenIs 32
  conflict := fun c s => match s.coveAt (gpaOffset (c.f 16 8)) with
    | some k => if k.pullable ∧ k.state = .active ∧ inside (gpaOffset (c.f 16 8)) (c.f 24 8) k.base k.size then none else some 16
    | none => some 16
  effect := fun c _ s => match s.coveAt (gpaOffset (c.f 16 8)), c.chan with
    | some k, .shore n => (s.setCove k.id fun k => { k with holders := setAdd n k.holders }, .done)
    | _, _ => (s, .done)

/-- The answer to a query of R155: the object runs here, or a set that is CHECKED or SCHEDULED with the same FABRIC_TAG makes it. -/
def opShoreQuery (create : Nat) (runs : State → Nat → Bool) : RelasOp where
  len := lenIs 24
  conflict := fun c s =>
    let staged := s.inn.sets.any fun x => (x.state == .checked || x.state == .scheduled) && x.tag == c.f 20 4 &&
      x.staged.any fun d => d.opcode == create && d.f 16 2 == c.f 16 2
    if runs s (c.f 16 2) || staged then none else some 16
  effect := fun _ _ s => (s, .read [])

end Sys2Proof.Machine
end

