-- ==== Sys2Proof/Machine/Retire.lean ====
section
/-! DEFINITION. Units that leave service: array failures and spares (R36, R324, R405, R645, R646), UNIT_RETIRE and announced
retirements (R303, R677), weathering (R671–R673), and Innkeeper's instruction trace (R755, R756). -/

namespace Sys2Proof.Machine

/-! ### Shoal arrays (R645, R646) -/

/-- The logical number that a physical array serves, where it is in service (R36, Table 17-1). -/
def State.logicalOf (s : State) (array : Nat) : Option Nat :=
  if s.faults.retired.contains (0x4, array) then none
  else if array < 32 then some array
  else (s.faults.sparesUsed.find? fun x => x.1 = array).map (·.2)

/-- The spare of a logical array's die is unused (R36). -/
def State.spareFree (s : State) (logical : Nat) : Bool :=
  let spare := 32 + logical / 16
  !(s.faults.sparesUsed.any fun x => x.1 = spare) && !s.faults.retired.contains (0x4, spare)

/-- Every block of an array that a STAGE_IN wrote is staged again from its recorded source as it stands (R324); what another shore
holds now is a free value (log entry 49). -/
def State.restage (s : State) (array : Nat) : State :=
  (s.porter.blocks.filter fun b => b.array = array).foldl (fun s b =>
    b.source.foldl (fun s (x : Nat × Nat × Nat) =>
      let (at', gpa, n) := x
      let here := s.isHere gpa
      let bytes := if here then s.bytesAt (gpaOffset gpa) n else (List.range n).map fun i => BitVec.ofNat 8 (s.freeAt i)
      let base := b.block * scratchBlock + at'
      let bad := if here then
          uniq (((sectorsOf (gpaOffset gpa) n).filter fun k => s.store.poison.contains k).map fun k =>
            (base + (k * 64 - gpaOffset gpa)) / 64)
        else []
      (if here then s else s.drewN n).scratchWrite array base bytes bad) s) s

/-- The descriptor works at a logical array that has been lost (R646): it moves to or from the array's scratchpad, or consumes an
instance served there. -/
def State.onArray (s : State) (d : Desc) (array : Nat) : Bool :=
  if d.opcode = 0x12 ∨ d.opcode = 0x13 then d.scratchArray == array
  else if 0x21 ≤ d.opcode ∧ d.opcode ≤ 0x23 then
    match s.group (d.f 16 2) with
    | some g => decide (d.elemNow < d.elemEnd ∧ g.tileOf d.elemNow % 32 = array) && !s.consumerWaits d
    | none => false
  else false

/-- A logical array is left without an array (R646). -/
def State.loseArray (s : State) (logical : Nat) : State :=
  let taken : List ScratchBlock := (List.range 64).map fun k => ⟨logical, k, 0, [], [], [], none⟩
  let blocks := (s.porter.blocks.filter fun (b : ScratchBlock) => b.array ≠ logical) ++ taken
  let s := { s with
    faults := { s.faults with arraysLost := setAdd logical s.faults.arraysLost }
    porter := { s.porter with blocks := blocks } }
  let fail (g : Group) : Group := { g with
    insts := mapIf (fun i => i.tile % 32 == logical) (fun i => { i with state := .failed, accs := [] }) g.insts }
  let s := { s with red := { s.red with groups := s.red.groups.map fail } }
  let s := s.red.groups.foldl (fun s (g : Group) => s.groupChanged g.id) s
  (s.queues.descs.filter fun d => d.done.isNone && s.onArray d logical).foldl (fun s (d : Desc) =>
    (s.finish d.id Status.internal 0 (s.nextFree % 2 ^ 32) 0 0).drew) s

/-- A physical array leaves service (R36, R645, R646): an unused spare is no longer there to be used; a serving array gives its
logical number to its die's spare, or, where that is used, leaves it without an array. -/
def State.failArray (s : State) (array : Nat) : State :=
  if s.faults.retired.contains (0x4, array) ∨ array > 33 then s
  else
    let logical := s.logicalOf array
    let s := { s with faults := { s.faults with retired := setAdd (0x4, array) s.faults.retired } }
    let s := s.report ⟨evRetired, sevFailed, 0x4, array, 4, 0, 0, 0, 0⟩
    match logical with
    | none => s
    | some n =>
      if s.spareFree n then
        let s := { s with faults := { s.faults with sparesUsed := s.faults.sparesUsed ++ [(32 + n / 16, n)] } }
        let s := (s.singleFault 0x4).report ⟨evSpareSwitch, sevRecovered, 0x4, array, 3, 0, 0, 32 + n / 16, 0⟩
        (s.restage n).rebuildArray n
      else (s.loseArray n).report ⟨evCapacityReduced, sevFailed, 0x4, array, 9, 0, 0, 0, 0⟩

/-- `ARRAY_FAIL` (R645, R646). -/
def execArrayFail (array : Nat) (s : State) : Host.Outcome State Fault Refusal := .next (s.failArray array)

/-! ### Retirements by command (R677) -/

/-- A wavelength of a link leaves service: the spare is gone, or the lane on it fails (R551, R552). -/
def State.dropWave (s : State) (link wave : Nat) : State :=
  match s.link link with
  | none => s
  | some l =>
    if l.spare = some wave then s.setLink link fun l => { l with spare := none, failedWaves := setAdd wave l.failedWaves }
    else match l.laneMap.findIdx? fun w => w = wave with
      | some lane => if l.state = .up then s.failLane link lane else s.setLink link fun l => { l with failedWaves := setAdd wave l.failedWaves }
      | none => s.setLink link fun l => { l with failedWaves := setAdd wave l.failedWaves }

/-- A unit is taken out of service by UNIT_RETIRE (R677); where it was announced, its data has been moved first. -/
def State.retireUnit (s : State) (cls unit : Nat) (announced : Bool) : State :=
  if s.unitOut cls unit then s
  else match cls with
  | 1 => if unit ≥ 0x8000 then s.retireStack (unit - 0x8000) announced else s.retireChannel (unit / 64) (unit % 64 / 2) announced
  | 2 => s.failNand unit
  | 3 =>
    let s := { s with faults := { s.faults with retired := setAdd (0x3, unit) s.faults.retired } }
    let s := s.report ⟨evRetired, sevFailed, 0x3, unit, 4, 0, 0, 0, 0⟩
    if unit % 16 = 15 then s.linkDown (unit / 16) false else s.dropWave (unit / 16) (unit % 16)
  | 4 => s.failArray unit
  | 9 =>
    ({ s with faults := { s.faults with retired := setAdd (0x9, unit) s.faults.retired } }.setChannel unit fun x => { x with
      st := .retired, announced := none }).report ⟨evRetired, sevFailed, 0x9, unit, 4, 0, 0, 0, 0⟩
  | _ => s

/-- What a retirement takes from Breakwater from a tidetime on (R303): each resource whose capacity it lowers. -/
def State.announceLoss (s : State) (cls unit start : Nat) : State :=
  let after := s.retireUnit cls unit true
  let lower := (List.range 80).filter fun r => decide (after.baseCap r < s.baseCap r)
  let loss := (lower.map fun r => Reduction.mk r (slotOf start) (after.baseCap r)) ++
    (if cls = 9 then [Reduction.mk resPorter (slotOf start) (s.capAt resPorter (slotOf start) - 100)] else [])
  { s with brk := { s.brk with reductions := s.brk.reductions ++ loss } }

/-- A retirement is announced 100 ms ahead (R303, R677). -/
def State.announceUnit (s : State) (cls unit ticket : Nat) : State :=
  let start := s.now + 800000000
  let s := s.announceLoss cls unit start
  if cls = 9 then s.setChannel unit fun x => { x with announced := some (x.announced.getD start) }
  else { s with faults := { s.faults with announced := s.faults.announced ++ [(cls, unit, start, ticket)] } }

/-- UNIT_RETIRE (0x0A02, R677). -/
def opUnitRetire : RelasOp where
  len := lenIs 24
  fields := fun c _ => firstBad [(!([1, 2, 3, 4, 9].contains (c.f 16 1)), 16), (nonzero c 17 1, 17), (unitBad (c.f 16 1) (c.f 18 2), 18),
    (decide (c.f 20 1 > 1), 20), (nonzero c 21 3, 21)]
  conflict := fun c s =>
    if s.unitOut (c.f 16 1) (c.f 18 2) ∨ (c.f 16 1 = 3 ∧ c.f 18 2 % 16 = 15 ∧ s.lastLink (c.f 18 2 / 16)) then some 18 else none
  effect := fun c t s =>
    let cls := c.f 16 1
    let unit := c.f 18 2
    let s := if c.f 20 1 = 0 then s.announceUnit cls unit t
      else
        let start := (slotOf s.now + 1) * slotTicks
        let cap := s.capAt resPorter (slotOf start)
        let s := (s.retireUnit cls unit false).singleFault cls
        if cls = 9 then { s with brk := { s.brk with reductions := s.brk.reductions ++ [Reduction.mk resPorter (slotOf start) (cap - 100)] } } else s
    (s, .pending (.retire cls unit))

/-- `CAPACITY_REDUCTION_EFFECT` (R303): announced retirements whose start has come are performed. -/
def execCapacityReductionEffect (s : State) : Host.Outcome State Fault Refusal :=
  let due := s.faults.announced.filter fun x => decide (x.2.2.1 ≤ s.now)
  let s := { s with faults := { s.faults with announced := s.faults.announced.filter fun x => decide (s.now < x.2.2.1) } }
  .next (due.foldl (fun s x => s.retireUnit x.1 x.2.1 true) s)

/-! ### Weathering (R671–R673) -/

/-- CORRECTED events of a unit go out as one event (R673). -/
def State.flushMerged (s : State) : State :=
  let ms := s.obs.merging
  ms.foldl (fun s (m : Merging) => s.event ⟨evFault, sevCorrected, m.cls, m.unit, m.action, 0, 0, 0, 0⟩ m.count)
    { s with obs := { s.obs with merging := [] } }

/-- A unit whose score has reached 1023 is retired where Table 17-2 covers it (R643, R672). -/
def State.weatherRetire (s : State) (cls unit : Nat) : State :=
  match cls with
  | 1 =>
    if unit < 0x8000 ∧ !(s.faults.channelsOut.any fun x => x.1 = unit / 64) then s.retireChannel (unit / 64) (unit % 64 / 2) false else s
  | 3 =>
    if unit % 16 ≠ 15 ∧ (s.link (unit / 16)).any (fun l => l.state = .up ∧ (l.spare.isSome ∨ l.laneMap.length = 9)) then
      (s.dropWave (unit / 16) (unit % 16)).singleFault 0x3
    else s
  | 4 => if (s.logicalOf unit).all s.spareFree then s.failArray unit else s
  | _ => s

/-- The stack of a unit of class 0x1. -/
def stackOfUnit (unit : Nat) : Nat := if unit ≥ 0x8000 then unit - 0x8000 else unit / 64

/-- A score of 768 or more foretells the failure of a second channel of a stack: the stack's retirement is announced (R644). -/
def State.foresee (s : State) (cls unit : Nat) : State :=
  let stack := stackOfUnit unit
  if cls = 1 ∧ 768 ≤ s.score cls unit ∧ !s.unitOut cls unit ∧ (s.faults.channelsOut.any fun x => x.1 = stack) ∧
      !(s.faults.announced.any fun x => x.1 = 0x1 ∧ x.2.1 = 0x8000 + stack) then
    s.announceUnit 0x1 (0x8000 + stack) 0
  else s

/-- One unit's score is recomputed, and what it brings about (R644, R671, R672). -/
def State.weather (s : State) (cls unit : Nat) : State :=
  let old := s.score cls unit
  let out := s.unitOut cls unit
  let s := s.reweigh cls unit
  let s := if old < 1023 ∧ s.score cls unit = 1023 ∧ !out then s.weatherRetire cls unit else s
  s.foresee cls unit

/-- `WEATHER_RECOMPUTE` (R671–R673): every 10 s, with the margins measured, as class, unit and thousandths (log entry 50). -/
def execWeatherRecompute (margins : List (Nat × Nat × Nat)) (s : State) : Host.Outcome State Fault Refusal :=
  .next (if s.now < s.obs.weighed + 80000000000 then s
    else
      let recent := s.obs.samples.filter fun x => decide (s.now < x.time + 691200000000000)
      let s := { s with obs := { s.obs with weighed := s.now, samples := recent } }
      let s := s.flushMerged
      let s := margins.foldl (fun s (m : Nat × Nat × Nat) =>
        let x : Score := ⟨m.1, m.2.1, s.score m.1 m.2.1, min m.2.2 1000⟩
        { s with obs := { s.obs with scores := upsert (fun (y : Score) => (y.cls, y.unit)) x s.obs.scores } }) s
      let units := uniq ((s.obs.scores.map fun x => (x.cls, x.unit)) ++ (s.obs.samples.map fun x => (x.cls, x.unit)) ++ s.faults.retired)
      units.foldl (fun s x => s.weather x.1 x.2) s)

/-! ### Instruction trace (R755, R756, Table 20-8) -/

/-- The trace runs: some pair, and a mode other than OFF. -/
def Trace.runs (t : Trace) : Bool := decide (t.pairs ≠ 0 ∧ t.mode ≠ 0)

/-- WRITTEN and bytes of the trace buffer (log entry 48). -/
def State.traceBytes (s : State) (n : Nat) : State × Nat × List Byte :=
  let written := if s.obs.trace.runs then s.nextFree % 2 ^ 64 else 0
  let bytes := if s.obs.trace.dirty then (List.range n).map fun i => BitVec.ofNat 8 (s.freeAt (i + 1)) else zeros n
  (s.drewN (n + 1), written, bytes)

/-- TRACE_SET (0x0C04, R755, R756): CONFIGURE and READ; TRACE_BYTES_LOST has risen by a free amount while the trace ran (log entry 48). -/
def opTraceSet : RelasOp where
  len := fun c => match c.f 16 1 with
    | 0 => lenIs 40 c
    | 1 => lenIs 24 c
    | _ => none
  fields := fun c _ => match c.f 16 1 with
    | 0 => firstBad [(decide (c.f 17 1 > 3), 17), (decide (c.f 18 1 > 2), 18), (decide (c.f 19 1 > 1), 19), (nonzero c 20 4, 20),
        (c.f 19 1 = 0 && nonzero c 24 8, 24), (c.f 19 1 = 0 && nonzero c 32 8, 32)]
    | 1 => firstBad [(c.stage, 16), (nonzero c 17 1, 17), (decide (c.f 18 2 = 0 ∨ c.f 18 2 > 3792), 18),
        (decide (c.f 20 4 + c.f 18 2 > mib2), 20)]
    | _ => some 16
  denied := fun _ s => !bit s.debug 2
  effect := fun c _ s =>
    if c.f 16 1 = 0 then
      let t : Trace := ⟨c.f 17 1, c.f 18 1, c.f 19 1, c.f 24 8, c.f 32 8, s.obs.trace.dirty⟩
      ({ s with obs := { s.obs with trace := { t with dirty := t.dirty || t.runs } } }, .done)
    else
      let (s, written, bytes) := s.traceBytes (c.f 18 2)
      (if s.obs.trace.runs then (s.count 0x0D 0 3 (s.nextFree % 2 ^ 32)).drew else s, .read (leBytes 8 written ++ bytes))
  objects := fun c => if c.f 16 1 = 0 then [(.trace, 16)] else []

end Sys2Proof.Machine
end

