-- ==== Sys2Proof/Machine/Toll.lean ====
section
/-! DEFINITION. The Tollhouse metering island (spec 19): activity frames and apportioning, records, store, seal, port and the mirror that
Innkeeper holds. -/

namespace Sys2Proof.Machine

/-! ### Apportioning (R714–R719) -/

/-- Numbers in ascending order. -/
def insertNat (x : Nat) : List Nat → List Nat
  | [] => [x]
  | y :: l => if x ≤ y then x :: y :: l else y :: insertNat x l
def sortNat : List Nat → List Nat
  | [] => []
  | x :: l => insertNat x (sortNat l)

/-- Table 19-3, rails in the order of Table 17-1, classes ARRAY, HBM, QUAY, LINK, DEEP, PORTER, HOST, CONTROL. -/
def tollWeights : List (List Nat) :=
  [[5600, 0, 2560, 0, 0, 1000, 0, 0], [400, 0, 512, 0, 0, 0, 0, 0], [0, 0, 0, 1000, 0, 0, 0, 0], [0, 0, 0, 200, 0, 0, 0, 0],
   [0, 600, 0, 0, 0, 0, 0, 0], [0, 600, 0, 0, 0, 0, 0, 0], [0, 0, 0, 0, 2900000, 0, 0, 0], [0, 0, 0, 0, 0, 0, 3700, 0],
   [0, 0, 0, 0, 0, 0, 0, 500000], [], []]

/-- IDLE_MW of a rail, fused at manufacture (R718). Log entry 10. -/
def idleMw (r : Nat) : Nat := Config.unit (0x30000 + r)

/-- `split` of R718: `t` over weights in ascending order of guest and epoch; the units that division leaves go to the largest
remainders, ties to the earlier. All of it goes to the first, guest 0, where every weight is 0 (log entry 51). -/
def tollSplit (t : Nat) (w : List Nat) : List Nat :=
  let total := sumNat w
  if total = 0 then w.zipIdx.map fun (_, i) => if i = 0 then t else 0
  else
    let b := w.map fun x => t * x / total
    let q := w.map fun x => t * x % total
    let left := t - sumNat b
    let rank (i x : Nat) : Nat := (q.zipIdx.filter fun (p : Nat × Nat) => x < p.1 || (p.1 == x && p.2 < i)).length
    (b.zip q).zipIdx.map fun ((b, x), i) => if rank i x < left then b + 1 else b

/-- One guest of a frame (R714–R716): guest, epoch, cove and pin weights in 2 MiB, and its eight counts. -/
structure FrameGuest where
  guest : Nat
  epoch : Nat
  cove : Nat
  pin : Nat
  counts : List Nat
  deriving DecidableEq, Repr

/-- Cove weight of a guest in bytes (R716): its coves with their version reserves (R229); guest 0 also has coves whose owner is
not active and the usable capacity outside every cove. -/
def State.coveWeight (s : State) (g : Nat) : Nat :=
  let weight (c : Cove) : Nat := if c.versioned then 2 * c.size else c.size
  let active (c : Cove) : Bool := s.inn.guests.any fun x => x.id = c.owner
  let own := sumNat ((s.store.coves.filter fun (c : Cove) => c.owner == g || (g == 0 && !active c)).map weight)
  own + (if g = 0 then s.store.capacity - sumNat (s.store.coves.map (·.size)) else 0)

/-- The guests of a frame in ascending order (R714), guest 0 always among them, with the counts measured; a count of no active guest is
guest 0's (R715). -/
def State.frameGuests (s : State) (counts : List (Nat × List Nat)) : List FrameGuest :=
  let active (g : Nat) : Bool := s.inn.guests.any fun x => x.id = g
  let owner (g : Nat) : Nat := if active g then g else 0
  let sum (g : Nat) : List Nat := (List.range 8).map fun c =>
    sumNat ((counts.filter fun x => owner x.1 = g).map fun x => x.2.getD c 0)
  (sortNat (setAdd 0 (s.inn.guests.map (·.id)))).map fun g =>
    let x := s.guestRec g
    ⟨g, (x.map (·.epoch)).getD 0, s.coveWeight g / mib2, (x.map (·.pinQuota)).getD 0 / mib2, sum g⟩

/-- The account of a guest and epoch; a new one has no credit. -/
def Toll.account (t : Toll) (g e : Nat) : Account :=
  (t.accounts.find? fun a => a.guest = g ∧ a.epoch = e).getD ⟨g, e, 0, 0, List.replicate 11 0, 0, 0, 0, 0, false, true, 0, false⟩

/-- One rail of an interval (R718): what each guest of the frame is credited, and of that its dynamic part. -/
def closeRail (gs : List FrameGuest) (us r e : Nat) : List (Nat × Nat) :=
  let still := min e (idleMw r * us / 3600)
  let d := e - still
  let a := gs.map fun g => sumNat (((tollWeights.getD r []).zip g.counts).map fun (w, n) => w * n)
  let dyn := if 0 < sumNat a then tollSplit d a else gs.zipIdx.map fun (_, i) => if i = 0 then d else 0
  ((tollSplit still (gs.map fun g => g.cove + 4 * g.pin)).zip dyn).map fun (x, y) => (x + y, y)

/-- The interval's energy and weights go to the accounts (R718, R719). -/
def Toll.credit (t : Toll) (gs : List FrameGuest) (us : Nat) (energy : List Nat) : Toll :=
  let cols := (List.range 11).map fun r => closeRail gs us r (energy.getD r 0)
  let shares := gs.zipIdx.map fun (g, i) => (g, cols.map fun col => col.getD i (0, 0))
  let upd (acc : List Account) (x : FrameGuest × List (Nat × Nat)) : List Account :=
    let a := ({ t with accounts := acc } : Toll).account x.1.guest x.1.epoch
    upsert (fun (y : Account) => (y.guest, y.epoch)) { a with
      total := a.total + sumNat (x.2.map (·.1))
      dynamic := a.dynamic + sumNat (x.2.map (·.2))
      rails := (a.rails.zip x.2).map fun (n, p) => n + p.1
      capacity := a.capacity + x.1.cove * us
      pin := a.pin + x.1.pin * us
      present := true } acc
  { t with accounts := shares.foldl upd (t.accounts.map fun a => { a with present := false }) }

/-! ### Records (R720–R725) -/

/-- Places of the store, and those kept for records other than guests' (R724). -/
abbrev storePlaces : Nat := 2097152
abbrev keptPlaces : Nat := 32768

/-- Records that no ACK covers. -/
def Toll.held (t : Toll) : Nat := t.nextSeq - t.acked
def Toll.guestRoom (t : Toll) : Bool := decide (t.held < storePlaces - keptPlaces)
def Toll.room (t : Toll) : Bool := decide (t.held < storePlaces)

/-- The newest `n` of a list that grows at its end. -/
def newest {α : Type} (n : Nat) (l : List α) : List α := (l.reverse.take n).reverse

/-- Innkeeper takes a record from the mirror link (R731); a gap in SEQUENCE is a fault of the Tollhouse. -/
def State.mirrorRecord (s : State) (r : List Byte) : State :=
  if !s.inn.booted then s
  else
    let seq := fld r 8 8
    let ring := s.mirror.ring ++ [r]
    let gap := s.mirror.expected.any fun e => e ≠ seq
    let s := { s with mirror := { s.mirror with ring := newest 262144 ring, expected := some (seq + 1) } }
    if gap then s.report ⟨evFault, sevRecovered, 0xC, 0, 1, 0, 0, 0, 0⟩ else s

/-- The store takes a record, in place of the oldest where there is no place left; the record waits for a signature. -/
def Toll.put (t : Toll) (r : List Byte) : Toll :=
  { t with store := newest storePlaces (t.store ++ [r]), nextSeq := t.nextSeq + 1, last := r, unsigned := t.unsigned ++ [r] }

/-- Write a record (R721, R724): it is numbered and chained, goes into the store in place of an acknowledged one where there is no
place left, and then on the mirror link. `head` is bytes 2–7 and `body` bytes 16–111. -/
def State.tollWrite (s : State) (kind : Nat) (head body : List Byte) : State :=
  let t := s.toll
  let chain := if t.nextSeq = 0 then zeros 16 else leBytes 16 (Config.crypto t.last)
  let r := leBytes 1 kind ++ leBytes 1 1 ++ head ++ leBytes 8 t.nextSeq ++ (body ++ zeros 96).take 96 ++ chain
  { s with toll := t.put r }.mirrorRecord r

/-- TOLL_TIME now: the crystal has run on since the last interval's end by less than 15 ms (log entry 51). -/
def State.tollTime (s : State) : Nat := s.toll.time + s.nextFree % 15000

/-- An EVENT record (Table 19-7), where the store has room; without, the Tollhouse stops (R725). -/
def State.tollEvent (s : State) (event detail : Nat) : State :=
  if s.toll.room then
    s.drew.tollWrite 4 (leBytes 2 event ++ zeros 4) (leBytes 8 s.toll.frameTime ++ leBytes 8 s.tollTime ++ leBytes 8 detail)
  else { s with toll := { s.toll with stopped := true } }

/-- A SIGNATURE record (R723); after a seal break its SIGNATURE is zero (R728). -/
def State.tollSign (s : State) : State :=
  let t := s.toll
  if !t.room then { s with toll := { t with stopped := true } }
  else
    let head := leBytes 2 0 ++ leBytes 4 t.unsigned.length
    let first := leBytes 1 3 ++ leBytes 1 1 ++ head ++ leBytes 8 t.nextSeq
    let sig := if t.broken then zeros 96 else leBytes 96 (Config.crypto (t.unsigned.flatten ++ first))
    let s := s.tollWrite 3 head sig
    { s with toll := { s.toll with unsigned := [] } }

/-- FLAGS of a record (Table 19-5). -/
def Toll.flags (t : Toll) (carry last first : Bool) : Nat :=
  b2n first + 2 * b2n last + 4 * b2n t.gap + 8 * b2n carry + 16 * b2n t.broken + 32 * b2n t.estimated + 64 * b2n t.below

/-- MiB·s of a weight in 2 MiB·µs. -/
def mibSeconds (n : Nat) : Nat := 2 * n / 1000000

/-- The bytes 16–111 of a GUEST record (Table 19-6, R722). -/
def Account.body (a : Account) (start stop : Nat) : List Byte :=
  let group (l : List Nat) : Nat := sumNat (l.map fun r => a.rails.getD r 0) / 1000
  let energy := a.total / 1000
  leBytes 8 start ++ leBytes 8 stop ++ leBytes 8 energy ++ leBytes 8 (energy - a.written) ++ leBytes 8 (a.dynamic / 1000) ++
    leBytes 8 (mibSeconds a.capacity) ++ leBytes 8 (mibSeconds (a.capacity - a.capacityWas)) ++ leBytes 8 (mibSeconds a.pin) ++
    leBytes 8 (group [0, 1]) ++ leBytes 8 (group [2, 3]) ++ leBytes 8 (group [4, 5, 6]) ++ leBytes 8 (group [7, 8, 9, 10])

/-- The guest was credited energy or capacity since its last record. -/
def Account.credited (a : Account) : Bool := decide (0 < sumNat a.rails ∨ a.capacityWas < a.capacity)

def State.setAccount (s : State) (a : Account) : State :=
  { s with toll := { s.toll with accounts := upsert (fun (y : Account) => (y.guest, y.epoch)) a s.toll.accounts } }

/-- The GUEST record of an account at the end of a period, or, without a place, STORE_FULL once and a period carried (R720, R725). -/
def State.guestRecord (s : State) (a : Account) (stop : Nat) : State :=
  if !a.credited then s
  else if s.toll.guestRoom then
    let t := s.toll
    let s := s.tollWrite 1 (leBytes 2 a.guest ++ leBytes 2 a.epoch ++ leBytes 2 (t.flags a.carried (!a.present) (!a.recorded)))
      (a.body (if a.carried then a.start else t.began) stop)
    let s := s.setAccount { a with
      written := a.total / 1000, dynamic := 0, rails := List.replicate 11 0, capacityWas := a.capacity, pin := 0
      recorded := true, carried := false }
    { s with toll := { s.toll with guestsStopped := false } }
  else
    let s := if s.toll.guestsStopped then s else
      let s := s.tollEvent 5 0
      { s with toll := { s.toll with guestsStopped := true } }
    s.setAccount { a with carried := true, start := if a.carried then a.start else s.toll.began }

/-- The SHORE record (Table 19-7); without a place its period is carried (R725). -/
def State.shoreRecord (s : State) (stop : Nat) : State :=
  let t := s.toll
  if !t.room then { s with toll := { t with stopped := true, shoreSince := some (t.shoreSince.getD t.began) } }
  else
    let body := leBytes 8 (t.shoreSince.getD t.began) ++ leBytes 8 stop ++ (t.rails.map fun e => leBytes 6 (e / 1000)).flatten ++
      leBytes 6 (t.unattributed / 1000) ++ leBytes 8 (t.shoreTotal / 1000)
    let s := s.tollWrite 2 (leBytes 2 t.shore ++ zeros 2 ++ leBytes 2 (t.flags t.shoreSince.isSome false false)) body
    { s with toll := { s.toll with rails := List.replicate 11 0, unattributed := 0, shoreSince := none } }

/-- A period that ended is written: its guest records in ascending order, the shore record and the signature (R720). A guest that has
left has no account after its last record. -/
def State.closePeriod (s : State) (stop : Nat) : State :=
  let order := sortNat (s.toll.accounts.map fun a => a.guest * 65536 + a.epoch)
  let s := order.foldl (fun s k => s.guestRecord (s.toll.account (k / 65536) (k % 65536)) stop) s
  let s := (s.shoreRecord stop).tollSign
  { s with toll := { s.toll with
    accounts := s.toll.accounts.filter fun a => a.present || a.credited
    began := stop, periodTime := 0, gap := false, estimated := false, below := false, ended := none } }

/-- A period that is over is written before anything of the next is measured. -/
def State.settlePeriod (s : State) : State :=
  match s.toll.ended with
  | some stop => s.closePeriod stop
  | none => s

/-- The energy of a closed interval enters the period's sums. -/
def Toll.measure (t : Toll) (us : Nat) (energy : List Nat) (below : Bool) : Toll :=
  { t with
    rails := t.rails.zipIdx.map fun (e, r) => e + energy.getD r 0
    shoreTotal := t.shoreTotal + sumNat (energy.take 11)
    time := t.time + us, periodTime := t.periodTime + us, below := t.below || below }

/-- The logic dies send activity frames (Table 21-9: from STRICT on). -/
def State.sendsFrames (s : State) : Bool := s.power.state == .strict || s.power.state == .service || s.power.state == .draining

/-- `ACTIVITY_FRAME` (R714–R720): a valid frame closes the interval of `us` crystal µs, in which the rails took `energy` nWh and the guests
had `counts`; the frame's guests and weights are the shore's own. A frame at a multiple of 60 s, or one that does not follow the last by
10 ms, ends the period. -/
def execActivityFrame (crcOk : Bool) (number us : Nat) (energy : List Nat) (counts : List (Nat × List Nat)) (below : Bool) (s : State) :
    Host.Outcome State Fault Refusal :=
  .next (if !s.toll.powered ∨ !s.sendsFrames ∨ !crcOk ∨ us > 15000 ∨ s.toll.frame.any (fun n => number ≤ n) then s
    else
      let s := s.settlePeriod
      let s := if s.toll.lost then s.tollEvent 4 0 else s
      let stamp := s.now / 80000000 * 80000000
      let t := (s.toll.measure us energy below).credit (s.frameGuests counts) us energy
      let first := t.frame.isNone
      let beyond := decide (stamp % 480000000000 = 0 ∨ (!first ∧ stamp ≠ t.frameTime + 80000000))
      { s with toll := { t with
        frame := some number, frameTime := stamp, shore := s.self, lost := false
        began := if first then stamp - 8000 * t.periodTime else t.began
        estimated := t.estimated || first
        ended := if beyond then some stamp else none } })

/-- `INTERVAL_TIMEOUT` (R717): 15 ms of crystal time without a valid frame; the energy goes to no guest, and the period has GAP. -/
def execIntervalTimeout (energy : List Nat) (below : Bool) (s : State) : Host.Outcome State Fault Refusal :=
  .next (if !s.toll.powered then s
    else
      let s := s.settlePeriod
      let s := if s.toll.lost then s else s.tollEvent 3 0
      let t := s.toll.measure 15000 energy below
      { s with toll := { t with unattributed := t.unattributed + sumNat (energy.take 11), gap := true, lost := true } })

/-- `PERIOD_END` (R720): the records of a period that is over are written; without frames a period is over after 60 s of crystal time,
and its times are estimated. -/
def execPeriodEnd (s : State) : Host.Outcome State Fault Refusal :=
  .next (if !s.toll.powered then s
    else match s.toll.ended with
    | some stop => s.closePeriod stop
    | none =>
      if s.toll.lost ∧ 60000000 ≤ s.toll.periodTime then
        let t := s.toll
        ({ s with toll := { t with estimated := true } }.closePeriod (t.began + 8000 * t.periodTime))
      else s)

/-! ### Seal and supply (R710, R726–R728) -/

/-- The seal breaks (R728). -/
def State.breakSeal (s : State) (cause : Nat) : State :=
  if s.toll.broken ∨ cause = 0 ∨ cause > 6 then s
  else
    let s := (s.tollEvent 7 cause).tollSign
    { s with toll := { s.toll with broken := true } }

/-- `SEAL_BREAK` (R727, R728). -/
def execSealBreak (cause : Nat) (s : State) : Host.Outcome State Fault Refusal :=
  .next (if s.toll.powered then s.breakSeal cause else s)

/-- `VTOLL_LOSS` (R726): the accumulators are kept, and POWER_DOWN is written. -/
def execVtollLoss (s : State) : Host.Outcome State Fault Refusal :=
  .next (if !s.toll.powered then s
    else
      let s := s.tollEvent 2 0
      { s with toll := { s.toll with powered := false }, power := { s.power with rails := s.power.rails.filter (· ≠ 10) } })

/-- `TOLLHOUSE_POWER_UP` (R710, R726, R728): a seal cause that is present breaks the seal first; then POWER_UP with the last TIDETIME. -/
def execTollhousePowerUp (cause : Nat) (s : State) : Host.Outcome State Fault Refusal :=
  .next (if s.toll.powered then s
    else
      let s := { s with toll := { s.toll with powered := true, baud := 0 }, power := { s.power with rails := setAdd 10 s.power.rails } }
      let s := s.breakSeal cause
      s.tollEvent 1 s.toll.frameTime)

/-! ### The mirror (R731, R732) -/

/-- The STATUS payload (Table 19-9). -/
def State.tollStatus (s : State) : List Byte :=
  let t := s.toll
  leBytes 1 1 ++ leBytes 1 (b2n t.broken) ++ leBytes 1 (b2n t.collector.isSome) ++ zeros 5 ++ serial ++ leBytes 8 t.acked ++
    leBytes 8 t.nextSeq ++ leBytes 4 (storePlaces - t.held) ++ zeros 4 ++ leBytes 8 s.tollTime ++ leBytes 8 t.frameTime

/-- `TOLL_STATUS_MIRROR` (R731): every 1 s a STATUS payload comes on the mirror link. -/
def execTollStatusMirror (s : State) : Host.Outcome State Fault Refusal :=
  .next (if !s.toll.powered ∨ !s.inn.booted then s
    else ({ s with mirror := { s.mirror with status := s.tollStatus, statusAt := s.now, late := false } }).drew)

/-- `TOLL_MIRROR_TIMEOUT` (R731): no STATUS for 3 s. -/
def execTollMirrorTimeout (s : State) : Host.Outcome State Fault Refusal :=
  .next (if s.mirror.late ∨ !s.inn.booted ∨ s.now < s.mirror.statusAt + 24000000000 then s
    else ({ s with mirror := { s.mirror with late := true } }).report ⟨evFault, sevRecovered, 0xC, 0, 1, 0, 0, 0, 0⟩)

/-- OLDEST: the SEQUENCE of the ring's first record; of the next one where it is empty. -/
def TollMirror.first (m : TollMirror) : Nat :=
  match m.ring with
  | r :: _ => fld r 8 8
  | [] => m.expected.getD 0

/-- TOLL_READ (0x0C05, R731, R732). -/
def opTollRead : RelasOp where
  len := lenIs 32
  fields := fun c s => firstBad [(decide (c.f 16 8 < s.mirror.first), 16), (decide (c.f 24 2 = 0 ∨ c.f 24 2 > 29), 24), (nonzero c 26 6, 26)]
  effect := fun c _ s =>
    let m := s.mirror
    if c.f 16 8 = 2 ^ 64 - 1 then (s, .read (leBytes 8 (m.expected.getD 0) ++ leBytes 8 m.first ++ m.status))
    else
      let rs := (m.ring.filter fun r => decide (c.f 16 8 ≤ fld r 8 8)).take (c.f 24 2)
      let next := match rs.getLast? with
        | some r => fld r 8 8 + 1
        | none => c.f 16 8
      (s, .read (leBytes 8 next ++ leBytes 8 m.first ++ rs.flatten))

/-! ### The port (R729, R730) -/

/-- One bit, and one byte, of CRC-16/CCITT-FALSE. -/
def crc16Bit (c : Nat) : Nat := if c ≥ 0x8000 then (2 * c % 65536) ^^^ 0x1021 else 2 * c
def crc16Byte (c : Nat) (b : Byte) : Nat :=
  let x := c ^^^ (b.toNat * 256)
  crc16Bit (crc16Bit (crc16Bit (crc16Bit (crc16Bit (crc16Bit (crc16Bit (crc16Bit x)))))))
def crc16 (l : List Byte) : Nat := l.foldl crc16Byte 0xFFFF

/-- A response frame (Table 19-8). -/
def portResponse (cmd status : Nat) (payload : List Byte) : List Byte :=
  let b := leBytes 1 cmd ++ leBytes 1 status ++ leBytes 2 payload.length ++ payload
  leBytes 1 0x5A ++ b ++ leBytes 2 (crc16 b)

/-- What is wrong with a request frame: its CRC (1), its command (2) or its length (3). -/
def portBad (frame : List Byte) : Option Nat :=
  let n := frame.length
  if n < 6 ∨ fld frame (n - 2) 2 ≠ crc16 (slice frame 1 (n - 3)) then some 1
  else if fld frame 1 1 = 0 ∨ fld frame 1 1 > 8 then some 2
  else if fld frame 2 2 ≠ n - 6 ∨ n - 6 > 2048 then some 3
  else none

/-- A request at the port (R729): the Tollhouse answers it; `len` is the payload that the command takes, `f` its effect with status and
response payload. A frame of another command is that command's row's. -/
def State.port' (s : State) (frame : List Byte) (cmd len : Nat) (f : List Byte → State → State × Nat × List Byte) : State :=
  if !s.toll.powered ∨ fld frame 0 1 ≠ 0xA5 then s
  else match portBad frame with
  | some e => s.emit (.toll (portResponse (fld frame 1 1) e []))
  | none =>
    if fld frame 1 1 ≠ cmd then s
    else if fld frame 2 2 ≠ len then s.emit (.toll (portResponse cmd 3 []))
    else
      let (s, status, payload) := f (slice frame 4 len) s
      s.emit (.toll (portResponse cmd status payload))

/-- `TOLL_STATUS` (CMD 0x01). -/
def execTollStatus (frame : List Byte) (s : State) : Host.Outcome State Fault Refusal :=
  .next (s.port' frame 1 0 fun _ s => (s.drew, 0, s.tollStatus))

/-- `TOLL_PORT_READ` (CMD 0x02, R730): a record that the store no longer holds is BAD_FIELD. -/
def execTollPortRead (frame : List Byte) (s : State) : Host.Outcome State Fault Refusal :=
  .next (s.port' frame 2 9 fun p s =>
    let first := s.toll.nextSeq - s.toll.store.length
    if fld p 0 8 < first ∨ fld p 8 1 = 0 ∨ fld p 8 1 > 16 then (s, 3, [])
    else (s, 0, ((s.toll.store.drop (fld p 0 8 - first)).take (fld p 8 1)).flatten))

/-- `TOLL_ACK` (CMD 0x03, R724, R725, R730): a verified ACK frees the places of the records it covers. -/
def execTollAck (frame : List Byte) (s : State) : Host.Outcome State Fault Refusal :=
  .next (s.port' frame 3 104 fun p s =>
    let upto := fld p 0 8
    let signature := s.toll.store.any fun r => fld r 8 8 = upto ∧ fld r 0 1 = 3
    let ok := match s.toll.collector with
      | some key => signature && Config.verifies (key ++ [0x41, 0x43, 0x4B] ++ serial ++ slice p 0 8 ++ slice p 8 96)
      | none => false
    if !ok then (s, 4, [])
    else
      let s := { s with toll := { s.toll with acked := max s.toll.acked (upto + 1) } }
      let s := if s.toll.stopped ∧ s.toll.room then
          let s := s.tollEvent 6 0
          { s with toll := { s.toll with stopped := false } }
        else s
      (s.tollEvent 9 upto, 0, []))

/-- A chunk of the certificate chain (R723), a fact of the unit. Log entry 10. -/
def tollCert (chunk : Nat) : List Byte :=
  let n := Config.unit 0x30100
  (List.range (min 240 (n - 240 * chunk))).map fun i => BitVec.ofNat 8 (Config.unit (0x31000 + 240 * chunk + i))

/-- `TOLL_CERT` (CMD 0x04). -/
def execTollCert (frame : List Byte) (s : State) : Host.Outcome State Fault Refusal :=
  .next (s.port' frame 4 1 fun p s => (s, 0, tollCert (fld p 0 1)))

/-- `TOLL_INSTANT` (CMD 0x05, R713): each rail's mV, mA and mW as measured, free values. -/
def execTollInstant (frame : List Byte) (s : State) : Host.Outcome State Fault Refusal :=
  .next (s.port' frame 5 0 fun _ s => (s.drewN 33, 0, ((List.range 33).map fun i => leBytes 4 (s.freeAt i)).flatten))

/-- `TOLL_ATTEST` (CMD 0x06): STATUS, the nonce, and a signature over both; once the key is erased (R728) its bytes are free (log entry 51). -/
def execTollAttest (frame : List Byte) (s : State) : Host.Outcome State Fault Refusal :=
  .next (s.port' frame 6 32 fun p s =>
    let b := s.tollStatus ++ p
    let sig := if s.toll.broken then leBytes 96 (s.freeAt 1) else leBytes 96 (Config.crypto b)
    (s.drewN 2, 0, b ++ sig))

/-- `COMMISSION` (CMD 0x07, R730): the collector key's digest goes into fuses, once. -/
def execCommission (frame : List Byte) (s : State) : Host.Outcome State Fault Refusal :=
  .next (s.port' frame 7 96 fun p s =>
    if s.toll.collector.isSome then (s, 4, [])
    else (({ s with toll := { s.toll with collector := some (leBytes 48 (Config.crypto p)) } }).tollEvent 8 0, 0, []))

/-- `SET_BAUD` (CMD 0x08, R729): the UART's rate after the response. -/
def execSetBaud (frame : List Byte) (s : State) : Host.Outcome State Fault Refusal :=
  .next (s.port' frame 8 1 fun p s =>
    if fld p 0 1 > 2 then (s, 3, []) else ({ s with toll := { s.toll with baud := fld p 0 1 } }, 0, []))

end Sys2Proof.Machine
end

