-- ==== Sys2Proof/Machine/Wayfarer.lean ====
section
/-! DEFINITION. The Wayfarer monitor (R758, R759, Table 20-9): command lines, its gates, and what each command answers. The layout of the
answer's lines is the model's (log entry 52). -/

namespace Sys2Proof.Machine

/-! ### Lines and numbers -/

/-- ASCII. -/
def chars (l : List Char) : List Byte := l.map fun c => BitVec.ofNat 8 c.toNat

/-- A letter in capitals (R758). -/
def upperByte (b : Byte) : Byte := if 0x61 ≤ b.toNat ∧ b.toNat ≤ 0x7A then b - 0x20 else b

/-- The words of a line, between spaces. -/
def wordsOf : List Byte → List (List Byte)
  | [] => []
  | b :: l =>
    if b = 0x20 then [] :: wordsOf l
    else match wordsOf l, l with
    | w :: ws, c :: _ => if c = 0x20 then [b] :: ws else (b :: w) :: ws
    | ws, _ => [b] :: ws

/-- The line's words in capitals, without empty ones. -/
def lineWords (line : List Byte) : List (List Byte) := (wordsOf (line.map upperByte)).filter fun w => !w.isEmpty

/-- A digit of a base up to 16. -/
def digitOf (base : Nat) (b : Byte) : Option Nat :=
  let n := b.toNat
  let v := if 0x30 ≤ n ∧ n ≤ 0x39 then n - 0x30 else if 0x41 ≤ n ∧ n ≤ 0x46 then n - 55 else 16
  if v < base then some v else none

/-- Digits of a base as a number. -/
def digits (base : Nat) (l : List Byte) : Option Nat :=
  if l.isEmpty then none
  else l.foldl (fun a b => match a, digitOf base b with
    | some x, some v => some (x * base + v)
    | _, _ => none) (some 0)

/-- A number in decimal, or in hexadecimal after 0x (R9). -/
def numberOf (w : List Byte) : Option Nat :=
  match w with
  | z :: x :: l => if z = 0x30 ∧ x = 0x58 then digits 16 l else digits 10 w
  | _ => digits 10 w

/-- All the words as numbers. -/
def numbersOf : List (List Byte) → Option (List Nat)
  | [] => some []
  | w :: l => match numberOf w, numbersOf l with
    | some n, some ns => some (n :: ns)
    | _, _ => none

/-- `k` hexadecimal digits of a number. -/
def hexOf : Nat → Nat → List Byte
  | 0, _ => []
  | k + 1, n => hexOf k (n / 16) ++ [BitVec.ofNat 8 (if n % 16 < 10 then 0x30 + n % 16 else 87 + n % 16)]

/-- Bytes in hexadecimal. -/
def hexBytes (l : List Byte) : List Byte := (l.map fun b => hexOf 2 b.toNat).flatten

/-- A line of fields, each a number of hexadecimal digits. -/
def fieldsLine (l : List (Nat × Nat)) : List Byte :=
  (l.zipIdx.map fun (p : (Nat × Nat) × Nat) => (if p.2 = 0 then [] else [(0x20 : Byte)]) ++ hexOf p.1.1 p.1.2).flatten

def crLf : List Byte := [0x0D, 0x0A]

/-- A response (R758): its lines, OK or ERR and a code, and the prompt. -/
def wayfarerText (lines : List (List Byte)) (err : Nat) : List Byte :=
  (lines.map fun l => l ++ crLf).flatten ++
    (if err = 0 then chars ['O', 'K'] else chars ['E', 'R', 'R', ' '] ++ hexOf 1 err) ++ crLf ++ chars ['w', 'f', '>', ' ']

/-! ### Gates -/

def nameHelp : List Byte := chars ['H', 'E', 'L', 'P']
def nameVersion : List Byte := chars ['V', 'E', 'R', 'S', 'I', 'O', 'N']
def nameState : List Byte := chars ['S', 'T', 'A', 'T', 'E']
def nameTime : List Byte := chars ['T', 'I', 'M', 'E']
def nameBoot : List Byte := chars ['B', 'O', 'O', 'T']
def nameBaud : List Byte := chars ['B', 'A', 'U', 'D']
def nameCount : List Byte := chars ['C', 'O', 'U', 'N', 'T']
def nameEvents : List Byte := chars ['E', 'V', 'E', 'N', 'T', 'S']
def nameWeather : List Byte := chars ['W', 'E', 'A', 'T', 'H', 'E', 'R']
def nameLinks : List Byte := chars ['L', 'I', 'N', 'K', 'S']
def nameReg : List Byte := chars ['R', 'E', 'G']
def nameTrace : List Byte := chars ['T', 'R', 'A', 'C', 'E']

/-- The commands of Table 20-9. -/
def wayfarerNames : List (List Byte) :=
  [nameHelp, nameVersion, nameState, nameTime, nameBoot, nameBaud, nameCount, nameEvents, nameWeather, nameLinks, nameReg, nameTrace]

/-- The management domain runs (Table 21-2): VMGT and VAUX are good and the reset input is not held. -/
def State.wayfarerRuns (s : State) : Bool := s.power.rails.contains 8 && s.power.rails.contains 9 && !s.power.resetHeld

/-- Innkeeper runs. -/
def State.innRuns (s : State) : Bool := s.inn.booted && !s.inn.fw.refusing

/-- Serve a line (R758, R759): an unknown command or a line longer than 128 characters is ERR 1; a command that needs debug bits is
ERR 3 without them, one that needs Innkeeper ERR 4; arguments that `f` does not take are ERR 2. A line of another command is that
command's row's. -/
def State.wayfarer (s : State) (line name : List Byte) (mask : Nat) (needsInn : Bool) (f : List Nat → State → Option (State × List (List Byte))) :
    State :=
  if !s.wayfarerRuns then s
  else match lineWords line with
  | [] => s.emit (.uart (wayfarerText [] 1))
  | w :: args =>
    if line.length > 128 ∨ !wayfarerNames.contains w then s.emit (.uart (wayfarerText [] 1))
    else if w ≠ name then s
    else if s.debug &&& mask ≠ mask then s.emit (.uart (wayfarerText [] 3))
    else if needsInn ∧ !s.innRuns then s.emit (.uart (wayfarerText [] 4))
    else match numbersOf args with
    | none => s.emit (.uart (wayfarerText [] 2))
    | some ns => match f ns s with
      | none => s.emit (.uart (wayfarerText [] 2))
      | some (s, lines) => s.emit (.uart (wayfarerText lines 0))

/-! ### Commands -/

/-- `WAYFARER_HELP`: the command list. -/
def execWayfarerHelp (line : List Byte) (s : State) : Host.Outcome State Fault Refusal :=
  .next (s.wayfarer line nameHelp 0 false fun ns s => if ns = [] then some (s, wayfarerNames) else none)

/-- `WAYFARER_VERSION`: silicon revision, mask ROM version, running release, serial number. -/
def execWayfarerVersion (line : List Byte) (s : State) : Host.Outcome State Fault Refusal :=
  .next (s.wayfarer line nameVersion 0 false fun ns s =>
    if ns = [] then some (s, [fieldsLine [(2, 0xA1)], fieldsLine [(4, Config.unit 9)], fieldsLine [(4, (s.inn.fw.slot s.inn.fw.running).release)],
      hexBytes serial]) else none)

/-- `WAYFARER_STATE`: the device state and the cause of the last transition; in OFF also the rails that are not good. -/
def execWayfarerState (line : List Byte) (s : State) : Host.Outcome State Fault Refusal :=
  .next (s.wayfarer line nameState 0 false fun ns s =>
    let missing := if s.power.state = .off then (List.range 10).filter fun r => !s.power.rails.contains r else []
    if ns = [] then some (s, fieldsLine [(2, s.power.state.code), (2, s.power.cause)] :: missing.map fun r => fieldsLine [(2, r)]) else none)

/-- `WAYFARER_TIME`: tidetime, headland, class, hops, offset in ps (with its sign), locked. -/
def execWayfarerTime (line : List Byte) (s : State) : Host.Outcome State Fault Refusal :=
  .next (s.wayfarer line nameTime 0 false fun ns s =>
    let ps := s.clock.offset.natAbs * 125 / 256
    let sign : Byte := if s.clock.offset < 0 then 0x2D else 0x2B
    if ns = [] then some (s, [fieldsLine [(16, s.now), (4, s.headland.2), (1, s.headland.1), (2, s.hopsOut)], sign :: hexOf 16 ps,
      fieldsLine [(1, b2n s.clock.locked)]]) else none)

/-- `WAYFARER_BOOT`: the images that failed in this power-up, by slot (R696). -/
def execWayfarerBoot (line : List Byte) (s : State) : Host.Outcome State Fault Refusal :=
  .next (s.wayfarer line nameBoot 0 false fun ns s => if ns = [] then some (s, s.obs.boot.map fun k => fieldsLine [(2, k)]) else none)

/-- The rates of BAUD (Table 20-9). -/
def baudRates : List Nat := [115200, 230400, 460800, 921600, 1500000, 3000000]

/-- `WAYFARER_BAUD`: the rate changes after the OK line. -/
def execWayfarerBaud (line : List Byte) (s : State) : Host.Outcome State Fault Refusal :=
  .next (s.wayfarer line nameBaud 0 false fun ns s => match ns with
    | [n] => if baudRates.contains n then some ({ s with obs := { s.obs with baud := n } }, []) else none
    | _ => none)

/-- `WAYFARER_COUNT`: the counters of a group and instance, one a line. -/
def execWayfarerCount (line : List Byte) (s : State) : Host.Outcome State Fault Refusal :=
  .next (s.wayfarer line nameCount 1 true fun ns s => match ns with
    | [g, i] => if i > 65535 then none else (groupSize g i).map fun n =>
        (s, (List.range n).map fun k => fieldsLine [(16, s.counterValue s.deepFigure g i k)])
    | _ => none)

/-- `WAYFARER_EVENTS`: the last 1 to 256 events in hexadecimal. -/
def execWayfarerEvents (line : List Byte) (s : State) : Host.Outcome State Fault Refusal :=
  .next (s.wayfarer line nameEvents 1 true fun ns s => match ns with
    | [n] => if n = 0 ∨ n > 256 then none
        else some (s, (s.obs.events.drop (s.obs.events.length - n)).map fun e => hexBytes e.bytes)
    | _ => none)

/-- `WAYFARER_WEATHER`: score and r1 to r4 of a unit. -/
def execWayfarerWeather (line : List Byte) (s : State) : Host.Outcome State Fault Refusal :=
  .next (s.wayfarer line nameWeather 1 true fun ns s => match ns with
    | [c, u] => if c = 0 ∨ c > 0xC ∨ unitBad c u then none
        else some (s, fieldsLine [(4, s.score c u)] ::
          (s.ratios c u ++ [Frac.mk' (s.marginOf c u) 1000]).map fun x => fieldsLine [(8, fracFp32 x)])
    | _ => none)

/-- `WAYFARER_LINKS`: state, data lanes, spare and BER of each link; the BER is what the device measures, a free value. -/
def execWayfarerLinks (line : List Byte) (s : State) : Host.Outcome State Fault Refusal :=
  .next (s.wayfarer line nameLinks 1 false fun ns s =>
    if ns = [] then some (s.drewN s.fabric.links.length, s.fabric.links.zipIdx.map fun (l, i) =>
      fieldsLine [(2, l.id), (1, l.state.code), (1, l.laneMap.length), (1, b2n l.spare.isSome), (8, s.freeAt i)]) else none)

/-- `WAYFARER_REG`: the 8 B at an offset of BAR0 or BAR2; nothing changes. Log entry 52. -/
def execWayfarerReg (line : List Byte) (s : State) : Host.Outcome State Fault Refusal :=
  .next (s.wayfarer line nameReg 1 false fun ns s => match ns with
    | [b, o] => if (b ≠ 0 ∧ b ≠ 2) ∨ o % 8 ≠ 0 ∨ o ≥ (if b = 0 then 2 ^ 20 else 2 ^ 22) then none
        else some (s, [fieldsLine [(16, s.regValue .wayfarer 0 (b / 2) o)]])
    | _ => none)

/-- `WAYFARER_TRACE`: up to 4,096 bytes of the trace buffer. -/
def execWayfarerTrace (line : List Byte) (s : State) : Host.Outcome State Fault Refusal :=
  .next (s.wayfarer line nameTrace 5 true fun ns s => match ns with
    | [o, n] => if n > 4096 ∨ o + n > mib2 then none
        else
          let (s, _, bytes) := s.traceBytes n
          some (s, [hexBytes bytes])
    | _ => none)

end Sys2Proof.Machine
end

