-- ==== Sys2Proof/Machine/Exec.lean ====
section
/-! DEFINITION. The Relas commands by opcode, and what each command's row does with it: the operations of the chapters served as R122 to
R136 state; the fetch and translation of descriptors, the ends of bookings, and the checks and turns of configuration sets. -/

namespace Sys2Proof.Machine

/-! ### The operations by opcode (Table 03-10) -/

/-- Family 0x01. -/
def relasGuest (n : Nat) : Option RelasOp :=
  match n with
  | 1 => some opGuestCreate
  | 2 => some opGuestDestroy
  | 3 => some opGuestSet
  | 4 => some opGuestSync
  | 5 => some opGuestQuery
  | _ => none

/-- Family 0x02. -/
def relasCove (n : Nat) : Option RelasOp :=
  match n with
  | 1 => some opCoveCreate
  | 2 => some opCoveDestroy
  | 3 => some opCoveSet
  | 4 => some opCoveGrantAll
  | 5 => some opCoveHandover
  | 6 => some opCoveQuery
  | _ => none

/-- Family 0x03. -/
def relasPlace (n : Nat) : Option RelasOp :=
  match n with
  | 1 => some opPlaceSet
  | 2 => some opPlaceQuery
  | 3 => some opPullAdd
  | 4 => some opPullRemove
  | 5 => some opHarbourAreas
  | _ => none

/-- Family 0x04. -/
def relasQueue (n : Nat) : Option RelasOp :=
  match n with
  | 1 => some opQueueCreate
  | 2 => some opQueueDestroy
  | 3 => some opQueueSet
  | 4 => some opQueueQuery
  | _ => none

/-- Family 0x05. -/
def relasTables (n : Nat) : Option RelasOp :=
  match n with
  | 1 => some opTableCreate
  | 2 => some opTableDestroy
  | 3 => some opTableQuery
  | _ => none

/-- Family 0x06. -/
def relasIndices (n : Nat) : Option RelasOp :=
  match n with
  | 1 => some opIndexCreate
  | 2 => some opIndexDestroy
  | 3 => some opIndexQuery
  | _ => none

/-- Family 0x07. -/
def relasKv (n : Nat) : Option RelasOp :=
  match n with
  | 1 => some opKvsetCreate
  | 2 => some opKvsetDestroy
  | 3 => some opKvsetQuery
  | _ => none

/-- Family 0x08. -/
def relasBollard (n : Nat) : Option RelasOp :=
  match n with
  | 1 => some opBollardAlloc
  | 2 => some opBollardFree
  | 3 => some opBollardSignalCmd
  | 4 => some opBollardWaitCmd
  | 5 => some opBollardTryWait
  | _ => none

/-- Family 0x09. -/
def relasFabric (n : Nat) : Option RelasOp :=
  match n with
  | 1 => some opBundleSet
  | 2 => some opBundleOpen
  | 3 => some opLinkQuery
  | 4 => some opLinkRecal
  | 5 => some opFabricSet
  | _ => none

/-- Family 0x0A. -/
def relasFault (n : Nat) : Option RelasOp :=
  match n with
  | 1 => some opFaultRead
  | 2 => some opUnitRetire
  | 3 => some opWeatherQuery
  | 4 => some opLogbookRead
  | 5 => some opQuarantineRelease
  | _ => none

/-- Family 0x0B. -/
def relasTrust (n : Nat) : Option RelasOp :=
  match n with
  | 1 => some opMailboxBind
  | 2 => some opKeySlotLoad
  | 3 => some opKeySlotClear
  | 4 => some opDebugUnlock
  | _ => none

/-- Family 0x0C. -/
def relasObserve (n : Nat) : Option RelasOp :=
  match n with
  | 1 => some opTicketStatus
  | 2 => some (opCounterRead State.deepFigure)
  | 3 => some opEventRing
  | 4 => some opTraceSet
  | 5 => some opTollRead
  | _ => none

/-- Family 0x0E. -/
def relasPower (n : Nat) : Option RelasOp :=
  match n with
  | 1 => some opPowerCapSet
  | 2 => some opThermalQuery
  | 3 => some opStateSet
  | _ => none

/-- Family 0x0F. -/
def relasFirmware (n : Nat) : Option RelasOp :=
  match n with
  | 1 => some opFwWrite
  | 2 => some opFwVerify
  | 3 => some opFwActivate
  | 4 => some opFwQuery
  | _ => none

/-- Every operation but the staging commands: those that a set may hold (Table 03-10). -/
def relasTable (op : Nat) : Option RelasOp :=
  match op / 256 with
  | 1 => relasGuest (op % 256)
  | 2 => relasCove (op % 256)
  | 3 => relasPlace (op % 256)
  | 4 => relasQueue (op % 256)
  | 5 => relasTables (op % 256)
  | 6 => relasIndices (op % 256)
  | 7 => relasKv (op % 256)
  | 8 => relasBollard (op % 256)
  | 9 => relasFabric (op % 256)
  | 10 => relasFault (op % 256)
  | 11 => relasTrust (op % 256)
  | 12 => relasObserve (op % 256)
  | 14 => relasPower (op % 256)
  | 15 => relasFirmware (op % 256)
  | _ => none

/-- The staging commands (Table 03-11). -/
def relasConfig (n : Nat) : Option RelasOp :=
  match n with
  | 1 => some opConfigOpen
  | 2 => some opConfigDiscard
  | 3 => some (opConfigCheck relasTable)
  | 4 => some (opConfigTurn relasTable)
  | 5 => some opConfigCancel
  | 6 => some opConfigQuery
  | _ => none

/-- Every operation. A command of another shore has the operation of R114 or R155 (log entry 12). -/
def relasOpOf (c : RelasCmd) : Option RelasOp :=
  match c.chan with
  | .shore _ => match c.opcode with
    | 0x0303 => some opPullHold
    | 0x0503 => some (opShoreQuery 0x0501 fun s id => s.tables.list.any fun (t : Table) => t.id = id ∧ !t.dying)
    | 0x0603 => some (opShoreQuery 0x0601 fun s id => s.indices.list.any fun (x : Index) => x.id = id ∧ !x.dying)
    | op => relasTable op
  | _ => if c.opcode / 256 = 0x0D then relasConfig (c.opcode % 256) else relasTable c.opcode

/-! ### Serving a command (R122–R136) -/

/-- The command names a cove or a set whose earlier command is still under way: Innkeeper takes it up after that one (R136). -/
def State.serial (s : State) (c : RelasCmd) : Bool :=
  let setOf (x : RelasCmd) : Option Nat := if x.stage then some x.setId else if x.opcode / 256 = 0x0D ∧ x.opcode ≠ 0x0D01 then some (x.f 16 1) else none
  (c.opcode / 256 == 0x02 && s.store.invals.any fun x => x.cove == c.f 16 2) ||
    ((setOf c).isSome && s.inn.checks.any fun x => setOf x.cmd == setOf c)

/-- An opcode without a row has no operation of its own; it is answered BAD_OPCODE (R150). -/
def opUnknown : RelasOp where
  len := fun _ => none
  effect := fun _ _ s => (s, .read [])

/-- A delivered command is served; a change of coves reaches the protection set (R662). -/
def State.serve (s : State) (c : RelasCmd) : State :=
  if s.serial c then s
  else
    let s' := relas relasTable ((relasOpOf c).getD opUnknown) c s
    if c.opcode / 256 = 0x02 then s.replicateChanges s' else s'

/-- The row of an opcode serves its commands, staged or not, and any command whose opcode has no row. -/
def State.serveAs (s : State) (op : Nat) (c : RelasCmd) : State :=
  if (catRow c.opcode).isSome && c.opcode != op then s else s.serve c

/-- As `serveAs`, for an opcode with two rows, told apart by byte 16: the second row has 1 there. -/
def State.servePart (s : State) (op : Nat) (second : Bool) (c : RelasCmd) : State :=
  if (catRow c.opcode).isSome && ((c.f 16 1 == 1) != second) then s else s.serveAs op c

/-! ### One meaning per command -/

/-- `GUEST_CREATE` (R141). -/
def execGuestCreate (c : RelasCmd) (s : State) : Host.Outcome State Fault Refusal := .next (s.serveAs 0x0101 c)
/-- `GUEST_DESTROY` (R142). -/
def execGuestDestroy (c : RelasCmd) (s : State) : Host.Outcome State Fault Refusal := .next (s.serveAs 0x0102 c)
/-- `GUEST_SET` (R143). -/
def execGuestSet (c : RelasCmd) (s : State) : Host.Outcome State Fault Refusal := .next (s.serveAs 0x0103 c)
/-- `GUEST_SYNC_XLATE` (R76). -/
def execGuestSyncXlate (c : RelasCmd) (s : State) : Host.Outcome State Fault Refusal := .next (s.serveAs 0x0104 c)
/-- `GUEST_QUERY` (R150). -/
def execGuestQuery (c : RelasCmd) (s : State) : Host.Outcome State Fault Refusal := .next (s.serveAs 0x0105 c)
/-- `COVE_CREATE` (R144). -/
def execCoveCreate (c : RelasCmd) (s : State) : Host.Outcome State Fault Refusal := .next (s.serveAs 0x0201 c)
/-- `COVE_DESTROY` (R145). -/
def execCoveDestroy (c : RelasCmd) (s : State) : Host.Outcome State Fault Refusal := .next (s.serveAs 0x0202 c)
/-- `COVE_SET` (R146). -/
def execCoveSet (c : RelasCmd) (s : State) : Host.Outcome State Fault Refusal := .next (s.serveAs 0x0203 c)
/-- `COVE_GRANT` (R147). -/
def execCoveGrant (c : RelasCmd) (s : State) : Host.Outcome State Fault Refusal := .next (s.serveAs 0x0204 c)
/-- `COVE_HANDOVER` (R148). -/
def execCoveHandover (c : RelasCmd) (s : State) : Host.Outcome State Fault Refusal := .next (s.serveAs 0x0205 c)
/-- `COVE_QUERY` (R149). -/
def execCoveQuery (c : RelasCmd) (s : State) : Host.Outcome State Fault Refusal := .next (s.serveAs 0x0206 c)
/-- `PLACE_SET` (R104). -/
def execPlaceSet (c : RelasCmd) (s : State) : Host.Outcome State Fault Refusal := .next (s.serveAs 0x0301 c)
/-- `PLACE_QUERY` (R101). -/
def execPlaceQuery (c : RelasCmd) (s : State) : Host.Outcome State Fault Refusal := .next (s.serveAs 0x0302 c)
/-- `PULL_ADD` (R113). -/
def execPullAdd (c : RelasCmd) (s : State) : Host.Outcome State Fault Refusal := .next (s.serveAs 0x0303 c)
/-- `PULL_REMOVE` (R113). -/
def execPullRemove (c : RelasCmd) (s : State) : Host.Outcome State Fault Refusal := .next (s.serveAs 0x0304 c)
/-- `HARBOUR_AREAS` (R87). -/
def execHarbourAreas (c : RelasCmd) (s : State) : Host.Outcome State Fault Refusal := .next (s.serveAs 0x0305 c)
/-- `QUEUE_CREATE` (R262). -/
def execQueueCreate (c : RelasCmd) (s : State) : Host.Outcome State Fault Refusal := .next (s.serveAs 0x0401 c)
/-- `QUEUE_DESTROY` (R274). -/
def execQueueDestroy (c : RelasCmd) (s : State) : Host.Outcome State Fault Refusal := .next (s.serveAs 0x0402 c)
/-- `QUEUE_SET` (R275). -/
def execQueueSet (c : RelasCmd) (s : State) : Host.Outcome State Fault Refusal := .next (s.serveAs 0x0403 c)
/-- `QUEUE_QUERY` (R276). -/
def execQueueQuery (c : RelasCmd) (s : State) : Host.Outcome State Fault Refusal := .next (s.serveAs 0x0404 c)
/-- `TABLE_CREATE` (R421). -/
def execTableCreate (c : RelasCmd) (s : State) : Host.Outcome State Fault Refusal := .next (s.serveAs 0x0501 c)
/-- `TABLE_DESTROY` (R422). -/
def execTableDestroy (c : RelasCmd) (s : State) : Host.Outcome State Fault Refusal := .next (s.serveAs 0x0502 c)
/-- `TABLE_QUERY` (R423). -/
def execTableQuery (c : RelasCmd) (s : State) : Host.Outcome State Fault Refusal := .next (s.serveAs 0x0503 c)
/-- `INDEX_CREATE` (R451). -/
def execIndexCreate (c : RelasCmd) (s : State) : Host.Outcome State Fault Refusal := .next (s.serveAs 0x0601 c)
/-- `INDEX_DESTROY` (R453). -/
def execIndexDestroy (c : RelasCmd) (s : State) : Host.Outcome State Fault Refusal := .next (s.serveAs 0x0602 c)
/-- `INDEX_QUERY` (R454). -/
def execIndexQuery (c : RelasCmd) (s : State) : Host.Outcome State Fault Refusal := .next (s.serveAs 0x0603 c)
/-- `KVSET_CREATE` (R495). -/
def execKvsetCreate (c : RelasCmd) (s : State) : Host.Outcome State Fault Refusal := .next (s.serveAs 0x0701 c)
/-- `KVSET_DESTROY` (R496). -/
def execKvsetDestroy (c : RelasCmd) (s : State) : Host.Outcome State Fault Refusal := .next (s.serveAs 0x0702 c)
/-- `KVSET_QUERY` (R497). -/
def execKvsetQuery (c : RelasCmd) (s : State) : Host.Outcome State Fault Refusal := .next (s.serveAs 0x0703 c)
/-- `BOLLARD_ALLOC` (R525). -/
def execBollardAlloc (c : RelasCmd) (s : State) : Host.Outcome State Fault Refusal := .next (s.serveAs 0x0801 c)
/-- `BOLLARD_FREE` (R526). -/
def execBollardFree (c : RelasCmd) (s : State) : Host.Outcome State Fault Refusal := .next (s.serveAs 0x0802 c)
/-- `BOLLARD_SIGNAL_CMD` (R527). -/
def execBollardSignalCmd (c : RelasCmd) (s : State) : Host.Outcome State Fault Refusal := .next (s.serveAs 0x0803 c)
/-- `BOLLARD_WAIT_CMD` (R527). -/
def execBollardWaitCmd (c : RelasCmd) (s : State) : Host.Outcome State Fault Refusal := .next (s.serveAs 0x0804 c)
/-- `BOLLARD_TRY_WAIT` (R527). -/
def execBollardTryWait (c : RelasCmd) (s : State) : Host.Outcome State Fault Refusal := .next (s.serveAs 0x0805 c)
/-- `BUNDLE_SET` (R562). -/
def execBundleSet (c : RelasCmd) (s : State) : Host.Outcome State Fault Refusal := .next (s.serveAs 0x0901 c)
/-- `BUNDLE_OPEN` (R563). -/
def execBundleOpen (c : RelasCmd) (s : State) : Host.Outcome State Fault Refusal := .next (s.serveAs 0x0902 c)
/-- `LINK_QUERY` (R565). -/
def execLinkQuery (c : RelasCmd) (s : State) : Host.Outcome State Fault Refusal := .next (s.serveAs 0x0903 c)
/-- `LINK_RECAL` (R566). -/
def execLinkRecal (c : RelasCmd) (s : State) : Host.Outcome State Fault Refusal := .next (s.serveAs 0x0904 c)
/-- `FABRIC_SET` (R564). -/
def execFabricSet (c : RelasCmd) (s : State) : Host.Outcome State Fault Refusal := .next (s.serveAs 0x0905 c)
/-- `FAULT_READ` (R676). -/
def execFaultRead (c : RelasCmd) (s : State) : Host.Outcome State Fault Refusal := .next (s.serveAs 0x0A01 c)
/-- `UNIT_RETIRE` (R677). -/
def execUnitRetire (c : RelasCmd) (s : State) : Host.Outcome State Fault Refusal := .next (s.serveAs 0x0A02 c)
/-- `WEATHER_QUERY` (R671). -/
def execWeatherQuery (c : RelasCmd) (s : State) : Host.Outcome State Fault Refusal := .next (s.serveAs 0x0A03 c)
/-- `LOGBOOK_READ` (R675). -/
def execLogbookRead (c : RelasCmd) (s : State) : Host.Outcome State Fault Refusal := .next (s.serveAs 0x0A04 c)
/-- `QUARANTINE_RELEASE` (R678). -/
def execQuarantineRelease (c : RelasCmd) (s : State) : Host.Outcome State Fault Refusal := .next (s.serveAs 0x0A05 c)
/-- `MAILBOX_BIND` (R695). -/
def execMailboxBind (c : RelasCmd) (s : State) : Host.Outcome State Fault Refusal := .next (s.serveAs 0x0B01 c)
/-- `KEY_SLOT_LOAD` (R690). -/
def execKeySlotLoad (c : RelasCmd) (s : State) : Host.Outcome State Fault Refusal := .next (s.serveAs 0x0B02 c)
/-- `KEY_SLOT_CLEAR` (R691). -/
def execKeySlotClear (c : RelasCmd) (s : State) : Host.Outcome State Fault Refusal := .next (s.serveAs 0x0B03 c)
/-- `DEBUG_UNLOCK_NONCE` (R705). -/
def execDebugUnlockNonce (c : RelasCmd) (s : State) : Host.Outcome State Fault Refusal := .next (s.servePart 0x0B04 false c)
/-- `DEBUG_UNLOCK_GRANT` (R706). -/
def execDebugUnlockGrant (c : RelasCmd) (s : State) : Host.Outcome State Fault Refusal := .next (s.servePart 0x0B04 true c)
/-- `TICKET_STATUS` (R138). -/
def execTicketStatus (c : RelasCmd) (s : State) : Host.Outcome State Fault Refusal := .next (s.serveAs 0x0C01 c)
/-- `COUNTER_READ` (R749). -/
def execCounterRead (c : RelasCmd) (s : State) : Host.Outcome State Fault Refusal := .next (s.serveAs 0x0C02 c)
/-- `EVENT_RING_CONFIGURE` (R753). -/
def execEventRingConfigure (c : RelasCmd) (s : State) : Host.Outcome State Fault Refusal := .next (s.servePart 0x0C03 false c)
/-- `EVENT_RING_READ` (R753). -/
def execEventRingRead (c : RelasCmd) (s : State) : Host.Outcome State Fault Refusal := .next (s.servePart 0x0C03 true c)
/-- `TRACE_CONFIGURE` (R756). -/
def execTraceConfigure (c : RelasCmd) (s : State) : Host.Outcome State Fault Refusal := .next (s.servePart 0x0C04 false c)
/-- `TRACE_READ` (R756). -/
def execTraceRead (c : RelasCmd) (s : State) : Host.Outcome State Fault Refusal := .next (s.servePart 0x0C04 true c)
/-- `TOLL_READ` (R732). -/
def execTollRead (c : RelasCmd) (s : State) : Host.Outcome State Fault Refusal := .next (s.serveAs 0x0C05 c)
/-- `CONFIG_OPEN` (R820). -/
def execConfigOpen (c : RelasCmd) (s : State) : Host.Outcome State Fault Refusal := .next (s.serveAs 0x0D01 c)
/-- `CONFIG_DISCARD` (R153). -/
def execConfigDiscard (c : RelasCmd) (s : State) : Host.Outcome State Fault Refusal := .next (s.serveAs 0x0D02 c)
/-- `CONFIG_CHECK` (R154). -/
def execConfigCheck (c : RelasCmd) (s : State) : Host.Outcome State Fault Refusal := .next (s.serveAs 0x0D03 c)
/-- `CONFIG_TURN` (R156). -/
def execConfigTurn (c : RelasCmd) (s : State) : Host.Outcome State Fault Refusal := .next (s.serveAs 0x0D04 c)
/-- `CONFIG_CANCEL` (R159). -/
def execConfigCancel (c : RelasCmd) (s : State) : Host.Outcome State Fault Refusal := .next (s.serveAs 0x0D05 c)
/-- `CONFIG_QUERY` (R820). -/
def execConfigQuery (c : RelasCmd) (s : State) : Host.Outcome State Fault Refusal := .next (s.serveAs 0x0D06 c)
/-- `POWER_CAP_SET` (R779). -/
def execPowerCapSet (c : RelasCmd) (s : State) : Host.Outcome State Fault Refusal := .next (s.serveAs 0x0E01 c)
/-- `THERMAL_QUERY` (R780). -/
def execThermalQuery (c : RelasCmd) (s : State) : Host.Outcome State Fault Refusal := .next (s.serveAs 0x0E02 c)
/-- `STATE_SET` (R771). -/
def execStateSet (c : RelasCmd) (s : State) : Host.Outcome State Fault Refusal := .next (s.serveAs 0x0E03 c)
/-- `FW_WRITE` (R161). -/
def execFwWrite (c : RelasCmd) (s : State) : Host.Outcome State Fault Refusal := .next (s.serveAs 0x0F01 c)
/-- `FW_VERIFY` (R162). -/
def execFwVerify (c : RelasCmd) (s : State) : Host.Outcome State Fault Refusal := .next (s.serveAs 0x0F02 c)
/-- `FW_ACTIVATE` (R164). -/
def execFwActivate (c : RelasCmd) (s : State) : Host.Outcome State Fault Refusal := .next (s.serveAs 0x0F03 c)
/-- `FW_QUERY` (R150). -/
def execFwQuery (c : RelasCmd) (s : State) : Host.Outcome State Fault Refusal := .next (s.serveAs 0x0F04 c)

/-- `STAGE_COMMAND` (R151–R153): a command with STAGE = 1 is checked and appended to its set. -/
def execStageCommand (c : RelasCmd) (s : State) : Host.Outcome State Fault Refusal := .next (if c.stage then s.serve c else s)

/-- `TURN_VERIFY` (R157). -/
def execTurnVerify (set : Nat) (s : State) : Host.Outcome State Fault Refusal := .next (State.turnVerify relasTable set s)

/-- `TURN` (R157, R160). -/
def execTurn (set : Nat) (s : State) : Host.Outcome State Fault Refusal := .next (State.turn relasTable set s)

/-! ### Descriptors by opcode (Table 06-2) -/

/-- The descriptor opcodes (R278). -/
def descTable (op : Nat) : Option DescOp :=
  match op with
  | 0x10 => some opCopy
  | 0x11 => some opFill
  | 0x12 => some opStageIn
  | 0x13 => some opStageOut
  | 0x14 => some opPacedCopy
  | 0x15 => some opAdvise
  | 0x16 => some opPrefetch
  | 0x20 => some opReduceContrib
  | 0x21 => some opReduceRead
  | 0x22 => some opUpdateSgdm
  | 0x23 => some opUpdateAdamw
  | 0x24 => some opConvert
  | 0x30 => some opGatherRows
  | 0x31 => some opScatterAddRows
  | 0x32 => some opReplaceRows
  | 0x40 => some opSearch
  | 0x41 => some opInsertVec
  | 0x42 => some opDeleteVec
  | 0x43 => some opMergeDriftline
  | 0x50 => some opKvAppend
  | 0x51 => some opKvGather
  | 0x52 => some opKvFork
  | 0x60 => some opBollardSignal
  | 0x61 => some opBollardWait
  | 0x62 => some opBollardArrive
  | 0x68 => some opSnapOpen
  | 0x69 => some opSnapClose
  | 0x6A => some opPublish
  | 0x70 => some opMark
  | 0x7F => some opNop
  | _ => none

/-- `DESCRIPTOR_FETCH` (R267, R268, R279): the queue's next descriptor is fetched and translated, then admitted or refused. -/
def execDescriptorFetch (queue : Nat) (s : State) : Host.Outcome State Fault Refusal := .next (State.fetch descTable s queue)

/-- `PAGE_RESPONSE` (R83, R573): it comes from a jetty to this shore. -/
def execPageResponse (m : SxfMsg) (s : State) : Host.Outcome State Fault Refusal :=
  s.arrival (m.op == Sxf.pageResponse) fun s => State.pageResponse descTable s m

/-- `ATS_COMPLETION` (R81, R611): a translation for a held walk, held with the descriptor; A is R and W (log entry 24). -/
def execAtsCompletion (port tag hpa len : Nat) (r w : Bool) (s : State) : Host.Outcome State Fault Refusal :=
  .next (match s.pageReq tag .ats with
    | some p =>
      if p.port ≠ port ∨ len = 0 then s
      else State.resume descTable s p p.asked (p.ats ++ [⟨p.gva / len * len, hpa, len, r, w⟩])
    | none => s)

/-- `PRI_RESPONSE` (R611): 0 success, a second ATS request or another walk; 1 invalid request; any other code a response failure,
after which PRI on the port stops until the host enables it again. -/
def execPriResponse (port tag code : Nat) (s : State) : Host.Outcome State Fault Refusal :=
  .next (match s.pageReq tag .pri with
    | some p =>
      if p.port ≠ port then s
      else if code = 0 then
        State.resume descTable s p (setAdd (p.gva / 4096) (p.asked.filter (· < 2 ^ 57))) (p.ats.filter fun e => !decide (e.gva ≤ p.gva ∧ p.gva < e.gva + e.len))
      else if code = 1 then s.failWalk p Cause.invalid
      else (s.failWalk p Cause.invalid).setPort port fun x => { x with priEnabled := false }
    | none => s)

/-- `ATS_COMPLETION_TIMEOUT` (R611): no completion within the port's Device Control 2 timeout. -/
def execAtsCompletionTimeout (tag : Nat) (s : State) : Host.Outcome State Fault Refusal :=
  .next (match s.pageReq tag .ats with
    | some p =>
      let wait := ((s.port p.port).map (·.completionTimeout)).getD 0
      if s.now < p.sent + wait then s else s.failWalk p Cause.timeout
    | none => s)

/-- `DESCRIPTOR_BOOKING_END` (R107, R326, R328, R389, R397): the last booked slot of a descriptor has ended while it waits: a paused paced
copy, a PREFETCH in SERVICE state, a CONTRIBUTE before a piece, a consumer at its instance. -/
def execDescriptorBookingEnd (d : Nat) (s : State) : Host.Outcome State Fault Refusal :=
  .next (match s.desc d with
    | none => s
    | some x =>
      if s.now < s.bookedEnd x ∨ x.done.isSome ∨ x.fail.isSome then s
      else match x.opcode with
      | 0x14 =>
        if x.phase = .waiting then s.finish d Status.okPartial reasonPaceStall 0 (x.transfer.start + x.progress) (min x.count 0xFFFFFFFF) else s
      | 0x16 =>
        if x.progress = 0 ∨ x.strict then s
        else
          let gs := s.localGranules x 0
          let rs := s.remoteGranules x 0
          let missing := (gs.filter fun g => !s.store.harbour.resident g).length + (rs.filter fun g => (s.pulledAt g 0).isNone).length
          s.finish d Status.okPartial 0x01 0 (x.count - missing) (gs.length + rs.length - x.count)
      | 0x20 => if x.f 18 1 = 0 ∧ s.contributeWaits x then s.contributeEnd x true else s
      | 0x21 => if s.consumerWaits x then s.consumerEnd x true else s
      | 0x22 => if s.consumerWaits x then s.consumerEnd x true else s
      | 0x23 => if s.consumerWaits x then s.consumerEnd x true else s
      | _ => s)

end Sys2Proof.Machine
end

