-- ==== Sys2Proof/Machine/Dispatch.lean ====
section
/-! DEFINITION. The dispatch: one arm per command, each one direct call of its meaning. -/

namespace Sys2Proof.Machine

/-- The effect of a command on everything but the queue. -/
def exec (i : Instr) (s : State) : Host.Outcome State Fault Refusal :=
  match i with
  | .guestCreate c => Sys2Proof.Machine.execGuestCreate c s
  | .guestDestroy c => Sys2Proof.Machine.execGuestDestroy c s
  | .guestSet c => Sys2Proof.Machine.execGuestSet c s
  | .guestSyncXlate c => Sys2Proof.Machine.execGuestSyncXlate c s
  | .guestQuery c => Sys2Proof.Machine.execGuestQuery c s
  | .coveCreate c => Sys2Proof.Machine.execCoveCreate c s
  | .coveDestroy c => Sys2Proof.Machine.execCoveDestroy c s
  | .coveSet c => Sys2Proof.Machine.execCoveSet c s
  | .coveGrant c => Sys2Proof.Machine.execCoveGrant c s
  | .coveHandover c => Sys2Proof.Machine.execCoveHandover c s
  | .handoverStep cove => Sys2Proof.Machine.execHandoverStep cove s
  | .coveQuery c => Sys2Proof.Machine.execCoveQuery c s
  | .placeSet c => Sys2Proof.Machine.execPlaceSet c s
  | .placeQuery c => Sys2Proof.Machine.execPlaceQuery c s
  | .pullAdd c => Sys2Proof.Machine.execPullAdd c s
  | .pullRemove c => Sys2Proof.Machine.execPullRemove c s
  | .harbourAreas c => Sys2Proof.Machine.execHarbourAreas c s
  | .queueCreate c => Sys2Proof.Machine.execQueueCreate c s
  | .queueDestroy c => Sys2Proof.Machine.execQueueDestroy c s
  | .queueSet c => Sys2Proof.Machine.execQueueSet c s
  | .queueQuery c => Sys2Proof.Machine.execQueueQuery c s
  | .tableCreate c => Sys2Proof.Machine.execTableCreate c s
  | .tableDestroy c => Sys2Proof.Machine.execTableDestroy c s
  | .tableQuery c => Sys2Proof.Machine.execTableQuery c s
  | .indexCreate c => Sys2Proof.Machine.execIndexCreate c s
  | .indexDestroy c => Sys2Proof.Machine.execIndexDestroy c s
  | .indexQuery c => Sys2Proof.Machine.execIndexQuery c s
  | .kvsetCreate c => Sys2Proof.Machine.execKvsetCreate c s
  | .kvsetDestroy c => Sys2Proof.Machine.execKvsetDestroy c s
  | .kvsetQuery c => Sys2Proof.Machine.execKvsetQuery c s
  | .bollardAlloc c => Sys2Proof.Machine.execBollardAlloc c s
  | .bollardFree c => Sys2Proof.Machine.execBollardFree c s
  | .bollardSignalCmd c => Sys2Proof.Machine.execBollardSignalCmd c s
  | .bollardWaitCmd c => Sys2Proof.Machine.execBollardWaitCmd c s
  | .bollardTryWait c => Sys2Proof.Machine.execBollardTryWait c s
  | .bundleSet c => Sys2Proof.Machine.execBundleSet c s
  | .bundleOpen c => Sys2Proof.Machine.execBundleOpen c s
  | .bundleClose bundle => Sys2Proof.Machine.execBundleClose bundle s
  | .linkQuery c => Sys2Proof.Machine.execLinkQuery c s
  | .linkRecal c => Sys2Proof.Machine.execLinkRecal c s
  | .fabricSet c => Sys2Proof.Machine.execFabricSet c s
  | .faultRead c => Sys2Proof.Machine.execFaultRead c s
  | .unitRetire c => Sys2Proof.Machine.execUnitRetire c s
  | .weatherQuery c => Sys2Proof.Machine.execWeatherQuery c s
  | .logbookRead c => Sys2Proof.Machine.execLogbookRead c s
  | .quarantineRelease c => Sys2Proof.Machine.execQuarantineRelease c s
  | .mailboxBind c => Sys2Proof.Machine.execMailboxBind c s
  | .keySlotLoad c => Sys2Proof.Machine.execKeySlotLoad c s
  | .keySlotClear c => Sys2Proof.Machine.execKeySlotClear c s
  | .debugUnlockNonce c => Sys2Proof.Machine.execDebugUnlockNonce c s
  | .debugUnlockGrant c => Sys2Proof.Machine.execDebugUnlockGrant c s
  | .debugExpiry => Sys2Proof.Machine.execDebugExpiry s
  | .ticketStatus c => Sys2Proof.Machine.execTicketStatus c s
  | .ticketEnd ticket => Sys2Proof.Machine.execTicketEnd ticket s
  | .ticketExpiry ticket => Sys2Proof.Machine.execTicketExpiry ticket s
  | .counterRead c => Sys2Proof.Machine.execCounterRead c s
  | .eventRingConfigure c => Sys2Proof.Machine.execEventRingConfigure c s
  | .eventRingRead c => Sys2Proof.Machine.execEventRingRead c s
  | .traceConfigure c => Sys2Proof.Machine.execTraceConfigure c s
  | .traceRead c => Sys2Proof.Machine.execTraceRead c s
  | .tollRead c => Sys2Proof.Machine.execTollRead c s
  | .configOpen c => Sys2Proof.Machine.execConfigOpen c s
  | .configDiscard c => Sys2Proof.Machine.execConfigDiscard c s
  | .configCheck c => Sys2Proof.Machine.execConfigCheck c s
  | .configTurn c => Sys2Proof.Machine.execConfigTurn c s
  | .configCancel c => Sys2Proof.Machine.execConfigCancel c s
  | .configQuery c => Sys2Proof.Machine.execConfigQuery c s
  | .stageCommand c => Sys2Proof.Machine.execStageCommand c s
  | .turnVerify set => Sys2Proof.Machine.execTurnVerify set s
  | .turn set => Sys2Proof.Machine.execTurn set s
  | .veto m => Sys2Proof.Machine.execVeto m s
  | .powerCapSet c => Sys2Proof.Machine.execPowerCapSet c s
  | .thermalQuery c => Sys2Proof.Machine.execThermalQuery c s
  | .stateSet c => Sys2Proof.Machine.execStateSet c s
  | .stateReached => Sys2Proof.Machine.execStateReached s
  | .offlineHalt => Sys2Proof.Machine.execOfflineHalt s
  | .fwWrite c => Sys2Proof.Machine.execFwWrite c s
  | .fwVerify c => Sys2Proof.Machine.execFwVerify c s
  | .fwActivate c => Sys2Proof.Machine.execFwActivate c s
  | .fwQuery c => Sys2Proof.Machine.execFwQuery c s
  | .fwSelfCheckPass => Sys2Proof.Machine.execFwSelfCheckPass s
  | .fwSelfCheckTimeout => Sys2Proof.Machine.execFwSelfCheckTimeout s
  | .badRegisterAccess a => Sys2Proof.Machine.execBadRegisterAccess a s
  | .registerWrite a => Sys2Proof.Machine.execRegisterWrite a s
  | .tidetimeLowRead a => Sys2Proof.Machine.execTidetimeLowRead a s
  | .badAccessRead a => Sys2Proof.Machine.execBadAccessRead a s
  | .doorbellDeniedRead a => Sys2Proof.Machine.execDoorbellDeniedRead a s
  | .intStatusWrite a => Sys2Proof.Machine.execIntStatusWrite a s
  | .intEnableWrite a => Sys2Proof.Machine.execIntEnableWrite a s
  | .intSetWrite a => Sys2Proof.Machine.execIntSetWrite a s
  | .sqTail a => Sys2Proof.Machine.execSqTail a s
  | .cqHead a => Sys2Proof.Machine.execCqHead a s
  | .errHead a => Sys2Proof.Machine.execErrHead a s
  | .errHeadResume a => Sys2Proof.Machine.execErrHeadResume a s
  | .regRead m => Sys2Proof.Machine.execRegRead m s
  | .regWrite m => Sys2Proof.Machine.execRegWrite m s
  | .descriptorFetch queue => Sys2Proof.Machine.execDescriptorFetch queue s
  | .pageResponse m => Sys2Proof.Machine.execPageResponse m s
  | .pageRequestTimeout tag => Sys2Proof.Machine.execPageRequestTimeout tag s
  | .descriptorStart d => Sys2Proof.Machine.execDescriptorStart d s
  | .calendarSlot => Sys2Proof.Machine.execCalendarSlot s
  | .shareRecompute => Sys2Proof.Machine.execShareRecompute s
  | .descriptorBookingEnd d => Sys2Proof.Machine.execDescriptorBookingEnd d s
  | .copy d => Sys2Proof.Machine.execCopy d s
  | .fill d => Sys2Proof.Machine.execFill d s
  | .stageIn d => Sys2Proof.Machine.execStageIn d s
  | .stageOut d => Sys2Proof.Machine.execStageOut d s
  | .pacedCopy d => Sys2Proof.Machine.execPacedCopy d s
  | .pacedCopyPoll d => Sys2Proof.Machine.execPacedCopyPoll d s
  | .porterRetry channel => Sys2Proof.Machine.execPorterRetry channel s
  | .porterChannelRetire channel => Sys2Proof.Machine.execPorterChannelRetire channel s
  | .advise d => Sys2Proof.Machine.execAdvise d s
  | .prefetch d => Sys2Proof.Machine.execPrefetch d s
  | .reduceOpen d => Sys2Proof.Machine.execReduceOpen d s
  | .reduceClose d => Sys2Proof.Machine.execReduceClose d s
  | .reduceContribute d => Sys2Proof.Machine.execReduceContribute d s
  | .red m => Sys2Proof.Machine.execRed m s
  | .instanceExpiry group round tile => Sys2Proof.Machine.execInstanceExpiry group round tile s
  | .reduceRead d => Sys2Proof.Machine.execReduceRead d s
  | .updateSgdm d => Sys2Proof.Machine.execUpdateSgdm d s
  | .updateAdamw d => Sys2Proof.Machine.execUpdateAdamw d s
  | .convert d => Sys2Proof.Machine.execConvert d s
  | .gatherRows d => Sys2Proof.Machine.execGatherRows d s
  | .scatterAddRows d => Sys2Proof.Machine.execScatterAddRows d s
  | .replaceRows d => Sys2Proof.Machine.execReplaceRows d s
  | .rowRead m => Sys2Proof.Machine.execRowRead m s
  | .rowData m => Sys2Proof.Machine.execRowData m s
  | .search d => Sys2Proof.Machine.execSearch d s
  | .searchRequest m => Sys2Proof.Machine.execSearchRequest m s
  | .searchResult m => Sys2Proof.Machine.execSearchResult m s
  | .caravanDepart index list mark => Sys2Proof.Machine.execCaravanDepart index list mark s
  | .insertVec d => Sys2Proof.Machine.execInsertVec d s
  | .deleteVec d => Sys2Proof.Machine.execDeleteVec d s
  | .mergeDriftline d => Sys2Proof.Machine.execMergeDriftline d s
  | .driftlineAutoMerge index list => Sys2Proof.Machine.execDriftlineAutoMerge index list s
  | .kvAppend d => Sys2Proof.Machine.execKvAppend d s
  | .kvGather d => Sys2Proof.Machine.execKvGather d s
  | .kvFork d => Sys2Proof.Machine.execKvFork d s
  | .kvTruncate d => Sys2Proof.Machine.execKvTruncate d s
  | .bollardSignal d => Sys2Proof.Machine.execBollardSignal d s
  | .bollardWait d => Sys2Proof.Machine.execBollardWait d s
  | .bollardArrive d => Sys2Proof.Machine.execBollardArrive d s
  | .bollard m => Sys2Proof.Machine.execBollard m s
  | .bollardWaitTimeout wait => Sys2Proof.Machine.execBollardWaitTimeout wait s
  | .snapOpen d => Sys2Proof.Machine.execSnapOpen d s
  | .snapClose d => Sys2Proof.Machine.execSnapClose d s
  | .publish d => Sys2Proof.Machine.execPublish d s
  | .publishPoint d => Sys2Proof.Machine.execPublishPoint d s
  | .remoteHold m => Sys2Proof.Machine.execRemoteHold m s
  | .holdBroken m => Sys2Proof.Machine.execHoldBroken m s
  | .imageFree cove granule lo => Sys2Proof.Machine.execImageFree cove granule lo s
  | .mark d => Sys2Proof.Machine.execMark d s
  | .nop d => Sys2Proof.Machine.execNop d s
  | .read m => Sys2Proof.Machine.execRead m s
  | .write m => Sys2Proof.Machine.execWrite m s
  | .writeMasked m => Sys2Proof.Machine.execWriteMasked m s
  | .atomic m => Sys2Proof.Machine.execAtomic m s
  | .fenceRw m => Sys2Proof.Machine.execFenceRw m s
  | .fenceWw m => Sys2Proof.Machine.execFenceWw m s
  | .fenceRr m => Sys2Proof.Machine.execFenceRr m s
  | .homeFence m => Sys2Proof.Machine.execHomeFence m s
  | .data m => Sys2Proof.Machine.execData m s
  | .done m => Sys2Proof.Machine.execDone m s
  | .performed m => Sys2Proof.Machine.execPerformed m s
  | .atomicOld m => Sys2Proof.Machine.execAtomicOld m s
  | .bollardValue m => Sys2Proof.Machine.execBollardValue m s
  | .ctlAck m => Sys2Proof.Machine.execCtlAck m s
  | .invalidate m => Sys2Proof.Machine.execInvalidate m s
  | .invalidateAck m => Sys2Proof.Machine.execInvalidateAck m s
  | .spanState m => Sys2Proof.Machine.execSpanState m s
  | .timeAnnounce m => Sys2Proof.Machine.execTimeAnnounce m s
  | .timeSync m => Sys2Proof.Machine.execTimeSync m s
  | .timeReply m => Sys2Proof.Machine.execTimeReply m s
  | .announceTimer => Sys2Proof.Machine.execAnnounceTimer s
  | .syncTimer => Sys2Proof.Machine.execSyncTimer s
  | .syncLost seq => Sys2Proof.Machine.execSyncLost seq s
  | .announceAgeOut bundle => Sys2Proof.Machine.execAnnounceAgeOut bundle s
  | .headlandLock => Sys2Proof.Machine.execHeadlandLock s
  | .holdoverExpiry => Sys2Proof.Machine.execHoldoverExpiry s
  | .ptpMessage tai late => Sys2Proof.Machine.execPtpMessage tai late s
  | .tide1ppsEdge => Sys2Proof.Machine.execTide1ppsEdge s
  | .takeoverDeclare m => Sys2Proof.Machine.execTakeoverDeclare m s
  | .takeoverSelf m => Sys2Proof.Machine.execTakeoverSelf m s
  | .takeoverRebuilt m => Sys2Proof.Machine.execTakeoverRebuilt m s
  | .takeoverCapacity m => Sys2Proof.Machine.execTakeoverCapacity m s
  | .takeoverMark m => Sys2Proof.Machine.execTakeoverMark m s
  | .takeoverState m => Sys2Proof.Machine.execTakeoverState m s
  | .takeoverAtomic m => Sys2Proof.Machine.execTakeoverAtomic m s
  | .atomicRecordExpiry src tag => Sys2Proof.Machine.execAtomicRecordExpiry src tag s
  | .spanDeadDetect shore => Sys2Proof.Machine.execSpanDeadDetect shore s
  | .selfFence => Sys2Proof.Machine.execSelfFence s
  | .protectionRebuild gpa => Sys2Proof.Machine.execProtectionRebuild gpa s
  | .protectionUpdate granule => Sys2Proof.Machine.execProtectionUpdate granule s
  | .frame link trailer slots bad corrected tagOk => Sys2Proof.Machine.execFrame link trailer slots bad corrected tagOk s
  | .replayTimeout link => Sys2Proof.Machine.execReplayTimeout link s
  | .laneFail link lane => Sys2Proof.Machine.execLaneFail link lane s
  | .laneMapApply link => Sys2Proof.Machine.execLaneMapApply link s
  | .lightOutOfRange input wavelength => Sys2Proof.Machine.execLightOutOfRange input wavelength s
  | .linkLoss link => Sys2Proof.Machine.execLinkLoss link s
  | .linkTrainStep link peer peerLink agent => Sys2Proof.Machine.execLinkTrainStep link peer peerLink agent s
  | .linkTrainTimeout link => Sys2Proof.Machine.execLinkTrainTimeout link s
  | .linkTrainBatch present => Sys2Proof.Machine.execLinkTrainBatch present s
  | .keyGenerationRoll link => Sys2Proof.Machine.execKeyGenerationRoll link s
  | .ringRecal link => Sys2Proof.Machine.execRingRecal link s
  | .hostMemRead port tag addr secure => Sys2Proof.Machine.execHostMemRead port tag addr secure s
  | .hostMemWrite port tag addr data mask poison secure => Sys2Proof.Machine.execHostMemWrite port tag addr data mask poison secure s
  | .hostSharedRead port tag addr secure => Sys2Proof.Machine.execHostSharedRead port tag addr secure s
  | .hostOwnershipRead port tag addr secure => Sys2Proof.Machine.execHostOwnershipRead port tag addr secure s
  | .hostWriteBack port tag addr data kept poison secure => Sys2Proof.Machine.execHostWriteBack port tag addr data kept poison secure s
  | .hostCleanEviction port addr => Sys2Proof.Machine.execHostCleanEviction port addr s
  | .biResponse port line kept data => Sys2Proof.Machine.execBiResponse port line kept data s
  | .snoopTimeout port line => Sys2Proof.Machine.execSnoopTimeout port line s
  | .hostLinkDown port => Sys2Proof.Machine.execHostLinkDown port s
  | .perst port asserted => Sys2Proof.Machine.execPerst port asserted s
  | .flr port => Sys2Proof.Machine.execFlr port s
  | .extentOffer port cove guest => Sys2Proof.Machine.execExtentOffer port cove guest s
  | .extentForcedRelease port extent => Sys2Proof.Machine.execExtentForcedRelease port extent s
  | .hdmDecoderCommit port index base size dpa bi => Sys2Proof.Machine.execHdmDecoderCommit port index base size dpa bi s
  | .atsCompletion port tag hpa len r w => Sys2Proof.Machine.execAtsCompletion port tag hpa len r w s
  | .priResponse port tag code => Sys2Proof.Machine.execPriResponse port tag code s
  | .atsInvalidation port tag pasid gva len => Sys2Proof.Machine.execAtsInvalidation port tag pasid gva len s
  | .spdmMessage responder object code session arg => Sys2Proof.Machine.execSpdmMessage responder object code session arg s
  | .marginingCommand port item => Sys2Proof.Machine.execMarginingCommand port item s
  | .identifyMemoryDevice port => Sys2Proof.Machine.execIdentifyMemoryDevice port s
  | .getSupportedLogs port => Sys2Proof.Machine.execGetSupportedLogs port s
  | .getLog port off len => Sys2Proof.Machine.execGetLog port off len s
  | .getEventRecords port => Sys2Proof.Machine.execGetEventRecords port s
  | .clearEventRecords port number => Sys2Proof.Machine.execClearEventRecords port number s
  | .getDynamicCapacityConfiguration port => Sys2Proof.Machine.execGetDynamicCapacityConfiguration port s
  | .getDynamicCapacityExtentList port => Sys2Proof.Machine.execGetDynamicCapacityExtentList port s
  | .addDynamicCapacityResponse port extent accept => Sys2Proof.Machine.execAddDynamicCapacityResponse port extent accept s
  | .releaseDynamicCapacity port extent => Sys2Proof.Machine.execReleaseDynamicCapacity port extent s
  | .getPoisonList port => Sys2Proof.Machine.execGetPoisonList port s
  | .getHealthInfo port => Sys2Proof.Machine.execGetHealthInfo port s
  | .setTimestamp port ns => Sys2Proof.Machine.execSetTimestamp port ns s
  | .getTimestamp port => Sys2Proof.Machine.execGetTimestamp port s
  | .harbourFill granule => Sys2Proof.Machine.execHarbourFill granule s
  | .wayAvailable granule => Sys2Proof.Machine.execWayAvailable granule s
  | .writeBack granule sub block => Sys2Proof.Machine.execWriteBack granule sub block s
  | .migrationGranule granule overtaken sub block => Sys2Proof.Machine.execMigrationGranule granule overtaken sub block s
  | .mirrorWriteBack sub block => Sys2Proof.Machine.execMirrorWriteBack sub block s
  | .harbourScrub granule corrected bad => Sys2Proof.Machine.execHarbourScrub granule corrected bad s
  | .nandReadDone granule path valid => Sys2Proof.Machine.execNandReadDone granule path valid s
  | .nandProgramDone granule seq ok sub block => Sys2Proof.Machine.execNandProgramDone granule seq ok sub block s
  | .nandEraseDone die block ok => Sys2Proof.Machine.execNandEraseDone die block ok s
  | .nandSuspend die => Sys2Proof.Machine.execNandSuspend die s
  | .nandResume die => Sys2Proof.Machine.execNandResume die s
  | .granuleLost granule => Sys2Proof.Machine.execGranuleLost granule s
  | .nandUnitFail unit => Sys2Proof.Machine.execNandUnitFail unit s
  | .reclaim granule sub block => Sys2Proof.Machine.execReclaim granule sub block s
  | .wearLevelling granule sub block => Sys2Proof.Machine.execWearLevelling granule sub block s
  | .retentionRefresh granule weak still sub block => Sys2Proof.Machine.execRetentionRefresh granule weak still sub block s
  | .restriping granule sub block => Sys2Proof.Machine.execRestriping granule sub block s
  | .wearRecordWrite die => Sys2Proof.Machine.execWearRecordWrite die s
  | .reserveRaise task resource debt limit => Sys2Proof.Machine.execReserveRaise task resource debt limit s
  | .reserveLower resource => Sys2Proof.Machine.execReserveLower resource s
  | .capacityReductionEffect => Sys2Proof.Machine.execCapacityReductionEffect s
  | .hbmChannelFail stack channel => Sys2Proof.Machine.execHbmChannelFail stack channel s
  | .hbmStackRetire stack => Sys2Proof.Machine.execHbmStackRetire stack s
  | .arrayFail array => Sys2Proof.Machine.execArrayFail array s
  | .directoryEntryError line => Sys2Proof.Machine.execDirectoryEntryError line s
  | .hostPortFence port ide => Sys2Proof.Machine.execHostPortFence port ide s
  | .lockstepMismatch pair started => Sys2Proof.Machine.execLockstepMismatch pair started s
  | .weatherRecompute margins => Sys2Proof.Machine.execWeatherRecompute margins s
  | .eventDatagram => Sys2Proof.Machine.execEventDatagram s
  | .logbookWrite => Sys2Proof.Machine.execLogbookWrite s
  | .tlsSessionOpen chains manager => Sys2Proof.Machine.execTlsSessionOpen chains manager s
  | .tlsSessionClose session => Sys2Proof.Machine.execTlsSessionClose session s
  | .railGood rail => Sys2Proof.Machine.execRailGood rail s
  | .railFault rail => Sys2Proof.Machine.execRailFault rail s
  | .shoreRstN asserted => Sys2Proof.Machine.execShoreRstN asserted s
  | .wakingComplete parts badStacks => Sys2Proof.Machine.execWakingComplete parts badStacks s
  | .clockFault domain refclk => Sys2Proof.Machine.execClockFault domain refclk s
  | .thermalSample temps projected => Sys2Proof.Machine.execThermalSample temps projected s
  | .powerCapEffect => Sys2Proof.Machine.execPowerCapEffect s
  | .activityFrame crcOk number us energy counts below => Sys2Proof.Machine.execActivityFrame crcOk number us energy counts below s
  | .intervalTimeout energy below => Sys2Proof.Machine.execIntervalTimeout energy below s
  | .periodEnd => Sys2Proof.Machine.execPeriodEnd s
  | .sealBreak cause => Sys2Proof.Machine.execSealBreak cause s
  | .vtollLoss => Sys2Proof.Machine.execVtollLoss s
  | .tollhousePowerUp cause => Sys2Proof.Machine.execTollhousePowerUp cause s
  | .tollStatusMirror => Sys2Proof.Machine.execTollStatusMirror s
  | .tollMirrorTimeout => Sys2Proof.Machine.execTollMirrorTimeout s
  | .tollStatus frame => Sys2Proof.Machine.execTollStatus frame s
  | .tollPortRead frame => Sys2Proof.Machine.execTollPortRead frame s
  | .tollAck frame => Sys2Proof.Machine.execTollAck frame s
  | .tollCert frame => Sys2Proof.Machine.execTollCert frame s
  | .tollInstant frame => Sys2Proof.Machine.execTollInstant frame s
  | .tollAttest frame => Sys2Proof.Machine.execTollAttest frame s
  | .commission frame => Sys2Proof.Machine.execCommission frame s
  | .setBaud frame => Sys2Proof.Machine.execSetBaud frame s
  | .wayfarerHelp line => Sys2Proof.Machine.execWayfarerHelp line s
  | .wayfarerVersion line => Sys2Proof.Machine.execWayfarerVersion line s
  | .wayfarerState line => Sys2Proof.Machine.execWayfarerState line s
  | .wayfarerTime line => Sys2Proof.Machine.execWayfarerTime line s
  | .wayfarerBoot line => Sys2Proof.Machine.execWayfarerBoot line s
  | .wayfarerBaud line => Sys2Proof.Machine.execWayfarerBaud line s
  | .wayfarerCount line => Sys2Proof.Machine.execWayfarerCount line s
  | .wayfarerEvents line => Sys2Proof.Machine.execWayfarerEvents line s
  | .wayfarerWeather line => Sys2Proof.Machine.execWayfarerWeather line s
  | .wayfarerLinks line => Sys2Proof.Machine.execWayfarerLinks line s
  | .wayfarerReg line => Sys2Proof.Machine.execWayfarerReg line s
  | .wayfarerTrace line => Sys2Proof.Machine.execWayfarerTrace line s
  | .mbxDoorbell a => Sys2Proof.Machine.execMbxDoorbell a s
  | .mailbox m => Sys2Proof.Machine.execMailbox m s
  | .mailboxRsp m => Sys2Proof.Machine.execMailboxRsp m s
  | .fabricCheckTimeout tag => Sys2Proof.Machine.execFabricCheckTimeout tag s
  | .innkeeperBoot okA okB => Sys2Proof.Machine.execInnkeeperBoot okA okB s
  | .quayError unit control sectors => Sys2Proof.Machine.execQuayError unit control sectors s
  | .hostLinkUp port width bi ats pri d3hot => Sys2Proof.Machine.execHostLinkUp port width bi ats pri d3hot s
  | .hostLinkWidthDrop port width => Sys2Proof.Machine.execHostLinkWidthDrop port width s
  | .atsCompletionTimeout tag => Sys2Proof.Machine.execAtsCompletionTimeout tag s
  | .porterBusTimeout tag => Sys2Proof.Machine.execPorterBusTimeout tag s
  | .tideReferenceChange tide ptp => Sys2Proof.Machine.execTideReferenceChange tide ptp s
  | .redfishRequest manager anchor => Sys2Proof.Machine.execRedfishRequest manager anchor s
  | .jtagInstruction code => Sys2Proof.Machine.execJtagInstruction code s
  | .msixUnmask port vector => Sys2Proof.Machine.execMsixUnmask port vector s

end Sys2Proof.Machine
end

