-- ==== Sys2Proof/Machine/Step.lean ====
section
/-! DEFINITION. One step: the command at the front of the queue takes its effect with the queue's rest; on an empty queue a cycle of the
tidetime domain passes (log entry 54). -/

namespace Sys2Proof.Machine

/-- One cycle of the tidetime domain: the counter runs on at 8 ticks and the rate correction (R733, R734). -/
def State.idle (s : State) : State := { s with clock := s.clock.cycle }

/-- One step of the block. -/
def step (s : State) : Host.Outcome State Fault Refusal :=
  match s.pending with
  | [] => .next s.idle
  | c :: rest => exec c { s with pending := rest }

/-- The state with the command that a word spells at the front of its queue; unchanged, for a word spells none. -/
def State.withFetchWord (s : State) (nbits w : Nat) : State :=
  match Sys2Proof.decodeTableWord nbits w with
  | some c => { s with pending := c :: s.pending }
  | none => s

end Sys2Proof.Machine
end

