-- ==== Sys2Proof/WellFormed.lean ====
section
/-! DEFINITION. Which commands are well formed: every number names a thing that the spec gives the block, and every frame has the size
that its table gives. A meaning answers a command that is not well formed as well; nothing runs it into a fault. -/

namespace Sys2Proof

/-- A channel that Table 03-1 has. -/
def Channel.wf : Channel → Bool
  | .mailbox p b => decide (p < 4) && decide (b < 16)
  | .sxf b k => decide (b < 64) && decide (k < 16)
  | .tls n => decide (n < 32)
  | .shore n => decide (n < 512)

/-- A Relas command: a header at least, and no more than 4,096 bytes (Table 03-3). -/
def RelasCmd.wf (c : RelasCmd) : Bool := c.chan.wf && decide (16 ≤ c.bytes.length) && decide (c.bytes.length ≤ 4096)

/-- An SXF message: a bundle, a traffic class, 128 bits of unit 0, whole units behind it or the bytes of a train (R569). -/
def SxfMsg.wf (m : SxfMsg) : Bool := decide (m.via < 64) && decide (m.tc < 4) && decide (m.unit0 < 2 ^ 128) && decide (m.units.length ≤ 4096)

/-- A register access: a view of Table 23-1, BAR0 or BAR2 as R796 numbers them, and an offset inside. -/
def RegAccess.wf (a : RegAccess) : Bool :=
  (match a.view with
    | .host p => decide (p < 4)
    | .jetty b => decide (b < 64)
    | .wayfarer => true) &&
    decide (a.bar < 2) && decide (a.off < 2 ^ 22) && decide (a.data < 2 ^ (8 * a.width))

/-- A command is well formed. -/
def wellFormed (i : Instr) : Bool :=
  match i with
  | .guestCreate c | .guestDestroy c | .guestSet c | .guestSyncXlate c | .guestQuery c | .coveCreate c | .coveDestroy
    c | .coveSet c | .coveGrant c | .coveHandover c | .coveQuery c | .placeSet c | .placeQuery c | .pullAdd c |
    .pullRemove c | .harbourAreas c | .queueCreate c | .queueDestroy c | .queueSet c | .queueQuery c | .tableCreate c
    | .tableDestroy c | .tableQuery c | .indexCreate c | .indexDestroy c | .indexQuery c | .kvsetCreate c |
    .kvsetDestroy c | .kvsetQuery c | .bollardAlloc c | .bollardFree c | .bollardSignalCmd c | .bollardWaitCmd c |
    .bollardTryWait c | .bundleSet c | .bundleOpen c | .linkQuery c | .linkRecal c | .fabricSet c | .faultRead c |
    .unitRetire c | .weatherQuery c | .logbookRead c | .quarantineRelease c | .mailboxBind c | .keySlotLoad c |
    .keySlotClear c | .debugUnlockNonce c | .debugUnlockGrant c | .ticketStatus c | .counterRead c |
    .eventRingConfigure c | .eventRingRead c | .traceConfigure c | .traceRead c | .tollRead c | .configOpen c |
    .configDiscard c | .configCheck c | .configTurn c | .configCancel c | .configQuery c | .stageCommand c |
    .powerCapSet c | .thermalQuery c | .stateSet c | .fwWrite c | .fwVerify c | .fwActivate c | .fwQuery c => c.wf
  | .veto m | .regRead m | .regWrite m | .pageResponse m | .red m | .rowRead m | .rowData m | .searchRequest m |
    .searchResult m | .bollard m | .read m | .write m | .writeMasked m | .atomic m |
    .fenceRw m | .fenceWw m | .fenceRr m | .homeFence m | .data m | .done m | .performed m | .atomicOld m |
    .bollardValue m | .ctlAck m | .invalidate m | .invalidateAck m | .spanState m | .timeAnnounce m | .timeSync m |
    .timeReply m | .takeoverDeclare m | .takeoverSelf m | .takeoverRebuilt m | .takeoverCapacity m | .takeoverMark m |
    .takeoverState m | .takeoverAtomic m | .mailbox m | .mailboxRsp m => m.wf
  | .remoteHold m => m.wf && m.op == 0x69
  | .holdBroken m => m.wf && m.op == 0x6A
  | .badRegisterAccess a | .registerWrite a | .tidetimeLowRead a | .badAccessRead a | .doorbellDeniedRead a |
    .intStatusWrite a | .intEnableWrite a | .intSetWrite a | .sqTail a | .cqHead a | .errHead a | .errHeadResume a |
    .mbxDoorbell a => a.wf
  | .tollStatus b | .tollPortRead b | .tollAck b | .tollCert b | .tollInstant b | .tollAttest b | .commission b |
    .setBaud b => decide (b.length ≤ 2054)
  | .wayfarerHelp b | .wayfarerVersion b | .wayfarerState b | .wayfarerTime b | .wayfarerBoot b | .wayfarerBaud b |
    .wayfarerCount b | .wayfarerEvents b | .wayfarerWeather b | .wayfarerLinks b | .wayfarerReg b | .wayfarerTrace b
    => decide (b.length ≤ 128)
  | .handoverStep cove => decide (cove < 16384)
  | .bundleClose bundle => decide (bundle < 64)
  | .turnVerify set => decide (set < 256)
  | .turn set => decide (set < 256)
  | .descriptorFetch queue => decide (queue < 1024)
  | .porterRetry channel => decide (channel < 64)
  | .porterChannelRetire channel => decide (channel < 64)
  | .instanceExpiry group _ _ => decide (group < 1024)
  | .imageFree cove _ _ => decide (cove < 16384)
  | .announceAgeOut bundle => decide (bundle < 64)
  | .spanDeadDetect shore => decide (shore < 512)
  | .frame link trailer slots _ _ _ => decide (link < 64) && (trailer.length == 256) && slots.all (fun x => decide (x.1 < 18) && x.2.length == 256)
  | .replayTimeout link => decide (link < 64)
  | .laneFail link lane => decide (link < 64) && decide (lane < 9)
  | .laneMapApply link => decide (link < 64)
  | .lightOutOfRange input wavelength => decide (input < 16) && decide (wavelength < 10)
  | .linkLoss link => decide (link < 64)
  | .linkTrainStep link _ _ _ => decide (link < 64)
  | .linkTrainTimeout link => decide (link < 64)
  | .keyGenerationRoll link => decide (link < 64)
  | .ringRecal link => decide (link < 64)
  | .hostMemRead port _ _ _ => decide (port < 4)
  | .hostMemWrite port _ _ data _ _ _ => decide (port < 4) && (data.length == 64)
  | .hostSharedRead port _ _ _ => decide (port < 4)
  | .hostOwnershipRead port _ _ _ => decide (port < 4)
  | .hostWriteBack port _ _ data _ _ _ => decide (port < 4) && (data.length == 64)
  | .hostCleanEviction port _ => decide (port < 4)
  | .biResponse port line _ data => decide (port < 4) && decide (line < 2 ^ 57) && (data.length == 64 || data.isEmpty)
  | .snoopTimeout port line => decide (port < 4) && decide (line < 2 ^ 57)
  | .hostLinkDown port => decide (port < 4)
  | .perst port _ => decide (port < 4)
  | .flr port => decide (port < 4)
  | .extentOffer port _ _ => decide (port < 4)
  | .extentForcedRelease port _ => decide (port < 4)
  | .hdmDecoderCommit port index _ _ _ _ => decide (port < 4) && decide (index < 10)
  | .atsCompletion port _ _ _ _ _ => decide (port < 4)
  | .priResponse port _ _ => decide (port < 4)
  | .atsInvalidation port _ _ _ _ => decide (port < 4)
  | .spdmMessage responder _ _ _ _ => decide (responder < 5)
  | .marginingCommand port item => decide (port < 4) && decide (item < 2 ^ 16)
  | .identifyMemoryDevice port => decide (port < 4)
  | .getSupportedLogs port => decide (port < 4)
  | .getLog port _ _ => decide (port < 4)
  | .getEventRecords port => decide (port < 4)
  | .clearEventRecords port _ => decide (port < 4)
  | .getDynamicCapacityConfiguration port => decide (port < 4)
  | .getDynamicCapacityExtentList port => decide (port < 4)
  | .addDynamicCapacityResponse port _ _ => decide (port < 4)
  | .releaseDynamicCapacity port _ => decide (port < 4)
  | .getPoisonList port => decide (port < 4)
  | .getHealthInfo port => decide (port < 4)
  | .setTimestamp port _ => decide (port < 4)
  | .getTimestamp port => decide (port < 4)
  | .nandReadDone _ path _ => decide (path < 4)
  | .nandEraseDone die _ _ => decide (die < 2048)
  | .nandSuspend die => decide (die < 2048)
  | .nandResume die => decide (die < 2048)
  | .nandUnitFail unit => decide (unit < 0x8040)
  | .wearRecordWrite die => decide (die < 2048)
  | .reserveRaise task resource _ _ => decide (task < 16) && decide (resource < 1000)
  | .reserveLower resource => decide (resource < 1000)
  | .hbmChannelFail stack channel => decide (stack < 8) && decide (channel < 32)
  | .hbmStackRetire stack => decide (stack < 8)
  | .arrayFail array => decide (array < 34)
  | .directoryEntryError line => decide (line < 2 ^ 57)
  | .hostPortFence port _ => decide (port < 4)
  | .lockstepMismatch pair _ => decide (pair < 2)
  | .tlsSessionClose session => decide (session < 32)
  | .railGood rail => decide (rail < 11)
  | .railFault rail => decide (rail < 11)
  | .clockFault domain _ => decide (domain < 9)
  | .activityFrame _ _ us energy _ _ => decide (us < 15001) && (energy.length == 11)
  | .intervalTimeout energy _ => (energy.length == 11)
  | .sealBreak cause => decide (cause < 7)
  | .tollhousePowerUp cause => decide (cause < 7)
  | .quayError unit _ _ => decide (unit < 3)
  | .hostLinkUp port width _ _ _ _ => decide (port < 4) && decide (width < 17)
  | .hostLinkWidthDrop port width => decide (port < 4) && decide (width < 17)
  | .porterBusTimeout tag => decide (tag < 65536)
  | .msixUnmask port vector => decide (port < 4) && decide (vector < 2048)
  | .debugExpiry | .ticketEnd _ | .ticketExpiry _ | .stateReached | .offlineHalt | .fwSelfCheckPass |
    .fwSelfCheckTimeout | .pageRequestTimeout _ | .descriptorStart _ | .calendarSlot | .shareRecompute |
    .descriptorBookingEnd _ | .copy _ | .fill _ | .stageIn _ | .stageOut _ | .pacedCopy _ | .pacedCopyPoll _ | .advise
    _ | .prefetch _ | .reduceOpen _ | .reduceClose _ | .reduceContribute _ | .reduceRead _ | .updateSgdm _ |
    .updateAdamw _ | .convert _ | .gatherRows _ | .scatterAddRows _ | .replaceRows _ | .search _ | .caravanDepart _ _
    _ | .insertVec _ | .deleteVec _ | .mergeDriftline _ | .driftlineAutoMerge _ _ | .kvAppend _ | .kvGather _ |
    .kvFork _ | .kvTruncate _ | .bollardSignal _ | .bollardWait _ | .bollardArrive _ | .bollardWaitTimeout _ |
    .snapOpen _ | .snapClose _ | .publish _ | .publishPoint _ | .mark _ | .nop _ | .announceTimer | .syncTimer |
    .syncLost _ | .headlandLock | .holdoverExpiry | .ptpMessage _ _ | .tide1ppsEdge | .atomicRecordExpiry _ _ |
    .selfFence | .protectionRebuild _ | .protectionUpdate _ | .linkTrainBatch _ | .harbourFill _ | .wayAvailable _ |
    .writeBack _ _ _ | .migrationGranule _ _ _ _ | .mirrorWriteBack _ _ | .harbourScrub _ _ _ | .nandProgramDone _ _ _
    _ _ | .granuleLost _ | .reclaim _ _ _ | .wearLevelling _ _ _ | .retentionRefresh _ _ _ _ _ | .restriping _ _ _ |
    .capacityReductionEffect | .weatherRecompute _ | .eventDatagram | .logbookWrite | .tlsSessionOpen _ _ | .shoreRstN
    _ | .wakingComplete _ _ | .thermalSample _ _ | .powerCapEffect | .periodEnd | .vtollLoss | .tollStatusMirror |
    .tollMirrorTimeout | .fabricCheckTimeout _ | .innkeeperBoot _ _ | .atsCompletionTimeout _ | .tideReferenceChange _
    _ | .redfishRequest _ _ | .jtagInstruction _ => true

end Sys2Proof
end

