-- ==== Sys2Proof/Safety.lean ====
section
/-! DEFINITION. What counts as a safe outcome and a safe state, in the terms that statements use. -/

namespace Sys2Proof.Machine

/-- The block goes on: no fault and no refusal. -/
def goesOn (o : Host.Outcome State Fault Refusal) : Prop := ∃ t, o = .next t

/-- Shore memory is in its canonical form. -/
def State.memWf (s : State) : Bool := Mem.wf s.store.mem

/-- Every waiting command is well formed. -/
def State.queueWf (s : State) : Bool := s.pending.all Sys2Proof.wellFormed

/-- What a step leaves in force: the waiting commands and the Tollhouse as they were (R708), shore memory canonical if it was. -/
structure Keeps (s t : State) : Prop where
  pending : t.pending = s.pending
  toll : t.toll = s.toll
  mem : s.memWf = true → t.memWf = true

/-- What holds of the Tollhouse's store (R721, R724): it has no more than its places, every record that no ACK covers is in it, and every
record in it has a SEQUENCE below the next one. -/
structure Toll.Ok (t : Toll) : Prop where
  acked : t.acked ≤ t.nextSeq
  places : t.store.length ≤ storePlaces
  held : t.nextSeq ≤ t.acked + t.store.length
  numbered : ∀ r ∈ t.store, fld r 8 8 < t.nextSeq

/-- What every command leaves in force: the waiting commands as they were, shore memory canonical if it was, no record's SEQUENCE given
twice, a broken seal broken (R728), and the Tollhouse's store whole if it was. -/
structure KeepsAll (s t : State) : Prop where
  pending : t.pending = s.pending
  mem : s.memWf = true → t.memWf = true
  seq : s.toll.nextSeq ≤ t.toll.nextSeq
  broken : s.toll.broken = true → t.toll.broken = true
  ok : s.toll.Ok → t.toll.Ok

/-- The commands that are the Tollhouse's own (R708): its measurement, its seal and supply, and the port commands that write to it. -/
def tollRow : Instr → Bool
  | .activityFrame .. | .intervalTimeout .. | .periodEnd | .sealBreak .. | .vtollLoss | .tollhousePowerUp .. | .tollAck ..
  | .commission .. | .setBaud .. => true
  | _ => false

/-- An outcome is a next state that is related to a state. -/
def EndsIn (R : State → State → Prop) (s : State) (o : Host.Outcome State Fault Refusal) : Prop := ∃ t, o = .next t ∧ R s t

/-- `n` steps, as long as each answers a next state. -/
def steps : Nat → State → Host.Outcome State Fault Refusal
  | 0, s => .next s
  | n + 1, s => match step s with
    | .next t => steps n t
    | o => o

/-! ### Relas commands that pass every check -/

/-- The checks of R125 to R136 that staged commands meet too, steps 1 to 6 of R128: the command is new on its channel, whole, from a
sender who may issue it, in a device state that allows it, and its fields are right. -/
def RelasOp.wellMade (op : RelasOp) (r : CatRow) (c : RelasCmd) (s : State) : Bool :=
  s.delivered c && ((s.chanRec c.chan).kept.find? fun k => k.header = c.header).isNone &&
    decide (c.len % 8 = 0 ∧ 16 ≤ c.len ∧ c.len ≤ 4096 ∧ c.bytes.length = c.len) && (op.len c).isNone &&
    decide ((s.chanRec c.chan).bound = some (c.guest, c.epoch)) && (c.guest == 0 || (r.guest && op.owns c s)) &&
    stateAllows s c && !s.refusing && decide ((s.chanRec c.chan).outstanding.length ≤ 8) && (headerBad r c).isNone &&
    (op.fields c s).isNone

/-- Every check of R125 to R136 and R157 lets the command through, in the state in which it is counted. -/
def RelasOp.accepts (op : RelasOp) (r : CatRow) (c : RelasCmd) (s : State) : Bool :=
  op.wellMade r c s && !op.denied c s && (op.limits c s).isNone && (!r.pending || (s.ticketLimit c).isNone) &&
    (op.conflict c s).isNone && (r.reads || (s.scheduledTouch relasTable (op.objects c)).isNone) &&
    (r.reads || !s.verifiedHold relasTable || (op.effect c s.inn.nextTicket s).1.verifiedHold relasTable)

/-- The state in which a Relas command has its effect: the one that has counted it. -/
def State.taken (s : State) (c : RelasCmd) : State := s.countCommand c.chan

/-- The command has this opcode, is not staged, waits for no earlier command, and passes every check. -/
def served (opcode : Nat) (c : RelasCmd) (s : State) : Bool :=
  c.opcode == opcode && !c.stage && s.delivered c && !s.serial c && match catRow c.opcode with
    | some r => ((relasOpOf c).getD opUnknown).accepts r c (s.taken c)
    | none => false

/-- The command has this opcode, is staged, waits for no earlier command, and passes the checks that staged commands meet. -/
def staged (opcode : Nat) (c : RelasCmd) (s : State) : Bool :=
  c.opcode == opcode && c.stage && s.delivered c && !s.serial c && match catRow c.opcode with
    | some r => ((relasOpOf c).getD opUnknown).wellMade r c (s.taken c)
    | none => false

/-- The set takes one more command (R151, R152, R820). -/
def ConfigSet.takes (x : ConfigSet) (c : RelasCmd) : Bool :=
  decide (x.staged.length < 65536 ∧ x.bytes + c.bytes.length ≤ 1048576) &&
    !(x.state == .scheduled || x.state == .turned || x.state == .discarded)

/-- The state after a staged command: it stands last in its set, which is open again, and is answered DONE (R152). -/
def stagedWith (s : State) (c : RelasCmd) (x : ConfigSet) : State :=
  ((s.taken c).setSet { x with state := .opened, staged := x.staged ++ [c], failing := none, verified := false, vetoer := none }).answer c
    (response c Result.done 0 0 0 [])

/-- The state after a command that completed at this instant: its effect, and the answer DONE with EFFECT the present tidetime (R122). -/
def doneWith (s : State) (c : RelasCmd) (u : State) (body : List Byte := []) : State :=
  u.answer c (response c Result.done 0 0 s.now body)

/-- The state after a command that only reads: nothing but the answer DONE with a body. -/
def readWith (c : RelasCmd) (u : State) (body : List Byte) : State := u.answer c (response c Result.done 0 0 0 body)

/-- The state after a command whose work goes on: its effect, the answer ACCEPTED_PENDING, and the ticket that stands for the work
(R138). -/
def pendingWith (s : State) (c : RelasCmd) (u : State) (w : Work) : State :=
  (u.openTicket c w).answer c (response c Result.pending 0 s.inn.nextTicket s.now [])

/-! ### Accesses of a host port -/

/-- A host port's access reaches the registers: its link is up and the device is not OFF. -/
def hostReaches (a : RegAccess) (p : Nat) (s : State) : Bool :=
  a.view == .host p && (s.port p).any (·.up) && s.power.state != .off

/-! ### Descriptors at work -/

/-- The descriptor runs with this opcode, the device runs, no access of it has failed, and its writes so far have been answered. -/
def atWork (op id : Nat) (s : State) (d : Desc) : Bool :=
  s.desc id == some d && d.runs op && s.power.state != .halted && s.power.state != .off && d.fail.isNone && d.awaiting.isEmpty

/-- An access of the running descriptor has failed with a status and a cause, and nothing that it sent out is still unanswered. -/
def failedAt (op id st ca : Nat) (s : State) (d : Desc) : Bool :=
  s.desc id == some d && d.runs op && s.power.state != .halted && s.power.state != .off && d.fail == some (st, ca) && !d.reading &&
    d.awaiting.isEmpty

/-- What the descriptor had done when its writes so far had been answered is noted (R335): what it counts if the next ones fail. -/
def noted (id : Nat) (d : Desc) (s : State) : State := s.setDesc id fun x => { x with base := d.progress }

/-! ### Plain requests at their home -/

/-- A plain request of another shore has come to its home and no check stops it (R64–R66, R560, R569, R579, R583, R664): it is no parity
delta, reads under no remote hold, is aligned, and its cove is not shared with a host. -/
def servesHere (m : SxfMsg) (s : State) : Bool :=
  (s.portRefusal m).isNone && (s.bundle m.via).any (fun b => b.kind == .causeway) && s.fabric.hasShore m.dest && s.target m == s.self &&
    (s.heldBy m.via m.agent).isEmpty && gpaShore m.gpa == s.self && !s.isDelta m &&
    !(s.faults.selfFenced && s.faults.guarded.contains (gpaOffset m.gpa / granuleSize)) &&
    !(m.op == Sxf.atomic && (m.atType == 3 || (m.atType == 2 && m.atOp == 3))) && gpaOffset m.gpa % m.size == 0 &&
    s.allowed m.guest (gpaOffset m.gpa) m.size m.access && !(m.isRead && m.ordered && m.tc == 3) &&
    !(s.coveAt (gpaOffset m.gpa)).any fun c => c.coherence == .sharedHdmDb

/-- The granule of an access is at hand: no read of the deep tier stands between it and its bytes. -/
def atHand (off : Nat) (s : State) : Bool := !s.absent (off / granuleSize) && !s.missOpen (off / granuleSize)

end Sys2Proof.Machine
end

