-- ==== Sys2Proof/Certificates/Slice0/Obligations.lean ====
section
/-! DEFINITION. The statements for the provers, one definition each. -/

open Sys2Proof Sys2Proof.Machine

/-- The guest commands (spec 03: R141–R143, R76, R150) when every check lets them through: GUEST_CREATE adds the guest that it describes,
GUEST_DESTROY tears the guest down, GUEST_SET changes what SET_MASK selects, GUEST_SYNC_XLATE opens the ticket that waits for the
descriptors translated before, GUEST_QUERY answers the guest's settings. -/
def Obligations.GuestCommands : Prop := ∀ (c : RelasCmd) (s : State), let u := s.taken c
  (served 0x0101 c s = true → exec (.guestCreate c) s = .next (doneWith s c { u with inn := { u.inn with
    guests := u.inn.guests ++ [{
      id := c.f 16 2, epoch := c.f 18 2, weight := c.f 20 2, mode := xlateOf (c.f 22 1), ownerJetty := decide (c.f 23 1 = 1)
      ownerPort := c.f 24 1, ownerId := c.f 28 4, root := c.f 32 8, prTimeout := if c.f 40 4 = 0 then 1000 else c.f 40 4
      pinQuota := c.f 48 8, queueQuota := c.f 56 2, keyQuota := c.f 58 2, cached := [], quarantined := false }] } })) ∧
  (served 0x0102 c s = true → exec (.guestDestroy c) s = .next (doneWith s c (u.teardown (c.f 16 2)))) ∧
  (served 0x0103 c s = true → exec (.guestSet c) s = .next (doneWith s c
    (u.setGuest (c.f 16 2) (setGuestFields c)).reviewExtents)) ∧
  (served 0x0104 c s = true → exec (.guestSyncXlate c) s = .next (pendingWith s c u
    (.xlateSync (c.f 16 2) ((u.queues.descs.filter fun d => d.guest = c.f 16 2).map (·.id))))) ∧
  (served 0x0105 c s = true → ∀ g, u.guestRec (c.f 16 2) = some g →
    exec (.guestQuery c) s = .next (readWith c u (guestLayout g)))

/-- The cove commands (spec 03: R144–R149; spec 02: R111, R117) when every check lets them through. Their changes reach the protection set
(R662). -/
def Obligations.CoveCommands : Prop := ∀ (c : RelasCmd) (s : State), let u := s.taken c
  (served 0x0201 c s = true → exec (.coveCreate c) s = .next (s.replicateChanges (doneWith s c { u with store := { u.store with
    coves := u.store.coves ++ [coveOf c u.now]
    mem := Mem.clear u.store.mem (c.f 20 8) (c.f 28 8)
    poison := u.store.poison.filter fun p => decide (p * 64 < c.f 20 8 ∨ c.f 20 8 + c.f 28 8 ≤ p * 64) } }))) ∧
  (served 0x0202 c s = true → ∀ k, u.cove (c.f 16 2) = some k → exec (.coveDestroy c) s = .next (s.replicateChanges (pendingWith s c
    (u.beginHandover k true false k.owner [] s.inn.nextTicket) (.handover k.id)))) ∧
  (served 0x0203 c s = true → ∀ k, u.cove (c.f 16 2) = some k → needsInval c k = false →
    exec (.coveSet c) s = .next (s.replicateChanges (doneWith s c (u.applyCoveSet c)))) ∧
  (served 0x0203 c s = true → ∀ k, u.cove (c.f 16 2) = some k → needsInval c k = true →
    exec (.coveSet c) s = .next (s.replicateChanges { u.sendInvalidates k with store := { (u.sendInvalidates k).store with
      invals := (u.sendInvalidates k).store.invals ++ [⟨k.id, k.holders, c⟩] } })) ∧
  (served 0x0204 c s = true → exec (.coveGrant c) s = .next (s.replicateChanges (doneWith s c
    (u.setCove (c.f 16 2) fun k => k.setGrant (grantOf (c.f 18 2) (c.f 20 1))).reviewExtents))) ∧
  (served 0x0205 c s = true → ∀ k, u.cove (c.f 16 2) = some k → exec (.coveHandover c) s = .next (s.replicateChanges (pendingWith s c
    (u.beginHandover k false (c.f 20 1 = 1) (c.f 18 2) (handoverCove c k).grants s.inn.nextTicket) (.handover k.id)))) ∧
  (served 0x0206 c s = true → c.f 16 2 = 0xFFFF → exec (.coveQuery c) s = .next (s.replicateChanges (readWith c u
    (leBytes 8 u.store.capacity ++ leBytes 8 u.coveBytes ++ leBytes 8 u.store.coves.length)))) ∧
  (served 0x0206 c s = true → c.f 16 2 ≠ 0xFFFF → ∀ k, u.cove (c.f 16 2) = some k → exec (.coveQuery c) s = .next (s.replicateChanges
    (readWith c u (coveLayout k ++ leBytes 1 k.state.code ++ leBytes 2 k.grants.length)))) ∧
  (∀ n h k, (s.store.handovers.find? fun x => x.cove = n) = some h → s.cove n = some k → s.stepDone k h = true →
    exec (.handoverStep n) s = .next (s.replicateChanges (s.nextStep k h)))

/-- The placement and pull commands (spec 02: R87, R95, R101, R104, R113, R114) when every check lets them through; HARBOUR_AREAS is only
staged, and its effect comes at the turn. -/
def Obligations.PlacementCommands : Prop := ∀ (c : RelasCmd) (s : State), let u := s.taken c
  let placed := u.setCove (c.f 16 2) fun k => k.withClass (c.f 24 8) (c.f 32 8) (adviseCls (c.f 40 1))
  (served 0x0301 c s = true → bit (c.f 41 1) 0 = false → exec (.placeSet c) s = .next (doneWith s c placed)) ∧
  (served 0x0301 c s = true → bit (c.f 41 1) 0 = true → ∀ k, placed.cove (c.f 16 2) = some k →
    exec (.placeSet c) s = .next (doneWith s c (placed.queueMoves (c.f 24 8) (c.f 32 8) ((adviseCls (c.f 40 1)).getD k.cls)))) ∧
  (served 0x0302 c s = true → ∀ k, u.cove (c.f 16 2) = some k → exec (.placeQuery c) s = .next (readWith c u
    (leBytes 8 (u.store.moving.filter fun m => inside (m.granule * granuleSize) granuleSize k.base k.size).length ++
      leBytes 2 k.overrides.length ++ zeros 6 ++
      (k.overrides.map fun o => leBytes 8 o.base ++ leBytes 8 o.size ++ leBytes 1 o.cls.code ++ zeros 7).flatten))) ∧
  (served 0x0303 c s = true → (∀ n, c.chan ≠ .shore n) → exec (.pullAdd c) s = .next (pendingWith s c
    (({ u with store := { u.store with pulls := u.store.pulls ++ [PullRange.mk u.freePull (c.f 16 8) (c.f 24 8) false s.inn.nextTicket] } }).send
      ⟨noBundle, 3, SxfMsg.reqUnit Sxf.mailbox false false u.self (u.freePull + 1) 32 0 (gpaOf (gpaShore (c.f 16 8)) 0),
        leBytes 2 0x0303 ++ leBytes 2 (u.freePull + 1) ++ leBytes 2 32 ++ zeros 10 ++ leBytes 8 (c.f 16 8) ++ leBytes 8 (c.f 24 8)⟩)
    (.pullAdd u.freePull))) ∧
  (served 0x0303 c s = true → ∀ n k, c.chan = .shore n → u.coveAt (gpaOffset (c.f 16 8)) = some k →
    exec (.pullAdd c) s = .next (doneWith s c (u.setCove k.id fun k => { k with holders := setAdd n k.holders }))) ∧
  (served 0x0304 c s = true → exec (.pullRemove c) s = .next (pendingWith s c (u.dropPull (c.f 16 2)) (.pullRemove (c.f 16 2)))) ∧
  (staged 0x0305 c s = true → ∀ x, u.set c.setId = some x → x.takes c = true →
    exec (.harbourAreas c) s = .next (stagedWith s c x)) ∧
  (∀ (n : Nat) (t : State), (relasTable 0x0305).map (fun op => op.effect c n t) = some ({ t with store := { t.store with
    harbour := { t.store.harbour with pinGib := c.f 16 2, rowGib := c.f 18 2, mirrorGib := c.f 20 2 } } }, .done))

/-- The queue commands (spec 06: R262, R274–R276, R302) when every check lets them through. -/
def Obligations.QueueCommands : Prop := ∀ (c : RelasCmd) (s : State), let u := s.taken c
  (served 0x0401 c s = true → c.f 18 1 = 0 → exec (.queueCreate c) s = .next (doneWith s c { u with queues := { u.queues with
    sqs := u.queues.sqs ++ [{
      id := c.f 16 2, guest := c.f 20 2, ring := c.f 24 8, depth := c.f 32 4, cq := c.f 36 2, maxClass := c.f 38 1, errGpa := c.f 40 8
      errDepth := c.f 48 2, maxInflight := c.f 50 2, headGpa := c.f 56 8, ordered := bit (c.f 19 1) 0, stopOnRefusal := bit (c.f 19 1) 1
      head := 0, tail := 0, refusals := 0, stopped := false, errWrite := 0, errPhase := true, errHead := 0, badDoorbells := 0
      bollard := none, closing := false, nextSeq := 0, fetched := 0
      markLatch := (List.range 6).map fun i => u.obs.counter 1 (c.f 20 2) (5 + i) }] } })) ∧
  (served 0x0401 c s = true → c.f 18 1 ≠ 0 → exec (.queueCreate c) s = .next (doneWith s c { u with queues := { u.queues with
    cqs := u.queues.cqs ++ [{
      id := c.f 16 2, guest := c.f 20 2, ring := c.f 24 8, depth := c.f 32 4, notifyKind := c.f 38 1, notifyPort := c.f 48 2
      vector := c.f 50 2, agent := c.f 52 4, write := 0, phase := true, head := 0, reserved := 0, merged := 0, badDoorbells := 0 }] } })) ∧
  (served 0x0402 c s = true → c.f 18 1 = 0 → exec (.queueDestroy c) s = .next (pendingWith s c
    (if c.f 19 1 = 1 then (u.setSq (c.f 16 2) fun q => { q with closing := true }).abortQueue (c.f 16 2)
      else u.setSq (c.f 16 2) fun q => { q with closing := true }) (.queueDestroy false (c.f 16 2)))) ∧
  (served 0x0402 c s = true → c.f 18 1 ≠ 0 → exec (.queueDestroy c) s = .next (pendingWith s c u (.queueDestroy true (c.f 16 2)))) ∧
  (staged 0x0403 c s = true → ∀ x, u.set c.setId = some x → x.takes c = true → exec (.queueSet c) s = .next (stagedWith s c x)) ∧
  (c.f 16 2 = 0xFFFF → ∀ n t, (relasTable 0x0403).map (fun op => op.effect c n t) = some (t.setAdmission c, .done)) ∧
  (served 0x0403 c s = true → c.f 16 2 ≠ 0xFFFF → c.f 18 1 = 0 → exec (.queueSet c) s = .next (doneWith s c
    (u.setSq (c.f 16 2) fun q => { q with
      ordered := if qMask c 0 then bit (c.f 19 1) 0 else q.ordered, stopOnRefusal := if qMask c 0 then bit (c.f 19 1) 1 else q.stopOnRefusal
      maxClass := if qMask c 1 then c.f 38 1 else q.maxClass, maxInflight := if qMask c 2 then c.f 50 2 else q.maxInflight }))) ∧
  (served 0x0403 c s = true → c.f 16 2 ≠ 0xFFFF → c.f 18 1 ≠ 0 → exec (.queueSet c) s = .next (doneWith s c
    (u.setCq (c.f 16 2) fun q => if qMask c 3 then
      { q with notifyKind := c.f 38 1, notifyPort := c.f 48 2, vector := c.f 50 2, agent := c.f 52 4 } else q))) ∧
  (served 0x0404 c s = true → c.f 18 1 = 0 → ∀ q, u.sq (c.f 16 2) = some q → exec (.queueQuery c) s = .next (readWith c u
    (sqLayout q ++ leBytes 4 q.head ++ leBytes 4 q.tail ++ leBytes 4 (u.inflight q.id) ++ leBytes 4 q.refusals))) ∧
  (served 0x0404 c s = true → c.f 18 1 ≠ 0 → ∀ q, u.cq (c.f 16 2) = some q → exec (.queueQuery c) s = .next (readWith c u
    (cqLayout q ++ leBytes 4 q.head ++ leBytes 4 q.write ++ leBytes 4 q.reserved ++ leBytes 4 0)))

/-- The commands on embedding tables, vector indices and KV sets (spec 10: R421–R423; spec 11: R451, R453, R454; spec 12: R495–R497) when
every check lets them through; a query of another shore is that of R155. -/
def Obligations.ObjectCommands : Prop := ∀ (c : RelasCmd) (s : State), let u := s.taken c
  (served 0x0501 c s = true → exec (.tableCreate c) s = .next (doneWith s c { u with tables := { u.tables with
    list := u.tables.list ++ [tableOf c] } } (leBytes 8 (tableOf c).regionNeed ++ leBytes 8 (tableOf c).shadowNeed))) ∧
  (served 0x0502 c s = true → ∀ t, u.table (c.f 16 2) = some t →
    exec (.tableDestroy c) s = .next (pendingWith s c { u.setTable (c.f 16 2) (fun t => { t with dying := true }) with
      tables := { (u.setTable (c.f 16 2) fun t => { t with dying := true }).tables with
        cache := u.tables.cache.filter fun (e : RowEntry) => decide (e.tag ≠ t.tag) } } (.tableDestroy (c.f 16 2)))) ∧
  (served 0x0503 c s = true → (∀ n, c.chan ≠ .shore n) → ∀ t, u.table (c.f 16 2) = some t →
    exec (.tableQuery c) s = .next (readWith c u (tableBody t ++
      ((List.range 4).map fun k => leBytes 8 (if t.shardIndex = 0xFFFF then 0 else u.usedSlots t k)).flatten ++
      leBytes 8 (sumNat ((u.tables.cache.filter fun (e : RowEntry) => e.tag = t.tag).map (·.len)))))) ∧
  (served 0x0503 c s = true → ∀ n, c.chan = .shore n → exec (.tableQuery c) s = .next (readWith c u [])) ∧
  (served 0x0601 c s = true → exec (.indexCreate c) s = .next (doneWith s c { u with
    indices := { u.indices with list := u.indices.list ++ [indexOf c] }
    porter := { u.porter with blocks := u.porter.blocks ++
      (if (indexOf c).blocks = 0 then [] else ((List.range 32).map (u.centroidBlocks (indexOf c))).flatten) }
    brk := { u.brk with standing := if (indexOf c).here then
      u.brk.standing ++ [⟨indexPool (c.f 16 2), (indexOf c).standing u⟩] else u.brk.standing } } (leBytes 8 (indexOf c).need))) ∧
  (served 0x0602 c s = true → exec (.indexDestroy c) s = .next (pendingWith s c
    (u.setIndex (c.f 16 2) fun x => { x with dying := true }) (.indexDestroy (c.f 16 2)))) ∧
  (served 0x0603 c s = true → (∀ n, c.chan ≠ .shore n) → ∀ x, u.index (c.f 16 2) = some x →
    exec (.indexQuery c) s = .next (readWith c u (x.layout ++
      leBytes 8 (sumNat (x.content.map fun v => ((x.current v.number).filter fun i => i.main).length)) ++ leBytes 8 x.driftAll ++
      leBytes 8 (maxNat (x.content.map fun v => x.drift v.number)) ++ leBytes 8 (32 * x.blocks)))) ∧
  (served 0x0603 c s = true → ∀ n, c.chan = .shore n → exec (.indexQuery c) s = .next (readWith c u [])) ∧
  (served 0x0701 c s = true → exec (.kvsetCreate c) s = .next (doneWith s c { u with kv := u.kv ++ [kvOf c] }
    (leBytes 8 (kvOf c).need ++ leBytes 8 (kvOf c).shadowNeed))) ∧
  (served 0x0702 c s = true → exec (.kvsetDestroy c) s = .next (pendingWith s c
    (u.setKv (c.f 16 2) fun k => { k with dying := true }) (.kvDestroy (c.f 16 2)))) ∧
  (served 0x0703 c s = true → ∀ k, u.kvSet (c.f 16 2) = some k → exec (.kvsetQuery c) s = .next (readWith c u
    (k.layout ++ leBytes 8 (u.kvFree k).1 ++ leBytes 8 (u.kvFree k).2 ++ leBytes 8 (u.kvSeqs k))))

/-- The Relas commands on bollards (spec 13: R525–R527) when every check lets them through. -/
def Obligations.BollardCommands : Prop := ∀ (c : RelasCmd) (s : State), let u := s.taken c
  let first := (u.freeRun (c.f 18 2)).getD 0
  let more := { u with boll := { u.boll with list := u.boll.list ++ (span first (c.f 18 2)).map fun n =>
    ⟨n, BitVec.ofNat 64 (c.f 24 8), c.f 20 4, c.f 16 2, [c.f 36 2, c.f 38 2, c.f 40 2].filter fun g => decide (g ≠ 0)⟩ } }
  (served 0x0801 c s = true → exec (.bollardAlloc c) s = .next (doneWith s c
    (if c.f 32 2 = 0xFFFF then more else more.setSq (c.f 32 2) fun q => { q with bollard := some first }) (leBytes 4 first ++ zeros 4))) ∧
  (served 0x0802 c s = true → exec (.bollardFree c) s = .next (doneWith s c { u with boll := { u.boll with
    list := u.boll.list.filter fun b => !decide (c.f 16 4 ≤ b.id ∧ b.id < c.f 16 4 + c.f 20 2) } })) ∧
  (served 0x0803 c s = true → ∀ b, u.bollardAt (c.f 16 8) = some b → exec (.bollardSignalCmd c) s = .next (doneWith s c
    (u.signalRun b.id (c.f 24 1) (c.f 32 8)) (leBytes 8 b.value.toNat))) ∧
  (served 0x0804 c s = true → ∀ b, u.bollardAt (c.f 16 8) = some b → condHolds (c.f 24 1) b.value.toNat (c.f 32 8) = true →
    exec (.bollardWaitCmd c) s = .next (pendingWith s c u (.bollardWait b.value.toNat))) ∧
  (served 0x0804 c s = true → ∀ b, u.bollardAt (c.f 16 8) = some b → condHolds (c.f 24 1) b.value.toNat (c.f 32 8) = false →
    u.waitRoom c.guest = true → exec (.bollardWaitCmd c) s = .next (pendingWith s c
      (u.addWait ⟨0, b.id, c.guest, c.f 24 1, c.f 32 8, none, u.now + c.f 28 4 * 8000000, .ticket s.inn.nextTicket⟩)
      (.bollardWait b.value.toNat))) ∧
  (served 0x0805 c s = true → ∀ b, u.bollardAt (c.f 16 8) = some b → exec (.bollardTryWait c) s = .next (readWith c u
    (leBytes 8 b.value.toNat ++ leBytes 1 (b2n (condHolds (c.f 24 1) b.value.toNat (c.f 32 8))) ++ zeros 7)))

/-- The commands on bundles, links and the fabric (spec 14: R562–R566) when every check lets them through; BUNDLE_SET and FABRIC_SET are
only staged, and their effect comes at the turn. -/
def Obligations.FabricCommands : Prop := ∀ (c : RelasCmd) (s : State), let u := s.taken c
  let opened := u.setBundle (c.f 16 1) fun b => { b with opened := true }
  (staged 0x0901 c s = true → ∀ x, u.set c.setId = some x → x.takes c = true → exec (.bundleSet c) s = .next (stagedWith s c x)) ∧
  (∀ n t b, t.bundle (c.f 16 1) = some b → (relasTable 0x0901).map (fun op => op.effect c n t) = some
    (if c.f 17 1 = 0 then
      if b.opened then t.setBundle b.id (fun b => { b with closing := true })
      else { t with fabric := { t.fabric with bundles := t.fabric.bundles.filter fun x => decide (x.id ≠ c.f 16 1) } }
    else if b.opened then t.setBundle b.id fun b => { b with agents := (bundleOf c).agents, fwdPct := (bundleOf c).fwdPct }
    else { t with fabric := { t.fabric with bundles := (t.fabric.bundles.filter fun x => decide (x.id ≠ c.f 16 1)) ++ [bundleOf c] } }, .done)) ∧
  (∀ n t, t.bundle (c.f 16 1) = none → (relasTable 0x0901).map (fun op => op.effect c n t) = some
    (if c.f 17 1 = 0 then t
    else { t with fabric := { t.fabric with bundles := (t.fabric.bundles.filter fun x => decide (x.id ≠ c.f 16 1)) ++ [bundleOf c] } }, .done)) ∧
  (served 0x0902 c s = true → ∀ b, opened.bundle (c.f 16 1) = some b → exec (.bundleOpen c) s = .next (doneWith s c
    (if b.kind = .causeway then opened.spanChanged.announceCapacity else opened)
    (leBytes 8 (sumNat ((opened.upLinks b).map (2 ^ ·)))))) ∧
  (∀ n b, s.bundle n = some b → b.closing = true → s.inUse n (fun _ => true) = false →
    (b.kind = .jetty ∨ s.ord.outstanding.any (fun o => s.fabric.route s.self (s.target o.msg) = .direction b.direction) = false) →
    exec (.bundleClose n) s = .next ({ s with fabric := { s.fabric with
      bundles := s.fabric.bundles.filter fun x => decide (x.id ≠ n) } }).spanChanged) ∧
  (served 0x0903 c s = true → ∀ l, u.link (c.f 16 1) = some l → exec (.linkQuery c) s = .next (readWith c (u.drewN 18)
    (leBytes 1 l.state.code ++ leBytes 1 l.step ++ leBytes 1 l.laneMap.length ++
      leBytes 1 (if l.spare.isSome then 1 else if u.fabric.profile.spareLane then 2 else 0) ++
      leBytes 2 (sumNat (l.failedWaves.map (2 ^ ·))) ++ zeros 2 ++ (l.figures.map (leBytes 8)).flatten ++
      ((List.range 9).map fun i => leBytes 2 (u.freeAt (2 * i)) ++ leBytes 2 (u.freeAt (2 * i + 1))).flatten))) ∧
  (served 0x0904 c s = true → c.f 17 1 = 0 → exec (.linkRecal c) s = .next (pendingWith s c (u.recalRings (c.f 16 1)) (.linkRecal (c.f 16 1)))) ∧
  (served 0x0904 c s = true → c.f 17 1 ≠ 0 → exec (.linkRecal c) s = .next (pendingWith s c
    ((u.linkDown (c.f 16 1) true).setLink (c.f 16 1) fun l => { l with
      state := .training, step := 1, stepBegan := (u.linkDown (c.f 16 1) true).now, retrain := true, heldIdent := false
      recalTicket := s.inn.nextTicket }) (.linkRecal (c.f 16 1)))) ∧
  (staged 0x0905 c s = true → ∀ x, u.set c.setId = some x → x.takes c = true → exec (.fabricSet c) s = .next (stagedWith s c x)) ∧
  (∀ n t, ∃ v, (relasTable 0x0905).map (fun op => op.effect c n t) = some (v, .done) ∧ v.fabric = { t.fabric with
    set := true, shoreId := c.f 16 2, dimX := c.f 18 1, dimY := c.f 19 1, dimZ := c.f 20 1, profile := profileOf (c.f 21 1)
    links := t.fabric.links.map fun l => if profileOf (c.f 21 1) = t.fabric.profile ∨ l.state ≠ .up then l else
      { l with laneMap := (startLanes (profileOf (c.f 21 1)) l.failedWaves).1, spare := (startLanes (profileOf (c.f 21 1)) l.failedWaves).2 } })

/-- The commands of family 0x0A (spec 17: R671, R675–R678) when every check lets them through. -/
def Obligations.FaultCommands : Prop := ∀ (c : RelasCmd) (s : State), let u := s.taken c
  let first := min (max (c.f 16 4) (u.obs.recordNext - u.obs.records.length)) u.obs.recordNext
  let found := (u.obs.records.drop (first - (u.obs.recordNext - u.obs.records.length))).take (c.f 20 2)
  let retired := (u.retireUnit (c.f 16 1) (c.f 18 2) false).singleFault (c.f 16 1)
  (served 0x0A01 c s = true → exec (.faultRead c) s = .next (readWith c u
    (leBytes 4 (first + found.length) ++ leBytes 4 u.obs.recordLost ++ found.flatten))) ∧
  (served 0x0A02 c s = true → c.f 20 1 = 0 → exec (.unitRetire c) s = .next (pendingWith s c
    (u.announceUnit (c.f 16 1) (c.f 18 2) s.inn.nextTicket) (.retire (c.f 16 1) (c.f 18 2)))) ∧
  (served 0x0A02 c s = true → c.f 20 1 ≠ 0 → exec (.unitRetire c) s = .next (pendingWith s c
    (if c.f 16 1 = 9 then { retired with brk := { retired.brk with reductions := retired.brk.reductions ++
      [⟨resPorter, slotOf ((slotOf u.now + 1) * slotTicks), u.capAt resPorter (slotOf ((slotOf u.now + 1) * slotTicks)) - 100⟩] } }
    else retired) (.retire (c.f 16 1) (c.f 18 2)))) ∧
  (served 0x0A03 c s = true → exec (.weatherQuery c) s = .next (readWith c u
    (leBytes 2 (u.score (c.f 16 1) (c.f 18 2)) ++ zeros 6 ++
      ((u.ratios (c.f 16 1) (c.f 18 2) ++ [Frac.mk' (u.marginOf (c.f 16 1) (c.f 18 2)) 1000]).map fun x => leBytes 4 (fracFp32 x)).flatten))) ∧
  (served 0x0A04 c s = true → exec (.logbookRead c) s = .next (readWith c u
    (leBytes 4 (min (c.f 16 4) u.obs.log.length + ((u.obs.log.drop (c.f 16 4)).take (c.f 20 2)).length) ++ zeros 4 ++
      (((u.obs.log.drop (c.f 16 4)).take (c.f 20 2)).map LogEntry.bytes).flatten))) ∧
  (served 0x0A05 c s = true → exec (.quarantineRelease c) s = .next (doneWith s c
    ((u.setGuest (c.f 16 2) fun g => { g with quarantined := false }).report
      ⟨evQuarantineReleased, sevCorrected, 0, 0, 0, c.f 16 2, 0, 0, 7⟩)))

/-- The commands of family 0x0B (spec 18: R690, R691, R695, R705, R706) when every check lets them through, and the end of a debug grant. -/
def Obligations.TrustCommands : Prop := ∀ (c : RelasCmd) (s : State), let u := s.taken c
  let granted := { u with trust := { u.trust with nonce := none, grants := u.trust.grants ++ [(c.f 17 1, c.f 24 8)] } }
  (served 0x0B01 c s = true → exec (.mailboxBind c) s = .next (doneWith s c
    (u.setChan { u.chanRec (boundChannel c) with bound := if c.f 20 1 = 1 then none else some (c.f 22 2, c.f 24 2) }))) ∧
  (served 0x0B02 c s = true → exec (.keySlotLoad c) s = .next (doneWith s c { u with trust := { u.trust with
    slots := u.trust.slots ++ [⟨c.f 16 2, c.f 18 2,
      if c.f 20 1 = 0 then slice c.bytes 24 64 else leBytes 64 (Config.crypto (serial ++ slice c.bytes 16 176)), false⟩] } })) ∧
  (served 0x0B03 c s = true → exec (.keySlotClear c) s = .next (doneWith s c { u with trust := { u.trust with
    slots := u.trust.slots.filter fun k => decide (k.slot ≠ c.f 16 2) } })) ∧
  (served 0x0B04 c s = true → c.f 16 1 = 0 → exec (.debugUnlockNonce c) s = .next (doneWith s c
    ({ u with trust := { u.trust with nonce := some ⟨u.nextFree % 2 ^ 384, u.now, c.f 17 1⟩ } }).drew (leBytes 48 (u.nextFree % 2 ^ 384)))) ∧
  (served 0x0B04 c s = true → c.f 16 1 = 1 → bit (c.f 17 1) 1 = false →
    exec (.debugUnlockGrant c) s = .next (doneWith s c granted.debugChanged)) ∧
  (served 0x0B04 c s = true → c.f 16 1 = 1 → bit (c.f 17 1) 1 = true →
    exec (.debugUnlockGrant c) s = .next (doneWith s c ({ granted with trust := { granted.trust with
      slots := []
      keyless := uniq (u.trust.keyless ++ (u.store.coves.filter fun (k : Cove) => decide (k.keySlot ≠ 0)).map fun (k : Cove) => k.id) } }).debugChanged)) ∧
  ((s.trust.grants.filter fun g => decide (s.now < g.2)) ≠ s.trust.grants →
    exec .debugExpiry s = .next ({ s with trust := { s.trust with
      grants := s.trust.grants.filter fun g => decide (s.now < g.2) } }).debugChanged)

/-- The commands of family 0x0C (spec 03: R138; spec 19: R732; spec 20: R749, R753, R756) when every check lets them through, and the end and
the expiry of a ticket. -/
def Obligations.ObserveCommands : Prop := ∀ (c : RelasCmd) (s : State), let u := s.taken c
  let oldest := u.obs.nextSeq - u.obs.events.length
  let found := (u.obs.events.drop (max (c.f 24 8) oldest - oldest)).take (c.f 18 2)
  let records := (u.mirror.ring.filter fun r => decide (c.f 16 8 ≤ fld r 8 8)).take (c.f 24 2)
  let traced := (u.traceBytes (c.f 18 2)).1
  (served 0x0C01 c s = true → ∀ t, (u.inn.tickets.find? fun t => t.id = c.f 16 4) = some t → exec (.ticketStatus c) s = .next (readWith c u
    (match t.ended with
      | none => leBytes 2 0 ++ leBytes 2 0 ++ leBytes 4 0 ++ leBytes 8 0 ++ leBytes 8 (u.progressOf t)
      | some e => leBytes 2 1 ++ leBytes 2 e.result ++ leBytes 4 e.detail ++ leBytes 8 e.time ++ leBytes 8 t.progress))) ∧
  (∀ n t v r d p, n ≠ 0 → (s.running.find? fun t => t.id = n) = some t → s.ticketWork t = some (v, r, d, p) →
    exec (.ticketEnd n) s = .next (v.endTicket n r d p)) ∧
  (exec (.ticketEnd 0) s = .next s.sweepDying) ∧
  (∀ n t e, t ∈ s.inn.tickets → t.id = n → t.ended = some e → e.time + 80000000000 ≤ s.now → exec (.ticketExpiry n) s =
    .next { s with inn := { s.inn with tickets := s.inn.tickets.filter fun t => decide (t.id ≠ n) } }) ∧
  (served 0x0C02 c s = true → exec (.counterRead c) s = .next (readWith c u
    (leBytes 8 u.now ++ ((List.range (c.f 21 1)).map fun i =>
      leBytes 8 (u.counterValue u.deepFigure (c.f 16 2) (c.f 18 2) (c.f 20 1 + i))).flatten))) ∧
  (served 0x0C03 c s = true → c.f 16 1 = 0 → exec (.eventRingConfigure c) s = .next (doneWith s c { u with obs := { u.obs with stream := {
    u.obs.stream with
    on := decide (c.f 18 1 = 1), minSeverity := c.f 17 1, udpPort := c.f 20 2, collector := slice c.bytes 24 16
    key := some (slice c.bytes 40 32), waiting := if c.f 18 1 = 1 then u.obs.stream.waiting else [] } } })) ∧
  (served 0x0C03 c s = true → c.f 16 1 = 1 → exec (.eventRingRead c) s = .next (readWith c u
    (leBytes 8 (if found.isEmpty then u.obs.nextSeq else max (c.f 24 8) oldest + found.length) ++ leBytes 8 oldest ++
      leBytes 8 u.obs.overwritten ++ (found.map Event.bytes).flatten))) ∧
  (served 0x0C04 c s = true → c.f 16 1 = 0 → exec (.traceConfigure c) s = .next (doneWith s c { u with obs := { u.obs with trace :=
    ⟨c.f 17 1, c.f 18 1, c.f 19 1, c.f 24 8, c.f 32 8,
      u.obs.trace.dirty || (Trace.mk (c.f 17 1) (c.f 18 1) (c.f 19 1) (c.f 24 8) (c.f 32 8) u.obs.trace.dirty).runs⟩ } })) ∧
  (served 0x0C04 c s = true → c.f 16 1 = 1 → exec (.traceRead c) s = .next (readWith c
    (if traced.obs.trace.runs then (traced.count 0x0D 0 3 (traced.nextFree % 2 ^ 32)).drew else traced)
    (leBytes 8 (u.traceBytes (c.f 18 2)).2.1 ++ (u.traceBytes (c.f 18 2)).2.2))) ∧
  (served 0x0C05 c s = true → c.f 16 8 = 2 ^ 64 - 1 → exec (.tollRead c) s = .next (readWith c u
    (leBytes 8 (u.mirror.expected.getD 0) ++ leBytes 8 u.mirror.first ++ u.mirror.status))) ∧
  (served 0x0C05 c s = true → c.f 16 8 ≠ 2 ^ 64 - 1 → exec (.tollRead c) s = .next (readWith c u
    (leBytes 8 (match records.getLast? with
      | some r => fld r 8 8 + 1
      | none => c.f 16 8) ++ leBytes 8 u.mirror.first ++ records.flatten)))

/-- The staging commands (spec 03: R151–R156, R159, R820) when every check lets them through, from an agent of this shore; and what a staged
command of any family does. The preparation time of a check is a free value (`prepOf`). -/
def Obligations.ConfigCommands : Prop := ∀ (c : RelasCmd) (s : State), let u := s.taken c
  (∀ n x, staged n c s = true → u.set c.setId = some x → x.takes c = true → exec (.stageCommand c) s = .next
    (if n / 256 = 2 then s.replicateChanges (stagedWith s c x) else stagedWith s c x)) ∧
  ((∀ n, c.chan ≠ .shore n) →
    (served 0x0D01 c s = true → exec (.configOpen c) s = .next (doneWith s c
      (u.setSet ⟨c.f 16 1, .opened, [], 0, 0, [], 0, none, false, none, 0⟩))) ∧
    ∀ x, u.set (c.f 16 1) = some x →
    (served 0x0D02 c s = true → exec (.configDiscard c) s = .next (doneWith s c
      (u.setSet { x with state := .discarded, verified := false }))) ∧
    (served 0x0D03 c s = true → ∀ i, checkCmds relasTable x.staged (copyAfter relasTable u.scheduled u) = some i →
      exec (.configCheck c) s = .next
        ((u.setSet { x with state := .opened, tag := c.f 20 4, prep := prepOf x (c.f 17 1), failing := some i }).answer c
          (response c Result.conflict i 0 0 (checkBody (prepOf x (c.f 17 1)) x.staged.length (some i))))) ∧
    (served 0x0D03 c s = true → checkCmds relasTable x.staged (copyAfter relasTable u.scheduled u) = none →
      (c.f 17 1 = 0 ∨ (x.references u.self).isEmpty) → exec (.configCheck c) s = .next (doneWith s c
        (u.setSet { x with state := .checked, tag := c.f 20 4, prep := prepOf x (c.f 17 1), failing := none })
        (checkBody (prepOf x (c.f 17 1)) x.staged.length none))) ∧
    (served 0x0D03 c s = true → checkCmds relasTable x.staged (copyAfter relasTable u.scheduled u) = none → c.f 17 1 ≠ 0 →
      (x.references u.self).isEmpty = false → (x.references u.self).filter (fun r => u.faults.dead.contains r.2.1) = [] →
      exec (.configCheck c) s = .next ((tagged u.askTag (x.references u.self)).foldl
        (fun s q => s.ask q.1 q.2.2.1 q.2.2.2.1 q.2.2.2.2 (c.f 20 4))
        { u with inn := { u.inn with checks := u.inn.checks ++
          [⟨c, (tagged u.askTag (x.references u.self)).map fun q => (q.1, q.2.2.1, q.2.1), [], u.now⟩] } })) ∧
    (served 0x0D04 c s = true → exec (.configTurn c) s = .next (pendingWith s c
      (u.setSet { x with
        state := .scheduled, turnTime := c.f 24 8, parts := (List.range 512).filter fun n => bit (c.f 32 64) n, verified := false
        vetoer := none, ticket := s.inn.nextTicket }) (.turn x.id (c.f 24 8)))) ∧
    (served 0x0D05 c s = true → exec (.configCancel c) s = .next (doneWith s c
      ((u.sendVeto x).setSet { x with state := .vetoed, vetoer := some u.self }))) ∧
    (served 0x0D06 c s = true → exec (.configQuery c) s = .next (readWith c u
      (leBytes 1 x.state.code ++ zeros 7 ++ leBytes 8 x.turnTime ++ leBytes 4 x.staged.length ++ leBytes 4 (failingIndex x.failing)))))

/-- The events of configuration sets (spec 03: R155–R160) and the messages of the MAILBOX channels (spec 14: R572; spec 02: R114). -/
def Obligations.SetEvents : Prop := ∀ (s : State),
  (∀ n x, s.set n = some x → x.state = .scheduled → x.verified = false → x.turnTime ≤ s.now + 800000 →
    exec (.turnVerify n) s = .next (if (checkCmds relasTable x.staged s).isNone then s.setSet { x with verified := true }
      else (s.sendVeto x).setSet { x with state := .failed, verified := false })) ∧
  (∀ n x, s.set n = some x → x.state = .scheduled → x.turnTime ≤ s.now → (s.before x.turnTime x.id).isEmpty = true →
    (∀ v, x.vetoer = some v → exec (.turn n) s = .next (s.asOf x.turnTime fun s =>
      (s.setSet { x with state := .vetoed }).endTicket x.ticket Result.conflict v 0)) ∧
    (x.vetoer = none → x.verified = true → exec (.turn n) s = .next (s.asOf x.turnTime fun s =>
      ((State.replicateChanges s (State.resized s (applySet relasTable x.staged s)).sweepDying).setSet
        { x with state := .turned, verified := false }).endTicket x.ticket Result.done 0 0))) ∧
  (∀ n k, (s.inn.checks.find? fun k => k.waiting.any fun w => w.1 = n) = some k → k.began + 8000000 ≤ s.now →
    exec (.fabricCheckTimeout n) s = .next (s.fabricAnswer n (some (firstReference
      (((s.set (k.cmd.f 16 1)).map fun x => x.references s.self).getD [])
      (((k.waiting.find? fun w => w.1 = n).map (·.2.1)).getD 0))))) ∧
  ∀ (m : SxfMsg), s.portRefusal m = none →
  (m.op = Sxf.veto → m.dest = s.self → ∀ x, (s.scheduled.find? fun x =>
      bits m.unit0 102 71 ≠ 0 ∧ x.tag = bits m.unit0 102 71 ∧ s.now < x.turnTime) = some x →
    exec (.veto m) s = .next ((s.setSet { x with vetoer := some (x.vetoer.getD m.src) }).reply m Sxf.ctlAck Status.ok 0 0 false false [])) ∧
  (m.op = Sxf.mailbox → s.inn.booted = true → (s.bundle m.via).any (fun b => b.kind = .jetty) = true →
    (s.chanRec (.sxf m.via (bits m.unit0 11 8))).outstanding = [] → exec (.mailbox m) s = .next
      (s.setChan { s.chanRec (.sxf m.via (bits m.unit0 11 8)) with outstanding := [commandOf m], tag := m.tag })) ∧
  (m.op = Sxf.mailbox → s.inn.booted = true → (s.bundle m.via).any (fun b => b.kind = .jetty) = false → m.dest = s.self →
    exec (.mailbox m) s = .next (s.setChan { s.chanRec (.shore m.src) with
      bound := some (0, 0), outstanding := (s.chanRec (.shore m.src)).outstanding ++ [commandOf m], kept := [] })) ∧
  (m.op = Sxf.mailboxRsp → m.dest = s.self → m.tag < 2048 → ∀ p, (s.store.pulls.find? fun p => p.index + 1 = m.tag ∧ !p.confirmed) = some p →
    exec (.mailboxRsp m) s = .next (if m.f 6 2 = Result.done then
        ({ s with store := { s.store with
          pulls := mapIf (fun x => x.index = p.index) (fun x => { x with confirmed := true }) s.store.pulls } }).endTicket p.ticket Result.done 0 0
      else (s.dropPull p.index).endTicket p.ticket Result.conflict 16 0)) ∧
  (m.op = Sxf.mailboxRsp → m.dest = s.self → 2048 ≤ m.tag → exec (.mailboxRsp m) s = .next (s.fabricAnswer m.tag
    (if m.f 6 2 = Result.done then none
      else ((s.inn.checks.map (·.waiting)).flatten.find? fun w => w.1 = m.tag).map (·.2.2))))

/-- The firmware commands (spec 03: R161–R165) when every check lets them through, the end of a live activation, and a lockstep mismatch
(spec 17: R649). -/
def Obligations.FirmwareCommands : Prop := ∀ (c : RelasCmd) (s : State), let u := s.taken c
  let f := u.inn.fw
  (served 0x0F01 c s = true → exec (.fwWrite c) s = .next (doneWith s c ((u.setFw (f.setSlot (c.f 16 1)
    ⟨Mem.write (f.slot (c.f 16 1)).bytes (c.f 20 4) (slice c.bytes 24 (c.len - 24)), false⟩)).emit (.nor (slice c.bytes 24 (c.len - 24)))))) ∧
  (served 0x0F02 c s = true → exec (.fwVerify c) s = .next (pendingWith s c u (.fwVerify (c.f 16 1)))) ∧
  (served 0x0F03 c s = true → exec (.fwActivate c) s = .next (pendingWith s c
    (u.setFw (if c.f 17 1 = 1 then { f with next := c.f 16 1 }
      else { f with activating := some (c.f 16 1), started := u.now, actTicket := s.inn.nextTicket, refusing := true }))
    (.fwActivate (c.f 16 1)))) ∧
  (served 0x0F04 c s = true → exec (.fwQuery c) s = .next (readWith c u
    (leBytes 1 f.running ++ leBytes 1 f.next ++ leBytes 1 (b2n f.slotA.verified + 2 * b2n f.slotB.verified) ++ zeros 1 ++
      leBytes 2 f.slotA.release ++ leBytes 2 f.slotB.release))) ∧
  (∀ k, s.inn.fw.activating = some k → let v := (s.setFw { s.inn.fw with
      running := k, next := k, activating := none, refusing := false }).closeAllTls
    exec .fwSelfCheckPass s = .next (({ v with trust := { v.trust with
      svnRaised := if (s.inn.fw.slot k).commits then max v.trust.svnRaised (s.inn.fw.slot k).svn else v.trust.svnRaised
      spdm := [], liveActivations := u32 (v.trust.liveActivations + 1) } }.count 0x0C 0 5 1).endTicket s.inn.fw.actTicket Result.done 0 0)) ∧
  (∀ k, s.inn.fw.activating = some k → ¬ s.now < s.inn.fw.started + 4000000000 → exec .fwSelfCheckTimeout s = .next
    (((s.setFw { s.inn.fw with activating := none, refusing := false }).closeAllTls).endTicket s.inn.fw.actTicket Result.internal 1 0)) ∧
  (∀ pair, pair ≤ 1 → s.inn.booted = true →
    let v := (({ s with trust := { s.trust with pairRestarts := u32 (s.trust.pairRestarts + 1) } }).report
      ⟨evFault, sevRecovered, 0x7, pair, 2, 0, 0, 0, 0⟩).closeAllTls
    exec (.lockstepMismatch pair true) s = .next (v.setFw { v.inn.fw with refusing := v.inn.fw.activating.isSome }))

/-- The commands of family 0x0E when every check lets them through, and the power events (spec 21: R766–R780; Tables 17-1, 21-6, 21-8). -/
def Obligations.PowerEvents : Prop := ∀ (c : RelasCmd) (s : State), let u := s.taken c
  (served 0x0E01 c s = true → exec (.powerCapSet c) s = .next (doneWith s c (({ u with power := { u.power with capNext := some (c.f 16 2,
    if c.f 24 8 ≠ 0 then c.f 24 8 else if u.capLowers (c.f 16 2) then slotStart (u.now + 800000000)
      else (slotOf u.now + 1) * slotTicks) } }).interrupt 5))) ∧
  (served 0x0E02 c s = true → exec (.thermalQuery c) s = .next (readWith c u
    ((u.power.temps.map leSigned).flatten ++ leBytes 2 (inForce u.power.capW u.power.capNext u.now) ++ leBytes 2 (u.fAt u.now) ++
      leBytes 2 (inForce u.power.fThermal u.power.thermalNext u.now) ++ zeros 6 ++ leBytes 8 u.nextChange ++
      leBytes 2 (if u.nextChange = 0 then 0 else u.fAt u.nextChange) ++ zeros 6))) ∧
  (served 0x0E03 c s = true → exec (.stateSet c) s = .next (pendingWith s c
    (u.stateSet (c.f 16 1) (c.f 17 1 = 1) s.inn.nextTicket) .stateSet)) ∧
  (∀ g, s.power.goal = some g → g.target = 0 → s.guestWork = 0 → s.power.state = .service → exec .stateReached s = .next
    ((({ s with power := { s.power with goal := none } }).become .strict 1).endTicket g.ticket Result.done 0 0)) ∧
  (s.power.state = .draining → s.power.offline = true → s.queues.descs = [] → s.plainWork = false → exec .offlineHalt s = .next
    (((s.deep.dies.map (·.number)).foldl State.saveWear s).writeLog.halt 9)) ∧
  (∀ x, s.power.capNext = some x → x.2 ≤ s.now → s.power.thermalNext = none → exec .powerCapEffect s = .next
    (({ s with power := { s.power with capW := x.1, capNext := none } }).interrupt 5)) ∧
  (∀ r, s.power.rails.contains r = true → r ≠ 10 → r ≠ 7 → r ≠ 9 → s.power.state ≠ .off →
    let v := ((({ s with power := { s.power with rails := s.power.rails.filter fun x => decide (x ≠ r) } }).report
      ⟨evFault, sevFailed, 0xA, r, 10, 0, 0, 0, 0⟩).halt 3)
    exec (.railFault r) s = .next (if r = 0 ∨ r = 1 ∨ r = 8 then { v with power := { v.power with state := .off } } else v)) ∧
  (s.power.resetHeld = false → s.power.state ≠ .off → exec (.shoreRstN true) s = .next
    (({ s with power := { s.power with resetHeld := true } }).restart 10)) ∧
  (s.power.resetHeld = true → s.railsGood = true → exec (.shoreRstN false) s = .next
    (({ s with power := { s.power with resetHeld := false } }).restart 10)) ∧
  (∀ d, d ≤ 2 → s.power.state ≠ .off → exec (.clockFault d false) s = .next
    ((s.report ⟨evFault, sevFailed, 0xB, d, 10, 0, 0, 0, 0⟩).halt 4)) ∧
  (∀ n l, n ≤ 2 → s.power.state ≠ .off → exec (.quayError n true l) s = .next
    ((s.report ⟨evFault, sevFailed, 0x5, n, 10, 0, 0, 0, 0⟩).halt 6))

/-- The start of the device (spec 21: R760, R762, R763; spec 18: R696; spec 16: R615–R617), thermal samples (R781, R782) and PERST (R765). -/
def Obligations.StartEvents : Prop := ∀ (s : State),
  (∀ r, r ≤ 10 → s.power.rails.contains r = false → let v := { s with power := { s.power with rails := s.power.rails ++ [r] } }
    exec (.railGood r) s = .next (if v.railsGood && s.power.state == .off && !s.power.resetHeld then v.restart 0 else v)) ∧
  (∀ a b, s.power.state = .waking → s.inn.booted = false → s.power.resetHeld = false →
    (if s.inn.fw.next = 0 then a else b) = true →
    exec (.innkeeperBoot a b) s = .next { s with inn := { s.inn with fw := { s.inn.fw with running := s.inn.fw.next }, booted := true } }) ∧
  (∀ parts bad, s.power.state = .waking → s.inn.booted = true → s.power.resetHeld = false → bad.all (fun k => decide (k < 8)) = true →
    let v := (bad.foldl (fun s k => s.retireStack k true) (s.populate parts)).setVcore.become .strict 0
    exec (.wakingComplete parts bad) s = .next (v.lockedIn (v.clock.everLocked && !v.power.hold) 2)) ∧
  (∀ temps projected, temps.length = 26 → s.power.state ≠ .off → s.power.state ≠ .halted →
    let v := { s.setVcore with power := { s.setVcore.power with
      temps := temps, coolSince := if allBelow temps (-10) then some (s.setVcore.power.coolSince.getD s.setVcore.now) else none } }
    (anyAt temps 5 = true → exec (.thermalSample temps projected) s = .next
      ((({ v with power := { v.power with tripped := true } }).halt 5).emit (.pin "THERM_TRIP_N" false))) ∧
    (anyAt temps 5 = false → anyAt temps 0 = false →
      exec (.thermalSample temps projected) s = .next (if projected then v.coolDown else v.warmUp))) ∧
  (∀ p x, s.port p = some x →
    (let v := ((s.linkOff p).flr p).setPort p fun x => { x with perst := true, d3hot := false, biEnabled := false };
      exec (.perst p true) s = .next { v with regs := v.regs.filter fun y => decide (y.view ≠ .host p) }) ∧
    (x.perst = true → exec (.perst p false) s = .next ((s.setPort p fun y => { y with perst := false }).resetBoxes p)))

/-- Register accesses of a host port that is up (spec 23: R26, R792–R799; spec 20: R736). -/
def Obligations.RegisterAccess : Prop := ∀ (a : RegAccess) (p : Nat) (s : State), hostReaches a p s = true →
  (regAllowed a = false → a.write = true → exec (.badRegisterAccess a) s = .next (s.countBad a)) ∧
  (regAllowed a = false → a.write = false → exec (.badRegisterAccess a) s = .next
    ((s.countBad a).emit (.reg a.view (2 ^ (8 * a.width) - 1)))) ∧
  (regAllowed a = true → a.write = false → a.width = 4 → placeOf a.bar a.off = .shore 0x1010 → a.off % 8 = 0 →
    exec (.tidetimeLowRead a) s = .next (({ s with clock := { s.clock with
      latches := (s.clock.latches.filter fun x => !latchOf a x) ++ [(a.view, a.agent, u64 s.now / 2 ^ 32)] } }).emit
        (.reg a.view (u64 s.now % 2 ^ 32)))) ∧
  (regAllowed a = true → a.write = false → a.width = 4 → placeOf a.bar a.off = .shore 0x1010 → a.off % 8 ≠ 0 →
    exec (.tidetimeLowRead a) s = .next (({ s with clock := { s.clock with latches := s.clock.latches.filter fun x => !latchOf a x } }).emit
      (.reg a.view (((s.clock.latches.find? (latchOf a)).map fun (x : View × Nat × Nat) => x.2.2).getD (u64 s.now / 2 ^ 32))))) ∧
  (regAllowed a = true → a.write = false → placeOf a.bar a.off = .perView 0x1118 → (a.width ≠ 4 ∨ a.off % 8 ≠ 4) →
    exec (.badAccessRead a) s = .next ((s.setView { s.view a.view with badCount := 0 }).emit
      (.reg a.view (halfOf a (s.regValue a.view a.agent a.bar a.off))))) ∧
  (regAllowed a = true → a.write = false → placeOf a.bar a.off = .perView 0x1120 → (a.width ≠ 4 ∨ a.off % 8 ≠ 4) →
    exec (.doorbellDeniedRead a) s = .next ((s.setView { s.view a.view with deniedCount := 0 }).emit
      (.reg a.view (halfOf a (s.regValue a.view a.agent a.bar a.off))))) ∧
  (regAllowed a = true → a.write = true → placeOf a.bar a.off = .perView 0x1100 → exec (.intStatusWrite a) s = .next
    (s.setInt p ((s.view (.host p)).status - ((s.view (.host p)).status &&& intBits a)) (s.view (.host p)).enable)) ∧
  (regAllowed a = true → a.write = true → regLow a = true → placeOf a.bar a.off = .perView 0x1108 → exec (.intEnableWrite a) s = .next
    (s.setInt p (s.view (.host p)).status (intBits a))) ∧
  (regAllowed a = true → a.write = true → placeOf a.bar a.off = .perView 0x1110 → exec (.intSetWrite a) s = .next
    (s.setInt p ((s.view (.host p)).status ||| intBits a) (s.view (.host p)).enable)) ∧
  (regAllowed a = true → a.write = true → ∀ m,
    (placeOf a.bar a.off = .mbxRegister m 8 → regLow a = true → bit (regPlaced a) 2 = true → exec (.registerWrite a) s = .next
      (s.setBox { s.box p m with overrun := false })) ∧
    (placeOf a.bar a.off = .mbxRegister m 0x10 → regLow a = true → exec (.registerWrite a) s = .next
      (s.setBox { s.box p m with vector := regPlaced a % 2048, notify := bit (regPlaced a) 16 })) ∧
    (∀ o, placeOf a.bar a.off = .mbxCmd m o → exec (.registerWrite a) s = .next
      (s.setBox { s.box p m with cmd := spliceCmd (s.box p m).cmd o (leBytes a.width a.data) })))

/-- Doorbells (spec 23: R804–R807; spec 06: R264, R272), the mailboxes' doorbell (spec 03: R122, R123), and register messages of a jetty
(spec 14: R572). -/
def Obligations.Doorbells : Prop := ∀ (a : RegAccess) (p : Nat) (s : State),
  (hostReaches a p s = true → regAllowed a = true → a.write = true →
    (∀ q x, placeOf a.bar a.off = .doorbell q 0 → s.sq q = some x → s.mayUse a.view a.agent x.guest = true →
      exec (.sqTail a) s = .next (if 2 ^ 16 ≤ regPlaced a ∨ x.depth ≤ regPlaced a then s.doorbellError x.id
        else s.setSq x.id fun y => { y with tail := regPlaced a })) ∧
    (∀ q x, placeOf a.bar a.off = .doorbell q 0 → s.sq q = some x → s.mayUse a.view a.agent x.guest = false →
      exec (.sqTail a) s = .next (s.countDenied a q 0 false)) ∧
    (∀ q x, placeOf a.bar a.off = .doorbell q 1 → s.cq q = some x → s.mayUse a.view a.agent x.guest = true →
      headFits x.depth x.head x.write (regPlaced a) = true →
      exec (.cqHead a) s = .next (s.setCq x.id fun y => { y with head := regPlaced a })) ∧
    (∀ q x, placeOf a.bar a.off = .doorbell q 2 → s.sq q = some x → s.mayUse a.view a.agent x.guest = true →
      regPlaced a < 2 ^ 17 → headFits x.errDepth x.errHead x.errWrite (regPlaced a % 2 ^ 16) = true →
      (bit (regPlaced a) 16 = false → exec (.errHead a) s = .next
        (s.setSq x.id fun y => { y with errHead := regPlaced a % 2 ^ 16 })) ∧
      (bit (regPlaced a) 16 = true → exec (.errHeadResume a) s = .next
        (s.setSq x.id fun y => { y with errHead := regPlaced a % 2 ^ 16, stopped := false }))) ∧
    (∀ m, placeOf a.bar a.off = .mbxRegister m 0 →
      ((s.box p m).busy = true → exec (.mbxDoorbell a) s = .next ((s.setBox { s.box p m with overrun := true }).count 0x0C 0 4 1)) ∧
      ((s.box p m).busy = false → let v := s.setBox { s.box p m with busy := true, done := false }
        exec (.mbxDoorbell a) s = .next (v.setChan { v.chanRec (.mailbox p m) with outstanding := [bufferedCommand (s.box p m).cmd] })))) ∧
  ∀ (m : SxfMsg), s.portRefusal m = none →
    (m.op = Sxf.regRead → s.jettyReads (regAccessOf m false) = true → regAllowed (regAccessOf m false) = true →
      exec (.regRead m) s = .next ((s.regRead (regAccessOf m false)).1.reply m Sxf.done Status.ok 0
        (s.regRead (regAccessOf m false)).2 false false [])) ∧
    (∀ q k, m.op = Sxf.regWrite → s.jettyWrites (regAccessOf m true) = true → regAllowed (regAccessOf m true) = true →
      placeOf (regAccessOf m true).bar (regAccessOf m true).off = .doorbell q k → exec (.regWrite m) s = .next
        ((s.doorbell (regAccessOf m true) q k).reply m Sxf.done Status.ok 0 0 false false []))

/-- A descriptor's life beside its own work (spec 06: R267, R268, R273, R279, R280, R282, R285, R298; spec 02: R83; spec 07: R328;
spec 20: R751). -/
def Obligations.DescriptorLife : Prop := ∀ (s : State),
  (∀ n q, s.sq n = some q → s.fetchable q = true →
    let k := slotsOf (s.nextSize q)
    let b := s.slotBytes q k
    let u := s.setSq n fun x => { x with head := (q.head + k) % q.depth, fetched := x.fetched + 1 }
    let v := ((u.writeAt (gpaOffset q.headGpa) (leBytes 4 ((q.head + k) % q.depth) ++ zeros 4)).count 2 n 0 1).offer q.guest ⟨0, 1⟩
    (∀ st ca r, headerCheck descTable v q b = some (st, ca, r) → exec (.descriptorFetch n) s = .next (v.refusal n (fld b 4 4) q.head st ca r)) ∧
    (headerCheck descTable v q b = none → exec (.descriptorFetch n) s = .next (v.consider descTable q q.head b [] []))) ∧
  (∀ m, m.op = Sxf.pageResponse → ∀ p, s.pageReq m.tag .sxf = some p → p.port = m.via →
    (s.now ≤ p.sent + s.pageTimeout p.guest → exec (.pageResponse m) s = .next (s.resume descTable p (setAdd (p.gva / 4096) p.asked) p.ats)) ∧
    (p.sent + s.pageTimeout p.guest < s.now → exec (.pageResponse m) s = .next (s.count 0x0C 0 2 1))) ∧
  (∀ t p, (s.queues.pageReqs.find? fun p => p.tag = t ∧ (p.kind = .sxf ∨ p.kind = .pri)) = some p → p.sent + s.pageTimeout p.guest ≤ s.now →
    exec (.pageRequestTimeout t) s = .next (s.failWalk p Cause.timeout)) ∧
  (∀ i d, s.desc i = some d → d.phase = .admitted →
    (s.fencesAllow d = true → exec (.descriptorStart i) s = .next (s.setDesc i fun x => { x with phase := .running, stamp := s.now })) ∧
    (s.fencesAllow d = false → exec (.descriptorStart i) s = .next s)) ∧
  (s.brk.slot < slotOf s.now → exec .calendarSlot s = .next
    (s.queues.cqs.foldl State.sendCqNotify { s with brk := { s.brk with
      slot := slotOf s.now, bookings := s.brk.bookings.filter fun b => decide (slotOf s.now < b.first + b.slots) } }).flushDeltas.1) ∧
  (s.brk.recomputed + 800000 ≤ s.now → exec .shareRecompute s = .next s.recompute) ∧
  (∀ i d, s.desc i = some d → s.bookedEnd d ≤ s.now → d.done = none → d.fail = none → d.opcode = 0x14 → d.phase = .waiting →
    exec (.descriptorBookingEnd i) s = .next
      (s.finish i Status.okPartial reasonPaceStall 0 (d.transfer.start + d.progress) (min d.count 0xFFFFFFFF))) ∧
  (∀ i d, atWork 0x7F i s d = true → exec (.nop i) s = .next (noted i d (s.ok d.id 0 0))) ∧
  (∀ i d, atWork 0x70 i s d = true → d.latched = false → exec (.mark i) s = .next (noted i d ((s.count 0x0D 0 4 1).ok d.id (d.f 24 8) (d.f 16 4))))

/-- Porter's work and channels (spec 07: R310–R335; spec 02: R104, R106; spec 08: R369; spec 17: R650). -/
def Obligations.PorterCommands : Prop := ∀ (s : State) (i : Nat) (d : Desc),
  (∀ x ∈ [(0x10, Instr.copy i), (0x11, Instr.fill i), (0x12, Instr.stageIn i), (0x13, Instr.stageOut i)],
    (atWork x.1 i s d = true →
      let v := s.takeChannels d (s.channelCount d)
      let off := d.transfer.start + d.progress
      let n := min 65536 (d.transfer.len - off)
      let w := (v.moveChunk d.id d.transfer off n).1.setDesc d.id fun x => { x with progress := x.progress + n }
      (d.transfer.len ≤ off → exec x.2 s = .next (noted i d (v.porterDone d))) ∧
      (off < d.transfer.len → (v.moveChunk d.id d.transfer off n).2 = false →
        exec x.2 s = .next (noted i d (v.moveChunk d.id d.transfer off n).1)) ∧
      (off < d.transfer.len → (v.moveChunk d.id d.transfer off n).2 = true → ∀ e, w.desc d.id = some e →
        exec x.2 s = .next (noted i d (if e.awaiting.isEmpty ∧ e.fail.isNone ∧ d.transfer.len ≤ off + n then w.porterDone e else w)))) ∧
    (∀ st ca, failedAt x.1 i st ca s d = true → exec x.2 s = .next (s.porterStop (d.atStop st) st ca))) ∧
  (atWork 0x14 i s d = true →
    (d.phase ≠ .waiting → exec (.pacedCopy i) s = .next (noted i d (State.paceStep 6 d.id (s.takeChannels d 1)))) ∧
    (d.phase = .waiting → exec (.pacedCopy i) s = .next (noted i d s) ∧
      (d.wake ≤ s.now → exec (.pacedCopyPoll i) s = .next
        (noted i d (State.paceStep 6 d.id (s.setDesc d.id fun d => { d with phase := .running })))))) ∧
  (atWork 0x15 i s d = true → bit (d.f 33 1) 0 = false → exec (.advise i) s = .next
    (let u := s.advised (s.hereExtents d 0) (adviseCls (d.f 32 1))
    noted i d (u.ok d.id (sumNat ((s.covePieces (s.hereExtents d 0)).map fun p => p.1.changedBytes p.2.1 p.2.2 (adviseCls (d.f 32 1))))
      (u.overridesHeld (s.hereExtents d 0))))) ∧
  (atWork 0x16 i s d = true → d.progress ≠ 0 → ((s.localGranules d 0).all fun g => s.store.harbour.resident g) = true →
    ((s.remoteGranules d 0).all fun g => (s.pulledAt g 0).isSome) = true → exec (.prefetch i) s = .next
      (noted i d (s.ok d.id d.count ((s.localGranules d 0).length + (s.remoteGranules d 0).length - d.count)))) ∧
  (atWork 0x24 i s d = true → exec (.convert i) s = .next (noted i d (s.convertStep d))) ∧
  (∀ st ca, failedAt 0x24 i st ca s d = true → exec (.convert i) s = .next (s.convertStop (d.atStop st) st ca)) ∧
  (∀ n c, (s.porter.channels.find? fun c => c.id = n) = some c → c.st = .running i → exec (.porterRetry n) s = .next
    ((c.retries.filter fun r => r.waiting && decide (r.failedAt + 2000 ≤ s.now)).foldl (fun s r => s.retryAccess n i r) s)) ∧
  (∀ t o, s.transaction t = some o → o.desc = some i → o.sent + 40000 ≤ s.now → (s.desc i).any Desc.porter = true →
    exec (.porterBusTimeout t) s = .next ((s.dropTransaction t).busError o i Cause.busTimeout)) ∧
  (∀ n c t, (s.porter.channels.find? fun c => c.id = n) = some c → c.announced = some t → t ≤ s.now → c.st = .idle →
    exec (.porterChannelRetire n) s = .next (({ s with faults := { s.faults with retired := setAdd (0x9, n) s.faults.retired } }.setChannel n
      fun x => { x with st := .retired, announced := none }).report ⟨evRetired, sevFailed, 0x9, n, 4, 0, 0, 0, 0⟩))

/-- Reduction groups (spec 09: R377–R403). -/
def Obligations.ReduceCommands : Prop := ∀ (s : State),
  (∀ i d, atWork 0x20 i s d = true →
    (∀ g, s.group (d.f 16 2) = some g →
      (d.f 18 1 = 1 → exec (.reduceOpen i) s = .next (noted i d ((s.setGroup g.id fun g => { g with opened := true }).ok d.id g.blocks g.tiles))) ∧
      (d.f 18 1 = 2 → exec (.reduceClose i) s = .next (noted i d
        ((s.closeGroup g.id d.id Status.abortedBySoftware Cause.groupClosed).ok d.id (g.slots * min 32 g.tiles) 0))) ∧
      (d.f 18 1 = 0 → ∀ f, contribFmt (d.f 19 1) = some f →
        (d.elemEnd ≤ d.elemNow → exec (.reduceContribute i) s = .next (noted i d (s.contributeEnd d false))) ∧
        (d.elemNow < d.elemEnd → ∀ e, (s.contributePiece d g f).desc d.id = some e → exec (.reduceContribute i) s = .next (noted i d
          (if e.elemEnd ≤ e.elemNow ∧ e.fail = none then (s.contributePiece d g f).contributeEnd e false else s.contributePiece d g f))))) ∧
    (s.group (d.f 16 2) = none → d.f 18 1 = 0 → exec (.reduceContribute i) s = .next (noted i d
      (s.contributeStop d Status.abortedBySoftware Cause.groupClosed)))) ∧
  (∀ i d, ∀ x ∈ [(0x21, Instr.reduceRead i), (0x22, .updateSgdm i), (0x23, .updateAdamw i)],
    (atWork x.1 i s d = true →
      (s.group (d.f 16 2) = none → exec x.2 s = .next (noted i d (s.consumerStop d Status.abortedBySoftware Cause.groupClosed))) ∧
      (∀ g, s.group (d.f 16 2) = some g →
        (d.elemEnd ≤ d.elemNow → exec x.2 s = .next (noted i d (s.consumerEnd d false))) ∧
        (d.elemNow < d.elemEnd → ∀ e, (s.consumerInst d g).desc d.id = some e → exec x.2 s = .next (noted i d
          (if e.elemEnd ≤ e.elemNow ∧ e.fail = none then (s.consumerInst d g).consumerEnd e false else s.consumerInst d g))))) ∧
    (∀ st ca, failedAt x.1 i st ca s d = true → exec x.2 s = .next (s.consumerStop (d.atStop st) st ca))) ∧
  (∀ n r t g k, s.group n = some g → g.inst r t = some k → k.state = .filling → s.instAt g r t = .failed →
    exec (.instanceExpiry n r t) s = .next
      ((s.setGroup n fun g => g.setInst r t fun i => { i with state := .failed, accs := [] }).groupChanged n)) ∧
  ∀ (m : SxfMsg), m.op = Sxf.red → s.portRefusal m = none → redFrameBad m = false → s.fabric.hasShore m.dest = true → m.dest = s.self →
    (∀ st ca v, s.redRefusal m = some (st, ca, v) → ca ≠ Cause.excess → exec (.red m) s = .next (s.reply m Sxf.done st ca v false false [])) ∧
    (∀ v, s.redRefusal m = some (Status.refusedFormat, Cause.excess, v) → exec (.red m) s = .next
      (({ s with red := { s.red with excess := s.red.excess + redCount m } } : State).reply m Sxf.done Status.refusedFormat Cause.excess v false
        false [])) ∧
    (s.redRefusal m = none → ∀ g f, s.group (redGroup m) = some g → contribFmt (redFmt m) = some f →
      let data := slice m.units 16 (redCount m * (f.elem.width / 8))
      let u := s.addRecord g.id ⟨redRound m, g.tileOf (redElem m), 256, redFmt m, redElem m, redCount m, data, m.poison, []⟩
        ((decodeVec f (redCount m) data []).map fun x => (x, m.poison))
      u.2 = redCount m → exec (.red m) s = .next
        (u.1.flushDeltas.1.replyAfter u.1.flushDeltas.2 m.via (u.1.flushDeltas.1.responseTo m Sxf.done Status.ok 0 0 false false [])))

/-- Work on embedding tables (spec 10: R428–R442; spec 14: R570, R579). -/
def Obligations.TableWork : Prop := ∀ (s : State) (i : Nat) (d : Desc),
  (∀ st ca, failedAt 0x30 i st ca s d = true → exec (.gatherRows i) s = .next (s.gatherStop (d.atStop st) st ca)) ∧
  (∀ st ca, failedAt 0x31 i st ca s d = true → exec (.scatterAddRows i) s = .next (s.scatterStop (d.atStop st) st ca)) ∧
  (∀ st ca, failedAt 0x32 i st ca s d = true → exec (.replaceRows i) s = .next (s.replaceStop (d.atStop st) st ca)) ∧
  (atWork 0x30 i s d = true → ∀ t f, s.workTable d = some t → d.gFmt = some f →
    (d.auxAt 0 = stageIndex → exec (.gatherRows i) s = .next (noted i d (s.gatherBegin d t))) ∧
    (d.auxAt 0 = stageClassify → exec (.gatherRows i) s = .next (noted i d (s.gatherClassify d t))) ∧
    (d.auxAt 0 ≠ stageIndex → d.auxAt 0 ≠ stageClassify →
      (d.gOutputs ≤ d.f 112 4 + d.progress → exec (.gatherRows i) s = .next (noted i d (s.gatherEnd d))) ∧
      (d.f 112 4 + d.progress < d.gOutputs → ∀ e, (s.gatherChunk d t f).desc d.id = some e →
        exec (.gatherRows i) s = .next (noted i d
          (if e.gOutputs ≤ e.f 112 4 + e.progress ∧ e.awaiting = [] ∧ e.fail = none ∧ e.done = none then (s.gatherChunk d t f).gatherEnd e
            else s.gatherChunk d t f))))) ∧
  (atWork 0x31 i s d = true → ∀ t f, s.workTable d = some t → scatterFmt (d.f 18 1) = some f →
    (d.auxAt 0 = stageIndex → exec (.scatterAddRows i) s = .next (noted i d (s.scatterBegin d t))) ∧
    (d.auxAt 0 ≠ stageIndex →
      (d.rows.length ≤ d.progress → exec (.scatterAddRows i) s = .next (noted i d
        (if d.auxAt 4 ≠ 0 then s.scatterEnd d Status.okPartial reasonNoSlot 0 else s.scatterEnd d Status.ok 0 0))) ∧
      (∀ r, d.rows[d.progress]? = some r → ∀ e, (s.scatterOne d t f r).desc d.id = some e → e.progress < e.rows.length →
        exec (.scatterAddRows i) s = .next (noted i d (s.scatterOne d t f r))))) ∧
  (atWork 0x32 i s d = true → ∀ t, s.workTable d = some t →
    (d.f 32 4 ≤ d.progress → exec (.replaceRows i) s = .next (noted i d
      (if d.auxAt 4 ≠ 0 then s.replaceEnd d Status.okPartial reasonNoSlot 0 else s.replaceEnd d Status.ok 0 0))) ∧
    (d.progress < d.f 32 4 → ∀ e, (s.replaceOne d t).desc d.id = some e → e.progress < e.f 32 4 →
      exec (.replaceRows i) s = .next (noted i d (s.replaceOne d t)))) ∧
  (s.workTable d = none →
    (atWork 0x30 i s d = true → exec (.gatherRows i) s = .next (noted i d (s.gatherStop d Status.abortedBySoftware Cause.badTable))) ∧
    (atWork 0x31 i s d = true → exec (.scatterAddRows i) s = .next (noted i d (s.scatterStop d Status.abortedBySoftware Cause.badTable))) ∧
    (atWork 0x32 i s d = true → exec (.replaceRows i) s = .next (noted i d (s.replaceStop d Status.abortedBySoftware Cause.badTable)))) ∧
  (∀ m b, m.op = Sxf.rowRead → s.portRefusal m.norm = none → s.bundle m.via = some b → b.kind = .causeway → s.fabric.hasShore m.dest = true →
    (m.dest = s.self → exec (.rowRead m) s = .next (s.serveRow m)) ∧
    (m.dest ≠ s.self → (s.forward m).2 = true → exec (.rowRead m) s = .next
      ((s.forward m).1.setBundle b.id fun x => { x with forwarded := x.forwarded + 1 })) ∧
    (m.dest ≠ s.self → (s.forward m).2 = false → exec (.rowRead m) s = .next
      (s.refuse m.norm Status.faultDeadTarget Cause.unreachable)))

/-- Work on vector indices (spec 11: R462–R484; spec 14: R571, R579). -/
def Obligations.IndexWork : Prop := ∀ (s : State) (i : Nat) (d : Desc),
  (atWork 0x40 i s d = true → ∀ x e, s.index (d.f 16 2) = some x → queryElem (d.f 18 1) = some e →
    (d.auxAt 0 = stageIndex → exec (.search i) s = .next (noted i d (s.searchBegin d x e))) ∧
    (d.auxAt 0 ≠ stageIndex →
      (d.f 24 4 ≤ d.f 80 4 + d.progress → exec (.search i) s = .next (noted i d (s.searchEnd d))) ∧
      (d.f 80 4 + d.progress < d.f 24 4 → ∀ k, (s.searchQuery d x e).desc d.id = some k → k.f 80 4 + k.progress < k.f 24 4 →
        exec (.search i) s = .next (noted i d (s.searchQuery d x e))))) ∧
  (∀ st ca, failedAt 0x40 i st ca s d = true → exec (.search i) s = .next (s.searchStop (d.atStop st) st ca)) ∧
  (∀ y ∈ [(0x41, Instr.insertVec i, s.insertOne), (0x42, Instr.deleteVec i, s.deleteOne)],
    (atWork y.1 i s d = true →
      (∀ x, s.index (d.f 16 2) = some x →
        (d.vecN ≤ d.vecStart + d.progress → exec y.2.1 s = .next (noted i d (s.vecEnd d))) ∧
        (d.vecStart + d.progress < d.vecN → ∀ e, (y.2.2 d x).desc d.id = some e → e.vecStart + e.progress < e.vecN →
          exec y.2.1 s = .next (noted i d (y.2.2 d x)))) ∧
      (s.index (d.f 16 2) = none → exec y.2.1 s = .next (noted i d (s.vecStop d Status.abortedBySoftware Cause.badIndex)))) ∧
    (∀ st ca, failedAt y.1 i st ca s d = true → exec y.2.1 s = .next (s.vecStop (d.atStop st) st ca))) ∧
  (atWork 0x43 i s d = true →
    (d.f 24 4 ≤ d.progress → exec (.mergeDriftline i) s = .next (noted i d (s.mergeStop d Status.ok 0))) ∧
    (d.progress < d.f 24 4 →
      let r := s.mergeList (d.f 16 2) (d.f 20 4 + d.progress)
      let u := r.1.setDesc d.id fun d => { ((d.setAux 0 (d.auxAt 0 + r.2.1)).setAux 1 (d.auxAt 1 + r.2.2)) with progress := d.progress + 1 }
      ∀ e, u.desc d.id = some e → exec (.mergeDriftline i) s = .next (noted i d (if e.f 24 4 ≤ e.progress then u.mergeStop e Status.ok 0 else u)))) ∧
  (∀ n l x, s.index n = some x → 3 * x.driftCap ≤ 4 * x.drift l → exec (.driftlineAutoMerge n l) s = .next (s.mergeList n l).1) ∧
  (∀ n l x, s.index n = some x → 4 * x.drift l < 3 * x.driftCap → 4 * x.driftAll < 3 * x.driftPool →
    exec (.driftlineAutoMerge n l) s = .next s) ∧
  (∀ m b, m.op = Sxf.search → s.portRefusal m = none → s.bundle m.via = some b → b.kind = .causeway → s.fabric.hasShore m.dest = true →
    (m.dest = s.self → exec (.searchRequest m) s = .next (s.serveSearch m)) ∧
    (m.dest ≠ s.self → (s.forward m).2 = true → exec (.searchRequest m) s = .next
      ((s.forward m).1.setBundle b.id fun x => { x with forwarded := x.forwarded + 1 }))) ∧
  (∀ n l t, exec (.caravanDepart n l t) s = .next { s with indices := { s.indices with
    caravans := s.indices.caravans.filter fun c => !(c.index == n && c.list == l && c.mark == t &&
      (s.index n).all fun x => decide (c.opened + 8000 * x.caravanUs ≤ s.now)) } })

/-- Work on KV sets (spec 12: R496–R511). -/
def Obligations.KvWork : Prop := ∀ (s : State) (i : Nat) (d : Desc),
  (atWork 0x50 i s d = true → ∀ k, s.kvSet (d.f 16 2) = some k → d.auxAt 0 = 0 →
    let len := (s.seqEntry k none (d.f 20 4)).1
    let src := d.pieces 0 0 (d.f 24 4 * k.tb)
    let r := s.readyRead d.id (src ++ s.tablePieces k none (d.f 20 4) (len / k.p) (ceilDiv (len % k.p + d.f 24 4) k.p))
    (r.2 = false → ∀ e, r.1.desc d.id = some e → exec (.kvAppend i) s = .next (noted i d r.1)) ∧
    (r.2 = true → ∀ e, r.1.desc d.id = some e → e.fail = none →
      (16777216 < len + d.f 24 4 → exec (.kvAppend i) s = .next (noted i d (r.1.kvNothing e Cause.seqFull len))) ∧
      (len + d.f 24 4 ≤ 16777216 → (r.1.touchPieces src).appendTokens e k = none →
        exec (.kvAppend i) s = .next (noted i d (r.1.kvNothing e Cause.noPage len))) ∧
      (len + d.f 24 4 ≤ 16777216 → ∀ g, (r.1.touchPieces src).appendTokens e k = some g →
        let r1 := sat 2 g.pages + 2 ^ 16 * sat 2 g.copied
        let u := g.s.setDesc e.id fun d' => ((d'.setAux 0 1).setAux 1 (len + d.f 24 4)).setAux 2 r1
        ∀ e', u.desc e.id = some e' → e'.awaiting = [] → exec (.kvAppend i) s = .next (noted i d (u.ok e'.id (len + d.f 24 4) r1))))) ∧
  (atWork 0x52 i s d = true → ∀ k, s.kvSet (d.f 16 2) = some k → d.auxAt 0 = 0 →
    let r := s.readyRead d.id (s.tablePieces k none (d.f 20 4) 0 (ceilDiv (s.seqEntry k none (d.f 20 4)).1 k.p) ++
      if d.f 18 1 = 0 then s.tablePieces k none (d.f 24 4) 0 0 else [])
    r.2 = true → ∀ e, r.1.desc d.id = some e → e.fail = none →
    (d.f 18 1 = 0 → ∀ u, r.1.forkSeq e k = .ok u → exec (.kvFork i) s = .next (noted i d
      ((u.setDesc e.id fun d => d.setAux 0 1).complete e.id ⟨Status.ok, 0, e.f 28 4, ceilDiv (e.f 28 4) k.p, 0⟩))) ∧
    (d.f 18 1 = 0 → ∀ ca, r.1.forkSeq e k = .error ca → exec (.kvFork i) s = .next (noted i d
      ((r.1.setDesc e.id fun d => d.setAux 0 1).complete e.id
        ⟨Status.okPartial, reasonKvState, (r.1.seqEntry k none (e.f 24 4)).1, 0, ca⟩))) ∧
    (d.f 18 1 = 1 → let v := r.1.truncateSeq e k; exec (.kvTruncate i) s = .next (noted i d
      ((v.1.setDesc e.id fun d => d.setAux 0 1).complete e.id ⟨Status.ok, 0, (v.1.seqEntry k none (e.f 20 4)).1, v.2, 0⟩)))) ∧
  (atWork 0x51 i s d = true → ∀ k, s.kvSet (d.f 16 2) = some k →
    (d.auxAt 0 = stageIndex → exec (.kvGather i) s = .next (noted i d (s.kvBegin d k))) ∧
    (d.auxAt 0 ≠ stageIndex →
      (d.kPages k ≤ d.kSkip k + d.progress → exec (.kvGather i) s = .next (noted i d (s.kvEnd d))) ∧
      (d.kSkip k + d.progress < d.kPages k → ∀ e, (s.kvNext d k).desc d.id = some e → e.kSkip k + e.progress < e.kPages k →
        exec (.kvGather i) s = .next (noted i d (s.kvNext d k))))) ∧
  (s.kvSet (d.f 16 2) = none →
    (atWork 0x50 i s d = true → exec (.kvAppend i) s = .next (noted i d (s.stop d Status.abortedBySoftware Cause.badKvset))) ∧
    (atWork 0x51 i s d = true → exec (.kvGather i) s = .next (noted i d (s.kvStop d Status.abortedBySoftware Cause.badKvset))) ∧
    (atWork 0x52 i s d = true → d.f 18 1 = 0 → exec (.kvFork i) s = .next (noted i d (s.stop d Status.abortedBySoftware Cause.badKvset))) ∧
    (atWork 0x52 i s d = true → d.f 18 1 = 1 → exec (.kvTruncate i) s = .next (noted i d (s.stop d Status.abortedBySoftware Cause.badKvset)))) ∧
  (∀ st ca, failedAt 0x50 i st ca s d = true → exec (.kvAppend i) s = .next (s.stop (d.atStop st) st ca)) ∧
  (∀ st ca, failedAt 0x51 i st ca s d = true → exec (.kvGather i) s = .next (s.kvStop (d.atStop st) st ca))

/-- Bollards (spec 13: R514–R528). -/
def Obligations.BollardWork : Prop := ∀ (s : State),
  (∀ i d b n, bollardAddr d.bollard = some (s.self, n) → s.bollard n = some b → b.id = n → d.phase = .running →
    let u := s.setDesc d.id fun d => { d with phase := .waiting }
    (atWork 0x60 i s d = true → d.f 24 1 ≤ 2 → exec (.bollardSignal i) s = .next (noted i d
      (let r := (u.setBollard n (signalValue (d.f 24 1) b.value.toNat (d.f 32 8))).testWaits n (signalValue (d.f 24 1) b.value.toNat (d.f 32 8))
      (r.1.run r.2).ok d.id b.value.toNat 0))) ∧
    (atWork 0x61 i s d = true → d.f 24 1 ≤ 2 → bit (d.f 25 1) 0 = false → condHolds (d.f 24 1) b.value.toNat (d.f 32 8) = true →
      exec (.bollardWait i) s = .next (noted i d ((u.run []).ok d.id b.value.toNat 0))) ∧
    (atWork 0x61 i s d = true → d.f 24 1 ≤ 2 → bit (d.f 25 1) 0 = false → condHolds (d.f 24 1) b.value.toNat (d.f 32 8) = false →
      exec (.bollardWait i) s = .next (noted i d
        ((u.addWait ⟨0, n, d.guest, d.f 24 1, d.f 32 8, none, d.deadline, .desc d.id⟩).run []))) ∧
    (atWork 0x61 i s d = true → d.f 24 1 ≤ 2 → bit (d.f 25 1) 0 = true → exec (.bollardWait i) s = .next (noted i d
      (if condHolds (d.f 24 1) b.value.toNat (d.f 32 8) then (u.run []).ok d.id b.value.toNat 0
        else (u.run []).finish d.id Status.okPartial reasonWaitTimeout 0 b.value.toNat 0))) ∧
    (atWork 0x62 i s d = true → exec (.bollardArrive i) s = .next (noted i d
      (let old := b.value.toNat
      let r := ((u.setBollard n (u64 (old + 1))).addWait
        ⟨0, n, d.guest, 0, u64 ((old / b.parties + 1) * b.parties), some (old, old % b.parties), d.deadline, .desc d.id⟩).testWaits n (u64 (old + 1))
      r.1.run r.2)))) ∧
  (∀ w x, (s.boll.waits.find? fun k => k.id = w) = some x → x.expires ≤ s.now → exec (.bollardWaitTimeout w) s = .next
    (let r := s.answerWait x (((s.bollard x.bollard).map (·.value.toNat)).getD 0) true
    r.1.run r.2)) ∧
  (∀ m, m.op = Sxf.bollard → s.portRefusal m = none →
    (m.dest = s.self → ∀ st ca, s.bollardRefusal m (m.f 0 1 % 16) (bits (m.f 0 4) 27 4) = some (st, ca) → exec (.bollard m) s = .next
      (s.reply m Sxf.bollardValue st ca 0 false false [])) ∧
    (m.dest = s.self → s.bollardRefusal m (m.f 0 1 % 16) (bits (m.f 0 4) 27 4) = none → ∀ b, s.bollardAt m.gpa = some b →
      (let r := s.bollardOp b (m.f 0 1 % 16) (m.f 8 8) (s.now + bits (m.f 0 4) 27 4 * slotTicks) m.guest (.sxf m)
      (∀ v met, r.2.1 = some (v, met) → exec (.bollard m) s = .next
        ((r.1.reply m Sxf.bollardValue Status.ok 0 v (!met) false []).run r.2.2)) ∧
      (r.2.1 = none → exec (.bollard m) s = .next (r.1.run r.2.2)))) ∧
    (m.dest ≠ s.self → s.fabric.hasShore m.dest = false → exec (.bollard m) s = .next
      (s.reply m Sxf.bollardValue Status.faultDeadTarget Cause.unreachable 0 false false []))) ∧
  (∀ m, m.op = Sxf.bollardValue → wellFramed m = true → exec (.bollardValue m) s = .next (s.takeResponse m)) ∧
  (∀ m, m.op = Sxf.bollardValue → wellFramed m = false → exec (.bollardValue m) s = .next
    { s with fabric := { s.fabric with discarded := s.fabric.discarded + 1 } })

/-- Versions and snapshots (spec 05: R219–R250). -/
def Obligations.SnapshotWork : Prop := ∀ (s : State),
  (∀ i d c t, atWork 0x68 i s d = true → d.binding = some (c, t) → exec (.snapOpen i) s = .next (noted i d (s.snapOpened d c t))) ∧
  (∀ i d t u, atWork 0x68 i s d = true → d.binding = none → s.isHere d.gpa0 = false → d.progress = 0 →
    let gpa := ((s.pullOf d.gpa0 1).map (·.gpa)).getD d.gpa0
    s.sendWork d Sxf.remoteHold false gpa (holdUnit (if d.byTime then d.f 32 8 else d.f 24 6) gpa 0 d.byTime false) = (u, some t) →
    exec (.snapOpen i) s = .next (noted i d (u.setDesc d.id fun d => { d with awaiting := d.awaiting ++ [t], progress := 1 }))) ∧
  (∀ i d x, atWork 0x69 i s d = true → s.snapOf (d.f 16 2) d.guest = some x → exec (.snapClose i) s = .next (noted i d
    ((s.closeSnap x).ok d.id x.tidemark ((s.closeSnap x).handlesOn x.cove % 65536 + b2n (x.state = .broken) * 2 ^ 31)))) ∧
  (∀ i d c v, atWork 0x6A i s d = true → s.coveAt (gpaOffset d.gpa0) = some c → c.versions = some v → d.f 24 8 = 0 →
    ((∀ p ∈ v.allPoints, p + 8000 ≤ s.now) → exec (.publish i) s = .next (noted i d (s.publishNow d c.id))) ∧
    ((∃ p ∈ v.allPoints, s.now < p + 8000) → exec (.publish i) s = .next (noted i d s))) ∧
  (∀ i d c v, s.desc i = some d → d.opcode = 0x6A → d.done = none → d.f 24 8 ≠ 0 → d.f 24 8 ≤ s.now →
    s.coveAt (gpaOffset d.gpa0) = some c → c.versions = some v → exec (.publishPoint i) s = .next (s.publishNow d c.id)) ∧
  (∀ m, s.portRefusal m = none → m.dest = s.self →
    (bit (m.f 0 16) 117 = true → ∀ x, (s.store.snaps.find? fun x => x.handle = bits (m.f 0 16) 115 100 ∧ x.holder = some m.src) = some x →
      exec (.remoteHold m) s = .next (({ s with store := { s.store with
        snaps := s.store.snaps.filter fun y => y.handle ≠ x.handle } } : State).reply m Sxf.done Status.ok 0 x.tidemark false false [])) ∧
    (bit (m.f 0 16) 117 = false → ∀ c v t, s.versionedAt (gpaOffset (bits (m.f 0 16) 99 64 * mib2)) = some (c, v) →
      s.selectMark c v (bits (m.f 0 16) 47 0) (bits (m.f 0 16) 63 0) (bit (m.f 0 16) 116) = some t → (c.grant m.guest).r = true →
      s.snapLimit c.id m.guest = false → s.parityCovers c = false → exec (.remoteHold m) s = .next
        ((s.addSnap ⟨s.freeHandle, c.id, m.guest, t, .opened, false, none, some m.src, gpaOf s.self c.base, c.size⟩).reply m Sxf.done Status.ok 0
          (t + s.freeHandle * 2 ^ 48) false false [])) ∧
    (let u : State := { s with store := { s.store with
        snaps := mapIf (fun x => x.remote = some (m.src, bits (m.f 0 16) 115 100)) (fun x => { x with state := .broken }) s.store.snaps } }
    let hit := (u.store.snaps.filter fun x => x.remote = some (m.src, bits (m.f 0 16) 115 100)).map (·.handle)
    exec (.holdBroken m) s = .next ((((u.queues.descs.filter fun d => d.done.isNone ∧ d.snap.any hit.contains).map (·.id)).foldl
      (fun s d => s.failDesc d Status.faultTranslation Cause.snapBroken) u).reply m Sxf.ctlAck Status.ok 0 0 false false []))) ∧
  (∀ n g lo c v, s.cove n = some c → c.versions = some v → exec (.imageFree n g lo) s = .next (s.setCove n fun c => match c.versions with
    | none => c
    | some v =>
      let w := { v with images := v.images.filter fun i => s.imageUsed c v i || !(i.granule == g && i.lo == lo) }
      { c with versions := if c.versioned || !w.images.isEmpty || (s.heldMarks c.id).length > 0 then some w else none }))

/-- Plain requests (spec 02: R64–R67, R91; spec 04: R185, R189; spec 13: R531; spec 14: R569, R577, R579; spec 17: R660). -/
def Obligations.PlainRequests : Prop := ∀ (m : SxfMsg) (s : State),
  let off := gpaOffset m.gpa
  let u := s.count 1 m.guest 11 1
  (servesHere m s = true →
    (m.isRead = true → atHand off u = true → exec (.read m) s = .next ((u.touchRead (off / granuleSize)).reply m Sxf.data Status.ok 0 0 false
      (!(u.poisonIn off m.size).isEmpty) (fit (16 * ceilDiv m.size 16) (u.bytesAt off m.size)))) ∧
    (m.isRead = true → atHand off u = false → exec (.read m) s = .next
      (u.joinMiss (off / granuleSize) (.plain m (u.bytesAt off m.size)) (u.clsAt off = .prefer))) ∧
    (∀ x ∈ [Instr.write m, Instr.writeMasked m], m.isWrite = true → (x = .write m ↔ m.op ≠ Sxf.writeMasked) →
      let v := u.applyWrite off (m.writeData (u.bytesAt off m.size))
      let w := if m.poison then v.poisonSectors (sectorsOf off m.size) else v
      exec x s = .next (w.flushDeltas.1.replyAfter w.flushDeltas.2 m.via
        (w.flushDeltas.1.responseTo m (if u.pilotAt off then Sxf.performed else Sxf.done) Status.ok 0 0 false false []))) ∧
    (m.isAtomic = true →
      let old := u.word off m.atWidth
      let bad := !(u.poisonIn off m.atWidth).isEmpty
      let v := u.applyWrite off (leBytes m.atWidth (atomicNew m.atOp m.atType m.atWidth old (m.f 16 16) (m.f 32 16)))
      let w := (if bad then v.poisonSectors (sectorsOf off m.atWidth) else v).recordAtomic off m old
      exec (.atomic m) s = .next (w.flushDeltas.1.replyAfter w.flushDeltas.2 m.via
        (w.flushDeltas.1.responseTo m Sxf.atomicOld Status.ok 0 0 false bad (leBytes 16 old))))) ∧
  (s.portRefusal m = none → ∀ b, s.bundle m.via = some b →
    (b.kind = .jetty → (s.heldBy m.via m.agent).isEmpty = true → s.blocked (m.retag s.self m.tag) = false →
      (m.retag s.self m.tag).via = m.via → (m.retag s.self m.tag).agent = m.agent →
      (m.isRead = true → exec (.read m) s = .next (s.takeRequest (m.retag s.self m.tag))) ∧
      (m.isAtomic = true → exec (.atomic m) s = .next (s.takeRequest (m.retag s.self m.tag)))) ∧
    (b.kind = .causeway → s.fabric.hasShore m.dest = false → m.isRead = true → exec (.read m) s = .next
      (s.refuse m Status.faultDeadTarget Cause.unreachable)) ∧
    (b.kind = .causeway → s.fabric.hasShore m.dest = true → s.target m = s.self → (s.heldBy m.via m.agent).isEmpty = true →
      gpaShore m.gpa = s.self → s.isDelta m = false → s.faults.selfFenced = false → m.isRead = true →
      (off % m.size ≠ 0 → exec (.read m) s = .next (s.refuse m Status.refusedFormat Cause.format)) ∧
      (off % m.size = 0 → s.allowed m.guest off m.size m.access = false → exec (.read m) s = .next
        ((s.countRights m.guest).refuse m Status.refusedRights Cause.noGrant))))

/-- Fences, responses, invalidations and span states (spec 04: R176, R185–R190; spec 14: R569, R577–R579; spec 02: R117, R118). -/
def Obligations.FencesAndResponses : Prop := ∀ (m : SxfMsg) (s : State),
  (∀ x ∈ [(Sxf.fenceRw, Instr.fenceRw m), (Sxf.fenceWw, .fenceWw m), (Sxf.fenceRr, .fenceRr m)], m.op = x.1 → ∀ b, s.bundle m.via = some b →
    (b.kind = .causeway → exec x.2 s = .next (s.refuse m Status.refusedFormat Cause.format)) ∧
    (b.kind = .jetty → s.portRefusal m = none → exec x.2 s = .next (s.fromJetty (m.retag s.self m.tag))) ∧
    (b.kind = .jetty → ∀ st ca, s.portRefusal m = some (st, ca) → exec x.2 s = .next (s.refuse m st ca))) ∧
  (m.isFence = true → m.op ≠ Sxf.homeFence → s.heldBy m.via m.agent = [] → s.blocked m = false → s.fromJetty m = s.takeFence m) ∧
  (s.blocked m = true → s.fromJetty m = s.setHeld m.via m.agent (s.heldBy m.via m.agent ++ [m])) ∧
  (m.op = Sxf.homeFence → s.portRefusal m = none → m.dest = s.self →
    (s.heldBy m.via m.agent = [] → s.blocked m = false → exec (.homeFence m) s = .next s) ∧
    (s.blocked m = true → exec (.homeFence m) s = .next (s.setHeld m.via m.agent (s.heldBy m.via m.agent ++ [m])))) ∧
  (∀ x ∈ [(Sxf.data, Instr.data m), (Sxf.done, .done m), (Sxf.performed, .performed m), (Sxf.atomicOld, .atomicOld m), (Sxf.ctlAck, .ctlAck m),
      (Sxf.rowData, .rowData m), (Sxf.searchResult, .searchResult m)], m.op = x.1 →
    (wellFramed m = false → exec x.2 s = .next { s with fabric := { s.fabric with discarded := s.fabric.discarded + 1 } }) ∧
    (wellFramed m = true → m.dest ≠ s.self → exec x.2 s = .next (s.send m)) ∧
    (wellFramed m = true → m.dest = s.self → s.transaction m.tag = none →
      exec x.2 s = .next { s with fabric := { s.fabric with discarded := s.fabric.discarded + 1 } }) ∧
    (wellFramed m = true → m.dest = s.self → ∀ o, s.transaction m.tag = some o →
      (o.bundle ≠ noBundle → exec x.2 s = .next ((s.dropTransaction m.tag).agentResponse o m)) ∧
      (o.bundle = noBundle → ∀ i, o.desc = some i → exec x.2 s = .next ((s.dropTransaction m.tag).descResponse o i m)) ∧
      (o.bundle = noBundle → o.desc = none → exec x.2 s = .next ((s.dropTransaction m.tag).ownResponse o m)))) ∧
  (s.portRefusal m = none → m.dest = s.self →
    (m.op = Sxf.invalidate → exec (.invalidate m) s = .next
      ((s.invalidatePulls (m.f 0 8 % 2 ^ 57) (m.f 8 4 * mib2)).reply m Sxf.invalidateAck Status.ok 0 (m.f 0 8 % 2 ^ 57) false false [])) ∧
    (m.op = Sxf.invalidateAck → exec (.invalidateAck m) s = .next (s.invalAcked m))) ∧
  (m.op = Sxf.spanState → s.portRefusal m = none → exec (.spanState m) s = .next (s.takeSpan m))

/-- Tidetime (spec 20: R737–R746; spec 25: R816). -/
def Obligations.TimeMessages : Prop := ∀ (s : State),
  (∀ m b, m.op = Sxf.time → s.portRefusal m = none → s.bundle m.via = some b → b.kind = .causeway → b.opened = true →
    (timeKind m = 0 → 
      let h : Heard := ⟨b.id, bits (timeBody m) 8 0, bits (timeBody m) 10 9, bits (timeBody m) 14 11, bit (timeBody m) 15, bits (timeBody m) 63 16, s.now⟩
      exec (.timeAnnounce m) s = .next (s.reclock { s with clock := { s.clock with heard := upsert (·.bundle) h s.clock.heard } })) ∧
    (timeKind m = 1 → exec (.timeSync m) s = .next
      (s.sendTime b 2 (timeSeq m) ((s.stamp / 65536 % 2 ^ 48) * 2 ^ 16 + s.stamp % 65536) 0)) ∧
    (timeKind m = 2 → ∀ x up, (s.clock.syncs.find? fun x => x.seq = timeSeq m ∧ x.bundle = b.id) = some x → s.upstream = some up →
      let u : State := { s with clock := { s.clock with syncs := s.clock.syncs.filter fun y => y.seq ≠ x.seq } }
      let shift : Int := if u.clock.everLocked then 0 else u.clock.step * 65536
      (up.bundle = b.id → u.stamp ≤ x.t1 + 80000 * 65536 → exec (.timeReply m) s = .next
        (u.takeOffset up (offset2 ((x.t1 : Int) + shift) ((u.stamp : Int) + shift) m))) ∧
      (u.stamp > x.t1 + 80000 * 65536 → exec (.timeReply m) s = .next u))) ∧
  ((s.clock.announced + 8000000 ≤ s.now ∨ s.clock.said ≠ s.saying) → exec .announceTimer s = .next
    (let say := s.saying
    let body := say.getD 0 0 + say.getD 1 0 * 2 ^ 9 + say.getD 2 0 % 16 * 2 ^ 11 + say.getD 3 0 * 2 ^ 15 + say.getD 4 0 % 2 ^ 48 * 2 ^ 16
    s.openCauseways.foldl (fun s b => s.sendTime b 0 0 body 0) { s with clock := { s.clock with announced := s.now, said := say } })) ∧
  (s.now < s.clock.announced + 8000000 → s.clock.said = s.saying → exec .announceTimer s = .next s) ∧
  (∀ up b, s.upstream = some up → s.bundle up.bundle = some b → s.clock.synced + 1000000 ≤ s.now → exec .syncTimer s = .next
    (({ s with clock := { s.clock with
      synced := s.now, nextSync := (s.clock.nextSync + 1) % 256,
      syncs := s.clock.syncs ++ [SyncOut.mk s.clock.nextSync s.stamp b.id] } } : State).sendTime b 1 s.clock.nextSync 0 0)) ∧
  (∀ q, (∃ x ∈ s.clock.syncs, x.seq = q ∧ x.t1 + 80000 * 65536 ≤ s.stamp) → exec (.syncLost q) s = .next
    (({ s with clock := { s.clock with syncs := s.clock.syncs.filter fun x => x.seq ≠ q } } : State).count 0x0B 0 7 1)) ∧
  (∀ n, (∀ h ∈ s.clock.heard, h.bundle = n → s.now < h.time + 24000000) → exec (.announceAgeOut n) s = .next s) ∧
  (∀ n, (∃ h ∈ s.clock.heard, h.bundle = n ∧ h.time + 24000000 ≤ s.now) → exec (.announceAgeOut n) s = .next
    (State.reclock { s with clock := { s.clock with heard := s.clock.heard.map fun h => if h.bundle = n then { h with time := s.now } else h } }
      { s with clock := { s.clock with heard := s.clock.heard.filter fun h => h.bundle ≠ n } })) ∧
  (∀ t, s.clock.headSince = some t → s.headland.2 = s.self → t + 16000000000 ≤ s.now → exec .headlandLock s = .next
    (if s.clock.everLocked then s else { s with clock := { s.clock with step := 0 } }).lock) ∧
  (∀ t, s.clock.holdover = some t →
    (t + 800000000 ≤ s.now → exec .holdoverExpiry s = .next { s.loseLock with clock := { s.loseLock.clock with holdover := none } }) ∧
    (s.now < t + 800000000 → exec .holdoverExpiry s = .next s)) ∧
  (∀ a p, exec (.tideReferenceChange a p) s = .next (s.reclock { s with clock := { s.clock with
    classZero := a, classOne := p, epochTai := if a || p then s.clock.epochTai else 0 } })) ∧
  (s.headland.2 = s.self → ∀ tai late, s.clock.cls = 1 → exec (.ptpMessage tai late) s = .next
    (({ s with clock := { s.clock with epochTai := tai - s.now / 8000, rate := steer (if late then 1 else -1) s.nextFree } } : State).drew)) ∧
  (s.headland.2 = s.self → s.clock.cls = 0 →
    let off : Int := if s.now % 8000000000 < 4000000000 then -(s.now % 8000000000 : Nat) else 8000000000 - (s.now % 8000000000 : Nat)
    exec .tide1ppsEdge s = .next (({ s with clock := { s.clock with offset := off * 256, rate := steer off s.nextFree } } : State).drew))

/-- Dead shores and takeover (spec 17: R658–R666; spec 05: R216). -/
def Obligations.DeathAndTakeover : Prop := ∀ (s : State),
  (∀ m, m.op = Sxf.takeover → s.portRefusal m = none → m.dest = s.self →
    let h := SxfMsg.toSubject m
    let p := SxfMsg.toPayload m
    let ack : State → State := fun t => t.reply m Sxf.ctlAck Status.ok 0 0 false false []
    (∀ x ∈ [(0, Instr.takeoverDeclare m), (1, .takeoverSelf m)], SxfMsg.toKind m = x.1 →
      (h = s.self → exec x.2 s = .next (ack s.selfFence)) ∧
      (h ≠ s.self → s.faults.dead.contains h = true → exec x.2 s = .next (ack s)) ∧
      (h ≠ s.self → s.faults.dead.contains h = false → exec x.2 s = .next (ack ((s.markDead h).flood h p)))) ∧
    (SxfMsg.toKind m = 2 → exec (.takeoverRebuilt m) s = .next
      (ack { s with faults := { s.faults with rebuilt := setAdd (h, m.src) s.faults.rebuilt } })) ∧
    (SxfMsg.toKind m = 3 →
      let u : State := { s with faults := { s.faults with
        capacities := (s.faults.capacities.filter fun x => x.1 ≠ m.src) ++ [(m.src, p)] } }
      ((s.fabric.members s.self).head? ≠ some m.src → exec (.takeoverCapacity m) s = .next (ack u)) ∧
      (s.takesPart = false → s.store.capacity = p → exec (.takeoverCapacity m) s = .next (ack u)) ∧
      ((s.fabric.members s.self).head? = some m.src → u.takesPart = false → s.store.capacity ≠ p → exec (.takeoverCapacity m) s = .next
        (ack (u.drew.report ⟨evFault, sevUncorrected, 0x2, u.nextFree % 65536, 0, 0, 0, 0, 0⟩)))) ∧
    (SxfMsg.toKind m = 4 →
      let st := s.fabric.stripe m.src (p % 2 ^ 40)
      let key := ((s.ownParity st).1, st.pos)
      (bit p 64 = true → exec (.takeoverMark m) s = .next
        (ack { s with faults := { s.faults with parityBits := setAdd key s.faults.parityBits } })) ∧
      (bit p 64 = false → exec (.takeoverMark m) s = .next
        (ack { s with faults := { s.faults with parityBits := s.faults.parityBits.filter (· ≠ key) } }))) ∧
    (SxfMsg.toKind m = 5 →
      let c := SxfMsg.toWord m
      let rest := s.faults.replicas.filter fun r => !(r.shore == h && r.cove == c)
      (SxfMsg.toField m = 7 → exec (.takeoverState m) s = .next (ack { s with faults := { s.faults with replicas := rest } })) ∧
      (SxfMsg.toField m ≠ 7 →
        (∀ r, (s.faults.replicas.find? fun r => r.shore = h ∧ r.cove = c) = some r → exec (.takeoverState m) s = .next
          (ack { s with faults := { s.faults with replicas := rest ++ [r.change (SxfMsg.toField m) p] } })) ∧
        ((s.faults.replicas.find? fun r => r.shore = h ∧ r.cove = c) = none → exec (.takeoverState m) s = .next
          (ack { s with faults := { s.faults with
            replicas := rest ++ [(⟨h, c, 0, 0, 0, [], 0, 0, []⟩ : Replica).change (SxfMsg.toField m) p] } })))) ∧
    (SxfMsg.toKind m = 6 → exec (.takeoverAtomic m) s = .next
      (ack { s with faults := { s.faults with atomics := s.faults.atomics ++ [⟨h, SxfMsg.toWord m, p, s.now⟩] } }))) ∧
  (∀ n, ((∃ x ∈ s.faults.neighbourDown, x.1 = n ∧ x.2 + 64000 ≤ s.now) → exec (.spanDeadDetect n) s = .next ((s.markDead n).flood n s.now)) ∧
    ((∀ x ∈ s.faults.neighbourDown, x.1 = n → s.now < x.2 + 64000) → exec (.spanDeadDetect n) s = .next s)) ∧
  (∀ t, s.faults.causewaysDown = some t →
    (s.now < t + 32000 → exec .selfFence s = .next s) ∧ (t + 32000 ≤ s.now → exec .selfFence s = .next s.selfFence)) ∧
  (s.faults.causewaysDown = none → exec .selfFence s = .next s) ∧
  (∀ src tag, exec (.atomicRecordExpiry src tag) s = .next { s with faults := { s.faults with
    atomics := s.faults.atomics.filter fun x => !(x.src == src && x.tag == tag && decide (x.time + 8000000 ≤ s.now)) } }) ∧
  (∀ g, let is := s.faults.guarded.contains g
    let sent := (s.contentDelta g).sendMark g (!is)
    (s.covered g = is → exec (.protectionUpdate g) s = .next s) ∧
    (s.covered g = true → is = false → exec (.protectionUpdate g) s = .next
      { sent with faults := { sent.faults with guarded := sent.faults.guarded ++ [g] } }) ∧
    (s.covered g = false → is = true → exec (.protectionUpdate g) s = .next
      { sent with faults := { sent.faults with guarded := sent.faults.guarded.filter (· ≠ g) } })) ∧
  (∀ a, let h := gpaShore a
    let g := a / granuleSize * granuleSize
    (s.faults.dead.contains h = false → exec (.protectionRebuild a) s = .next s) ∧
    (s.faults.dead.contains h = true → (s.unbuilt h).contains g = true →
      (s.faults.rebuilds.any fun r => r.gpa = g) = false → exec (.protectionRebuild a) s = .next (s.beginRebuild g [])) ∧
    (s.faults.dead.contains h = true → s.unbuilt h = [] → s.faults.rebuilt.contains (h, s.self) = false →
      let all := (List.range 512).filter fun x => s.fabric.hasShore x && decide (x ≠ s.self) && !s.faults.dead.contains x
      exec (.protectionRebuild a) s = .next (all.foldl (fun s x => (s.takeover x 2 h 0 0 0).1)
        { s with faults := { s.faults with rebuilt := s.faults.rebuilt ++ [(h, s.self)] } })))

/-- Links at work (spec 14: R542–R566; spec 18: R703). -/
def Obligations.LinkRows : Prop := ∀ (n : Nat) (s : State),
  (s.link n = none → (∀ t sl bad c ok, exec (.frame n t sl bad c ok) s = .next s) ∧ exec (.replayTimeout n) s = .next s ∧
    (∀ k, exec (.laneFail n k) s = .next s) ∧ exec (.laneMapApply n) s = .next s ∧ exec (.linkLoss n) s = .next s ∧
    (∀ p q a, exec (.linkTrainStep n p q a) s = .next s) ∧ exec (.linkTrainTimeout n) s = .next s ∧
    exec (.keyGenerationRoll n) s = .next s ∧ exec (.ringRecal n) s = .next s) ∧
  (∀ l, s.link n = some l →
    (l.state = .dark ∨ l.state = .down → ∀ t sl bad c ok, exec (.frame n t sl bad c ok) s = .next s) ∧
    (l.state = .up → ∀ t bad c, bits (fld t 4 4) 17 0 = 0 → exec (.frame n t [] bad c false) s = .next
      (let times := (l.tagTimes.filter fun x => decide (s.now < x + 8000000000)) ++ [s.now]
      let u := (s.setLink n fun _ => { l with
        corrected := l.corrected + c, undecodable := l.undecodable + bad.length, tagFails := l.tagFails + 1, tagTimes := times }).pumpLink n
      if times.length ≥ 16 then (u.linkDown n false).report ⟨evFault, sevUncorrected, 0x3, linkUnit n 15, 7, 0, 0, 0, 0⟩ else u)) ∧
    (∀ t sl bad, (l.takeFlits t sl bad false).1 = l) ∧
    (∀ t sl bad, fld t 4 4 % 2 ^ 18 = 1 → fld t 0 2 % 4096 = l.recvSeq → bad.contains 0 = false →
      crc32c (((sl.find? fun x => x.1 = 0).map (·.2)).getD []) = fld t 8 4 →
      (l.takeFlits t sl bad true).1.recvSeq = (l.recvSeq + 1) % 4096 ∧ (l.takeFlits t sl bad true).1.accepted = l.accepted + 1 ∧
      (l.takeFlits t sl bad true).2 = false) ∧
    (l.state = .up → l.replay ≠ [] → l.ackedAt + 80000 ≤ s.now → exec (.replayTimeout n) s = .next (s.replay n)) ∧
    (l.replay = [] ∨ s.now < l.ackedAt + 80000 → exec (.replayTimeout n) s = .next s) ∧
    (l.state ≠ .up → ∀ k, exec (.laneFail n k) s = .next s) ∧
    (l.state = .up → ∀ k w, l.laneMap[k]? = some w →
      let u := s.setLink n fun l => { l with failedWaves := setAdd w l.failedWaves }
      (∀ sp, l.spare = some sp → exec (.laneFail n k) s = .next
        ((((u.setLink n fun l => { l with maint := l.maint ++ [(1, k)] }).sendFrame n 0 (!l.nakSent) [] (1, k) 0 0).report
          (linkReport evSpareSwitch sevRecovered n w 3)).singleFault 0x3)) ∧
      (l.spare = none → l.laneMap.length = 9 → exec (.laneFail n k) s = .next
        (((u.setLink n fun l => { l with laneMap := l.laneMap.eraseIdx k }).report (linkReport evFault sevRecovered n w 3)).singleFault 0x3)) ∧
      (l.spare = none → l.laneMap.length ≠ 9 → exec (.laneFail n k) s = .next ((u.loseLink n).singleFault 0x3))) ∧
    (∀ k e sp, l.effectFrame = some (k, e) → l.spare = some sp → exec (.laneMapApply n) s = .next
      ((s.setLink n fun l => { l with
          laneMap := l.laneMap.set k sp, spare := none, effectFrame := none, maint := l.maint.filter fun m => m.1 ≠ 1
          failedWaves := match l.laneMap[k]? with
            | some w => setAdd w l.failedWaves
            | none => l.failedWaves }).replay n)) ∧
    (l.effectFrame = none → exec (.laneMapApply n) s = .next s) ∧
    (l.state = .up → exec (.linkLoss n) s = .next (((s.linkDown n false).singleFault 0x3).report (linkReport evFault sevFailed n 15 9))) ∧
    (l.state ≠ .up → exec (.linkLoss n) s = .next s) ∧
    (∀ p q a, (l.state ≠ .training → exec (.linkTrainStep n p q a) s = .next s) ∧
      (l.state = .training → l.step = 0 → l.retryAt ≤ s.now → exec (.linkTrainStep n p q a) s = .next
        (s.setLink n fun l => { l with step := 1, stepBegan := s.now })) ∧
      (l.state = .training → 0 < l.step → l.step < 5 → exec (.linkTrainStep n p q a) s = .next
        (s.setLink n fun l => { l with step := l.step + 1, stepBegan := s.now })) ∧
      (l.state = .training → 5 ≤ l.step → exec (.linkTrainStep n p q a) s = .next (s.linkTrained n p q a))) ∧
    (l.state = .training → l.step ≠ 0 → l.heldIdent = false →
      (l.stepBegan + trainBound l.step ≤ s.now → exec (.linkTrainTimeout n) s = .next
        (s.setLink n fun l => { l with step := 0, retryAt := s.now + 800000000 })) ∧
      (s.now < l.stepBegan + trainBound l.step → exec (.linkTrainTimeout n) s = .next s)) ∧
    (l.state = .up → 2 ^ 30 ≤ l.genFrames → exec (.keyGenerationRoll n) s = .next
      (s.setLink n fun l => { l with keyGenTx := l.keyGenTx + 1, txPhase := !l.txPhase, genFrames := 0 })) ∧
    (l.genFrames < 2 ^ 30 → exec (.keyGenerationRoll n) s = .next s) ∧
    (l.state = .up → l.recalAt + 1600000000 ≤ s.now → exec (.ringRecal n) s = .next
      ((s.setLink n fun l => { l with recalAt := s.now }).sendFrame n 0 false [] (5, 0) 0 0)) ∧
    (s.now < l.recalAt + 1600000000 → exec (.ringRecal n) s = .next s)) ∧
  (∀ w, 9 ≤ w → n < 16 → exec (.lightOutOfRange n w) s = .next ((span (4 * n) 4).foldl (fun s l => s.loseLink l) s)) ∧
  (∀ w, w < 9 → n < 16 → exec (.lightOutOfRange n w) s = .next ((span (4 * n) 4).foldl (fun s k => match s.link k with
    | none => s
    | some l =>
      if l.spare = some w then s.setLink k fun l => { l with spare := none, failedWaves := setAdd w l.failedWaves }
      else match l.laneMap.findIdx? fun x => x = w with
        | some lane => if l.state = .up then s.failLane k lane else s.setLink k fun l => { l with failedWaves := setAdd w l.failedWaves }
        | none => s) s)) ∧
  (∀ present, let k := s.fabric.batch
    let start := ((span (8 * k) 8).filter present.contains).foldl (fun s i => s.setLink i fun l =>
      if l.state = .dark then { l with state := .training, step := 1, stepBegan := s.now } else l) s
    (s.inn.booted = true → k < 8 → k = 0 ∨ s.batchDone (k - 1) = true ∨ s.fabric.batchBegan + 400000000 ≤ s.now →
      exec (.linkTrainBatch present) s = .next { start with fabric := { start.fabric with batch := k + 1, batchBegan := start.now } }) ∧
    (s.inn.booted = false ∨ 8 ≤ k → exec (.linkTrainBatch present) s = .next s))

/-- Reliability (spec 17: R643–R647, R671–R675; spec 06: R302, R303; spec 18: R694; spec 02: R36). -/
def Obligations.Reliability : Prop := ∀ (s : State),
  (∀ task res debt limit,
    let debts := (s.brk.debts.filter fun x => !(x.1 == task && x.2.1 == res)) ++ [(task, res, debt - limit)]
    (limit < debt → s.debtOver task res = 0 →
      let u : State := { s with brk := { s.brk with debts := debts, calmSince := s.brk.calmSince.filter fun x => x.1 ≠ res } }
      exec (.reserveRaise task res debt limit) s = .next
        (({ u with brk := { u.brk with raises := u.brk.raises ++ [Raise.mk res s.calendarEnd (min 12 (s.reservePct res s.calendarEnd + 2))] } } : State).count 3 res 3 1)) ∧
    (debt ≤ limit → (∀ x ∈ debts, x.2.1 = res → x.2.2 = 0) → (∀ x ∈ s.brk.calmSince, x.1 ≠ res) →
      exec (.reserveRaise task res debt limit) s = .next
        { s with brk := { s.brk with debts := debts, calmSince := s.brk.calmSince ++ [(res, s.now)] } })) ∧
  (∀ res, let pct := s.reservePct res s.calendarEnd
    ((∃ x ∈ s.brk.calmSince, x.1 = res ∧ x.2 + 800000000 ≤ s.now) → s.brk.reservePct < pct → exec (.reserveLower res) s = .next
      { s with brk := { s.brk with
        raises := s.brk.raises ++ [Raise.mk res s.calendarEnd (pct - 1)]
        calmSince := (s.brk.calmSince.filter fun x => x.1 ≠ res) ++ [(res, s.now)] } }) ∧
    ((∀ x ∈ s.brk.calmSince, x.1 = res → s.now < x.2 + 800000000) → exec (.reserveLower res) s = .next s)) ∧
  exec .capacityReductionEffect s = .next ((s.faults.announced.filter fun x => decide (x.2.2.1 ≤ s.now)).foldl (fun s x => s.retireUnit x.1 x.2.1 true)
    { s with faults := { s.faults with announced := s.faults.announced.filter fun x => decide (s.now < x.2.2.1) } }) ∧
  (∀ k c, k < 8 → c < 32 →
    ((k ∈ s.faults.stacksOut ∨ (k, c) ∈ s.faults.channelsOut) → exec (.hbmChannelFail k c) s = .next s) ∧
    (k ∉ s.faults.stacksOut → (k, c) ∉ s.faults.channelsOut →
      ((∃ x ∈ s.faults.channelsOut, x.1 = k) → exec (.hbmChannelFail k c) s = .next (s.retireStack k false)) ∧
      ((∀ x ∈ s.faults.channelsOut, x.1 ≠ k) → exec (.hbmChannelFail k c) s = .next
        (let t := s.loseHbm k (some c)
        ((({ t with faults := { t.faults with
            channelsOut := t.faults.channelsOut ++ [(k, c)]
            retired := uniq (t.faults.retired ++ [(0x1, k * 64 + 2 * c), (0x1, k * 64 + 2 * c + 1)]) } } : State).singleFault 0x1).report
          ⟨evRetired, sevFailed, 0x1, k * 64 + 2 * c, 4, 0, 0, 0, 6⟩))))) ∧
  (∀ k, ((∃ x ∈ s.faults.announced, x.1 = 0x1 ∧ x.2.1 = 0x8000 + k ∧ x.2.2.1 ≤ s.now) → exec (.hbmStackRetire k) s = .next (s.retireStack k true)) ∧
    ((∀ x ∈ s.faults.announced, ¬ (x.1 = 0x1 ∧ x.2.1 = 0x8000 + k)) →
      ((∃ x ∈ s.faults.channelsOut, x.1 = k) → exec (.hbmStackRetire k) s = .next (s.retireStack k false)) ∧
      ((∀ x ∈ s.faults.channelsOut, x.1 ≠ k) → exec (.hbmStackRetire k) s = .next s))) ∧
  (∀ a, ((0x4, a) ∈ s.faults.retired ∨ 33 < a → exec (.arrayFail a) s = .next s) ∧
    ((0x4, a) ∉ s.faults.retired → a ≤ 33 →
      let t := ({ s with faults := { s.faults with retired := setAdd (0x4, a) s.faults.retired } } : State).report ⟨evRetired, sevFailed, 0x4, a, 4, 0, 0, 0, 0⟩
      (s.logicalOf a = none → exec (.arrayFail a) s = .next t) ∧
      (∀ n, s.logicalOf a = some n →
        (t.spareFree n = true → exec (.arrayFail a) s = .next
          (((((({ t with faults := { t.faults with sparesUsed := t.faults.sparesUsed ++ [(32 + n / 16, n)] } } : State).singleFault 0x4).report
            ⟨evSpareSwitch, sevRecovered, 0x4, a, 3, 0, 0, 32 + n / 16, 0⟩).restage n).rebuildArray n))) ∧
        (t.spareFree n = false → exec (.arrayFail a) s = .next
          ((t.loseArray n).report ⟨evCapacityReduced, sevFailed, 0x4, a, 9, 0, 0, 0, 0⟩))))) ∧
  (∀ x, (s.dirEntry x = none → exec (.directoryEntryError x) s = .next s) ∧
    (s.dirEntry x ≠ none → s.lineBusy x = false →
      let ports := (s.host.ports.filter fun p => p.up && p.biEnabled && !p.fenced).map (·.id)
      let u := s.report ⟨evFault, sevRecovered, 0x8, dirSlice x, 2, 0, gpaOf s.self (x * 64), 0, 0⟩
      (ports = [] → exec (.directoryEntryError x) s = .next (u.setLine x none)) ∧
      (ports ≠ [] → exec (.directoryEntryError x) s = .next
        (({ u with faults := { u.faults with directoryBad := setAdd x u.faults.directoryBad } } : State).recall x true ports none)))) ∧
  (∀ ms, s.now < s.obs.weighed + 80000000000 → exec (.weatherRecompute ms) s = .next s) ∧
  (∀ ms, s.obs.weighed + 80000000000 ≤ s.now →
    let recent := s.obs.samples.filter fun x => decide (s.now < x.time + 691200000000000)
    let flushed := s.obs.merging.foldl (fun s (m : Merging) => s.event ⟨evFault, sevCorrected, m.cls, m.unit, m.action, 0, 0, 0, 0⟩ m.count)
      { s with obs := { s.obs with weighed := s.now, samples := recent, merging := [] } }
    let u := ms.foldl (fun s (m : Nat × Nat × Nat) =>
      let x : Score := ⟨m.1, m.2.1, s.score m.1 m.2.1, min m.2.2 1000⟩
      { s with obs := { s.obs with scores := upsert (fun (y : Score) => (y.cls, y.unit)) x s.obs.scores } }) flushed
    exec (.weatherRecompute ms) s = .next
      ((uniq ((u.obs.scores.map fun x => (x.cls, x.unit)) ++ (u.obs.samples.map fun x => (x.cls, x.unit)) ++ u.faults.retired)).foldl
        (fun s x => s.weather x.1 x.2) u)) ∧
  (s.obs.stream.on = false ∨ s.obs.stream.waiting = [] → exec .eventDatagram s = .next s) ∧
  (s.obs.stream.on = true → s.obs.stream.waiting ≠ [] →
    let u := (s.emit (.datagram (s.datagram (s.obs.stream.waiting.take 16)))).count 0x0D 0 2 1
    exec .eventDatagram s = .next { u with obs := { u.obs with
      stream := { s.obs.stream with waiting := s.obs.stream.waiting.drop 16, since := u.now } } }) ∧
  (s.obs.log = s.obs.logWritten → exec .logbookWrite s = .next s) ∧
  (s.obs.log ≠ s.obs.logWritten → s.obs.logTime + 4800000000000 ≤ s.now ∨ s.power.state = .draining →
    (∀ c, s.cove 16383 ≠ some c) → exec .logbookWrite s = .next
      (({ s with obs := { s.obs with logWritten := s.obs.log, logTime := s.now } } : State).emit (.nor (s.obs.log.map LogEntry.bytes).flatten))) ∧
  (s.managementUp = true → ∀ n, ((List.range 32).find? fun n => !s.inn.chans.any fun x => x.chan = .tls n) = some n →
    exec (.tlsSessionOpen true false) s = .next (s.setChan ⟨.tls n, none, 0, [], []⟩) ∧
    (let u := s.setChan ⟨.tls n, some (0, 0), 0, [], []⟩
    exec (.tlsSessionOpen true true) s = .next { u with trust := { u.trust with managers := setAdd n u.trust.managers } })) ∧
  (∀ man, exec (.tlsSessionOpen false man) s = .next s) ∧
  (∀ n, exec (.tlsSessionClose n) s = .next { s with
    inn := { s.inn with chans := s.inn.chans.filter fun x => x.chan ≠ .tls n }
    trust := { s.trust with managers := s.trust.managers.filter (· ≠ n) } })

/-- Host requests (spec 04: R196–R202; spec 15: R601–R610; spec 17: R648). -/
def Obligations.HostRequests : Prop := ∀ (p tag addr : Nat) (secure : Bool) (s : State),
  -- no port, or its link is down
  ((∀ x, s.port p = some x → x.up = false ∧ x.memSecure = false) →
    (∀ y ∈ [Instr.hostMemRead p tag addr secure, .hostSharedRead p tag addr secure, .hostOwnershipRead p tag addr secure,
      .hostCleanEviction p addr], exec y s = .next s) ∧
    ∀ data mask bad kept, exec (.hostMemWrite p tag addr data mask bad secure) s = .next s ∧
      exec (.hostWriteBack p tag addr data kept bad secure) s = .next s) ∧
  -- outside the secure stream
  (s.insecure p secure = true →
    (∀ y ∈ [Instr.hostMemRead p tag addr secure, .hostSharedRead p tag addr secure, .hostOwnershipRead p tag addr secure],
      exec y s = .next ((s.count 7 p 2 1).fencePort p 2)) ∧
    ∀ data mask bad kept, exec (.hostMemWrite p tag addr data mask bad secure) s = .next ((s.count 7 p 2 1).fencePort p 2) ∧
      exec (.hostWriteBack p tag addr data kept bad secure) s = .next ((s.count 7 p 2 1).fencePort p 2)) ∧
  -- the device serves none
  (s.insecure p secure = false → s.stopped p = true →
    (s.shut = true → exec (.hostMemRead p tag addr secure) s = .next (s.emit (.cxlData p tag (zeros 64) true)) ∧
      ∀ data mask bad, exec (.hostMemWrite p tag addr data mask bad secure) s = .next (s.emit (.cxlDone p tag))) ∧
    (s.shut = false → exec (.hostMemRead p tag addr secure) s = .next (s.abortHost p tag) ∧
      ∀ data mask bad, exec (.hostMemWrite p tag addr data mask bad secure) s = .next (s.abortHost p tag))) ∧
  (s.insecure p secure = false → s.stopped p = false →
    -- a read
    (s.hostReach p addr .read = .abort →
      ∀ y ∈ [Instr.hostMemRead p tag addr secure, .hostSharedRead p tag addr secure, .hostOwnershipRead p tag addr secure],
        exec y s = .next (s.abortHost p tag)) ∧
    (∀ x off, s.hostReach p addr .read = .line x off →
      (∀ h, x.snap = some h → exec (.hostMemRead p tag addr secure) s = .next
        (s.hostAnswer p tag x.guest off (s.bytesBound (some (x.cove, x.tidemark)) off 64) (s.poisonedBound (some (x.cove, x.tidemark)) (off / 64)))) ∧
      (x.snap = none → s.homeFenced off = true →
        exec (.hostMemRead p tag addr secure) s = .next (s.hostAnswer p tag x.guest off (s.bytesAt off 64) true)) ∧
      (x.snap = none → s.homeFenced off = false →
        (x.region ≠ 1 → exec (.hostMemRead p tag addr secure) s = .next (s.hostData p tag x.guest (off / 64))) ∧
        (x.region = 1 → exec (.hostSharedRead p tag addr secure) s = .next (s.dirEvent (.sharedRead p tag x.guest (off / 64))) ∧
          exec (.hostMemRead p tag addr secure) s = .next (s.dirEvent (.sharedRead p tag x.guest (off / 64))) ∧
          exec (.hostOwnershipRead p tag addr secure) s = .next (s.dirEvent (.ownRead p tag x.guest (off / 64)))))) ∧
    -- a write
    (∀ data mask bad kept,
      (s.hostReach p addr .write = .abort → exec (.hostMemWrite p tag addr data mask bad secure) s = .next (s.abortHost p tag) ∧
        exec (.hostWriteBack p tag addr data kept bad secure) s = .next (s.abortHost p tag)) ∧
      (∀ x off, s.hostReach p addr .write = .line x off →
        (s.homeFenced off = true → exec (.hostMemWrite p tag addr data mask bad secure) s = .next (s.abortHost p tag)) ∧
        (s.homeFenced off = false → x.region ≠ 1 →
          exec (.hostMemWrite p tag addr data mask bad secure) s = .next (s.hostStore p tag (off / 64) data mask bad) ∧
          exec (.hostWriteBack p tag addr data kept bad secure) s = .next (s.hostStore p tag (off / 64) data (2 ^ 64 - 1) bad)) ∧
        (s.homeFenced off = false → x.region = 1 → (∀ r ∈ s.dir.recalls, r.line ≠ off / 64) →
          exec (.hostMemWrite p tag addr data mask bad secure) s = .next (s.dirEvent (.hostWrite p tag x.guest (off / 64) data mask bad false)) ∧
          exec (.hostWriteBack p tag addr data kept bad secure) s = .next
            (s.dirEvent (.hostWrite p tag x.guest (off / 64) data (2 ^ 64 - 1) bad kept))) ∧
        (s.homeFenced off = false → x.region = 1 → s.lineState (off / 64) = some (.owned p) →
          (∃ r ∈ s.dir.recalls, r.line = off / 64 ∧ r.waiting.contains p = true) →
          exec (.hostWriteBack p tag addr data kept bad secure) s = .next
            ((s.setLine (off / 64) (if kept then some (.shared [p]) else none)).hostStore p tag (off / 64) data (2 ^ 64 - 1) bad))))) ∧
  -- a clean eviction
  (∀ x off, s.hostReach p addr .read = .line x off →
    (x.region ≠ 1 ∨ s.lineState (off / 64) = none → exec (.hostCleanEviction p addr) s = .next s) ∧
    (x.region = 1 → s.lineState (off / 64) = some (.owned p) → exec (.hostCleanEviction p addr) s = .next (s.setLine (off / 64) none)) ∧
    (x.region = 1 → ∀ ps, s.lineState (off / 64) = some (.shared ps) →
      exec (.hostCleanEviction p addr) s = .next (s.setLine (off / 64) (some (.shared (ps.filter (· ≠ p))))))) ∧
  -- responses to recalls
  (∀ line kept data, ((∀ r ∈ s.dir.recalls, ¬ (r.line = line ∧ r.waiting.contains p = true)) → exec (.biResponse p line kept data) s = .next s) ∧
    (∀ r, (s.dir.recalls.find? fun r => r.line = line ∧ r.waiting.contains p) = some r →
      (r.began + 32000 < s.now → exec (.biResponse p line kept data) s = .next
        ((s.count 7 p 1 1).snoopAnswer p line kept (if data = [] then none else some data))) ∧
      (r.began + 400000 ≤ s.now → exec (.snoopTimeout p line) s = .next
        (((s.count 7 p 1 1).report (portReport evFault sevUncorrected p 7 1)).fencePort p 1))) ∧
    ((∀ r ∈ s.dir.recalls, r.line = line → s.now < r.began + 400000) → exec (.snoopTimeout p line) s = .next s) ∧
    ((∀ r ∈ s.dir.recalls, r.line = line → s.now ≤ r.began + 32000) → exec (.biResponse p line kept data) s = .next
      (s.snoopAnswer p line kept (if data = [] then none else some data))))

/-- Host ports (spec 04: R202; spec 15: R588–R614; spec 17: R648). -/
def Obligations.HostPortEvents : Prop := ∀ (p : Nat) (s : State),
  (s.port p = none →
    (∀ ide, exec (.hostPortFence p ide) s = .next s) ∧ (∀ w a b c d, exec (.hostLinkUp p w a b c d) s = .next s) ∧
    exec (.hostLinkDown p) s = .next s ∧ (∀ w, exec (.hostLinkWidthDrop p w) s = .next s) ∧ exec (.flr p) s = .next s ∧
    (∀ i b n a bi, exec (.hdmDecoderCommit p i b n a bi) s = .next s) ∧ (∀ t g v n, exec (.atsInvalidation p t g v n) s = .next s) ∧
    (∀ i, exec (.marginingCommand p i) s = .next s) ∧ (∀ v, exec (.msixUnmask p v) s = .next s)) ∧
  (∀ x, s.port p = some x →
    exec (.hostPortFence p true) s = .next ((s.count 7 p 2 1).fencePort p 2) ∧
    (let recent := x.fenceErrors.filter fun t => decide (s.now < t + 8000000000)
      let u := (s.setPort p fun x => { x with fenceErrors := recent ++ [s.now] }).report (portReport evFault sevUncorrected p 1 3)
      exec (.hostPortFence p false) s = .next (if recent.length ≥ 15 then u.fencePort p 3 else u)) ∧
    (∀ w bi ats pri d3, x.perst = false → w = 16 ∨ w = 8 ∨ w = 4 → exec (.hostLinkUp p w bi ats pri d3) s = .next
      (((if bi then s else s.loseHolder p).setPort p fun y => { y with
        up := true, width := w, active := w, fenced := false, biEnabled := bi, atsEnabled := ats, priEnabled := pri, d3hot := d3 }).offerHeld p)) ∧
    (∀ w bi ats pri d3, x.perst = true → exec (.hostLinkUp p w bi ats pri d3) s = .next s) ∧
    (x.up = true → exec (.hostLinkDown p) s = .next
      (((((s.setPort p fun y => { y with up := false, active := 0 }).dropHost p).loseHolder p).singleFault 0x6).report
        (portReport evCapacityReduced sevFailed p 9 0))) ∧
    (x.up = false → exec (.hostLinkDown p) s = .next s ∧ ∀ w, exec (.hostLinkWidthDrop p w) s = .next s ∧ ∀ i, exec (.marginingCommand p i) s = .next s) ∧
    (∀ w, x.up = true → 0 < w → w < x.active → exec (.hostLinkWidthDrop p w) s = .next
      (((s.setPort p fun y => { y with active := w }).singleFault 0x6).report (portReport evCapacityReduced sevRecovered p 9 w))) ∧
    exec (.flr p) s = .next
      (let reqs := s.queues.pageReqs.filter fun q => q.port = p ∧ (q.kind = .pri ∨ q.kind = .ats)
      let u := (reqs.foldl (fun s q => s.failWalk q Cause.timeout) s).setPort p fun y => { y with
        unmasked := [], msixPending := [], atsEnabled := false, priEnabled := false, invalidations := [], memSecure := false, ioSecure := false, fenced := false }
      { u with inn := { u.inn with boxes := (u.inn.boxes.filter fun (b : Mailbox) => b.port ≠ p || b.busy).map fun b =>
        if b.port = p then { b with mute := true } else b } }) ∧
    (∀ i b n a bi, (decoderBad ⟨i, b, n, a, bi⟩ = true → exec (.hdmDecoderCommit p i b n a bi) s = .next (s.setPort p fun y => { y with
        badDecoders := setAdd i y.badDecoders, decoders := y.decoders.filter fun z => z.index ≠ i })) ∧
      (decoderBad ⟨i, b, n, a, bi⟩ = false → exec (.hdmDecoderCommit p i b n a bi) s = .next ((s.setPort p fun y => { y with
        badDecoders := y.badDecoders.filter (· ≠ i), decoders := (y.decoders.filter fun z => z.index ≠ i) ++ [⟨i, b, n, a, bi⟩] }).offerHeld p))) ∧
    (∀ t g v n, (32 ≤ x.invalidations.length → exec (.atsInvalidation p t g v n) s = .next s) ∧
      (x.invalidations.length < 32 → exec (.atsInvalidation p t g v n) s = .next ((s.setPort p fun y => { y with invalidations := y.invalidations ++
        [⟨t, (s.queues.descs.filter fun d => decide (d.guest = g ∧ d.ats.any (fun e => overlaps e.gva e.len v n) = true)).map (·.id),
          (s.queues.pageReqs.filter fun r => decide (r.guest = g ∧ r.ats.any (fun e => overlaps e.gva e.len v n) = true)).map (·.queue)⟩] }).mapInvalidations id))) ∧
    (x.up = true → ∀ i, exec (.marginingCommand p i) s = .next (s.emit (.margin p (s.marginValue p i)))) ∧
    (∀ v, v < 2048 →
      let u := s.setPort p fun y => { y with unmasked := setAdd v y.unmasked, msixPending := y.msixPending.filter (· ≠ v) }
      (x.msixPending.contains v = true → exec (.msixUnmask p v) s = .next (u.msix p v)) ∧
      (x.msixPending.contains v = false → exec (.msixUnmask p v) s = .next u)) ∧
    (∀ v, 2048 ≤ v → exec (.msixUnmask p v) s = .next s)) ∧
  (∀ k g, (∀ c, s.cove k = some c →
      ((s.extentsWanted p).contains (k, g) = true → s.dataExtents p < 4096 → exec (.extentOffer p k g) s = .next
        (s.offerExtent p (regionOf c.coherence) c.size k g none 0 (c.grant g).code)) ∧
      ((s.extentsWanted p).contains (k, g) = false ∨ 4096 ≤ s.dataExtents p → exec (.extentOffer p k g) s = .next s)) ∧
    (s.cove k = none → exec (.extentOffer p k g) s = .next s)) ∧
  (∀ e, ((∀ x ∈ s.host.extents, ¬ (x.port = p ∧ x.id = e)) → exec (.extentForcedRelease p e) s = .next s) ∧
    (∀ x since f, (s.host.extents.find? fun x => x.port = p ∧ x.id = e) = some x → x.st = .releasing since f →
      (since + 8000000000 ≤ s.now → exec (.extentForcedRelease p e) s = .next (((s.removeExtent x).count 7 p 4 1).extentEvent x 2)) ∧
      (s.now < since + 8000000000 → exec (.extentForcedRelease p e) s = .next s))) ∧
  (∀ t q, s.pageReq t .ats = some q →
    (q.port = p → ∀ a n r w, n ≠ 0 → exec (.atsCompletion p t a n r w) s = .next
      (State.resume descTable s q q.asked (q.ats ++ [⟨q.gva / n * n, a, n, r, w⟩]))) ∧
    (q.port ≠ p → ∀ a n r w, exec (.atsCompletion p t a n r w) s = .next s) ∧
    (∀ x, s.port q.port = some x →
      (s.now < q.sent + x.completionTimeout → exec (.atsCompletionTimeout t) s = .next s) ∧
      (q.sent + x.completionTimeout ≤ s.now → exec (.atsCompletionTimeout t) s = .next (s.failWalk q Cause.timeout)))) ∧
  (∀ t, s.pageReq t .ats = none → (∀ a n r w, exec (.atsCompletion p t a n r w) s = .next s) ∧ exec (.atsCompletionTimeout t) s = .next s) ∧
  (∀ t q, s.pageReq t .pri = some q → q.port = p →
    exec (.priResponse p t 0) s = .next (State.resume descTable s q (setAdd (q.gva / 4096) (q.asked.filter (· < 2 ^ 57)))
      (q.ats.filter fun e => !decide (e.gva ≤ q.gva ∧ q.gva < e.gva + e.len))) ∧
    exec (.priResponse p t 1) s = .next (s.failWalk q Cause.invalid) ∧
    ∀ c, 1 < c → exec (.priResponse p t c) s = .next ((s.failWalk q Cause.invalid).setPort p fun x => { x with priEnabled := false }))

/-- The CXL mailbox (spec 15: R595–R614); payload layouts and codes are the model's choice, log entry 22. -/
def Obligations.CxlMailbox : Prop := ∀ (p : Nat) (x : HostPort) (s : State), s.port p = some x →
  exec (.identifyMemoryDevice p) s = .next (s.emit (.cxl p (leBytes 2 0 ++ (leBytes 16 (Config.unit 40) ++ zeros 32 ++ leBytes 8 (Config.unit 41) ++
    zeros 4 ++ leBytes 3 1024 ++ zeros 4 ++ leBytes 2 (Config.unit 42))))) ∧
  exec (.getSupportedLogs p) s = .next (s.emit (.cxl p (leBytes 2 0 ++ (leBytes 2 1 ++ zeros 6 ++ effectsUuid ++ leBytes 4 effectsLog.length)))) ∧
  (∀ off len, exec (.getLog p off len) s = .next (s.emit (.cxl p (leBytes 2 0 ++ (effectsLog.drop off).take len)))) ∧
  exec (.getEventRecords p) s = .next (s.emit (.cxl p (leBytes 2 0 ++ (leBytes 2 x.events.length ++ (x.events.map CxlEvent.bytes).flatten)))) ∧
  (∀ n, exec (.clearEventRecords p n) s = .next
    ((s.setPort p fun y => { y with events := y.events.filter fun e => decide (n < e.number) }).emit (.cxl p (leBytes 2 0)))) ∧
  exec (.getDynamicCapacityConfiguration p) s = .next (s.emit (.cxl p (leBytes 2 0 ++ (leBytes 1 3 ++ leBytes 1 3 ++ zeros 6 ++
    (([0, 1, 2] : List Nat).map fun r => leBytes 8 (r * 2 ^ 48) ++ leBytes 8 (2 ^ 20) ++ leBytes 8 (2 ^ 48) ++ leBytes 8 mib2 ++ leBytes 4 r ++ zeros 4).flatten)))) ∧
  exec (.getDynamicCapacityExtentList p) s = .next
    (let xs := s.acceptedOn p
    s.drew.emit (.cxl p (leBytes 2 0 ++ (leBytes 4 xs.length ++ leBytes 4 xs.length ++ leBytes 4 s.nextFree ++ zeros 4 ++
      (xs.map fun y => leBytes 8 y.dpa ++ leBytes 8 y.size ++ y.tag ++ zeros 8).flatten)))) ∧
  exec (.getPoisonList p) s = .next
    (let l := s.poisonList p
    s.emit (.cxl p (leBytes 2 0 ++ (leBytes 1 (b2n (decide (l.length > 1024))) ++ zeros 9 ++ leBytes 2 (min l.length 1024) ++ zeros 20 ++
      ((l.take 1024).map fun a => leBytes 8 a ++ leBytes 4 1 ++ zeros 4).flatten)))) ∧
  exec (.getHealthInfo p) s = .next (s.emit (.cxl p (leBytes 2 0 ++ (leBytes 1 s.power.state.code ++ zeros 1 ++
    leBytes 2 (maxNat (s.obs.scores.map (·.score))) ++ (s.power.temps.map leSigned).flatten)))) ∧
  (∀ ns, exec (.setTimestamp p ns) s = .next
    ((s.setPort p fun y => { y with timestamp := u64 ns, timestampAt := s.now }).emit (.cxl p (leBytes 2 0)))) ∧
  (x.timestamp = 0 → exec (.getTimestamp p) s = .next (s.emit (.cxl p (leBytes 2 0 ++ leBytes 8 0)))) ∧
  (x.timestamp ≠ 0 → exec (.getTimestamp p) s = .next
    (s.emit (.cxl p (leBytes 2 0 ++ leBytes 8 (u64 (x.timestamp + (s.now - x.timestampAt) / 8)))))) ∧
  (∀ e, ((∀ y ∈ s.host.extents, ¬ (y.port = p ∧ y.id = e)) →
      (∀ a, exec (.addDynamicCapacityResponse p e a) s = .next (s.emit (.cxl p (leBytes 2 2)))) ∧
      exec (.releaseDynamicCapacity p e) s = .next (s.emit (.cxl p (leBytes 2 2)))) ∧
    (∀ y, (s.host.extents.find? fun y => y.port = p ∧ y.id = e ∧ y.st = .offered) = some y →
      let u := s.emit (.cxl p (leBytes 2 0))
      exec (.addDynamicCapacityResponse p e true) s = .next (u.mapExtents (fun z => z.id = e) fun z => { z with st := .accepted }) ∧
      (y.snap = none → exec (.addDynamicCapacityResponse p e false) s = .next
        ((u.removeExtent y).setPort p fun q => { q with rejected := q.rejected ++ [(y.cove, y.guest)] })) ∧
      (∀ h, y.snap = some h → exec (.addDynamicCapacityResponse p e false) s = .next (u.removeExtent y))) ∧
    (∀ y, (s.host.extents.find? fun y => y.port = p ∧ y.id = e ∧ y.st ≠ .held) = some y → y.region ≠ 1 →
      exec (.releaseDynamicCapacity p e) s = .next ((s.removeExtent y).emit (.cxl p (leBytes 2 0)))))

/-- The deep tier and the Harbour's background work (spec 02: R45, R46, R90–R101; spec 16: R615–R639). -/
def Obligations.DeepTier : Prop := ∀ (g : Nat) (s : State),
  -- fills and ways
  ((∀ m ∈ s.store.harbour.misses, m.granule ≠ g) → exec (.harbourFill g) s = .next s ∧ exec (.wayAvailable g) s = .next s ∧ exec (.granuleLost g) s = .next s) ∧
  (∀ m, (s.store.harbour.misses.find? fun m => m.granule = g) = some m →
    (m.filled = false → (s.deep.reads.find? fun r => r.granule = g) = none → exec (.harbourFill g) s = .next
      (m.waiters.foldl State.answerWaiter (State.seatGranule { s with deep := { s.deep with reads := s.deep.reads.filter fun r => r.granule ≠ g } } m))) ∧
    (∀ r, (s.deep.reads.find? fun r => r.granule = g) = some r →
      let u : State := { s with deep := { s.deep with reads := s.deep.reads.filter fun r => r.granule ≠ g } }
      (m.filled = false → r.ready = true → exec (.harbourFill g) s = .next
        (m.waiters.foldl State.answerWaiter ((u.releasePage r.die r.block).seatGranule m))) ∧
      (r.ready = false → exec (.harbourFill g) s = .next s) ∧
      (m.filled = false → r.ready = false → m.began + 1200000 ≤ s.now → exec (.granuleLost g) s = .next
        (let secs := (span (g * 256) 256).filter fun p => !m.held.contains p
        let v : State := { u with store := { u.store with poison := uniq (u.store.poison ++ secs) } }
        let w := m.waiters.foldl (fun s w => s.failWaiter g w) ((v.releasePage r.die r.block).seatGranule m)
        (w.count 5 r.die 10 1).report ⟨evFault, sevUncorrected, 0x2, r.die, 5, 0, gpaOf w.self (g * granuleSize), 0, 0⟩)) ∧
      (s.now < m.began + 1200000 → exec (.granuleLost g) s = .next s)) ∧
    (m.filled = true → exec (.harbourFill g) s = .next s)) ∧
  (∀ m, (s.store.harbour.misses.find? fun m => m.granule = g ∧ m.filled) = some m → exec (.wayAvailable g) s = .next (s.seatGranule m)) ∧
  -- write-back
  (∀ sub block,
    (∀ w, s.store.harbour.way g = some w →
      (w.writeBack = true → ∀ t, s.enqueueWrite g sub block = some t → exec (.writeBack g sub block) s = .next (t.dropWay g)) ∧
      (w.writeBack = true → s.enqueueWrite g sub block = none → exec (.writeBack g sub block) s = .next s) ∧
      (w.writeBack = false → exec (.writeBack g sub block) s = .next s)) ∧
    (s.store.harbour.way g = none → exec (.writeBack g sub block) s = .next s) ∧
    (s.store.harbour.mirror = [] → exec (.mirrorWriteBack sub block) s = .next s) ∧
    (∀ k l, s.store.harbour.mirror = k :: l →
      (4 * s.mirrorBytes < 3 * (s.store.harbour.mirrorGib * 2 ^ 30) → exec (.mirrorWriteBack sub block) s = .next s) ∧
      (3 * (s.store.harbour.mirrorGib * 2 ^ 30) ≤ 4 * s.mirrorBytes → ∀ t, s.enqueueWrite k sub block = some t →
        exec (.mirrorWriteBack sub block) s = .next (t.cleanWay k)))) ∧
  -- migration
  (∀ sub block, ((∀ m ∈ s.store.moving, m.granule ≠ g) → ∀ o, exec (.migrationGranule g o sub block) s = .next s) ∧
    (∀ m, (s.store.moving.find? fun m => m.granule = g) = some m →
      let fin : State → State := fun t => { t with store := { t.store with moving := t.store.moving.filter fun m => m.granule ≠ g } }
      (m.copies < 4 → exec (.migrationGranule g true sub block) s = .next { s with store := { s.store with
        moving := mapIf (fun m => m.granule = g) (fun m => { m with copies := m.copies + 1 }) s.store.moving } }) ∧
      (s.store.harbour.way g = none → m.target ≠ .pin → exec (.migrationGranule g false sub block) s = .next (fin s)) ∧
      (s.store.harbour.way g = none → m.target = .pin → s.absent g = false → s.missOpen g = false → exec (.migrationGranule g false sub block) s = .next
        (fin { s with store := { s.store with harbour := s.store.harbour.fill s.now g .pin false [] } })) ∧
      (∀ w, s.store.harbour.way g = some w → w.dirty = [] → m.target = .cold → exec (.migrationGranule g false sub block) s = .next (fin (s.dropWay g))) ∧
      (∀ w t, s.store.harbour.way g = some w → w.dirty ≠ [] → m.target = .cold → s.enqueueWrite g sub block = some t →
        exec (.migrationGranule g false sub block) s = .next (fin (t.dropWay g))) ∧
      (∀ w, s.store.harbour.way g = some w → m.target ≠ .cold → (w.pinned = false ∨ m.target = .pin) →
        exec (.migrationGranule g false sub block) s = .next (fin { s with store := { s.store with harbour := { s.store.harbour with
          ways := mapIf (fun (x : Way) => x.gpa = g) (fun x => { x with cls := m.target, pinned := m.target == .pin }) s.store.harbour.ways } } })))) ∧
  -- scrub
  (s.store.harbour.resident g = false → ∀ c l, exec (.harbourScrub g c l) s = .next s) ∧
  (s.store.harbour.resident g = true → exec (.harbourScrub g 0 []) s = .next (s.count 4 (s.stackFor (g * granuleSize)) 5 1)) ∧
  -- reads
  ((∀ r ∈ s.deep.reads, r.granule ≠ g) → ∀ k v, exec (.nandReadDone g k v) s = .next s) ∧
  (∀ r, (s.deep.reads.find? fun r => r.granule = g) = some r → s.dieFailed r.die = false → r.ready = false →
    (r.hardFailed = false →
      (r.softFailed = false → exec (.nandReadDone g 0 true) s = .next (s.setRead g fun r => { r with ready := true })) ∧
      (let u := (s.setRead g fun r => { r with hardFailed := true }).count 5 r.die 8 1
      exec (.nandReadDone g 0 false) s = .next { u with deep := { u.deep with refresh := setAdd g u.deep.refresh } })) ∧
    (r.hardFailed = true → r.softFailed = false → exec (.nandReadDone g 1 false) s = .next
      (((s.setRead g fun r => { r with softFailed := true }).lateWaiters g).count 5 r.die 9 1))) ∧
  -- dies
  (∀ die, let x := s.die die
    (s.dieBusy die = true → x.suspended = false → s.dieReads die ≠ [] → x.resumedAt = 0 ∨ x.resumedAt + 32000 ≤ s.now →
      exec (.nandSuspend die) s = .next (s.setDie die fun d => { d with suspended := true })) ∧
    (s.dieBusy die = false → exec (.nandSuspend die) s = .next s) ∧
    (x.suspended = true → s.dieReads die = [] → exec (.nandResume die) s = .next
      (s.setDie die fun d => { d with suspended := false, resumedAt := s.now })) ∧
    (s.dieReads die ≠ [] → exec (.nandResume die) s = .next s) ∧
    (die < 0x8000 → s.dieThere die = true → exec (.nandUnitFail die) s = .next ((s.failNand die).singleFault 0x2)) ∧
    (die < 0x8000 → s.dieThere die = false → exec (.nandUnitFail die) s = .next s) ∧
    (∀ c, s.deep.groups.contains (c / 16) = true → exec (.nandUnitFail (0x8000 + c)) s = .next ((s.failNand (0x8000 + c)).singleFault 0x2)) ∧
    (∀ block, s.dieThere die = true → s.blockUnused die block = true → x.suspended = false → x.retired.contains block = false →
      let u := s.setDie die fun d => { d with erasing := if d.erasing == some block then none else d.erasing }
      exec (.nandEraseDone die block false) s = .next (u.retireBlock die block) ∧
      exec (.nandEraseDone die block true) s = .next (u.setDie die fun d =>
        { d with erases := upsert (fun x => x.1) (block, ((d.erases.find? fun x => x.1 = block).map (·.2)).getD 0 + 1) d.erases })) ∧
    (s.dieThere die = true → x.wearAt = none → exec (.wearRecordWrite die) s = .next ((s.saveWear die).programmed 1)) ∧
    (∀ t, x.wearAt = some t → s.now < t + 4800000000000 → s.power.state ≠ .draining → exec (.wearRecordWrite die) s = .next s)) ∧
  -- programs
  (∀ seq sub block, ((∀ w ∈ s.deep.queue, ¬ (w.granule = g ∧ w.seq = seq)) → ∀ ok, exec (.nandProgramDone g seq ok sub block) s = .next s) ∧
    (∀ w, (s.deep.queue.find? fun w => w.granule = g ∧ w.seq = seq) = some w → (s.die w.die).suspended = false →
      let rest := s.deep.queue.filter fun (x : WriteBack) => !(x.granule == g && x.seq == seq)
      exec (.nandProgramDone g seq true sub block) s = .next
        ((({ s with deep := { s.deep with queue := rest } } : State).programmed 1).moveMap w) ∧
      (∀ t die stripe, s.place sub = some (t, die, stripe) → exec (.nandProgramDone g seq false sub block) s = .next
        (({ t with deep := { t.deep with queue := rest ++ [{ w with die := die, block := block, stripe := stripe }] } } : State).retireBlock w.die w.block)))) ∧
  -- background tasks
  (∀ sub block,
    ((∀ e ∈ s.deep.map, e.granule ≠ g) → ∀ y ∈ [Instr.reclaim g sub block, .wearLevelling g sub block, .restriping g sub block], exec y s = .next s) ∧
    (∀ e, (s.deep.map.find? fun e => e.granule = g) = some e →
      ((∀ x ∈ s.deep.map, s.validPages e.die e.block ≤ s.validPages x.die x.block) → exec (.reclaim g sub block) s = .next (s.movePage g sub block)) ∧
      (s.deep.rated < 20 * (s.eraseMax e.die - (Config.unit (0x1000000 + e.die * 0x10000 + e.block) +
          (((s.die e.die).erases.find? fun x => x.1 = e.block).map (·.2)).getD 0)) →
        exec (.wearLevelling g sub block) s = .next (s.movePage g sub block)) ∧
      (s.restripes e = true → exec (.restriping g sub block) s = .next (s.movePage g sub block)) ∧
      (s.restripes e = false → exec (.restriping g sub block) s = .next s) ∧
      (exec (.retentionRefresh g true false sub block) s = .next (s.movePage g sub block)) ∧
      (exec (.retentionRefresh g true true sub block) s = .next ((s.movePage g sub block).retireBlock e.die e.block)) ∧
      (s.deep.refresh.contains g = false → exec (.retentionRefresh g false false sub block) s = .next s)))

/-- The Tollhouse (spec 19: R708–R732). -/
def Obligations.Tollhouse : Prop := ∀ (s : State),
  -- measurement
  (∀ ok n us energy counts below,
    (s.toll.powered = false ∨ s.sendsFrames = false ∨ ok = false ∨ 15000 < us ∨ (∃ k, s.toll.frame = some k ∧ n ≤ k) →
      exec (.activityFrame ok n us energy counts below) s = .next s) ∧
    (s.toll.powered = true → s.sendsFrames = true → us ≤ 15000 → (∀ k, s.toll.frame = some k → k < n) →
      let v := if s.settlePeriod.toll.lost then s.settlePeriod.tollEvent 4 0 else s.settlePeriod
      let stamp := v.now / 80000000 * 80000000
      let t := (v.toll.measure us energy below).credit (v.frameGuests counts) us energy
      exec (.activityFrame true n us energy counts below) s = .next { v with toll := { t with
        frame := some n, frameTime := stamp, shore := v.self, lost := false
        began := if t.frame.isNone then stamp - 8000 * t.periodTime else t.began
        estimated := t.estimated || t.frame.isNone
        ended := if stamp % 480000000000 = 0 ∨ (t.frame.isNone = false ∧ stamp ≠ t.frameTime + 80000000) then some stamp else none } })) ∧
  (s.toll.powered = true → ∀ energy below,
    let v := if s.settlePeriod.toll.lost then s.settlePeriod else s.settlePeriod.tollEvent 3 0
    let t := v.toll.measure 15000 energy below
    exec (.intervalTimeout energy below) s = .next { v with toll := { t with
      unattributed := t.unattributed + sumNat (energy.take 11), gap := true, lost := true } }) ∧
  (s.toll.powered = true → (∀ k, s.toll.ended = some k → exec .periodEnd s = .next (s.closePeriod k)) ∧
    (s.toll.ended = none → s.toll.lost = true → 60000000 ≤ s.toll.periodTime → exec .periodEnd s = .next
      (({ s with toll := { s.toll with estimated := true } } : State).closePeriod (s.toll.began + 8000 * s.toll.periodTime))) ∧
    (s.toll.ended = none → s.toll.periodTime < 60000000 → exec .periodEnd s = .next s)) ∧
  -- seal and supply
  (s.toll.powered = true → ∀ c,
    (s.toll.broken = true ∨ c = 0 ∨ 6 < c → exec (.sealBreak c) s = .next s) ∧
    (s.toll.broken = false → 1 ≤ c → c ≤ 6 → exec (.sealBreak c) s = .next
      (let u := (s.tollEvent 7 c).tollSign
      { u with toll := { u.toll with broken := true } }))) ∧
  (s.toll.powered = true → exec .vtollLoss s = .next
    (let u := s.tollEvent 2 0
    { u with toll := { u.toll with powered := false }, power := { u.power with rails := u.power.rails.filter (· ≠ 10) } })) ∧
  (s.toll.powered = false →
    (∀ e b, exec (.intervalTimeout e b) s = .next s) ∧ exec .periodEnd s = .next s ∧ (∀ c, exec (.sealBreak c) s = .next s) ∧
    exec .vtollLoss s = .next s ∧ exec .tollStatusMirror s = .next s ∧
    (∀ f, ∀ x ∈ [Instr.tollStatus f, .tollPortRead f, .tollAck f, .tollCert f, .tollInstant f, .tollAttest f, .commission f, .setBaud f], exec x s = .next s) ∧
    (∀ c, let u : State := { s with toll := { s.toll with powered := true, baud := 0 }, power := { s.power with rails := setAdd 10 s.power.rails } }
      (s.toll.broken = true ∨ c = 0 ∨ 6 < c → exec (.tollhousePowerUp c) s = .next (u.tollEvent 1 u.toll.frameTime)) ∧
      (exec (.tollhousePowerUp c) s = .next ((u.breakSeal c).tollEvent 1 (u.breakSeal c).toll.frameTime)))) ∧
  (s.toll.powered = true → ∀ c, exec (.tollhousePowerUp c) s = .next s) ∧
  -- the mirror
  (s.toll.powered = true → s.inn.booted = true → exec .tollStatusMirror s = .next
    (({ s with mirror := { s.mirror with status := s.tollStatus, statusAt := s.now, late := false } } : State).drew)) ∧
  (s.inn.booted = true → s.mirror.late = false → s.mirror.statusAt + 24000000000 ≤ s.now → exec .tollMirrorTimeout s = .next
    (({ s with mirror := { s.mirror with late := true } } : State).report ⟨evFault, sevRecovered, 0xC, 0, 1, 0, 0, 0, 0⟩)) ∧
  (s.mirror.late = true ∨ s.now < s.mirror.statusAt + 24000000000 → exec .tollMirrorTimeout s = .next s) ∧
  -- the port
  (s.toll.powered = true → ∀ f, fld f 0 1 = 0xA5 →
    (∀ e, portBad f = some e → ∀ x ∈ [Instr.tollStatus f, .tollPortRead f, .tollAck f, .tollCert f, .tollInstant f, .tollAttest f, .commission f, .setBaud f],
      exec x s = .next (s.emit (.toll (portResponse (fld f 1 1) e [])))) ∧
    (portBad f = none → let c := fld f 1 1
      let n := fld f 2 2
      (c = 1 → n = 0 → exec (.tollStatus f) s = .next (s.drew.emit (.toll (portResponse 1 0 s.tollStatus)))) ∧
      (c = 2 → n = 9 → let p := slice f 4 9
        let first := s.toll.nextSeq - s.toll.store.length
        (fld p 0 8 < first ∨ fld p 8 1 = 0 ∨ 16 < fld p 8 1 → exec (.tollPortRead f) s = .next (s.emit (.toll (portResponse 2 3 [])))) ∧
        (first ≤ fld p 0 8 → 1 ≤ fld p 8 1 → fld p 8 1 ≤ 16 → exec (.tollPortRead f) s = .next
          (s.emit (.toll (portResponse 2 0 ((s.toll.store.drop (fld p 0 8 - first)).take (fld p 8 1)).flatten))))) ∧
      (c = 3 → n = 104 → let p := slice f 4 104
        (s.toll.collector = none → exec (.tollAck f) s = .next (s.emit (.toll (portResponse 3 4 [])))) ∧
        (∀ key, s.toll.collector = some key → (∃ r ∈ s.toll.store, fld r 8 8 = fld p 0 8 ∧ fld r 0 1 = 3) →
          Config.verifies (key ++ [0x41, 0x43, 0x4B] ++ serial ++ slice p 0 8 ++ slice p 8 96) = true →
          let u : State := { s with toll := { s.toll with acked := max s.toll.acked (fld p 0 8 + 1) } }
          (s.toll.stopped = false → exec (.tollAck f) s = .next ((u.tollEvent 9 (fld p 0 8)).emit (.toll (portResponse 3 0 [])))) ∧
          (s.toll.stopped = true → u.toll.room = true → exec (.tollAck f) s = .next
            (let v := u.tollEvent 6 0
            (State.tollEvent { v with toll := { v.toll with stopped := false } } 9 (fld p 0 8)).emit (.toll (portResponse 3 0 [])))))) ∧
      (c = 4 → n = 1 → exec (.tollCert f) s = .next (s.emit (.toll (portResponse 4 0 (tollCert (fld (slice f 4 1) 0 1)))))) ∧
      (c = 5 → n = 0 → exec (.tollInstant f) s = .next
        ((s.drewN 33).emit (.toll (portResponse 5 0 ((List.range 33).map fun i => leBytes 4 (s.freeAt i)).flatten)))) ∧
      (c = 6 → n = 32 → let b := s.tollStatus ++ slice f 4 32
        exec (.tollAttest f) s = .next ((s.drewN 2).emit (.toll (portResponse 6 0
          (b ++ if s.toll.broken then leBytes 96 (s.freeAt 1) else leBytes 96 (Config.crypto b)))))) ∧
      (c = 7 → n = 96 →
        (∀ k, s.toll.collector = some k → exec (.commission f) s = .next (s.emit (.toll (portResponse 7 4 [])))) ∧
        (s.toll.collector = none → exec (.commission f) s = .next
          ((State.tollEvent { s with toll := { s.toll with collector := some (leBytes 48 (Config.crypto (slice f 4 96))) } } 8 0).emit (.toll (portResponse 7 0 []))))) ∧
      (c = 8 → n = 1 → let b := fld (slice f 4 1) 0 1
        (2 < b → exec (.setBaud f) s = .next (s.emit (.toll (portResponse 8 3 [])))) ∧
        (b ≤ 2 → exec (.setBaud f) s = .next ((State.emit { s with toll := { s.toll with baud := b } } (.toll (portResponse 8 0 []))))))))

/-- The Wayfarer monitor (spec 20: R758, R759); the layout of its lines is the model's choice, log entry 52. -/
def Obligations.Wayfarer : Prop := ∀ (l : List Byte) (s : State),
  let all : List (Instr × List Byte × Nat × Bool) := [(.wayfarerHelp l, nameHelp, 0, false), (.wayfarerVersion l, nameVersion, 0, false),
    (.wayfarerState l, nameState, 0, false), (.wayfarerTime l, nameTime, 0, false), (.wayfarerBoot l, nameBoot, 0, false),
    (.wayfarerBaud l, nameBaud, 0, false), (.wayfarerCount l, nameCount, 1, true), (.wayfarerEvents l, nameEvents, 1, true),
    (.wayfarerWeather l, nameWeather, 1, true), (.wayfarerLinks l, nameLinks, 1, false), (.wayfarerReg l, nameReg, 1, false),
    (.wayfarerTrace l, nameTrace, 5, true)]
  let err : Nat → State := fun n => s.emit (.uart (wayfarerText [] n))
  let said : State → List (List Byte) → Host.Outcome State Fault Refusal := fun t ls => .next (t.emit (.uart (wayfarerText ls 0)))
  (s.wayfarerRuns = false → ∀ x ∈ all, exec x.1 s = .next s) ∧
  (s.wayfarerRuns = true →
    (lineWords l = [] → ∀ x ∈ all, exec x.1 s = .next (err 1)) ∧
    (∀ w args, lineWords l = w :: args →
      (128 < l.length ∨ wayfarerNames.contains w = false → ∀ x ∈ all, exec x.1 s = .next (err 1)) ∧
      (l.length ≤ 128 → ∀ x ∈ all, x.2.1 = w →
        (s.debug &&& x.2.2.1 ≠ x.2.2.1 → exec x.1 s = .next (err 3)) ∧
        (s.debug &&& x.2.2.1 = x.2.2.1 → x.2.2.2 = true → s.innRuns = false → exec x.1 s = .next (err 4)) ∧
        (s.debug &&& x.2.2.1 = x.2.2.1 → s.innRuns = true → numbersOf args = none → exec x.1 s = .next (err 2))) ∧
      (l.length ≤ 128 → ∀ ns, numbersOf args = some ns →
        (ns = [] →
          (w = nameHelp → exec (.wayfarerHelp l) s = said s wayfarerNames) ∧
          (w = nameVersion → exec (.wayfarerVersion l) s = said s [fieldsLine [(2, 0xA1)], fieldsLine [(4, Config.unit 9)],
            fieldsLine [(4, (s.inn.fw.slot s.inn.fw.running).release)], hexBytes serial]) ∧
          (w = nameState → s.power.state ≠ .off → exec (.wayfarerState l) s = said s [fieldsLine [(2, s.power.state.code), (2, s.power.cause)]]) ∧
          (w = nameState → s.power.state = .off → exec (.wayfarerState l) s = said s (fieldsLine [(2, s.power.state.code), (2, s.power.cause)] ::
            ((List.range 10).filter fun r => !s.power.rails.contains r).map fun r => fieldsLine [(2, r)])) ∧
          (w = nameTime → exec (.wayfarerTime l) s = said s [fieldsLine [(16, s.now), (4, s.headland.2), (1, s.headland.1), (2, s.hopsOut)],
            (if s.clock.offset < 0 then (0x2D : Byte) else 0x2B) :: hexOf 16 (s.clock.offset.natAbs * 125 / 256), fieldsLine [(1, b2n s.clock.locked)]]) ∧
          (w = nameBoot → exec (.wayfarerBoot l) s = said s (s.obs.boot.map fun k => fieldsLine [(2, k)])) ∧
          (w = nameLinks → s.debug &&& 1 = 1 → exec (.wayfarerLinks l) s = said (s.drewN s.fabric.links.length) (s.fabric.links.zipIdx.map fun (l, i) =>
            fieldsLine [(2, l.id), (1, l.state.code), (1, l.laneMap.length), (1, b2n l.spare.isSome), (8, s.freeAt i)]))) ∧
        (ns ≠ [] → w = nameHelp → exec (.wayfarerHelp l) s = .next (err 2)) ∧
        (w = nameBaud → ∀ n, ns = [n] →
          (baudRates.contains n = true → exec (.wayfarerBaud l) s = said { s with obs := { s.obs with baud := n } } []) ∧
          (baudRates.contains n = false → exec (.wayfarerBaud l) s = .next (err 2))) ∧
        (w = nameCount → s.debug &&& 1 = 1 → s.innRuns = true → ∀ g i n, ns = [g, i] → i ≤ 65535 → groupSize g i = some n → exec (.wayfarerCount l) s =
          said s ((List.range n).map fun k => fieldsLine [(16, s.counterValue s.deepFigure g i k)])) ∧
        (w = nameEvents → s.debug &&& 1 = 1 → s.innRuns = true → ∀ n, ns = [n] → 1 ≤ n → n ≤ 256 → exec (.wayfarerEvents l) s =
          said s ((s.obs.events.drop (s.obs.events.length - n)).map fun e => hexBytes e.bytes)) ∧
        (w = nameWeather → s.debug &&& 1 = 1 → s.innRuns = true → ∀ c u, ns = [c, u] → 1 ≤ c → c ≤ 0xC → unitBad c u = false → exec (.wayfarerWeather l) s =
          said s (fieldsLine [(4, s.score c u)] :: (s.ratios c u ++ [Frac.mk' (s.marginOf c u) 1000]).map fun x => fieldsLine [(8, fracFp32 x)])) ∧
        (w = nameReg → s.debug &&& 1 = 1 → ∀ o, o % 8 = 0 →
          (ns = [0, o] → o < 2 ^ 20 → exec (.wayfarerReg l) s = said s [fieldsLine [(16, s.regValue .wayfarer 0 0 o)]]) ∧
          (ns = [2, o] → o < 2 ^ 22 → exec (.wayfarerReg l) s = said s [fieldsLine [(16, s.regValue .wayfarer 0 1 o)]])) ∧
        (w = nameTrace → s.debug &&& 5 = 5 → s.innRuns = true → ∀ o n, ns = [o, n] → n ≤ 4096 → o + n ≤ mib2 → exec (.wayfarerTrace l) s =
          said (s.drewN (n + 1)) [hexBytes (s.traceBytes n).2.2]))))

/-- Trust services (spec 15: R606, R610; spec 18: R694, R700, R701, R704); codes and shifted values are log entries 41–43. -/
def Obligations.TrustServices : Prop := ∀ (s : State),
  let answer : State → Nat → List Byte → State := fun t k b =>
    t.emit (.spdm (leBytes 1 0x13 ++ leBytes 1 k ++ zeros 2 ++ b ++ leBytes 96 (Config.crypto (b ++ t.measurements))))
  let error : Nat → State := fun n => s.emit (.spdm (leBytes 1 0x13 ++ leBytes 1 0x7F ++ leBytes 1 n ++ zeros 1))
  (∀ r, let mine := s.trust.spdm.filter fun x => x.1 = r
    (s.responds r = false → ∀ o c n a, exec (.spdmMessage r o c n a) s = .next s) ∧
    (s.responds r = true → s.inn.booted = false → ∀ o c n a, exec (.spdmMessage r o c n a) s = .next (error 0x03)) ∧
    (s.responds r = true → s.inn.booted = true →
      (r < 4 → ∀ c n a, exec (.spdmMessage r 0 c n a) s = .next (s.emit (.spdm (s.cdat r)))) ∧
      (∀ c n a, mine.contains (r, n) = false → exec (.spdmMessage r 2 c n a) s = .next (error 0x02)) ∧
      (∀ n a, (if r < 4 then 4 else 2) ≤ mine.length → exec (.spdmMessage r 1 0xE4 n a) s = .next (error 0x0A)) ∧
      (∀ n a i, mine.length < (if r < 4 then 4 else 2) → ((List.range 6).find? fun i => !mine.contains (r, i)) = some i →
        exec (.spdmMessage r 1 0xE4 n a) s = .next (answer (s.setSpdm (s.trust.spdm ++ [(r, i)])) 0x64 (leBytes 2 i))) ∧
      (∀ n a, exec (.spdmMessage r 1 0xEC n a) s = .next (answer (s.setSpdm (s.trust.spdm.filter fun x => x != (r, n))) 0x6C [])) ∧
      (∀ n, r < 4 → mine.contains (r, n) = true →
        exec (.spdmMessage r 2 0xFE n 1) s = .next (answer (s.setPort r fun p => { p with memSecure := true }) 0x7E []) ∧
        exec (.spdmMessage r 2 0xFE n 2) s = .next (answer (s.setPort r fun p => { p with ioSecure := true }) 0x7E [])) ∧
      (∀ n a, exec (.spdmMessage r 1 0xE0 n a) s = .next (answer s 0x60 s.measurements)) ∧
      (∀ n a, ∀ c ∈ [0x81, 0x82, 0x83, 0x84, 0xE1, 0xE3, 0xE5, 0xE8], exec (.spdmMessage r 1 c n a) s = .next (answer s (c - 0x80) [])))) ∧
  (s.managementUp = false → ∀ m k, exec (.redfishRequest m k) s = .next s) ∧
  (s.managementUp = true →
    (∀ k, exec (.redfishRequest false k) s = .next (s.emit (.https 403))) ∧
    exec (.redfishRequest true []) s = .next (s.emit (.https 200)) ∧
    (∀ k, k ≠ [] → s.trust.anchors.contains k = false →
      (8 ≤ s.trust.anchors.length → exec (.redfishRequest true k) s = .next (s.emit (.https 507))) ∧
      (s.trust.anchors.length < 8 → exec (.redfishRequest true k) s = .next
        (State.emit { s with trust := { s.trust with anchors := s.trust.anchors ++ [k] } } (.https 201)))) ∧
    (∀ k, s.trust.anchors.contains k = true → exec (.redfishRequest true k) s = .next (s.emit (.https 200)))) ∧
  (s.power.rails.contains 9 = false → ∀ c, exec (.jtagInstruction c) s = .next s) ∧
  (s.power.rails.contains 9 = true →
    exec (.jtagInstruction 0) s = .next (s.emit (.jtag (Config.unit 5))).drew ∧
    exec (.jtagInstruction 1) s = .next (s.emit (.jtag 0)) ∧
    exec (.jtagInstruction 2) s = .next (s.emit (.jtag s.nextFree)).drew ∧
    (∀ c, 3 ≤ c → bit s.debug 1 = true → exec (.jtagInstruction c) s = .next (s.emit (.jtag s.nextFree)).drew) ∧
    (s.power.resetHeld = true → exec (.jtagInstruction 3) s = .next (s.emit (.jtag s.nextFree)).drew) ∧
    (∀ c, 3 < c → bit s.debug 1 = false → exec (.jtagInstruction c) s = .next (s.emit (.jtag 0))))

/-- A step takes the command at the front (the block's form of the machine; log entry 54). -/
def Obligations.StepTakesTheFront : Prop :=
  ∀ (c : Instr) (rest : List Instr) (s : State), step { s with pending := c :: rest } = exec c { s with pending := rest }

/-- A step with nothing waiting. That it is a cycle is the model's choice, log entry 54; what a cycle does is spec 20's (R733, R734). -/
def Obligations.IdleCycle : Prop := ∀ (s : State), s.pending = [] →
  (∃ n f, step s = .next { s with clock := { s.clock with tidetime := n, fraction := f } }) ∧
  (-(rateLimit : Int) ≤ s.clock.rate → s.clock.rate ≤ rateLimit → s.clock.fraction < 2 ^ 32 → ∀ t, step s = .next t →
    t.clock.fraction < 2 ^ 32 ∧ ∃ k, 7 ≤ k ∧ k ≤ 9 ∧ t.now = (s.now + k) % 2 ^ 64)

/-- Reset (spec 20: R734; spec 18: R704; spec 03: R130; spec 02: R59; spec 19: R721). Where State.reset stands in the power-up, and every value of it
that is not named here and no rule gives, is the model's choice (log entries 1 and 3). -/
def Obligations.ResetState : Prop :=
  State.reset.now = 0 ∧ State.reset.debug = 0 ∧ State.reset.power.state = .waking ∧ State.reset.inn.booted = false ∧
  (∀ p, p < 4 → (State.reset.chanRec (.mailbox p 0)).bound = some (0, 0)) ∧
  (∀ x ∈ State.reset.inn.chans, ∃ p, p < 4 ∧ x.chan = .mailbox p 0) ∧
  (∀ a, Mem.get State.reset.store.mem a = 0) ∧
  State.reset.toll.nextSeq = 0 ∧ State.reset.toll.Ok ∧ State.reset.pending = [] ∧ State.reset.queueWf = true ∧ State.reset.memWf = true

/-- spec/opcode_table.json gives no row any bits: commands come with operands, not as words. -/
def Obligations.NoWordSpellsACommand : Prop :=
  ∀ (nbits w : Nat) (s : State), decodeTableWord nbits w = none ∧ s.withFetchWord nbits w = s

/-- The order of the checks (spec 03: R128, R131, R132, R140), and that a failure has no effect but its answer. -/
def Obligations.RefusedCommands : Prop :=
  (∀ (c : RelasCmd) (s : State) (r : CatRow), s.delivered c = true → s.serial c = false → c.stage = false → catRow c.opcode = some r →
    let u := s.taken c
    let op := (relasOpOf c).getD opUnknown
    ((u.chanRec c.chan).kept.find? fun k => k.header = c.header) = none →
    ∀ x ∈ [(Instr.guestCreate c, 0x0101), (.guestSet c, 0x0103), (.guestQuery c, 0x0105), (.placeSet c, 0x0301), (.queueCreate c, 0x0401),
      (.tableCreate c, 0x0501), (.indexCreate c, 0x0601), (.kvsetCreate c, 0x0701), (.bollardAlloc c, 0x0801), (.bundleSet c, 0x0901),
      (.fabricSet c, 0x0905), (.unitRetire c, 0x0A02), (.mailboxBind c, 0x0B01), (.counterRead c, 0x0C02), (.configOpen c, 0x0D01),
      (.powerCapSet c, 0x0E01), (.fwWrite c, 0x0F01)], c.opcode = x.2 →
      let wellSized := c.len % 8 = 0 ∧ 16 ≤ c.len ∧ c.len ≤ 4096 ∧ c.bytes.length = c.len
      let bound := (u.chanRec c.chan).bound = some (c.guest, c.epoch) ∧ (c.guest = 0 ∨ (r.guest = true ∧ op.owns c u = true))
      let answered : Nat → Nat → Prop := fun result detail => exec x.1 s = .next (u.fail c result detail)
      (¬ wellSized → answered Result.badLength ((op.len c).getD 4096)) ∧
      (wellSized → (∀ n, op.len c = some n → answered Result.badLength n) ∧
        (op.len c = none → (¬ bound → answered Result.denied 0) ∧
          (bound → (stateAllows u c = false → answered Result.notReady u.devState) ∧
            (stateAllows u c = true → u.refusing = false → (u.chanRec c.chan).outstanding.length ≤ 8 →
              (∀ d, headerBad r c = some d → answered Result.badField d) ∧
              (headerBad r c = none → (∀ d, op.fields c u = some d → answered Result.badField d) ∧
                (op.fields c u = none → (op.denied c u = true → answered Result.denied 0) ∧
                  (op.denied c u = false → (∀ d, op.limits c u = some d → answered Result.noResource d) ∧
                    (op.limits c u = none → r.pending = false →
                      ∀ d, op.conflict c u = some d → answered Result.conflict d)))))))))  ∧
  ∀ (c : RelasCmd) (s : State) (rsp : List Byte), ∃ chans boxes links ports out, s.answer c rsp =
    { s with
      inn := { s.inn with chans := chans, boxes := boxes }
      fabric := { s.fabric with links := links }, host := { s.host with ports := ports }, out := out }

/-- No step stops: the block serves, refuses by an answer, or ignores, as the spec gives it, and goes on. -/
def Obligations.StepAnswersAlways : Prop :=
  (∀ (s : State), ∃ t, step s = .next t ∧ t.pending = s.pending.tail) ∧
  ∀ (n : Nat) (s : State), ∃ t, steps n s = .next t ∧ t.pending = s.pending.drop n

/-- The invariant of the whole block: canonical memory (the model's form of spec 02's R59), well-formed waiting commands, and the Tollhouse's store
(spec 19: R721, R724). -/
def Obligations.MemoryStaysCanonical : Prop := ∀ (s : State), s.memWf = true → s.queueWf = true → s.toll.Ok →
  ∃ t, step s = .next t ∧ t.memWf = true ∧ t.queueWf = true ∧ t.toll.Ok

/-- Isolation of the Tollhouse (spec 18: R708; spec 01: R51): what the logic dies do leaves it as it was. -/
def Obligations.TollhouseApart : Prop :=
  (∀ (i : Instr) (s : State), tollRow i = false → ∃ t, exec i s = .next t ∧ t.toll = s.toll) ∧
  ∀ (s : State), (∀ c ∈ s.pending, tollRow c = false) → ∀ n, ∃ t, steps n s = .next t ∧ t.toll = s.toll

/-- The Tollhouse over every run (spec 19: R721, R724, R728). -/
def Obligations.TollRecordsOnlyGrow : Prop := ∀ (n : Nat) (s : State), ∃ t, steps n s = .next t ∧
  s.toll.nextSeq ≤ t.toll.nextSeq ∧ (s.toll.broken = true → t.toll.broken = true) ∧ (s.toll.Ok → t.toll.Ok)

/-- R805 (spec 23). -/
def Obligations.RingHeads : Prop := ∀ (a : RegAccess) (p q : Nat) (s : State), hostReaches a p s = true → regAllowed a = true → a.write = true →
  (∀ x, placeOf a.bar a.off = .doorbell q 1 → s.cq q = some x → s.mayUse a.view a.agent x.guest = true →
    let v := regPlaced a
    let between : Prop := v < 2 ^ 16 ∧ v < x.depth ∧ (v + x.depth - x.head) % x.depth ≤ (x.write + x.depth - x.head) % x.depth
    (between → ∃ t, exec (.cqHead a) s = .next t ∧ t.cq q = some { x with head := v } ∧ t.queues.sqs = s.queues.sqs) ∧
    (¬ between → ∃ t, exec (.cqHead a) s = .next t ∧ t.cq q = some { x with badDoorbells := x.badDoorbells + 1 } ∧
      ∀ i, t.sq i = (s.sq i).map fun y =>
        { y with badDoorbells := y.badDoorbells + ((s.queues.sqs.filter fun z => z.cq = q).map (·.id)).count i })) ∧
  (∀ x, placeOf a.bar a.off = .doorbell q 2 → s.sq q = some x → s.mayUse a.view a.agent x.guest = true → regPlaced a < 2 ^ 17 →
    let v := bits (regPlaced a) 15 0
    let between : Prop := v < x.errDepth ∧ (v + x.errDepth - x.errHead) % x.errDepth ≤ (x.errWrite + x.errDepth - x.errHead) % x.errDepth
    (between → bit (regPlaced a) 16 = false → ∃ t, exec (.errHead a) s = .next t ∧ t.sq q = some { x with errHead := v }) ∧
    (between → bit (regPlaced a) 16 = true → ∃ t, exec (.errHeadResume a) s = .next t ∧
      t.sq q = some { x with errHead := v, stopped := false } ∧ (x.stopped = false → t.sq q = some { x with errHead := v })) ∧
    (¬ between → bit (regPlaced a) 16 = false → ∃ t, exec (.errHead a) s = .next t ∧ t.sq q = some { x with badDoorbells := x.badDoorbells + 1 }) ∧
    (¬ between → bit (regPlaced a) 16 = true → ∃ t, exec (.errHeadResume a) s = .next t ∧ t.sq q = some { x with badDoorbells := x.badDoorbells + 1 }))

/-- R807 (spec 23), with R264's value of DEPTH or more. -/
def Obligations.BadDoorbells : Prop := ∀ (a : RegAccess) (p q : Nat) (s : State), hostReaches a p s = true → regAllowed a = true → a.write = true →
  let counted : State → Prop := fun t => t.store = s.store ∧ ∀ i, t.sq i = (s.sq i).map fun y =>
    { y with badDoorbells := y.badDoorbells + if i = q then 1 else 0 }
  (∀ x, s.sq q = some x → s.mayUse a.view a.agent x.guest = true →
    (placeOf a.bar a.off = .doorbell q 0 → 2 ^ 16 ≤ regPlaced a ∨ x.depth ≤ regPlaced a → ∃ t, exec (.sqTail a) s = .next t ∧ counted t) ∧
    (placeOf a.bar a.off = .doorbell q 2 → 2 ^ 17 ≤ regPlaced a →
      (bit (regPlaced a) 16 = false → ∃ t, exec (.errHead a) s = .next t ∧ counted t) ∧
      (bit (regPlaced a) 16 = true → ∃ t, exec (.errHeadResume a) s = .next t ∧ counted t))) ∧
  (∀ x, s.cq q = some x → s.mayUse a.view a.agent x.guest = true → placeOf a.bar a.off = .doorbell q 1 → 2 ^ 16 ≤ regPlaced a →
    ∃ t, exec (.cqHead a) s = .next t ∧ t.store = s.store ∧ t.cq q = some { x with badDoorbells := x.badDoorbells + 1 } ∧
      ∀ i, t.sq i = (s.sq i).map fun y =>
        { y with badDoorbells := y.badDoorbells + ((s.queues.sqs.filter fun z => z.cq = q).map (·.id)).count i })

/-- R759 (spec 20). -/
def Obligations.WayfarerWritesNothing : Prop := ∀ (l : List Byte) (s : State),
  (∀ c ∈ [Instr.wayfarerHelp l, .wayfarerVersion l, .wayfarerState l, .wayfarerTime l, .wayfarerBoot l, .wayfarerCount l, .wayfarerEvents l,
      .wayfarerWeather l, .wayfarerLinks l, .wayfarerReg l, .wayfarerTrace l],
    ∃ t, exec c s = .next t ∧ t = { s with out := t.out, free := t.free }) ∧
  (∃ t, exec (.wayfarerBaud l) s = .next t ∧ t = { s with out := t.out, free := t.free, obs := { s.obs with baud := t.obs.baud } }) ∧
  (∀ w args, s.wayfarerRuns = true → l.length ≤ 128 → lineWords l = w :: args →
    (bit s.debug 0 = false → ∀ x ∈ [(Instr.wayfarerCount l, nameCount), (.wayfarerEvents l, nameEvents), (.wayfarerWeather l, nameWeather),
        (.wayfarerLinks l, nameLinks), (.wayfarerReg l, nameReg), (.wayfarerTrace l, nameTrace)],
      x.2 = w → exec x.1 s = .next (s.emit (.uart (wayfarerText [] 3)))) ∧
    (bit s.debug 0 = true → bit s.debug 2 = true → s.innRuns = false →
      ∀ x ∈ [(Instr.wayfarerCount l, nameCount), (.wayfarerEvents l, nameEvents), (.wayfarerWeather l, nameWeather), (.wayfarerTrace l, nameTrace)],
      x.2 = w → exec x.1 s = .next (s.emit (.uart (wayfarerText [] 4)))))

/-- R13 (spec 00). -/
def Obligations.BitRanges : Prop := ∀ (v hi lo : Nat), lo ≤ hi →
  (bit v 0 = true ↔ v % 2 = 1) ∧ bits v hi lo < 2 ^ (hi - lo + 1) ∧
  (∀ i, i ≤ hi - lo → bit (bits v hi lo) i = bit v (lo + i)) ∧ ∀ i, hi - lo < i → bit (bits v hi lo) i = false

/-- The frame of a host's register accesses (spec 23: R21, R26, R795–R806; spec 20: R736). -/
def Obligations.RegisterFrame : Prop := ∀ (a : RegAccess) (s : State),
  (∀ c ∈ [Instr.badRegisterAccess a, .badAccessRead a, .doorbellDeniedRead a, .intStatusWrite a, .intEnableWrite a, .intSetWrite a],
    ∃ t, exec c s = .next t ∧ t = { s with out := t.out, host := t.host, regs := t.regs }) ∧
  (∃ t, exec (.tidetimeLowRead a) s = .next t ∧ t = { s with out := t.out, clock := { s.clock with latches := t.clock.latches } }) ∧
  (∀ c ∈ [Instr.sqTail a, .cqHead a, .errHead a, .errHeadResume a],
    ∃ t, exec c s = .next t ∧ t = { s with
      out := t.out, host := t.host, regs := t.regs, queues := { s.queues with sqs := t.queues.sqs, cqs := t.queues.cqs },
      obs := { s.obs with counters := t.obs.counters } } ∧
    (t.queues.cqs.map fun q => (q.id, q.guest, q.ring, q.depth, q.write)) = s.queues.cqs.map fun q => (q.id, q.guest, q.ring, q.depth, q.write)) ∧
  (∃ t, exec (.registerWrite a) s = .next t ∧ t = { s with inn := { s.inn with boxes := t.inn.boxes } }) ∧
  (∃ t, exec (.mbxDoorbell a) s = .next t ∧ t = { s with
    inn := { s.inn with boxes := t.inn.boxes, chans := t.inn.chans }, obs := { s.obs with counters := t.obs.counters } })

/-- R719 (spec 19). A period that is over is written first, and frames that return after a loss are recorded (R717, R720). -/
def Obligations.EnergyConserved : Prop := ∀ (number us : Nat) (energy : List Nat) (counts : List (Nat × List Nat)) (below : Bool) (s : State),
  s.toll.powered = true →
  (s.sendsFrames = true → us ≤ 15000 → (s.toll.frame.all fun n => n < number) = true →
    let v := if s.settlePeriod.toll.lost then s.settlePeriod.tollEvent 4 0 else s.settlePeriod
    let gs := v.frameGuests counts
    let credits := gs.zipIdx.map fun (g, i) =>
      ((g.guest, g.epoch), (List.range 11).map fun r => ((closeRail gs us r (energy.getD r 0)).getD i (0, 0)).1)
    (∀ r, r < 11 → sumNat (credits.map fun c => c.2.getD r 0) = energy.getD r 0) ∧
    ∃ t, exec (.activityFrame true number us energy counts below) s = .next t ∧ t.toll.unattributed = v.toll.unattributed ∧
      ∀ g e, (t.toll.account g e).total = (v.toll.account g e).total + sumNat ((credits.filter fun c => c.1 = (g, e)).map fun c => sumNat c.2)) ∧
  (let v := if s.settlePeriod.toll.lost then s.settlePeriod else s.settlePeriod.tollEvent 3 0
    ∃ t, exec (.intervalTimeout energy below) s = .next t ∧ t.toll.accounts = v.toll.accounts ∧
      t.toll.unattributed = v.toll.unattributed + sumNat (energy.take 11))

/-- What plain requests do to memory (spec 02: R64–R67; spec 04: R185; spec 14: R569, R577). -/
def Obligations.PlainFrame : Prop := ∀ (m : SxfMsg) (s : State), servesHere m s = true → s.memWf = true →
  let off := gpaOffset m.gpa
  let stored : State → List Byte → Prop := fun t d =>
    (∀ i (h : i < d.length), Mem.get t.store.mem (off + i) = d[i]) ∧
    ∀ a, a < off ∨ off + d.length ≤ a → Mem.get t.store.mem a = Mem.get s.store.mem a
  (m.isRead = true → ∃ t, exec (.read m) s = .next t ∧ ∀ a, Mem.get t.store.mem a = Mem.get s.store.mem a) ∧
  (m.isWrite = true → ∀ x ∈ [Instr.write m, Instr.writeMasked m], (x = .write m ↔ m.op ≠ Sxf.writeMasked) →
    ∃ t, exec x s = .next t ∧ stored t (m.writeData (s.bytesAt off m.size))) ∧
  (m.isAtomic = true → ∃ t, exec (.atomic m) s = .next t ∧
    stored t (leBytes m.atWidth (atomicNew m.atOp m.atType m.atWidth (s.word off m.atWidth) (m.f 16 16) (m.f 32 16))))

/-- The Tollhouse is an island (spec 19: R710, R711, R726, R729, R731; spec 18: R708). -/
def Obligations.TollhouseFrame : Prop := ∀ (s : State) (n us cause : Nat) (crc below : Bool) (energy : List Nat) (counts : List (Nat × List Nat))
    (frame : List Byte),
  (∀ c ∈ [Instr.activityFrame crc n us energy counts below, .intervalTimeout energy below, .periodEnd, .sealBreak cause, .vtollLoss,
      .tollhousePowerUp cause, .tollStatusMirror, .tollMirrorTimeout, .tollStatus frame, .tollPortRead frame, .tollAck frame, .tollCert frame,
      .tollInstant frame, .tollAttest frame, .commission frame, .setBaud frame],
    ∃ t, exec c s = .next t ∧ t = { s with toll := t.toll, mirror := t.mirror, out := t.out, free := t.free, obs := t.obs, host := t.host, regs := t.regs, power := { s.power with rails := t.power.rails } } ∧ t.power.rails.filter (· ≠ 10) = s.power.rails.filter (· ≠ 10)) ∧
  (∀ c ∈ [Instr.tollStatus frame, .tollPortRead frame, .tollCert frame, .tollInstant frame, .tollAttest frame],
    ∃ t, exec c s = .next t ∧ t = { s with out := t.out, free := t.free }) ∧
  (∃ t, exec (.setBaud frame) s = .next t ∧ t = { s with out := t.out, toll := { s.toll with baud := t.toll.baud } })
end

