-- ==== Sys2Proof/Laws/Arrival.lean ====
section
/-! SUPPORT. What the arrival of a message comes to once its port accepts it. -/

namespace Sys2Proof.Machine

theorem State.arrival_eq {s : State} {ok : Bool} {f : State → State} (h : ok = true) : s.arrival ok f = .next (f s) := by
  unfold State.arrival
  rw [if_pos h]

theorem State.ported_eq {s : State} {m : SxfMsg} {f : State → State} (h : s.portRefusal m = none) : s.ported m f = f s := by
  unfold State.ported
  rw [h]

theorem State.forSelf_eq {s : State} {m : SxfMsg} {f : State → State} (h : s.portRefusal m = none) (hd : m.dest = s.self) :
    s.forSelf m f = f s := by
  unfold State.forSelf
  rw [State.ported_eq h, if_pos hd]

/-- A message for another shore goes on its way. -/
theorem State.forSelf_on {s : State} {m : SxfMsg} {f : State → State} (h : s.portRefusal m = none) (hd : m.dest ≠ s.self) :
    s.forSelf m f = s.send m := by
  unfold State.forSelf
  rw [State.ported_eq h, if_neg hd]

theorem State.hostAccess_eq {s : State} {a : RegAccess} {p : Nat} {f : Nat → State} (h : hostReaches a p s = true) :
    s.hostAccess a f = .next (f p) := by
  unfold hostReaches at h
  simp only [Bool.and_eq_true, beq_iff_eq, bne_iff_ne] at h
  unfold State.hostAccess
  rw [h.1.1]
  dsimp only
  rw [if_pos (by rw [h.1.2, bne_iff_ne.2 h.2]; rfl)]

end Sys2Proof.Machine
end

