-- ==== Sys2Proof/Laws/AtWork.lean ====
section
/-! SUPPORT. What a step of a descriptor's work comes to while it runs, and where an access of it has failed. -/

namespace Sys2Proof.Machine

theorem State.work_go {op id : Nat} {s : State} {d : Desc} {st : Desc → Nat → Nat → State} {go : Desc → State} (h : atWork op id s d = true) :
    s.work id op st go = noted id d (go d) := by
  unfold atWork at h
  simp only [Bool.and_eq_true, beq_iff_eq, bne_iff_ne, ne_eq, Option.isNone_iff_eq_none] at h
  obtain ⟨⟨⟨⟨⟨h1, h2⟩, h3⟩, h4⟩, h5⟩, h6⟩ := h
  unfold State.work
  rw [h1]
  dsimp only
  rw [if_neg (by simp [h2, h3, h4]), h5]
  dsimp only
  rw [if_pos h6]
  rfl

theorem State.work_stopped {op id a b : Nat} {s : State} {d : Desc} {st : Desc → Nat → Nat → State} {go : Desc → State}
    (h : failedAt op id a b s d = true) : s.work id op st go = st (d.atStop a) a b := by
  unfold failedAt at h
  simp only [Bool.and_eq_true, beq_iff_eq, bne_iff_ne, ne_eq, Bool.not_eq_true'] at h
  obtain ⟨⟨⟨⟨⟨⟨h1, h2⟩, h3⟩, h4⟩, h5⟩, h6⟩, h7⟩ := h
  unfold State.work
  rw [h1]
  dsimp only
  rw [if_neg (by simp [h2, h3, h4]), h5]
  dsimp only
  rw [if_neg (by simp [h6, h7])]

theorem State.workMode_go {op id mode : Nat} {s : State} {d : Desc} {st : Desc → Nat → Nat → State} {go : Desc → State}
    (h : atWork op id s d = true) (hm : d.f 18 1 = mode) : s.workMode id op mode st go = noted id d (go d) := by
  have h' := h
  unfold atWork at h'
  simp only [Bool.and_eq_true, beq_iff_eq] at h'
  unfold State.workMode
  rw [if_pos (by rw [h'.1.1.1.1.1, Option.any_some, hm]; exact beq_self_eq_true mode), State.work_go h]

theorem State.workMode_stopped {op id mode a b : Nat} {s : State} {d : Desc} {st : Desc → Nat → Nat → State} {go : Desc → State}
    (h : failedAt op id a b s d = true) (hm : d.f 18 1 = mode) : s.workMode id op mode st go = st (d.atStop a) a b := by
  have h' := h
  unfold failedAt at h'
  simp only [Bool.and_eq_true, beq_iff_eq] at h'
  unfold State.workMode
  rw [if_pos (by rw [h'.1.1.1.1.1.1, Option.any_some, hm]; exact beq_self_eq_true mode), State.work_stopped h]

theorem atWork_desc {op id : Nat} {s : State} {d : Desc} (h : atWork op id s d = true) : s.desc d.id = some d := by
  unfold atWork at h
  simp only [Bool.and_eq_true, beq_iff_eq] at h
  have h0 := h.1.1.1.1.1
  have e : d.id = id := by simpa using List.find?_some h0
  rw [e, h0]

theorem atWork_fail {op id : Nat} {s : State} {d : Desc} (h : atWork op id s d = true) : d.fail = none := by
  unfold atWork at h
  simp only [Bool.and_eq_true, Option.isNone_iff_eq_none] at h
  exact h.1.2

theorem atWork_awaiting {op id : Nat} {s : State} {d : Desc} (h : atWork op id s d = true) : d.awaiting.isEmpty = true := by
  unfold atWork at h
  simp only [Bool.and_eq_true] at h
  exact h.2

theorem atWork_done {op id : Nat} {s : State} {d : Desc} (h : atWork op id s d = true) : d.done = none := by
  unfold atWork Desc.runs at h
  simp only [Bool.and_eq_true, Option.isNone_iff_eq_none] at h
  exact h.1.1.1.1.2.2

end Sys2Proof.Machine
end

