-- ==== Sys2Proof/Laws/Mem.lean ====
section
/-! SUPPORT. Shore memory: reads after writes, and the canonical form that every memory operation keeps. -/

namespace Sys2Proof.Machine

/-- Every listed address is at least `k`. -/
def Mem.above (k : Nat) (m : Memory) : Prop := ∀ c ∈ m, k ≤ c.1

theorem Mem.above_nil (k : Nat) : Mem.above k [] := by simp [Mem.above]

theorem Mem.above_cons {k : Nat} {c : Host.Cell} {m : Memory} :
    Mem.above k (c :: m) ↔ k ≤ c.1 ∧ Mem.above k m := by simp [Mem.above]

theorem Mem.above_mono {j k : Nat} {m : Memory} (h : j ≤ k) (hm : Mem.above k m) : Mem.above j m :=
  fun c hc => Nat.le_trans h (hm c hc)

/-- The canonical form, cell by cell. -/
theorem Mem.wf_cons (c : Host.Cell) (m : Memory) :
    Mem.wf (c :: m) = true ↔ c.2 ≠ 0 ∧ Mem.above (c.1 + 1) m ∧ Mem.wf m = true := by
  induction m generalizing c with
  | nil => simp [Mem.wf, Mem.above]
  | cons d t ih =>
    obtain ⟨a, b⟩ := c
    obtain ⟨a', b'⟩ := d
    simp only [Mem.wf, Bool.and_eq_true, bne_iff_ne, decide_eq_true_eq, Mem.above_cons]
    constructor
    · rintro ⟨⟨hb, ha⟩, hw⟩
      have h2 := (ih (a', b')).1 hw
      exact ⟨hb, ⟨ha, Mem.above_mono (by simp; omega) h2.2.1⟩, hw⟩
    · rintro ⟨hb, ⟨ha, -⟩, hw⟩
      exact ⟨⟨hb, ha⟩, hw⟩

theorem Mem.wf_nil : Mem.wf [] = true := rfl

theorem Mem.get_below {m : Memory} {x k : Nat} (h : Mem.above k m) (hx : x < k) : Mem.get m x = 0 := by
  cases m with
  | nil => rfl
  | cons c t =>
    obtain ⟨a, b⟩ := c
    have := (Mem.above_cons.1 h).1
    simp only [Mem.get]
    simp only at this
    rw [if_neg (by omega), if_pos (by omega)]

theorem Mem.above_set {m : Memory} {k x : Nat} {v : Byte} (h : Mem.above k m) (hx : k ≤ x) :
    Mem.above k (Mem.set m x v) := by
  induction m with
  | nil => by_cases hv : v = 0 <;> simp [Mem.set, hv, Mem.above, hx]
  | cons c t ih =>
    obtain ⟨a, b⟩ := c
    have ⟨h1, h2⟩ := Mem.above_cons.1 h
    have := ih h2
    simp only [Mem.set]
    split
    · split
      · exact h
      · exact Mem.above_cons.2 ⟨hx, h⟩
    · split
      · split
        · exact h2
        · exact Mem.above_cons.2 ⟨hx, h2⟩
      · exact Mem.above_cons.2 ⟨h1, this⟩

/-- Writing one byte keeps the canonical form. -/
theorem Mem.wf_set {m : Memory} {x : Nat} {v : Byte} (h : Mem.wf m = true) : Mem.wf (Mem.set m x v) = true := by
  induction m with
  | nil =>
    simp only [Mem.set]
    split
    · rfl
    · exact (Mem.wf_cons _ _).2 ⟨by assumption, Mem.above_nil _, rfl⟩
  | cons c t ih =>
    obtain ⟨a, b⟩ := c
    have ⟨h1, h2, h3⟩ := (Mem.wf_cons _ _).1 h
    simp only at h1 h2
    simp only [Mem.set]
    split
    · split
      · exact h
      · rename_i hx hv
        exact (Mem.wf_cons _ _).2 ⟨hv, Mem.above_cons.2 ⟨by simp; omega, Mem.above_mono (by simp; omega) h2⟩, h⟩
    · split
      · split
        · exact h3
        · rename_i hx hv; subst hx
          exact (Mem.wf_cons _ _).2 ⟨hv, h2, h3⟩
      · exact (Mem.wf_cons _ _).2 ⟨h1, Mem.above_set h2 (by simp; omega), ih h3⟩

/-- Writing bytes keeps the canonical form. -/
theorem Mem.wf_write {m : Memory} {x : Nat} {bs : List Byte} (h : Mem.wf m = true) : Mem.wf (Mem.write m x bs) = true := by
  induction bs generalizing m x with
  | nil => exact h
  | cons b t ih => exact ih (Mem.wf_set h)

theorem Mem.above_filter {m : Memory} {k : Nat} {p : Host.Cell → Bool} (h : Mem.above k m) : Mem.above k (m.filter p) :=
  fun c hc => h c (List.mem_filter.1 hc).1

/-- A part of a canonical memory is canonical. -/
theorem Mem.wf_filter {m : Memory} {p : Host.Cell → Bool} (h : Mem.wf m = true) : Mem.wf (m.filter p) = true := by
  induction m with
  | nil => rfl
  | cons c t ih =>
    have ⟨h1, h2, h3⟩ := (Mem.wf_cons _ _).1 h
    simp only [List.filter]
    split
    · exact (Mem.wf_cons _ _).2 ⟨h1, Mem.above_filter h2, ih h3⟩
    · exact ih h3

/-- Clearing a range keeps the canonical form. -/
theorem Mem.wf_clear {m : Memory} {x n : Nat} (h : Mem.wf m = true) : Mem.wf (Mem.clear m x n) = true := Mem.wf_filter h

theorem Mem.wf_shift {m : Memory} {x : Nat} (h : Mem.wf m = true) (hx : Mem.above x m) :
    Mem.wf (m.map fun c => (c.1 - x, c.2)) = true := by
  induction m with
  | nil => rfl
  | cons c t ih =>
    have ⟨h1, h2, h3⟩ := (Mem.wf_cons _ _).1 h
    have ⟨h4, h5⟩ := Mem.above_cons.1 hx
    refine (Mem.wf_cons _ _).2 ⟨h1, ?_, ih h3 h5⟩
    intro d hd
    obtain ⟨e, he, rfl⟩ := List.mem_map.1 hd
    have := h2 e he
    have := h5 e he
    simp only at *
    omega

/-- Cutting a range out of a canonical memory gives a canonical memory. -/
theorem Mem.wf_cut {m : Memory} {x n : Nat} (h : Mem.wf m = true) : Mem.wf (Mem.cut m x n) = true := by
  refine Mem.wf_shift (Mem.wf_filter h) ?_
  intro c hc
  have := (List.mem_filter.1 hc).2
  simp only [decide_eq_true_eq] at this
  exact this.1

/-- A byte just written reads back. -/
theorem Mem.get_set_eq {m : Memory} {x : Nat} {v : Byte} (h : Mem.wf m = true) : Mem.get (Mem.set m x v) x = v := by
  induction m with
  | nil =>
    simp only [Mem.set]
    split
    · rename_i hv; exact hv.symm
    · simp [Mem.get]
  | cons c t ih =>
    obtain ⟨a, b⟩ := c
    have ⟨h1, h2, h3⟩ := (Mem.wf_cons _ _).1 h
    simp only [Mem.set]
    split
    · rename_i hx
      split
      · rename_i hv; subst hv
        simp only [Mem.get]
        rw [if_neg (by omega), if_pos hx]
      · simp [Mem.get]
    · split
      · rename_i hx; subst hx
        split
        · rename_i hv; subst hv
          exact Mem.get_below h2 (by simp)
        · simp [Mem.get]
      · rename_i h4 h5
        simp only [Mem.get]
        rw [if_neg (by omega), if_neg (by omega)]
        exact ih h3

/-- Writing a byte leaves every other byte as it was. -/
theorem Mem.get_set_ne {m : Memory} {x y : Nat} {v : Byte} (h : Mem.wf m = true) (hy : y ≠ x) :
    Mem.get (Mem.set m x v) y = Mem.get m y := by
  induction m with
  | nil =>
    by_cases hv : v = 0
    · simp [Mem.set, hv]
    · simp only [Mem.set, hv, if_false, Mem.get]
      rw [if_neg (by omega)]
      split <;> rfl
  | cons c t ih =>
    obtain ⟨a, b⟩ := c
    have ⟨h1, h2, h3⟩ := (Mem.wf_cons _ _).1 h
    simp only [Mem.set]
    split
    · rename_i hx
      split
      · rfl
      · simp only [Mem.get]
        rw [if_neg (by omega)]
        by_cases hyx : y < x
        · rw [if_pos hyx, if_neg (by omega), if_pos (by omega)]
        · rw [if_neg hyx]
    · split
      · rename_i hx; subst hx
        split
        · simp only [Mem.get]
          rw [if_neg (by omega)]
          by_cases hyx : y < x
          · rw [if_pos hyx]; exact Mem.get_below h2 (by simp; omega)
          · rw [if_neg hyx]
        · simp only [Mem.get]
          rw [if_neg (Ne.symm hy), if_neg (Ne.symm hy)]
      · simp only [Mem.get, ih h3]

/-- Bytes outside a write stay as they were. -/
theorem Mem.get_write_ne {m : Memory} {x y : Nat} {bs : List Byte} (h : Mem.wf m = true) (hy : y < x ∨ x + bs.length ≤ y) :
    Mem.get (Mem.write m x bs) y = Mem.get m y := by
  induction bs generalizing m x with
  | nil => rfl
  | cons b t ih =>
    simp only [List.length_cons] at hy
    simp only [Mem.write]
    rw [ih (Mem.wf_set h) (by omega), Mem.get_set_ne h (by omega)]

/-- The bytes just written read back. -/
theorem Mem.get_write_eq {m : Memory} {x i : Nat} {bs : List Byte} (h : Mem.wf m = true) (hi : i < bs.length) :
    Mem.get (Mem.write m x bs) (x + i) = bs[i] := by
  induction bs generalizing m x i with
  | nil => simp at hi
  | cons b t ih =>
    simp only [Mem.write]
    cases i with
    | zero =>
      rw [Mem.get_write_ne (Mem.wf_set h) (by omega), Nat.add_zero, Mem.get_set_eq h]
      rfl
    | succ j =>
      have := ih (m := Mem.set m x b) (x := x + 1) (i := j) (Mem.wf_set h) (by simpa using hi)
      rw [show x + (j + 1) = x + 1 + j by omega, this]
      rfl

/-- A read of what was just written gives it back. -/
theorem Mem.read_write {m : Memory} {x : Nat} {bs : List Byte} (h : Mem.wf m = true) :
    Mem.read (Mem.write m x bs) x bs.length = bs := by
  apply List.ext_getElem
  · simp [Mem.read]
  · intro i h1 h2
    simp only [Mem.read, List.getElem_map, List.getElem_range]
    exact Mem.get_write_eq h h2

end Sys2Proof.Machine
end

