-- ==== Sys2Proof/Laws/KeepsOps.lean ====
section
/-! SUPPORT. What the operations of Ops leave in force. -/

set_option linter.tactic.unusedName false

namespace Sys2Proof.Machine

theorem Keeps.refl (s : State) : Keeps s s := ⟨rfl, rfl, id⟩

theorem Keeps.trans {r s t : State} (h : Keeps r s) (g : Keeps s t) : Keeps r t :=
  ⟨g.pending.trans h.pending, g.toll.trans h.toll, fun w => g.mem (h.mem w)⟩

/-- A change of anything but the queue, the Tollhouse and shore memory. -/
theorem Keeps.but {r s : State} {o f ck pw st inn od di qu br fa po re bo ta ix kv de ho ob ft tr mi rg} (h : Keeps r s)
    (hm : st.mem = s.store.mem) : Keeps r (State.mk s.pending o f ck pw st inn od di qu br fa po re bo ta ix kv de ho ob ft tr s.toll mi rg) :=
  ⟨h.pending, h.toll, fun w => by have := h.mem w; simp only [State.memWf] at *; rw [hm]; exact this⟩

/-- As `Keeps.but`, with a change of shore memory that keeps it canonical. -/
theorem Keeps.butMem {r s : State} {o f ck pw st inn od di qu br fa po re bo ta ix kv de ho ob ft tr mi rg} (h : Keeps r s)
    (hm : Mem.wf s.store.mem = true → Mem.wf st.mem = true) : Keeps r (State.mk s.pending o f ck pw st inn od di qu br fa po re bo ta ix kv de ho ob ft tr s.toll mi rg) :=
  ⟨h.pending, h.toll, fun w => hm (h.mem w)⟩

theorem Keeps.foldl {α : Type} {s0 : State} {f : State → α → State} {s : State} {l : List α}
    (hf : ∀ s x, Keeps s0 s → Keeps s0 (f s x)) (h : Keeps s0 s) : Keeps s0 (l.foldl f s) := by
  induction l generalizing s with
  | nil => exact h
  | cons x t ih => exact ih (hf s x h)

theorem Keeps.foldl_fst {α β : Type} {s0 : State} {f : State × β → α → State × β} {p : State × β} {l : List α}
    (hf : ∀ p x, Keeps s0 p.1 → Keeps s0 (f p x).1) (h : Keeps s0 p.1) : Keeps s0 (l.foldl f p).1 := by
  induction l generalizing p with
  | nil => exact h
  | cons x t ih => exact ih (hf p x h)

theorem Keeps.of_fst {β : Type} {s0 t : State} {p : State × β} {y : β} (h : Keeps s0 p.1) (hq : p = (t, y)) : Keeps s0 t := by
  rw [hq] at h; exact h

theorem Keeps.ite {p : Prop} [Decidable p] {s0 s t : State} (h : Keeps s0 s) (g : Keeps s0 t) : Keeps s0 (if p then s else t) := by
  split <;> assumption

theorem EndsIn.next {R : State → State → Prop} {s t : State} (h : R s t) : EndsIn R s (.next t) := ⟨t, rfl, h⟩

theorem Store.retain_mem (st : Store) (g : Nat) : (st.retain g).mem = st.mem := rfl

theorem Store.retain_foldl (l : List Nat) (st : Store) : (l.foldl Store.retain st).mem = st.mem := by
  induction l generalizing st with
  | nil => rfl
  | cons g t ih => exact ih (st.retain g)

theorem State.emit_keeps {s0 s : State} (x2) (h : Keeps s0 s) : Keeps s0 (State.emit s x2) := by
  unfold State.emit
  repeat' first
    | with_reducible assumption
    | split
    | intro _
    | (conv => enter [2, 26]); with_reducible refine Keeps.but ?_ rfl

theorem State.drew_keeps {s0 s : State} (h : Keeps s0 s) : Keeps s0 (State.drew s) := by
  unfold State.drew
  repeat' first
    | with_reducible assumption
    | split
    | intro _
    | (conv => enter [2, 26]); with_reducible refine Keeps.but ?_ rfl

theorem State.count_keeps {s0 s : State} (x2 x3 x4 x5) (h : Keeps s0 s) : Keeps s0 (State.count s x2 x3 x4 x5) := by
  unfold State.count
  repeat' first
    | with_reducible assumption
    | (extract_lets +onlyGivenNames x; )
    | split
    | intro _
    | (conv => enter [2, 26]); with_reducible refine Keeps.but ?_ rfl

theorem State.setPort_keeps {s0 s : State} (x2 x3) (h : Keeps s0 s) : Keeps s0 (State.setPort s x2 x3) := by
  unfold State.setPort
  repeat' first
    | with_reducible assumption
    | (extract_lets +onlyGivenNames x; )
    | split
    | intro _
    | (conv => enter [2, 26]); with_reducible refine Keeps.but ?_ rfl

theorem State.msix_keeps {s0 s : State} (x2 x3) (h : Keeps s0 s) : Keeps s0 (State.msix s x2 x3) := by
  unfold State.msix
  repeat' first
    | with_reducible assumption
    | with_reducible apply State.setPort_keeps
    | with_reducible apply State.emit_keeps
    | split

theorem State.setView_keeps {s0 s : State} (x2) (h : Keeps s0 s) : Keeps s0 (State.setView s x2) := by
  unfold State.setView
  repeat' first
    | with_reducible assumption
    | split
    | intro _
    | (conv => enter [2, 26]); with_reducible refine Keeps.but ?_ rfl

theorem State.setInt_keeps {s0 s : State} (x2 x3 x4) (h : Keeps s0 s) : Keeps s0 (State.setInt s x2 x3 x4) := by
  unfold State.setInt
  repeat' first
    | with_reducible assumption
    | (extract_lets +onlyGivenNames x; )
    | with_reducible apply State.setView_keeps
    | with_reducible apply State.msix_keeps
    | split

theorem State.interruptOn_keeps {s0 s : State} (x2 x3) (h : Keeps s0 s) : Keeps s0 (State.interruptOn s x2 x3) := by
  unfold State.interruptOn
  repeat' first
    | with_reducible assumption
    | (extract_lets +onlyGivenNames x; )
    | with_reducible apply State.setInt_keeps

theorem State.interrupt_keeps {s0 s : State} (x2) (h : Keeps s0 s) : Keeps s0 (State.interrupt s x2) := by
  unfold State.interrupt
  repeat' first
    | with_reducible assumption
    | (extract_lets +onlyGivenNames x; )
    | with_reducible apply State.interruptOn_keeps
    | (with_reducible apply Keeps.foldl; intro _ _ _)

theorem State.become_keeps {s0 s : State} (x2 x3) (h : Keeps s0 s) : Keeps s0 (State.become s x2 x3) := by
  unfold State.become
  repeat' first
    | with_reducible assumption
    | (extract_lets +onlyGivenNames x; )
    | with_reducible apply State.interrupt_keeps
    | split
    | intro _
    | (conv => enter [2, 26]); with_reducible refine Keeps.but ?_ rfl

theorem State.setCove_keeps {s0 s : State} (x2 x3) (h : Keeps s0 s) : Keeps s0 (State.setCove s x2 x3) := by
  unfold State.setCove
  repeat' first
    | with_reducible assumption
    | (extract_lets +onlyGivenNames x; )
    | split
    | intro _
    | (conv => enter [2, 26]); with_reducible refine Keeps.but ?_ rfl

theorem State.setGuest_keeps {s0 s : State} (x2 x3) (h : Keeps s0 s) : Keeps s0 (State.setGuest s x2 x3) := by
  unfold State.setGuest
  repeat' first
    | with_reducible assumption
    | (extract_lets +onlyGivenNames x; )
    | split
    | intro _
    | (conv => enter [2, 26]); with_reducible refine Keeps.but ?_ rfl

theorem State.setSq_keeps {s0 s : State} (x2 x3) (h : Keeps s0 s) : Keeps s0 (State.setSq s x2 x3) := by
  unfold State.setSq
  repeat' first
    | with_reducible assumption
    | (extract_lets +onlyGivenNames x; )
    | split
    | intro _
    | (conv => enter [2, 26]); with_reducible refine Keeps.but ?_ rfl

theorem State.setCq_keeps {s0 s : State} (x2 x3) (h : Keeps s0 s) : Keeps s0 (State.setCq s x2 x3) := by
  unfold State.setCq
  repeat' first
    | with_reducible assumption
    | (extract_lets +onlyGivenNames x; )
    | split
    | intro _
    | (conv => enter [2, 26]); with_reducible refine Keeps.but ?_ rfl

theorem State.setDesc_keeps {s0 s : State} (x2 x3) (h : Keeps s0 s) : Keeps s0 (State.setDesc s x2 x3) := by
  unfold State.setDesc
  repeat' first
    | with_reducible assumption
    | (extract_lets +onlyGivenNames x; )
    | split
    | intro _
    | (conv => enter [2, 26]); with_reducible refine Keeps.but ?_ rfl

theorem State.setLink_keeps {s0 s : State} (x2 x3) (h : Keeps s0 s) : Keeps s0 (State.setLink s x2 x3) := by
  unfold State.setLink
  repeat' first
    | with_reducible assumption
    | (extract_lets +onlyGivenNames x; )
    | split
    | intro _
    | (conv => enter [2, 26]); with_reducible refine Keeps.but ?_ rfl

theorem State.setBundle_keeps {s0 s : State} (x2 x3) (h : Keeps s0 s) : Keeps s0 (State.setBundle s x2 x3) := by
  unfold State.setBundle
  repeat' first
    | with_reducible assumption
    | (extract_lets +onlyGivenNames x; )
    | split
    | intro _
    | (conv => enter [2, 26]); with_reducible refine Keeps.but ?_ rfl

theorem State.setGroup_keeps {s0 s : State} (x2 x3) (h : Keeps s0 s) : Keeps s0 (State.setGroup s x2 x3) := by
  unfold State.setGroup
  repeat' first
    | with_reducible assumption
    | (extract_lets +onlyGivenNames x; )
    | split
    | intro _
    | (conv => enter [2, 26]); with_reducible refine Keeps.but ?_ rfl

theorem State.countRights_keeps {s0 s : State} (x2) (h : Keeps s0 s) : Keeps s0 (State.countRights s x2) := by
  unfold State.countRights
  repeat' first
    | with_reducible assumption
    | with_reducible apply State.count_keeps

theorem State.touchRead_keeps {s0 s : State} (x2) (h : Keeps s0 s) : Keeps s0 (State.touchRead s x2) := by
  unfold State.touchRead
  repeat' first
    | with_reducible assumption
    | (extract_lets +onlyGivenNames x; )
    | with_reducible apply State.count_keeps
    | split
    | intro _
    | (conv => enter [2, 26]); with_reducible refine Keeps.but ?_ rfl
    | with_reducible refine Keeps.of_fst ?_ (by with_reducible assumption)
    | unfold x
    | dsimp only
    | dsimp +zetaDelta only

theorem State.touchWrite_keeps {s0 s : State} (x2 x3) (h : Keeps s0 s) : Keeps s0 (State.touchWrite s x2 x3) := by
  unfold State.touchWrite
  repeat' first
    | with_reducible assumption
    | (extract_lets +onlyGivenNames x; )
    | with_reducible apply State.count_keeps
    | split
    | intro _
    | (conv => enter [2, 26]); with_reducible refine Keeps.but ?_ rfl

theorem State.mirrorDirty_keeps {s0 s : State} (x2) (h : Keeps s0 s) : Keeps s0 (State.mirrorDirty s x2) := by
  unfold State.mirrorDirty
  repeat' first
    | with_reducible assumption
    | (extract_lets +onlyGivenNames x; )
    | with_reducible apply State.count_keeps
    | split
    | intro _
    | (conv => enter [2, 26]); with_reducible refine Keeps.but ?_ rfl

theorem State.owe_keeps {s0 s : State} (x2 x3) (h : Keeps s0 s) : Keeps s0 (State.owe s x2 x3) := by
  unfold State.owe
  repeat' first
    | with_reducible assumption
    | (extract_lets +onlyGivenNames x; )
    | split
    | intro _
    | (conv => enter [2, 26]); with_reducible refine Keeps.but ?_ rfl

theorem State.dropRows_keeps {s0 s : State} (x2 x3) (h : Keeps s0 s) : Keeps s0 (State.dropRows s x2 x3) := by
  unfold State.dropRows
  repeat' first
    | with_reducible assumption
    | (extract_lets +onlyGivenNames x; )
    | split
    | intro _
    | (conv => enter [2, 26]); with_reducible refine Keeps.but ?_ rfl

theorem State.owe_store (s : State) (off : Nat) (bs : List Byte) : (s.owe off bs).store = s.store := by
  unfold State.owe
  split
  · rfl
  · split <;> rfl

theorem State.dropRows_store (s : State) (off n : Nat) : (s.dropRows off n).store = s.store := by
  unfold State.dropRows
  split <;> rfl

theorem State.writeAt_keeps {s0 s : State} (off bs) (h : Keeps s0 s) : Keeps s0 (State.writeAt s off bs) := by
  unfold State.writeAt
  dsimp only
  with_reducible apply Keeps.foldl
  · intro _ _ _
    with_reducible apply State.mirrorDirty_keeps
    with_reducible apply State.touchWrite_keeps
    assumption
  · have h2 := State.dropRows_keeps off bs.length (State.owe_keeps off bs h)
    refine Keeps.butMem h2 fun w => ?_
    rw [State.dropRows_store, State.owe_store] at w
    simp only [Store.retain_foldl]
    exact Mem.wf_write w

theorem State.poisonSectors_keeps {s0 s : State} (x) (h : Keeps s0 s) : Keeps s0 (State.poisonSectors s x) :=
  Keeps.but h (Store.retain_foldl _ _)

theorem State.unpoison_keeps {s0 s : State} (x2) (h : Keeps s0 s) : Keeps s0 (State.unpoison s x2) := by
  unfold State.unpoison
  repeat' first
    | with_reducible assumption
    | (extract_lets +onlyGivenNames x; )
    | split
    | intro _
    | (conv => enter [2, 26]); with_reducible refine Keeps.but ?_ rfl

end Sys2Proof.Machine
end

