-- ==== Sys2Proof/Laws/KeepsLinks.lean ====
section
/-! SUPPORT. What the operations of Links leave in force. -/

set_option linter.tactic.unusedName false

namespace Sys2Proof.Machine

theorem State.pumpLink_keeps {s0 s : State} (x2) (h : Keeps s0 s) : Keeps s0 (State.pumpLink s x2) := by
  unfold State.pumpLink
  repeat' first
    | with_reducible assumption
    | (extract_lets +onlyGivenNames x; )
    | with_reducible apply State.setLink_keeps
    | with_reducible apply State.emit_keeps
    | (with_reducible apply Keeps.foldl; intro _ _ _)
    | split

theorem State.egress_keeps {s0 s : State} (x2 x3 x4 x5 x6) (h : Keeps s0 s) : Keeps s0 (State.egress s x2 x3 x4 x5 x6) := by
  unfold State.egress
  repeat' first
    | with_reducible assumption
    | (extract_lets +onlyGivenNames x; )
    | with_reducible apply State.pumpLink_keeps
    | with_reducible apply State.setLink_keeps
    | with_reducible apply State.emit_keeps
    | split

end Sys2Proof.Machine
end

