-- ==== Sys2Proof/Laws/KeepsEvents.lean ====
section
/-! SUPPORT. What the operations of Events leave in force. -/

set_option linter.tactic.unusedName false

namespace Sys2Proof.Machine

theorem State.logEvent_keeps {s0 s : State} (x2 x3) (h : Keeps s0 s) : Keeps s0 (State.logEvent s x2 x3) := by
  unfold State.logEvent
  repeat' first
    | with_reducible assumption
    | (extract_lets +onlyGivenNames x; )
    | split
    | intro _
    | (conv => enter [2, 26]); with_reducible refine Keeps.but ?_ rfl

theorem State.relasRecord_keeps {s0 s : State} (r t v) (h : Keeps s0 s) : Keeps s0 (State.relasRecord s r t v) :=
  State.emit_keeps _ (Keeps.but h rfl)

theorem State.ringEvent_keeps {s0 s : State} (e) (h : Keeps s0 s) : Keeps s0 (State.ringEvent s e) := by
  unfold State.ringEvent
  extract_lets
  split
  · exact State.count_keeps _ _ _ _ (Keeps.but h rfl)
  · exact State.count_keeps _ _ _ _ (State.count_keeps _ _ _ _ (Keeps.but h rfl))

theorem State.event_keeps {s0 s : State} (r n) (h : Keeps s0 s) : Keeps s0 (State.event s r n) := by
  unfold State.event
  extract_lets e s1 s2 s3
  have h1 : Keeps s0 s1 := State.interrupt_keeps _ (State.ringEvent_keeps _ (State.drew_keeps (State.drew_keeps h)))
  have h2 : Keeps s0 s2 := Keeps.ite (State.interrupt_keeps _ h1) h1
  have h3 : Keeps s0 s3 := Keeps.ite (State.interrupt_keeps _ h2) h2
  exact Keeps.ite (State.relasRecord_keeps _ _ _ (Keeps.but h3 rfl)) (Keeps.but h3 rfl)

theorem State.sampleUnit_keeps {s0 s : State} (x2 x3) (h : Keeps s0 s) : Keeps s0 (State.sampleUnit s x2 x3) := by
  unfold State.sampleUnit
  repeat' first
    | with_reducible assumption
    | (extract_lets +onlyGivenNames x; )
    | with_reducible apply State.logEvent_keeps
    | split
    | intro _
    | (conv => enter [2, 26]); with_reducible refine Keeps.but ?_ rfl

theorem State.report_keeps {s0 s : State} (x2) (h : Keeps s0 s) : Keeps s0 (State.report s x2) := by
  unfold State.report
  repeat' first
    | with_reducible assumption
    | (extract_lets +onlyGivenNames x; )
    | with_reducible apply State.sampleUnit_keeps
    | with_reducible apply State.event_keeps
    | split
    | intro _
    | (conv => enter [2, 26]); with_reducible refine Keeps.but ?_ rfl
    | with_reducible refine Keeps.of_fst ?_ (by with_reducible assumption)
    | unfold x
    | dsimp only
    | dsimp +zetaDelta only

theorem State.reweigh_keeps {s0 s : State} (x2 x3) (h : Keeps s0 s) : Keeps s0 (State.reweigh s x2 x3) := by
  unfold State.reweigh
  repeat' first
    | with_reducible assumption
    | (extract_lets +onlyGivenNames x; )
    | with_reducible apply State.event_keeps
    | split
    | intro _
    | (conv => enter [2, 26]); with_reducible refine Keeps.but ?_ rfl
    | with_reducible refine Keeps.of_fst ?_ (by with_reducible assumption)
    | unfold x
    | dsimp only
    | dsimp +zetaDelta only

end Sys2Proof.Machine
end

