-- ==== Sys2Proof/Laws/KeepsFabric.lean ====
section
/-! SUPPORT. What the operations of Fabric leave in force. -/

set_option linter.tactic.unusedName false

namespace Sys2Proof.Machine

theorem State.forward_keeps {s0 s : State} (x2) (h : Keeps s0 s) : Keeps s0 (State.forward s x2).1 := by
  unfold State.forward
  repeat' first
    | with_reducible assumption
    | (extract_lets +onlyGivenNames x; )
    | with_reducible apply State.egress_keeps
    | split

theorem State.send_keeps {s0 s : State} (x2) (h : Keeps s0 s) : Keeps s0 (State.send s x2) := by
  unfold State.send
  repeat' first
    | with_reducible assumption
    | with_reducible apply State.forward_keeps

theorem State.sendJetty_keeps {s0 s : State} (x2 x3) (h : Keeps s0 s) : Keeps s0 (State.sendJetty s x2 x3) := by
  unfold State.sendJetty
  repeat' first
    | with_reducible assumption
    | with_reducible apply State.egress_keeps
    | split

theorem State.sendBack_keeps {s0 s : State} (x2 x3) (h : Keeps s0 s) : Keeps s0 (State.sendBack s x2 x3) := by
  unfold State.sendBack
  repeat' first
    | with_reducible assumption
    | with_reducible apply State.sendJetty_keeps
    | with_reducible apply State.send_keeps
    | split

theorem State.reply_keeps {s0 s : State} (x2 x3 x4 x5 x6 x7 x8 x9) (h : Keeps s0 s) : Keeps s0 (State.reply s x2 x3 x4 x5 x6 x7 x8 x9) := by
  unfold State.reply
  repeat' first
    | with_reducible assumption
    | with_reducible apply State.sendBack_keeps

theorem State.refuse_keeps {s0 s : State} (x2 x3 x4) (h : Keeps s0 s) : Keeps s0 (State.refuse s x2 x3 x4) := by
  unfold State.refuse
  repeat' first
    | with_reducible assumption
    | with_reducible apply State.reply_keeps

theorem State.badForm_keeps {s0 s : State} (x2 x3 x4) (h : Keeps s0 s) : Keeps s0 (State.badForm s x2 x3 x4) := by
  unfold State.badForm
  repeat' first
    | with_reducible assumption
    | (extract_lets +onlyGivenNames x; )
    | with_reducible apply State.refuse_keeps
    | split
    | intro _
    | (conv => enter [2, 26]); with_reducible refine Keeps.but ?_ rfl

theorem State.ported_keeps {s0 s : State} (x2 x3) (h : Keeps s0 s) (hf : ∀ s, Keeps s0 s → Keeps s0 (x3 s)) : Keeps s0 (State.ported s x2 x3) := by
  unfold State.ported
  repeat' first
    | with_reducible assumption
    | with_reducible apply State.badForm_keeps
    | (with_reducible apply hf)
    | split

theorem State.forSelf_keeps {s0 s : State} (x2 x3) (h : Keeps s0 s) (hf : ∀ s, Keeps s0 s → Keeps s0 (x3 s)) : Keeps s0 (State.forSelf s x2 x3) := by
  unfold State.forSelf
  repeat' first
    | with_reducible assumption
    | (extract_lets +onlyGivenNames x; )
    | with_reducible apply State.ported_keeps
    | with_reducible apply State.send_keeps
    | (with_reducible apply hf)
    | split
    | intro _

theorem State.addOutstanding_keeps {s0 s : State} (x2) (h : Keeps s0 s) : Keeps s0 (State.addOutstanding s x2) := by
  unfold State.addOutstanding
  repeat' first
    | with_reducible assumption
    | (extract_lets +onlyGivenNames x; )
    | split
    | intro _
    | (conv => enter [2, 26]); with_reducible refine Keeps.but ?_ rfl

theorem State.dropTransaction_keeps {s0 s : State} (x2) (h : Keeps s0 s) : Keeps s0 (State.dropTransaction s x2) := by
  unfold State.dropTransaction
  repeat' first
    | with_reducible assumption
    | (extract_lets +onlyGivenNames x; )
    | split
    | intro _
    | (conv => enter [2, 26]); with_reducible refine Keeps.but ?_ rfl

end Sys2Proof.Machine
end

