-- ==== Sys2Proof/Laws/KeepsLayout.lean ====
section
/-! SUPPORT. What the operations of Layout leave in force. -/

set_option linter.tactic.unusedName false

namespace Sys2Proof.Machine

theorem State.setTable_keeps {s0 s : State} (x2 x3) (h : Keeps s0 s) : Keeps s0 (State.setTable s x2 x3) := by
  unfold State.setTable
  repeat' first
    | with_reducible assumption
    | (extract_lets +onlyGivenNames x; )
    | split
    | intro _
    | (conv => enter [2, 26]); with_reducible refine Keeps.but ?_ rfl

theorem State.setSlotBit_keeps {s0 s : State} (x2 x3 x4 x5) (h : Keeps s0 s) : Keeps s0 (State.setSlotBit s x2 x3 x4 x5) := by
  unfold State.setSlotBit
  repeat' first
    | with_reducible assumption
    | (extract_lets +onlyGivenNames x; )
    | with_reducible apply State.writeAt_keeps

theorem State.setKv_keeps {s0 s : State} (x2 x3) (h : Keeps s0 s) : Keeps s0 (State.setKv s x2 x3) := by
  unfold State.setKv
  repeat' first
    | with_reducible assumption
    | split
    | intro _
    | (conv => enter [2, 26]); with_reducible refine Keeps.but ?_ rfl

theorem State.setBlockBit_keeps {s0 s : State} (x2 x3 x4) (h : Keeps s0 s) : Keeps s0 (State.setBlockBit s x2 x3 x4) := by
  unfold State.setBlockBit
  repeat' first
    | with_reducible assumption
    | (extract_lets +onlyGivenNames x; )
    | with_reducible apply State.writeAt_keeps

theorem State.freeKv_keeps {s0 s : State} (x2) (h : Keeps s0 s) : Keeps s0 (State.freeKv s x2) := by
  unfold State.freeKv
  repeat' first
    | with_reducible assumption
    | (extract_lets +onlyGivenNames x; )
    | with_reducible apply State.setBlockBit_keeps
    | with_reducible apply State.setKv_keeps
    | (with_reducible apply Keeps.foldl; intro _ _ _)
    | split

theorem State.freeHeld_keeps {s0 s : State} (x2) (h : Keeps s0 s) : Keeps s0 (State.freeHeld s x2) := by
  unfold State.freeHeld
  repeat' first
    | with_reducible assumption
    | (extract_lets +onlyGivenNames x; )
    | with_reducible apply State.freeKv_keeps
    | with_reducible apply State.setSlotBit_keeps
    | with_reducible apply State.setTable_keeps
    | (with_reducible apply Keeps.foldl; intro _ _ _)
    | split

end Sys2Proof.Machine
end

