-- ==== Sys2Proof/Laws/KeepsRelas.lean ====
section
/-! SUPPORT. What the operations of Relas leave in force. -/

set_option linter.tactic.unusedName false

namespace Sys2Proof.Machine

theorem State.setChan_keeps {s0 s : State} (x2) (h : Keeps s0 s) : Keeps s0 (State.setChan s x2) := by
  unfold State.setChan
  repeat' first
    | with_reducible assumption
    | (extract_lets +onlyGivenNames x; )
    | split
    | intro _
    | (conv => enter [2, 26]); with_reducible refine Keeps.but ?_ rfl

theorem State.setBox_keeps {s0 s : State} (x2) (h : Keeps s0 s) : Keeps s0 (State.setBox s x2) := by
  unfold State.setBox
  repeat' first
    | with_reducible assumption
    | (extract_lets +onlyGivenNames x; )
    | split
    | intro _
    | (conv => enter [2, 26]); with_reducible refine Keeps.but ?_ rfl

theorem State.sendResponse_keeps {s0 s : State} (x2 x3) (h : Keeps s0 s) : Keeps s0 (State.sendResponse s x2 x3) := by
  unfold State.sendResponse
  repeat' first
    | with_reducible assumption
    | (extract_lets +onlyGivenNames x; )
    | with_reducible apply State.setBox_keeps
    | with_reducible apply State.sendJetty_keeps
    | with_reducible apply State.send_keeps
    | with_reducible apply State.msix_keeps
    | with_reducible apply State.emit_keeps
    | split

theorem State.answer_keeps {s0 s : State} (x2 x3) (h : Keeps s0 s) : Keeps s0 (State.answer s x2 x3) := by
  unfold State.answer
  repeat' first
    | with_reducible assumption
    | (extract_lets +onlyGivenNames x; )
    | with_reducible apply State.sendResponse_keeps
    | with_reducible apply State.setChan_keeps

theorem State.fail_keeps {s0 s : State} (x2 x3 x4) (h : Keeps s0 s) : Keeps s0 (State.fail s x2 x3 x4) := by
  unfold State.fail
  repeat' first
    | with_reducible assumption
    | with_reducible apply State.answer_keeps

theorem State.setSet_keeps {s0 s : State} (x2) (h : Keeps s0 s) : Keeps s0 (State.setSet s x2) := by
  unfold State.setSet
  repeat' first
    | with_reducible assumption
    | (extract_lets +onlyGivenNames x; )
    | split
    | intro _
    | (conv => enter [2, 26]); with_reducible refine Keeps.but ?_ rfl

theorem State.openTicket_keeps {s0 s : State} (x2 x3) (h : Keeps s0 s) : Keeps s0 (State.openTicket s x2 x3) := by
  unfold State.openTicket
  repeat' first
    | with_reducible assumption
    | (extract_lets +onlyGivenNames x; )
    | split
    | intro _
    | (conv => enter [2, 26]); with_reducible refine Keeps.but ?_ rfl

theorem State.ticketNotice_keeps {s0 s : State} (x2 x3) (h : Keeps s0 s) : Keeps s0 (State.ticketNotice s x2 x3) := by
  unfold State.ticketNotice
  repeat' first
    | with_reducible assumption
    | (extract_lets +onlyGivenNames x; )
    | with_reducible apply State.sendJetty_keeps
    | with_reducible apply State.msix_keeps
    | with_reducible apply State.emit_keeps
    | split

theorem State.endTicket_keeps {s0 s : State} (x2 x3 x4 x5) (h : Keeps s0 s) : Keeps s0 (State.endTicket s x2 x3 x4 x5) := by
  unfold State.endTicket
  repeat' first
    | with_reducible assumption
    | (extract_lets +onlyGivenNames x; )
    | with_reducible apply State.ticketNotice_keeps
    | split
    | intro _
    | (conv => enter [2, 26]); with_reducible refine Keeps.but ?_ rfl
    | with_reducible refine Keeps.of_fst ?_ (by with_reducible assumption)
    | unfold x

/-- The operation's effect leaves `Keeps` in force. -/
def RelasOp.Kept (op : RelasOp) : Prop := ∀ {s0 s : State} (c k), Keeps s0 s → Keeps s0 (op.effect c k s).1

/-- Every operation of a table does. -/
def TableKept (table : Nat → Option RelasOp) : Prop := ∀ n op, table n = some op → op.Kept

theorem runSet_ok {table : Nat → Option RelasOp} (ht : TableKept table) {s0 s t : State} {cs i} (h : Keeps s0 s)
    (hq : runSet table cs i s = .ok t) : Keeps s0 t := by
  induction cs generalizing i s with
  | nil => simp only [runSet, Except.ok.injEq] at hq; exact hq ▸ h
  | cons c cs ih =>
    simp only [runSet] at hq
    split at hq
    · cases hq
    · rename_i op ho
      split at hq
      · cases hq
      · exact ih (ht _ _ ho _ _ h) hq

theorem copyAfter_keeps {s0 s : State} (x1 x2) (h : Keeps s0 s) (ht : TableKept x1) : Keeps s0 (copyAfter x1 x2 s) := by
  unfold copyAfter
  repeat' first
    | with_reducible assumption
    | (extract_lets +onlyGivenNames x; )
    | with_reducible refine runSet_ok ?_ (by with_reducible assumption)
    | with_reducible refine runSet_ok ht ?_ (by with_reducible assumption)
    | (with_reducible apply Keeps.foldl; intro _ _ _)
    | split

theorem State.stage_keeps {s0 s : State} (x2) (h : Keeps s0 s) : Keeps s0 (State.stage s x2) := by
  unfold State.stage
  repeat' first
    | with_reducible assumption
    | (extract_lets +onlyGivenNames x; )
    | with_reducible apply State.setSet_keeps
    | with_reducible apply State.fail_keeps
    | with_reducible apply State.answer_keeps
    | split

theorem State.countCommand_keeps {s0 s : State} (x2) (h : Keeps s0 s) : Keeps s0 (State.countCommand s x2) := by
  unfold State.countCommand
  repeat' first
    | with_reducible assumption
    | (extract_lets +onlyGivenNames x; )
    | with_reducible apply State.count_keeps
    | split

theorem relas_keeps {table : Nat → Option RelasOp} (ht : op.Kept) {s0 s : State} (c) (h : Keeps s0 s) :
    Keeps s0 (relas table op c s) := by
  have h1 := State.countCommand_keeps c.chan h
  unfold relas
  generalize s.countCommand c.chan = s1 at *
  split
  · exact h
  extract_lets s2 bl
  subst s2
  have he := ht c s1.inn.nextTicket h1
  generalize op.effect c s1.inn.nextTicket s1 = p at *
  obtain ⟨s', rep⟩ := p
  dsimp only at he
  repeat' first
    | assumption
    | with_reducible apply State.fail_keeps
    | with_reducible apply State.sendResponse_keeps
    | with_reducible apply State.setChan_keeps
    | with_reducible apply State.stage_keeps
    | with_reducible apply State.drew_keeps
    | with_reducible apply State.count_keeps
    | with_reducible apply State.answer_keeps
    | with_reducible apply State.openTicket_keeps
    | (injections; subst_vars; assumption)
    | split

end Sys2Proof.Machine
end

