-- ==== Sys2Proof/Laws/KeepsCoves.lean ====
section
/-! SUPPORT. What the operations of Coves leave in force. -/

set_option linter.tactic.unusedName false

namespace Sys2Proof.Machine

theorem opCoveCreate_kept : RelasOp.Kept opCoveCreate := by
  intro s0 s c k h
  unfold opCoveCreate
  repeat' first
    | with_reducible assumption
    | split
    | intro _
    | (conv => enter [2, 26]); with_reducible refine Keeps.butMem ?_ Mem.wf_clear
    | with_reducible refine Keeps.of_fst ?_ (by with_reducible assumption)
    | unfold x
    | dsimp only

theorem State.queueMoves_keeps {s0 s : State} (x2 x3 x4) (h : Keeps s0 s) : Keeps s0 (State.queueMoves s x2 x3 x4) := by
  unfold State.queueMoves
  repeat' first
    | with_reducible assumption
    | (extract_lets +onlyGivenNames x; )
    | split
    | intro _
    | (conv => enter [2, 26]); with_reducible refine Keeps.but ?_ rfl

theorem State.sendInvalidates_keeps {s0 s : State} (x2) (h : Keeps s0 s) : Keeps s0 (State.sendInvalidates s x2) := by
  unfold State.sendInvalidates
  repeat' first
    | with_reducible assumption
    | (extract_lets +onlyGivenNames x; )
    | with_reducible apply State.send_keeps
    | (with_reducible apply Keeps.foldl; intro _ _ _)

theorem State.applyCoveSet_keeps {s0 s : State} (x2) (h : Keeps s0 s) : Keeps s0 (State.applyCoveSet s x2) := by
  unfold State.applyCoveSet
  repeat' first
    | with_reducible assumption
    | (extract_lets +onlyGivenNames x; )
    | with_reducible apply State.queueMoves_keeps
    | with_reducible apply State.setCove_keeps
    | split

theorem opCoveSet_kept : RelasOp.Kept opCoveSet := by
  intro s0 s c k h
  unfold opCoveSet
  repeat' first
    | with_reducible assumption
    | (extract_lets +onlyGivenNames x; )
    | with_reducible apply State.applyCoveSet_keeps
    | with_reducible apply State.sendInvalidates_keeps
    | split
    | intro _
    | (conv => enter [2, 26]); with_reducible refine Keeps.but ?_ rfl
    | with_reducible refine Keeps.of_fst ?_ (by with_reducible assumption)
    | unfold x
    | dsimp only

theorem grantEffect_keeps {s0 s : State} (x1) (h : Keeps s0 s) : Keeps s0 (grantEffect x1 s) := by
  unfold grantEffect
  repeat' first
    | with_reducible assumption
    | with_reducible apply State.setCove_keeps

theorem opCoveGrant_kept : RelasOp.Kept opCoveGrant := by
  intro s0 s c k h
  unfold opCoveGrant
  repeat' first
    | with_reducible assumption
    | with_reducible apply grantEffect_keeps

theorem opCoveQuery_kept : RelasOp.Kept opCoveQuery := by
  intro s0 s c k h
  unfold opCoveQuery
  repeat' first
    | with_reducible assumption
    | split
    | intro _
    | with_reducible refine Keeps.of_fst ?_ (by with_reducible assumption)
    | unfold x
    | dsimp only

theorem opPlaceSet_kept : RelasOp.Kept opPlaceSet := by
  intro s0 s c k h
  unfold opPlaceSet
  repeat' first
    | with_reducible assumption
    | (extract_lets +onlyGivenNames x; )
    | with_reducible apply State.queueMoves_keeps
    | with_reducible apply State.setCove_keeps
    | split
    | intro _
    | with_reducible refine Keeps.of_fst ?_ (by with_reducible assumption)
    | unfold x
    | dsimp only

theorem opPlaceQuery_kept : RelasOp.Kept opPlaceQuery := by
  intro s0 s c k h
  unfold opPlaceQuery
  repeat' first
    | with_reducible assumption
    | split
    | intro _
    | with_reducible refine Keeps.of_fst ?_ (by with_reducible assumption)
    | unfold x
    | dsimp only

theorem opPullAdd_kept : RelasOp.Kept opPullAdd := by
  intro s0 s c k h
  unfold opPullAdd
  repeat' first
    | with_reducible assumption
    | (extract_lets +onlyGivenNames x; )
    | with_reducible apply State.send_keeps
    | split
    | intro _
    | (conv => enter [2, 26]); with_reducible refine Keeps.but ?_ rfl

theorem State.dropPull_keeps {s0 s : State} (x2) (h : Keeps s0 s) : Keeps s0 (State.dropPull s x2) := by
  unfold State.dropPull
  repeat' first
    | with_reducible assumption
    | (extract_lets +onlyGivenNames x; )
    | split
    | intro _
    | (conv => enter [2, 26]); with_reducible refine Keeps.but ?_ rfl

theorem opPullRemove_kept : RelasOp.Kept opPullRemove := by
  intro s0 s c k h
  unfold opPullRemove
  repeat' first
    | with_reducible assumption
    | with_reducible apply State.dropPull_keeps

theorem opHarbourAreas_kept : RelasOp.Kept opHarbourAreas := by
  intro s0 s c k h
  unfold opHarbourAreas
  repeat' first
    | with_reducible assumption
    | split
    | intro _
    | (conv => enter [2, 26]); with_reducible refine Keeps.but ?_ rfl
    | with_reducible refine Keeps.of_fst ?_ (by with_reducible assumption)
    | unfold x
    | dsimp only

end Sys2Proof.Machine
end

