-- ==== Sys2Proof/Laws/KeepsParity.lean ====
section
/-! SUPPORT. What the operations of Parity leave in force. -/

set_option linter.tactic.unusedName false

namespace Sys2Proof.Machine

theorem State.controlAs_keeps {s0 s : State} (x2 x3 x4 x5 x6 x7) (h : Keeps s0 s) : Keeps s0 (State.controlAs s x2 x3 x4 x5 x6 x7).1 := by
  unfold State.controlAs
  repeat' first
    | with_reducible assumption
    | (extract_lets +onlyGivenNames x; )
    | with_reducible apply State.addOutstanding_keeps
    | with_reducible apply State.forward_keeps
    | split
    | intro _
    | with_reducible refine Keeps.of_fst ?_ (by with_reducible assumption)

theorem State.control_keeps {s0 s : State} (x2 x3 x4 x5) (h : Keeps s0 s) : Keeps s0 (State.control s x2 x3 x4 x5).1 := by
  unfold State.control
  repeat' first
    | with_reducible assumption
    | with_reducible apply State.controlAs_keeps

theorem State.takeover_keeps {s0 s : State} (x2 x3 x4 x5 x6 x7) (h : Keeps s0 s) : Keeps s0 (State.takeover s x2 x3 x4 x5 x6 x7).1 := by
  unfold State.takeover
  repeat' first
    | with_reducible assumption
    | with_reducible apply State.control_keeps

theorem State.replicate_keeps {s0 s : State} (x2 x3 x4) (h : Keeps s0 s) : Keeps s0 (State.replicate s x2 x3 x4).1 := by
  unfold State.replicate
  repeat' first
    | with_reducible assumption
    | (extract_lets +onlyGivenNames x; )
    | with_reducible apply State.takeover_keeps
    | (with_reducible apply Keeps.foldl_fst; intro _ _ _)
    | split
    | intro _
    | with_reducible refine Keeps.of_fst ?_ (by with_reducible assumption)

theorem State.sendDelta_keeps {s0 s : State} (x2 x3 x4 x5 x6 x7) (h : Keeps s0 s) : Keeps s0 (State.sendDelta s x2 x3 x4 x5 x6 x7).1 := by
  unfold State.sendDelta
  repeat' first
    | with_reducible assumption
    | with_reducible apply State.control_keeps

theorem State.sendOwed_keeps {s0 s : State} (x2 x3) (h : Keeps s0 s) : Keeps s0 (State.sendOwed s x2 x3).1 := by
  unfold State.sendOwed
  repeat' first
    | with_reducible assumption
    | (extract_lets +onlyGivenNames x; )
    | with_reducible apply State.sendDelta_keeps
    | (with_reducible apply Keeps.foldl_fst; intro _ _ _)
    | split
    | intro _
    | with_reducible refine Keeps.of_fst ?_ (by with_reducible assumption)

theorem State.flushDeltas_keeps {s0 s : State} (h : Keeps s0 s) : Keeps s0 (State.flushDeltas s).1 := by
  unfold State.flushDeltas
  repeat' first
    | with_reducible assumption
    | (extract_lets +onlyGivenNames x; )
    | with_reducible apply State.sendOwed_keeps
    | (with_reducible apply Keeps.foldl_fst; intro _ _ _)
    | split
    | intro _
    | (conv => enter [2, 26]); with_reducible refine Keeps.but ?_ rfl
    | with_reducible refine Keeps.of_fst ?_ (by with_reducible assumption)
    | unfold x
    | dsimp only

theorem State.replyAfter_keeps {s0 s : State} (x2 x3 x4) (h : Keeps s0 s) : Keeps s0 (State.replyAfter s x2 x3 x4) := by
  unfold State.replyAfter
  repeat' first
    | with_reducible assumption
    | (extract_lets +onlyGivenNames x; )
    | with_reducible apply State.sendBack_keeps
    | split
    | intro _
    | (conv => enter [2, 26]); with_reducible refine Keeps.but ?_ rfl

theorem State.deltaDone_keeps {s0 s : State} (x2) (h : Keeps s0 s) : Keeps s0 (State.deltaDone s x2) := by
  unfold State.deltaDone
  repeat' first
    | with_reducible assumption
    | (extract_lets +onlyGivenNames x; )
    | with_reducible apply State.sendBack_keeps
    | with_reducible apply State.emit_keeps
    | (with_reducible apply Keeps.foldl; intro _ _ _)
    | split
    | intro _
    | (conv => enter [2, 26]); with_reducible refine Keeps.but ?_ rfl
    | with_reducible refine Keeps.of_fst ?_ (by with_reducible assumption)
    | unfold x

theorem State.takeDelta_keeps {s0 s : State} (m) (h : Keeps s0 s) : Keeps s0 (State.takeDelta s m) := by
  unfold State.takeDelta
  split
  · exact State.refuse_keeps _ _ _ h
  · extract_lets off old new
    clear_value new
    with_reducible apply State.reply_keeps
    with_reducible exact Keeps.butMem h fun w => Mem.wf_write w

theorem State.readMember_keeps {s0 s : State} (a b c) (h : Keeps s0 s) : Keeps s0 (State.readMember s a b c).1 := by
  unfold State.readMember
  generalize List.range 256 = l
  refine Keeps.foldl_fst ?_ h
  intro p x hp
  have := State.control_keeps 0x26 0 (gpaOf a (b * granuleSize + x * 64)) [] hp
  split <;> (rename_i hq; rw [hq] at this; exact this)

theorem State.beginRebuild_keeps {s0 s : State} (g w) (h : Keeps s0 s) : Keeps s0 (State.beginRebuild s g w) := by
  unfold State.beginRebuild
  extract_lets hd st
  split
  extract_lets others
  split
  rename_i hq
  refine Keeps.but (Keeps.of_fst (Keeps.foldl_fst ?_ h) hq) rfl
  intro p x hp
  split
  rename_i hq2
  exact Keeps.of_fst (State.readMember_keeps _ _ _ hp) hq2

theorem State.serveTaken_keeps {s0 s : State} (x2 x3) (h : Keeps s0 s) : Keeps s0 (State.serveTaken s x2 x3) := by
  unfold State.serveTaken
  repeat' first
    | with_reducible assumption
    | (extract_lets +onlyGivenNames x; )
    | with_reducible apply State.reply_keeps
    | split
    | intro _
    | (conv => enter [2, 26]); with_reducible refine Keeps.but ?_ rfl
    | with_reducible refine Keeps.of_fst ?_ (by with_reducible assumption)
    | unfold x

theorem State.servedAccess_keeps {s0 s : State} (x2 x3) (h : Keeps s0 s) : Keeps s0 (State.servedAccess s x2 x3) := by
  unfold State.servedAccess
  repeat' first
    | with_reducible assumption
    | (extract_lets +onlyGivenNames x; )
    | with_reducible apply State.serveTaken_keeps
    | with_reducible apply State.beginRebuild_keeps
    | with_reducible apply State.refuse_keeps
    | with_reducible apply State.reply_keeps
    | split
    | intro _
    | (conv => enter [2, 26]); with_reducible refine Keeps.but ?_ rfl

end Sys2Proof.Machine
end

