-- ==== Sys2Proof/Laws/KeepsBreakwater.lean ====
section
/-! SUPPORT. What the operations of Breakwater leave in force. -/

set_option linter.tactic.unusedName false

namespace Sys2Proof.Machine

theorem State.book_keeps {s0 s : State} (x2 x3) (h : Keeps s0 s) : Keeps s0 (State.book s x2 x3) := by
  unfold State.book
  repeat' first
    | with_reducible assumption
    | (extract_lets +onlyGivenNames x; )
    | split
    | intro _
    | (conv => enter [2, 26]); with_reducible refine Keeps.but ?_ rfl

theorem State.offer_keeps {s0 s : State} (x2 x3) (h : Keeps s0 s) : Keeps s0 (State.offer s x2 x3) := by
  unfold State.offer
  repeat' first
    | with_reducible assumption
    | (extract_lets +onlyGivenNames x; )
    | split
    | intro _
    | (conv => enter [2, 26]); with_reducible refine Keeps.but ?_ rfl

theorem State.recompute_keeps {s0 s : State} (h : Keeps s0 s) : Keeps s0 (State.recompute s) := by
  unfold State.recompute
  repeat' first
    | with_reducible assumption
    | (extract_lets +onlyGivenNames x; )
    | split
    | intro _
    | (conv => enter [2, 26]); with_reducible refine Keeps.but ?_ rfl

theorem execShareRecompute_ends {s0 s : State} (h : Keeps s0 s) : EndsIn Keeps s0 (execShareRecompute s) := by
  unfold execShareRecompute
  repeat' first
    | with_reducible assumption
    | (extract_lets +onlyGivenNames x; )
    | with_reducible apply State.recompute_keeps
    | with_reducible apply EndsIn.next
    | split

theorem State.sample_keeps {s0 s : State} (x2 x3 x4 x5) (h : Keeps s0 s) : Keeps s0 (State.sample s x2 x3 x4 x5) := by
  unfold State.sample
  repeat' first
    | with_reducible assumption
    | (extract_lets +onlyGivenNames x; )
    | split
    | intro _
    | (conv => enter [2, 26]); with_reducible refine Keeps.but ?_ rfl

end Sys2Proof.Machine
end

