-- ==== Sys2Proof/Laws/KeepsComplete.lean ====
section
/-! SUPPORT. What the operations of Complete leave in force. -/

set_option linter.tactic.unusedName false

namespace Sys2Proof.Machine

theorem State.cqWrite_keeps {s0 s : State} (x2 x3 x4) (h : Keeps s0 s) : Keeps s0 (State.cqWrite s x2 x3 x4) := by
  unfold State.cqWrite
  repeat' first
    | with_reducible assumption
    | (extract_lets +onlyGivenNames x; )
    | with_reducible apply State.writeAt_keeps
    | with_reducible apply State.setCq_keeps
    | split

theorem State.cqNotify_keeps {s0 s : State} (x2) (h : Keeps s0 s) : Keeps s0 (State.cqNotify s x2) := by
  unfold State.cqNotify
  repeat' first
    | with_reducible assumption
    | with_reducible apply State.setCq_keeps

theorem State.refusal_keeps {s0 s : State} (x2 x3 x4 x5 x6 x7) (h : Keeps s0 s) : Keeps s0 (State.refusal s x2 x3 x4 x5 x6 x7) := by
  unfold State.refusal
  repeat' first
    | with_reducible assumption
    | (extract_lets +onlyGivenNames x; )
    | with_reducible apply State.cqNotify_keeps
    | with_reducible apply State.writeAt_keeps
    | with_reducible apply State.setSq_keeps
    | with_reducible apply State.count_keeps
    | split

theorem State.setBollard_keeps {s0 s : State} (x2 x3) (h : Keeps s0 s) : Keeps s0 (State.setBollard s x2 x3) := by
  unfold State.setBollard
  repeat' first
    | with_reducible assumption
    | (extract_lets +onlyGivenNames x; )
    | split
    | intro _
    | (conv => enter [2, 26]); with_reducible refine Keeps.but ?_ rfl

theorem State.addWait_keeps {s0 s : State} (x2) (h : Keeps s0 s) : Keeps s0 (State.addWait s x2) := by
  unfold State.addWait
  repeat' first
    | with_reducible assumption
    | (extract_lets +onlyGivenNames x; )
    | split
    | intro _
    | (conv => enter [2, 26]); with_reducible refine Keeps.but ?_ rfl

theorem State.dropWait_keeps {s0 s : State} (x2) (h : Keeps s0 s) : Keeps s0 (State.dropWait s x2) := by
  unfold State.dropWait
  repeat' first
    | with_reducible assumption
    | (extract_lets +onlyGivenNames x; )
    | split
    | intro _
    | (conv => enter [2, 26]); with_reducible refine Keeps.but ?_ rfl

theorem State.answerWait_keeps {s0 s : State} (x2 x3 x4) (h : Keeps s0 s) : Keeps s0 (State.answerWait s x2 x3 x4).1 := by
  unfold State.answerWait
  repeat' first
    | with_reducible assumption
    | (extract_lets +onlyGivenNames x; )
    | with_reducible apply State.dropWait_keeps
    | with_reducible apply State.endTicket_keeps
    | with_reducible apply State.reply_keeps
    | with_reducible apply State.setDesc_keeps
    | split

theorem State.testWaits_keeps {s0 s : State} (x2 x3) (h : Keeps s0 s) : Keeps s0 (State.testWaits s x2 x3).1 := by
  unfold State.testWaits
  repeat' first
    | with_reducible assumption
    | (extract_lets +onlyGivenNames x; )
    | with_reducible apply State.answerWait_keeps
    | (with_reducible apply Keeps.foldl_fst; intro _ _ _)

theorem State.signal_keeps {s0 s : State} (x2 x3 x4) (h : Keeps s0 s) : Keeps s0 (State.signal s x2 x3 x4).1 := by
  unfold State.signal
  repeat' first
    | with_reducible assumption
    | (extract_lets +onlyGivenNames x; )
    | with_reducible apply State.testWaits_keeps
    | with_reducible apply State.setBollard_keeps
    | split

theorem State.arrive_keeps {s0 s : State} (x2 x3 x4 x5) (h : Keeps s0 s) : Keeps s0 (State.arrive s x2 x3 x4 x5).1 := by
  unfold State.arrive
  repeat' first
    | with_reducible assumption
    | (extract_lets +onlyGivenNames x; )
    | with_reducible apply State.testWaits_keeps
    | with_reducible apply State.addWait_keeps
    | with_reducible apply State.setBollard_keeps
    | split

theorem State.drewN_keeps {s0 s : State} (x2) (h : Keeps s0 s) : Keeps s0 (State.drewN s x2) := by
  unfold State.drewN
  repeat' first
    | with_reducible assumption
    | split
    | intro _
    | (conv => enter [2, 26]); with_reducible refine Keeps.but ?_ rfl

theorem State.countUse_keeps {s0 s : State} (x2 x3) (h : Keeps s0 s) : Keeps s0 (State.countUse s x2 x3) := by
  unfold State.countUse
  repeat' first
    | with_reducible assumption
    | (extract_lets +onlyGivenNames x; )
    | with_reducible apply State.count_keeps

theorem State.singleFault_keeps {s0 s : State} (x2) (h : Keeps s0 s) : Keeps s0 (State.singleFault s x2) := by
  unfold State.singleFault
  repeat' first
    | with_reducible assumption
    | (extract_lets +onlyGivenNames x; )
    | split
    | intro _
    | (conv => enter [2, 26]); with_reducible refine Keeps.but ?_ rfl

theorem State.mapInvalidations_keeps {s0 s : State} (x2) (h : Keeps s0 s) : Keeps s0 (State.mapInvalidations s x2) := by
  unfold State.mapInvalidations
  repeat' first
    | with_reducible assumption
    | (extract_lets +onlyGivenNames x; )
    | with_reducible apply State.setPort_keeps
    | with_reducible apply State.emit_keeps
    | (with_reducible apply Keeps.foldl; intro _ _ _)

theorem State.forget_keeps {s0 s : State} (x2) (h : Keeps s0 s) : Keeps s0 (State.forget s x2) := by
  unfold State.forget
  repeat' first
    | with_reducible assumption
    | (extract_lets +onlyGivenNames x; )
    | with_reducible apply State.freeHeld_keeps
    | split
    | intro _
    | (conv => enter [2, 26]); with_reducible refine Keeps.but ?_ rfl

theorem State.record_keeps {s0 s : State} (x2) (h : Keeps s0 s) : Keeps s0 (State.record s x2).1 := by
  unfold State.record
  repeat' first
    | with_reducible assumption
    | (extract_lets +onlyGivenNames x; )
    | with_reducible apply State.forget_keeps
    | with_reducible apply State.mapInvalidations_keeps
    | with_reducible apply State.countUse_keeps
    | with_reducible apply State.drewN_keeps
    | with_reducible apply State.cqNotify_keeps
    | with_reducible apply State.cqWrite_keeps
    | with_reducible apply State.setCq_keeps
    | with_reducible apply State.count_keeps
    | split
    | intro _
    | with_reducible refine Keeps.of_fst ?_ (by with_reducible assumption)
    | unfold x
    | dsimp only
    | dsimp +zetaDelta only

theorem State.settle_keeps {s0 s : State} (f ts) (h : Keeps s0 s) : Keeps s0 (State.settle f ts s) := by
  induction f generalizing ts s with
  | zero => exact h
  | succ f ih =>
    cases ts with
    | nil => exact h
    | cons t ts =>
      unfold State.settle
      cases t with
      | record d => exact ih _ (State.record_keeps d h)
      | signal b op x => exact ih _ (State.signal_keeps b op x h)

theorem State.run_keeps {s0 s : State} (x2) (h : Keeps s0 s) : Keeps s0 (State.run s x2) := by
  unfold State.run
  repeat' first
    | with_reducible assumption
    | with_reducible apply State.settle_keeps

theorem State.complete_keeps {s0 s : State} (x2 x3) (h : Keeps s0 s) : Keeps s0 (State.complete s x2 x3) := by
  unfold State.complete
  repeat' first
    | with_reducible assumption
    | (extract_lets +onlyGivenNames x; )
    | with_reducible apply State.run_keeps
    | with_reducible apply State.setDesc_keeps

theorem State.signalRun_keeps {s0 s : State} (x2 x3 x4) (h : Keeps s0 s) : Keeps s0 (State.signalRun s x2 x3 x4) := by
  unfold State.signalRun
  repeat' first
    | with_reducible assumption
    | with_reducible apply State.run_keeps

theorem State.guestNotice_keeps {s0 s : State} (x2) (h : Keeps s0 s) : Keeps s0 (State.guestNotice s x2) := by
  unfold State.guestNotice
  repeat' first
    | with_reducible assumption
    | with_reducible apply State.interruptOn_keeps
    | split

theorem State.consume_keeps {s0 s : State} (x2 x3) (h : Keeps s0 s) : Keeps s0 (State.consume s x2 x3) := by
  unfold State.consume
  repeat' first
    | with_reducible assumption
    | (extract_lets +onlyGivenNames x; )
    | with_reducible apply State.guestNotice_keeps
    | with_reducible apply State.complete_keeps
    | with_reducible apply State.report_keeps
    | with_reducible apply State.setGuest_keeps
    | with_reducible apply State.count_keeps
    | (with_reducible apply Keeps.foldl; intro _ _ _)
    | split

end Sys2Proof.Machine
end

