-- ==== Sys2Proof/Laws/KeepsAccess.lean ====
section
/-! SUPPORT. What the operations of Access leave in force. -/

set_option linter.tactic.unusedName false

namespace Sys2Proof.Machine

theorem State.issueRead_keeps {s0 s : State} (x2) (h : Keeps s0 s) : Keeps s0 (State.issueRead s x2) := by
  unfold State.issueRead
  repeat' first
    | with_reducible assumption
    | (extract_lets +onlyGivenNames x; )
    | with_reducible apply State.count_keeps
    | split
    | intro _
    | (conv => enter [2, 26]); with_reducible refine Keeps.but ?_ rfl

theorem State.joinMiss_keeps {s0 s : State} (x2 x3 x4) (h : Keeps s0 s) : Keeps s0 (State.joinMiss s x2 x3 x4) := by
  unfold State.joinMiss
  repeat' first
    | with_reducible assumption
    | (extract_lets +onlyGivenNames x; )
    | with_reducible apply State.issueRead_keeps
    | split
    | intro _
    | (conv => enter [2, 26]); with_reducible refine Keeps.but ?_ rfl
    | with_reducible refine Keeps.of_fst ?_ (by with_reducible assumption)
    | unfold x

theorem State.holdWrite_keeps {s0 s : State} (x2 x3) (h : Keeps s0 s) : Keeps s0 (State.holdWrite s x2 x3) := by
  unfold State.holdWrite
  repeat' first
    | with_reducible assumption
    | (extract_lets +onlyGivenNames x; )
    | with_reducible apply State.issueRead_keeps
    | split
    | intro _
    | (conv => enter [2, 26]); with_reducible refine Keeps.but ?_ rfl
    | with_reducible refine Keeps.of_fst ?_ (by with_reducible assumption)
    | unfold x

theorem State.answerRead_keeps {s0 s : State} (x2 x3) (h : Keeps s0 s) : Keeps s0 (State.answerRead s x2 x3) := by
  unfold State.answerRead
  repeat' first
    | with_reducible assumption
    | (extract_lets +onlyGivenNames x; )
    | with_reducible apply State.consume_keeps
    | with_reducible apply State.reply_keeps
    | split

theorem State.serveRead_keeps {s0 s : State} (x2) (h : Keeps s0 s) : Keeps s0 (State.serveRead s x2) := by
  unfold State.serveRead
  repeat' first
    | with_reducible assumption
    | (extract_lets +onlyGivenNames x; )
    | with_reducible apply State.answerRead_keeps
    | with_reducible apply State.joinMiss_keeps
    | with_reducible apply State.touchRead_keeps
    | split

theorem State.applyWrite_keeps {s0 s : State} (off data) (h : Keeps s0 s) : Keeps s0 (State.applyWrite s off data) := by
  unfold State.applyWrite
  extract_lets g n st whole s1 s2
  split
  · have h2 : Keeps s0 s1 := State.dropRows_keeps off n (State.owe_keeps off data h)
    have hs : s1.store = s.store := (State.dropRows_store _ _ _).trans (State.owe_store _ _ _)
    clear_value s1
    have h3 : Keeps s0 s2 := by
      with_reducible refine Keeps.butMem h2 fun w => ?_
      rw [hs] at w
      exact Mem.wf_write w
    with_reducible exact State.holdWrite_keeps _ _ h3
  · exact State.writeAt_keeps _ _ h

theorem State.recordAtomic_keeps {s0 s : State} (x2 x3 x4) (h : Keeps s0 s) : Keeps s0 (State.recordAtomic s x2 x3 x4) := by
  unfold State.recordAtomic
  repeat' first
    | with_reducible assumption
    | (extract_lets +onlyGivenNames x; )
    | with_reducible apply State.takeover_keeps
    | (with_reducible apply Keeps.foldl; intro _ _ _)
    | split

theorem State.serveWrite_keeps {s0 s : State} (x2) (h : Keeps s0 s) : Keeps s0 (State.serveWrite s x2) := by
  unfold State.serveWrite
  repeat' first
    | with_reducible assumption
    | (extract_lets +onlyGivenNames x; )
    | with_reducible apply State.recordAtomic_keeps
    | with_reducible apply State.applyWrite_keeps
    | with_reducible apply State.consume_keeps
    | with_reducible apply State.replyAfter_keeps
    | with_reducible apply State.flushDeltas_keeps
    | with_reducible apply State.poisonSectors_keeps
    | split
    | intro _
    | with_reducible refine Keeps.of_fst ?_ (by with_reducible assumption)
    | unfold x
    | dsimp only
    | dsimp +zetaDelta only

theorem State.setLine_keeps {s0 s : State} (x2 x3) (h : Keeps s0 s) : Keeps s0 (State.setLine s x2 x3) := by
  unfold State.setLine
  repeat' first
    | with_reducible assumption
    | (extract_lets +onlyGivenNames x; )
    | split
    | intro _
    | (conv => enter [2, 26]); with_reducible refine Keeps.but ?_ rfl

theorem State.recall_keeps {s0 s : State} (x2 x3 x4 x5) (h : Keeps s0 s) : Keeps s0 (State.recall s x2 x3 x4 x5) := by
  unfold State.recall
  repeat' first
    | with_reducible assumption
    | (extract_lets +onlyGivenNames x; )
    | with_reducible apply State.emit_keeps
    | (with_reducible apply Keeps.foldl; intro _ _ _)
    | split
    | intro _
    | (conv => enter [2, 26]); with_reducible refine Keeps.but ?_ rfl
    | with_reducible refine Keeps.of_fst ?_ (by with_reducible assumption)
    | unfold x

theorem State.cxlEvent_keeps {s0 s : State} (x2 x3 x4 x5 x6 x7) (h : Keeps s0 s) : Keeps s0 (State.cxlEvent s x2 x3 x4 x5 x6 x7) := by
  unfold State.cxlEvent
  repeat' first
    | with_reducible assumption
    | with_reducible apply State.setPort_keeps

theorem State.hostAnswer_keeps {s0 s : State} (x2 x3 x4 x5 x6 x7) (h : Keeps s0 s) : Keeps s0 (State.hostAnswer s x2 x3 x4 x5 x6 x7) := by
  unfold State.hostAnswer
  repeat' first
    | with_reducible assumption
    | (extract_lets +onlyGivenNames x; )
    | with_reducible apply State.cxlEvent_keeps
    | with_reducible apply State.consume_keeps
    | with_reducible apply State.emit_keeps
    | split

theorem State.hostData_keeps {s0 s : State} (x2 x3 x4 x5) (h : Keeps s0 s) : Keeps s0 (State.hostData s x2 x3 x4 x5) := by
  unfold State.hostData
  repeat' first
    | with_reducible assumption
    | (extract_lets +onlyGivenNames x; )
    | with_reducible apply State.hostAnswer_keeps
    | with_reducible apply State.joinMiss_keeps
    | with_reducible apply State.touchRead_keeps
    | split

theorem State.hostStore_keeps {s0 s : State} (x2 x3 x4 x5 x6 x7) (h : Keeps s0 s) : Keeps s0 (State.hostStore s x2 x3 x4 x5 x6 x7) := by
  unfold State.hostStore
  repeat' first
    | with_reducible assumption
    | (extract_lets +onlyGivenNames x; )
    | with_reducible apply State.applyWrite_keeps
    | with_reducible apply State.flushDeltas_keeps
    | with_reducible apply State.poisonSectors_keeps
    | with_reducible apply State.emit_keeps
    | split
    | intro _
    | (conv => enter [2, 26]); with_reducible refine Keeps.but ?_ rfl
    | with_reducible refine Keeps.of_fst ?_ (by with_reducible assumption)
    | unfold x
    | dsimp only
    | dsimp +zetaDelta only

theorem State.overflow_some {s0 s t : State} {x2 x3} (h : Keeps s0 s) (hq : State.overflow s x2 x3 = some t) : Keeps s0 t := by
  unfold State.overflow at hq
  try dsimp only at hq
  repeat' split at hq
  all_goals try simp only [Option.some.injEq, Prod.mk.injEq, reduceCtorEq] at hq
  all_goals first
    | exact hq.elim
    | subst hq
  repeat' first
    | with_reducible assumption
    | (extract_lets +onlyGivenNames x; )
    | with_reducible apply State.recall_keeps
    | with_reducible apply State.count_keeps
    | split
    | intro _
    | (conv => enter [2, 26]); with_reducible refine Keeps.but ?_ rfl

theorem State.dirEvent_keeps {s0 s : State} (x2) (h : Keeps s0 s) : Keeps s0 (State.dirEvent s x2) := by
  unfold State.dirEvent
  repeat' first
    | with_reducible assumption
    | (extract_lets +onlyGivenNames x; )
    | with_reducible refine State.overflow_some ?_ (by with_reducible assumption)
    | with_reducible apply State.hostStore_keeps
    | with_reducible apply State.hostData_keeps
    | with_reducible apply State.recall_keeps
    | with_reducible apply State.setLine_keeps
    | with_reducible apply State.serveWrite_keeps
    | with_reducible apply State.serveRead_keeps
    | split
    | intro _
    | (conv => enter [2, 26]); with_reducible refine Keeps.but ?_ rfl

theorem State.drainLine_keeps {s0 s : State} (x2) (h : Keeps s0 s) : Keeps s0 (State.drainLine s x2) := by
  unfold State.drainLine
  repeat' first
    | with_reducible assumption
    | (extract_lets +onlyGivenNames x; )
    | with_reducible apply State.dirEvent_keeps
    | (with_reducible apply Keeps.foldl; intro _ _ _)
    | split
    | intro _
    | (conv => enter [2, 26]); with_reducible refine Keeps.but ?_ rfl
    | with_reducible refine Keeps.of_fst ?_ (by with_reducible assumption)
    | unfold x

theorem State.finishRecall_keeps {s0 s : State} (x2) (h : Keeps s0 s) : Keeps s0 (State.finishRecall s x2) := by
  unfold State.finishRecall
  repeat' first
    | with_reducible assumption
    | (extract_lets +onlyGivenNames x; )
    | with_reducible apply State.drainLine_keeps
    | with_reducible apply State.dirEvent_keeps
    | with_reducible apply State.setLine_keeps
    | split
    | intro _
    | (conv => enter [2, 26]); with_reducible refine Keeps.but ?_ rfl
    | with_reducible refine Keeps.of_fst ?_ (by with_reducible assumption)
    | unfold x
    | dsimp only
    | dsimp +zetaDelta only

theorem State.snoopAnswer_keeps {s0 s : State} (x2 x3 x4 x5) (h : Keeps s0 s) : Keeps s0 (State.snoopAnswer s x2 x3 x4 x5) := by
  unfold State.snoopAnswer
  repeat' first
    | with_reducible assumption
    | (extract_lets +onlyGivenNames x; )
    | with_reducible apply State.finishRecall_keeps
    | with_reducible apply State.setLine_keeps
    | with_reducible apply State.applyWrite_keeps
    | split
    | intro _
    | (conv => enter [2, 26]); with_reducible refine Keeps.but ?_ rfl
    | with_reducible refine Keeps.of_fst ?_ (by with_reducible assumption)
    | unfold x
    | dsimp only
    | dsimp +zetaDelta only

theorem State.holdRead_keeps {s0 s : State} (x2) (h : Keeps s0 s) : Keeps s0 (State.holdRead s x2) := by
  unfold State.holdRead
  repeat' first
    | with_reducible assumption
    | (extract_lets +onlyGivenNames x; )
    | with_reducible apply State.refuse_keeps
    | with_reducible apply State.reply_keeps
    | split

theorem State.homeAccess_keeps {s0 s : State} (x2) (h : Keeps s0 s) : Keeps s0 (State.homeAccess s x2) := by
  unfold State.homeAccess
  repeat' first
    | with_reducible assumption
    | (extract_lets +onlyGivenNames x; )
    | with_reducible apply State.holdRead_keeps
    | with_reducible apply State.dirEvent_keeps
    | with_reducible apply State.serveWrite_keeps
    | with_reducible apply State.serveRead_keeps
    | with_reducible apply State.servedAccess_keeps
    | with_reducible apply State.takeDelta_keeps
    | with_reducible apply State.refuse_keeps
    | with_reducible apply State.countRights_keeps
    | with_reducible apply State.count_keeps
    | split

theorem State.takeFence_keeps {s0 s : State} (x2) (h : Keeps s0 s) : Keeps s0 (State.takeFence s x2) := by
  unfold State.takeFence
  repeat' first
    | with_reducible assumption
    | (extract_lets +onlyGivenNames x; )
    | with_reducible apply State.reply_keeps
    | with_reducible apply State.send_keeps
    | (with_reducible apply Keeps.foldl; intro _ _ _)

theorem State.forwardRequest_keeps {s0 s : State} (x2) (h : Keeps s0 s) : Keeps s0 (State.forwardRequest s x2) := by
  unfold State.forwardRequest
  repeat' first
    | with_reducible assumption
    | (extract_lets +onlyGivenNames x; )
    | with_reducible apply State.addOutstanding_keeps
    | with_reducible apply State.refuse_keeps
    | with_reducible apply State.reply_keeps
    | with_reducible apply State.forward_keeps
    | split
    | intro _
    | with_reducible refine Keeps.of_fst ?_ (by with_reducible assumption)

theorem State.beginPull_keeps {s0 s : State} (x2 x3 x4 x5 x6) (h : Keeps s0 s) : Keeps s0 (State.beginPull s x2 x3 x4 x5 x6) := by
  unfold State.beginPull
  repeat' first
    | with_reducible assumption
    | (extract_lets +onlyGivenNames x; )
    | with_reducible apply State.controlAs_keeps
    | (with_reducible apply Keeps.foldl_fst; intro _ _ _)
    | split
    | intro _
    | (conv => enter [2, 26]); with_reducible refine Keeps.but ?_ rfl
    | with_reducible refine Keeps.of_fst ?_ (by with_reducible assumption)

theorem State.takeRequest_keeps {s0 s : State} (x2) (h : Keeps s0 s) : Keeps s0 (State.takeRequest s x2) := by
  unfold State.takeRequest
  repeat' first
    | with_reducible assumption
    | (extract_lets +onlyGivenNames x; )
    | with_reducible apply State.beginPull_keeps
    | with_reducible apply State.forwardRequest_keeps
    | with_reducible apply State.takeFence_keeps
    | with_reducible apply State.homeAccess_keeps
    | with_reducible apply State.consume_keeps
    | with_reducible apply State.refuse_keeps
    | with_reducible apply State.reply_keeps
    | split

theorem State.setHeld_keeps {s0 s : State} (x2 x3 x4) (h : Keeps s0 s) : Keeps s0 (State.setHeld s x2 x3 x4) := by
  unfold State.setHeld
  repeat' first
    | with_reducible assumption
    | (extract_lets +onlyGivenNames x; )
    | split
    | intro _
    | (conv => enter [2, 26]); with_reducible refine Keeps.but ?_ rfl

theorem State.release_keeps {s0 s : State} (f b a) (h : Keeps s0 s) : Keeps s0 (State.release f s b a) := by
  induction f generalizing s with
  | zero => exact h
  | succ f ih =>
    unfold State.release
    repeat' first
      | with_reducible assumption
      | with_reducible apply ih
      | with_reducible apply State.setHeld_keeps
      | with_reducible apply State.takeRequest_keeps
      | with_reducible apply State.homeAccess_keeps
      | (extract_lets +onlyGivenNames x; )
      | split

theorem State.fromJetty_keeps {s0 s : State} (x2) (h : Keeps s0 s) : Keeps s0 (State.fromJetty s x2) := by
  unfold State.fromJetty
  repeat' first
    | with_reducible assumption
    | (extract_lets +onlyGivenNames x; )
    | with_reducible apply State.setHeld_keeps
    | with_reducible apply State.takeRequest_keeps
    | split

theorem State.releaseAgent_keeps {s0 s : State} (x2 x3) (h : Keeps s0 s) : Keeps s0 (State.releaseAgent s x2 x3) := by
  unfold State.releaseAgent
  repeat' first
    | with_reducible assumption
    | with_reducible apply State.release_keeps

theorem State.plainRequest_keeps {s0 s : State} (x2) (h : Keeps s0 s) : Keeps s0 (State.plainRequest s x2) := by
  unfold State.plainRequest
  repeat' first
    | with_reducible assumption
    | (extract_lets +onlyGivenNames x; )
    | with_reducible apply State.fromJetty_keeps
    | with_reducible apply State.setHeld_keeps
    | with_reducible apply State.homeAccess_keeps
    | with_reducible apply State.refuse_keeps
    | with_reducible apply State.forward_keeps
    | with_reducible apply State.setBundle_keeps
    | split
    | intro _
    | with_reducible refine Keeps.of_fst ?_ (by with_reducible assumption)

end Sys2Proof.Machine
end

