-- ==== Sys2Proof/Laws/KeepsTranslate.lean ====
section
/-! SUPPORT. What the operations of Translate leave in force. -/

set_option linter.tactic.unusedName false

namespace Sys2Proof.Machine

theorem State.cache_keeps {s0 s : State} (x2 x3) (h : Keeps s0 s) : Keeps s0 (State.cache s x2 x3) := by
  unfold State.cache
  repeat' first
    | with_reducible assumption
    | with_reducible apply State.setGuest_keeps

end Sys2Proof.Machine
end

