-- ==== Sys2Proof/Laws/KeepsWork.lean ====
section
/-! SUPPORT. What the operations of Work leave in force. -/

set_option linter.tactic.unusedName false

namespace Sys2Proof.Machine

/-- The admission of an opcode leaves `Keeps` in force. -/
def DescOp.Kept (op : DescOp) : Prop := ∀ {s0 s : State} (d), Keeps s0 s → Keeps s0 (op.enter s d)

/-- Every opcode of a table does. -/
def DescTableKept (table : Nat → Option DescOp) : Prop := ∀ n op, table n = some op → op.Kept

theorem State.failDesc_keeps {s0 s : State} (x2 x3 x4 x5) (h : Keeps s0 s) : Keeps s0 (State.failDesc s x2 x3 x4 x5) := by
  unfold State.failDesc
  repeat' first
    | with_reducible assumption
    | (extract_lets +onlyGivenNames x; )
    | with_reducible apply State.setDesc_keeps

theorem State.sendWork_keeps {s0 s : State} (x2 x3 x4 x5 x6) (h : Keeps s0 s) : Keeps s0 (State.sendWork s x2 x3 x4 x5 x6).1 := by
  unfold State.sendWork
  repeat' first
    | with_reducible assumption
    | (extract_lets +onlyGivenNames x; )
    | with_reducible apply State.failDesc_keeps
    | with_reducible apply State.addOutstanding_keeps
    | with_reducible apply State.forward_keeps
    | split
    | intro _
    | with_reducible refine Keeps.of_fst ?_ (by with_reducible assumption)

theorem State.readSector_keeps {s0 s : State} (x2 x3) (h : Keeps s0 s) : Keeps s0 (State.readSector s x2 x3) := by
  unfold State.readSector
  repeat' first
    | with_reducible assumption
    | (extract_lets +onlyGivenNames x; )
    | with_reducible apply State.sendWork_keeps
    | with_reducible apply State.beginPull_keeps
    | with_reducible apply State.setDesc_keeps
    | split
    | intro _
    | with_reducible refine Keeps.of_fst ?_ (by with_reducible assumption)

theorem State.recallFor_keeps {s0 s : State} (x2 x3) (h : Keeps s0 s) : Keeps s0 (State.recallFor s x2 x3) := by
  unfold State.recallFor
  repeat' first
    | with_reducible assumption
    | (extract_lets +onlyGivenNames x; )
    | with_reducible apply State.recall_keeps
    | (with_reducible apply Keeps.foldl; intro _ _ _)
    | split

theorem State.readyRead_keeps {s0 s : State} (x2 x3) (h : Keeps s0 s) : Keeps s0 (State.readyRead s x2 x3).1 := by
  unfold State.readyRead
  repeat' first
    | with_reducible assumption
    | (extract_lets +onlyGivenNames x; )
    | with_reducible apply State.recallFor_keeps
    | with_reducible apply State.readSector_keeps
    | with_reducible apply State.failDesc_keeps
    | with_reducible apply State.joinMiss_keeps
    | (with_reducible apply Keeps.foldl; intro _ _ _)
    | split

theorem State.readyWrite_keeps {s0 s : State} (x2) (h : Keeps s0 s) : Keeps s0 (State.readyWrite s x2).1 := by
  unfold State.readyWrite
  repeat' first
    | with_reducible assumption
    | (extract_lets +onlyGivenNames x; )
    | with_reducible apply State.recallFor_keeps

theorem State.touchPieces_keeps {s0 s : State} (x2) (h : Keeps s0 s) : Keeps s0 (State.touchPieces s x2) := by
  unfold State.touchPieces
  repeat' first
    | with_reducible assumption
    | (extract_lets +onlyGivenNames x; )
    | with_reducible apply State.touchRead_keeps
    | (with_reducible apply Keeps.foldl; intro _ _ _)

theorem State.writePiece_keeps {s0 s : State} (x2 x3 x4 x5) (h : Keeps s0 s) : Keeps s0 (State.writePiece s x2 x3 x4 x5) := by
  unfold State.writePiece
  repeat' first
    | with_reducible assumption
    | (extract_lets +onlyGivenNames x; )
    | with_reducible apply State.sendWork_keeps
    | with_reducible apply State.failDesc_keeps
    | with_reducible apply State.flushDeltas_keeps
    | with_reducible apply State.poisonSectors_keeps
    | with_reducible apply State.writeAt_keeps
    | with_reducible apply State.setDesc_keeps
    | (with_reducible apply Keeps.foldl; intro _ _ _)
    | split
    | intro _
    | with_reducible refine Keeps.of_fst ?_ (by with_reducible assumption)
    | unfold x

theorem State.writeRange_keeps {s0 s : State} (x2 x3 x4 x5 x6) (h : Keeps s0 s) : Keeps s0 (State.writeRange s x2 x3 x4 x5 x6) := by
  unfold State.writeRange
  repeat' first
    | with_reducible assumption
    | (extract_lets +onlyGivenNames x; )
    | with_reducible apply State.writePiece_keeps
    | (with_reducible apply Keeps.foldl_fst; intro _ _ _)
    | split

theorem State.finish_keeps {s0 s : State} (x2 x3 x4 x5 x6 x7) (h : Keeps s0 s) : Keeps s0 (State.finish s x2 x3 x4 x5 x6 x7) := by
  unfold State.finish
  repeat' first
    | with_reducible assumption
    | with_reducible apply State.complete_keeps

theorem State.ok_keeps {s0 s : State} (x2 x3 x4) (h : Keeps s0 s) : Keeps s0 (State.ok s x2 x3 x4) := by
  unfold State.ok
  repeat' first
    | with_reducible assumption
    | with_reducible apply State.finish_keeps

theorem State.poisonFault_keeps {s0 s : State} (x2 x3) (h : Keeps s0 s) : Keeps s0 (State.poisonFault s x2 x3) := by
  unfold State.poisonFault
  repeat' first
    | with_reducible assumption
    | (extract_lets +onlyGivenNames x; )
    | with_reducible apply State.finish_keeps
    | with_reducible apply State.consume_keeps

theorem State.work_keeps {s0 s : State} (x2 x3 x4 x5) (h : Keeps s0 s) (hs : ∀ d st ca, Keeps s0 (x4 d st ca)) (hg : ∀ d, Keeps s0 (x5 d)) : Keeps s0 (State.work s x2 x3 x4 x5) := by
  unfold State.work
  repeat' first
    | with_reducible assumption
    | (extract_lets +onlyGivenNames x; )
    | with_reducible apply State.setDesc_keeps
    | with_reducible apply hs
    | with_reducible apply hg
    | split

theorem State.workMode_keeps {s0 s : State} (x2 x3 x4 x5 x6) (h : Keeps s0 s) (hs : ∀ d st ca, Keeps s0 (x5 d st ca)) (hg : ∀ d, Keeps s0 (x6 d)) : Keeps s0 (State.workMode s x2 x3 x4 x5 x6) := by
  unfold State.workMode
  repeat' first
    | with_reducible assumption
    | with_reducible apply State.work_keeps
    | with_reducible apply hs
    | with_reducible apply hg
    | split

theorem State.stop_keeps {s0 s : State} (x2 x3 x4) (h : Keeps s0 s) : Keeps s0 (State.stop s x2 x3 x4) := by
  unfold State.stop
  repeat' first
    | with_reducible assumption
    | with_reducible apply State.finish_keeps

end Sys2Proof.Machine
end

