-- ==== Sys2Proof/Laws/KeepsBollards.lean ====
section
/-! SUPPORT. What the operations of Bollards leave in force. -/

set_option linter.tactic.unusedName false

namespace Sys2Proof.Machine

theorem State.bollardOp_keeps {s0 s : State} (x2 x3 x4 x5 x6 x7) (h : Keeps s0 s) : Keeps s0 (State.bollardOp s x2 x3 x4 x5 x6 x7).1 := by
  unfold State.bollardOp
  repeat' first
    | with_reducible assumption
    | (extract_lets +onlyGivenNames x; )
    | with_reducible apply State.arrive_keeps
    | with_reducible apply State.signal_keeps
    | with_reducible apply State.addWait_keeps
    | split

theorem bollardOpOf_kept : DescOp.Kept bollardOpOf := by
  intro s0 s d h
  unfold bollardOpOf
  repeat' first
    | with_reducible assumption

theorem opBollardSignal_kept : DescOp.Kept opBollardSignal := by
  intro s0 s d h
  unfold opBollardSignal
  repeat' first
    | with_reducible assumption
    | exact bollardOpOf_kept _ h

theorem opBollardWait_kept : DescOp.Kept opBollardWait := by
  intro s0 s d h
  unfold opBollardWait
  repeat' first
    | with_reducible assumption
    | exact bollardOpOf_kept _ h

theorem opBollardArrive_kept : DescOp.Kept opBollardArrive := by
  intro s0 s d h
  unfold opBollardArrive
  repeat' first
    | with_reducible assumption
    | exact bollardOpOf_kept _ h

theorem State.bollardWork_keeps {s0 s : State} (x2) (h : Keeps s0 s) : Keeps s0 (State.bollardWork s x2) := by
  unfold State.bollardWork
  repeat' first
    | with_reducible assumption
    | (extract_lets +onlyGivenNames x; )
    | with_reducible apply State.bollardOp_keeps
    | with_reducible apply State.stop_keeps
    | with_reducible apply State.ok_keeps
    | with_reducible apply State.finish_keeps
    | with_reducible apply State.sendWork_keeps
    | with_reducible apply State.run_keeps
    | with_reducible apply State.setDesc_keeps
    | split
    | intro _
    | with_reducible refine Keeps.of_fst ?_ (by with_reducible assumption)

theorem execBollardSignal_ends {s0 s : State} (x1) (h : Keeps s0 s) : EndsIn Keeps s0 (execBollardSignal x1 s) := by
  unfold execBollardSignal
  repeat' first
    | with_reducible assumption
    | (extract_lets +onlyGivenNames x; )
    | with_reducible apply State.bollardWork_keeps
    | with_reducible apply State.stop_keeps
    | with_reducible apply State.work_keeps
    | with_reducible apply EndsIn.next
    | split
    | intro _

theorem execBollardWait_ends {s0 s : State} (x1) (h : Keeps s0 s) : EndsIn Keeps s0 (execBollardWait x1 s) := by
  unfold execBollardWait
  repeat' first
    | with_reducible assumption
    | (extract_lets +onlyGivenNames x; )
    | with_reducible apply State.bollardWork_keeps
    | with_reducible apply State.stop_keeps
    | with_reducible apply State.work_keeps
    | with_reducible apply EndsIn.next
    | split
    | intro _

theorem execBollardArrive_ends {s0 s : State} (x1) (h : Keeps s0 s) : EndsIn Keeps s0 (execBollardArrive x1 s) := by
  unfold execBollardArrive
  repeat' first
    | with_reducible assumption
    | (extract_lets +onlyGivenNames x; )
    | with_reducible apply State.bollardWork_keeps
    | with_reducible apply State.stop_keeps
    | with_reducible apply State.work_keeps
    | with_reducible apply EndsIn.next
    | split
    | intro _

theorem State.bollardAnswered_keeps {s0 s : State} (x2 x3) (h : Keeps s0 s) : Keeps s0 (State.bollardAnswered s x2 x3) := by
  unfold State.bollardAnswered
  repeat' first
    | with_reducible assumption
    | (extract_lets +onlyGivenNames x; )
    | with_reducible apply State.ok_keeps
    | with_reducible apply State.finish_keeps
    | with_reducible apply State.drew_keeps
    | split
    | intro _
    | with_reducible refine Keeps.of_fst ?_ (by with_reducible assumption)
    | unfold x

theorem execBollardWaitTimeout_ends {s0 s : State} (x1) (h : Keeps s0 s) : EndsIn Keeps s0 (execBollardWaitTimeout x1 s) := by
  unfold execBollardWaitTimeout
  repeat' first
    | with_reducible assumption
    | (extract_lets +onlyGivenNames x; )
    | with_reducible apply State.run_keeps
    | with_reducible apply State.answerWait_keeps
    | with_reducible apply EndsIn.next
    | split

theorem State.bollardHome_keeps {s0 s : State} (x2) (h : Keeps s0 s) : Keeps s0 (State.bollardHome s x2) := by
  unfold State.bollardHome
  repeat' first
    | with_reducible assumption
    | (extract_lets +onlyGivenNames x; )
    | with_reducible apply State.bollardOp_keeps
    | with_reducible apply State.run_keeps
    | with_reducible apply State.reply_keeps
    | split

theorem execBollard_ends {s0 s : State} (x1) (h : Keeps s0 s) : EndsIn Keeps s0 (execBollard x1 s) := by
  unfold execBollard
  repeat' first
    | with_reducible assumption
    | (extract_lets +onlyGivenNames x; )
    | with_reducible apply State.bollardHome_keeps
    | with_reducible apply State.forwardRequest_keeps
    | with_reducible apply State.reply_keeps
    | with_reducible apply State.send_keeps
    | with_reducible apply EndsIn.next
    | split

theorem opBollardAlloc_kept : RelasOp.Kept opBollardAlloc := by
  intro s0 s c k h
  unfold opBollardAlloc
  repeat' first
    | with_reducible assumption
    | (extract_lets +onlyGivenNames x; )
    | with_reducible apply State.setSq_keeps
    | split
    | intro _
    | (conv => enter [2, 26]); with_reducible refine Keeps.but ?_ rfl
    | with_reducible refine Keeps.of_fst ?_ (by with_reducible assumption)
    | unfold x
    | dsimp only

theorem opBollardFree_kept : RelasOp.Kept opBollardFree := by
  intro s0 s c k h
  unfold opBollardFree
  repeat' first
    | with_reducible assumption
    | split
    | intro _
    | (conv => enter [2, 26]); with_reducible refine Keeps.but ?_ rfl
    | with_reducible refine Keeps.of_fst ?_ (by with_reducible assumption)
    | unfold x
    | dsimp only

theorem opBollardSignalCmd_kept : RelasOp.Kept opBollardSignalCmd := by
  intro s0 s c k h
  unfold opBollardSignalCmd
  repeat' first
    | with_reducible assumption
    | (extract_lets +onlyGivenNames x; )
    | with_reducible apply State.signalRun_keeps
    | split
    | intro _
    | with_reducible refine Keeps.of_fst ?_ (by with_reducible assumption)
    | unfold x
    | dsimp only

theorem opBollardWaitCmd_kept : RelasOp.Kept opBollardWaitCmd := by
  intro s0 s c k h
  unfold opBollardWaitCmd
  repeat' first
    | with_reducible assumption
    | with_reducible apply State.addWait_keeps
    | with_reducible apply State.drew_keeps
    | split
    | intro _
    | with_reducible refine Keeps.of_fst ?_ (by with_reducible assumption)
    | unfold x
    | dsimp only

theorem opBollardTryWait_kept : RelasOp.Kept opBollardTryWait := by
  intro s0 s c k h
  unfold opBollardTryWait
  repeat' first
    | with_reducible assumption
    | split
    | intro _
    | with_reducible refine Keeps.of_fst ?_ (by with_reducible assumption)
    | unfold x
    | dsimp only

end Sys2Proof.Machine
end

