-- ==== Sys2Proof/Laws/KeepsExtents.lean ====
section
/-! SUPPORT. What the operations of Extents leave in force. -/

set_option linter.tactic.unusedName false

namespace Sys2Proof.Machine

theorem State.extentEvent_keeps {s0 s : State} (x2 x3) (h : Keeps s0 s) : Keeps s0 (State.extentEvent s x2 x3) := by
  unfold State.extentEvent
  repeat' first
    | with_reducible assumption
    | with_reducible apply State.setPort_keeps

theorem State.offerExtent_keeps {s0 s : State} (x2 x3 x4 x5 x6 x7 x8 x9) (h : Keeps s0 s) : Keeps s0 (State.offerExtent s x2 x3 x4 x5 x6 x7 x8 x9) := by
  unfold State.offerExtent
  repeat' first
    | with_reducible assumption
    | (extract_lets +onlyGivenNames x; )
    | with_reducible apply State.extentEvent_keeps
    | with_reducible apply State.msix_keeps
    | with_reducible apply State.count_keeps
    | with_reducible apply State.emit_keeps
    | split
    | intro _
    | (conv => enter [2, 26]); with_reducible refine Keeps.but ?_ rfl
    | with_reducible refine Keeps.of_fst ?_ (by with_reducible assumption)
    | unfold x
    | dsimp only
    | dsimp +zetaDelta only

theorem State.mapExtents_keeps {s0 s : State} (x2 x3) (h : Keeps s0 s) : Keeps s0 (State.mapExtents s x2 x3) := by
  unfold State.mapExtents
  repeat' first
    | with_reducible assumption
    | (extract_lets +onlyGivenNames x; )
    | split
    | intro _
    | (conv => enter [2, 26]); with_reducible refine Keeps.but ?_ rfl

theorem State.dropExtents_keeps {s0 s : State} (x2) (h : Keeps s0 s) : Keeps s0 (State.dropExtents s x2) := by
  unfold State.dropExtents
  repeat' first
    | with_reducible assumption
    | (extract_lets +onlyGivenNames x; )
    | split
    | intro _
    | (conv => enter [2, 26]); with_reducible refine Keeps.but ?_ rfl

theorem State.requestRelease_keeps {s0 s : State} (x2) (h : Keeps s0 s) : Keeps s0 (State.requestRelease s x2) := by
  unfold State.requestRelease
  repeat' first
    | with_reducible assumption
    | (extract_lets +onlyGivenNames x; )
    | with_reducible apply State.dropExtents_keeps
    | with_reducible apply State.mapExtents_keeps
    | with_reducible apply State.extentEvent_keeps
    | with_reducible apply State.msix_keeps
    | with_reducible apply State.emit_keeps
    | split

theorem State.reviewExtents_keeps {s0 s : State} (h : Keeps s0 s) : Keeps s0 (State.reviewExtents s) := by
  unfold State.reviewExtents
  repeat' first
    | with_reducible assumption
    | (extract_lets +onlyGivenNames x; )
    | with_reducible apply State.requestRelease_keeps
    | (with_reducible apply Keeps.foldl; intro _ _ _)
    | split
    | intro _
    | (conv => enter [2, 26]); with_reducible refine Keeps.but ?_ rfl

end Sys2Proof.Machine
end

