-- ==== Sys2Proof/Laws/KeepsVersions.lean ====
section
/-! SUPPORT. What the operations of Versions leave in force. -/

set_option linter.tactic.unusedName false

namespace Sys2Proof.Machine

theorem State.freeImages_keeps {s0 s : State} (x2) (h : Keeps s0 s) : Keeps s0 (State.freeImages s x2) := by
  unfold State.freeImages
  repeat' first
    | with_reducible assumption
    | with_reducible apply State.setCove_keeps

theorem State.freeAllImages_keeps {s0 s : State} (h : Keeps s0 s) : Keeps s0 (State.freeAllImages s) := by
  unfold State.freeAllImages
  repeat' first
    | with_reducible assumption
    | (extract_lets +onlyGivenNames x; )
    | with_reducible apply State.freeImages_keeps
    | (with_reducible apply Keeps.foldl; intro _ _ _)

theorem State.setSnap_keeps {s0 s : State} (x2 x3) (h : Keeps s0 s) : Keeps s0 (State.setSnap s x2 x3) := by
  unfold State.setSnap
  repeat' first
    | with_reducible assumption
    | (extract_lets +onlyGivenNames x; )
    | split
    | intro _
    | (conv => enter [2, 26]); with_reducible refine Keeps.but ?_ rfl

theorem State.releaseAlias_keeps {s0 s : State} (x2) (h : Keeps s0 s) : Keeps s0 (State.releaseAlias s x2) := by
  unfold State.releaseAlias
  repeat' first
    | with_reducible assumption
    | (extract_lets +onlyGivenNames x; )
    | with_reducible apply State.requestRelease_keeps
    | (with_reducible apply Keeps.foldl; intro _ _ _)

theorem State.breakSnap_tail {s0 s : State} (x : Snapshot) (h : Keeps s0 s) : Keeps s0 (match x.holder with
    | some k => (s.control Sxf.holdBroken x.guest (gpaOf k 0) (holdUnit x.tidemark 0 x.handle false false)).1
    | none => s) := by
  cases x.holder with
  | none => exact h
  | some k => exact State.control_keeps _ _ _ _ h

theorem State.breakSnap_keeps {s0 s : State} (a) (h : Keeps s0 s) : Keeps s0 (State.breakSnap s a) := by
  unfold State.breakSnap
  split
  · exact h
  · extract_lets s1 s2 s3
    have h1 : Keeps s0 s1 := State.releaseAlias_keeps _ (State.setSnap_keeps _ _ h)
    have h2 : Keeps s0 s2 := State.count_keeps _ _ _ _ h1
    exact State.breakSnap_tail _ (State.event_keeps _ _ h2)

theorem State.breakBinding_keeps {s0 s : State} (x2) (h : Keeps s0 s) : Keeps s0 (State.breakBinding s x2) := by
  unfold State.breakBinding
  repeat' first
    | with_reducible assumption
    | (extract_lets +onlyGivenNames x; )
    | with_reducible apply State.failDesc_keeps
    | with_reducible apply State.setDesc_keeps

theorem State.breakUntil_keeps {s0 s : State} (hs n) (h : Keeps s0 s) : Keeps s0 (State.breakUntil s hs n).1 := by
  induction hs generalizing s n with
  | nil => exact h
  | cons a hs ih =>
    unfold State.breakUntil
    split
    · exact h
    · extract_lets s1
      have h1 : Keeps s0 s1 := by
        unfold s1
        split
        · exact State.breakSnap_keeps _ h
        · exact State.breakBinding_keeps _ h
      exact ih _ (State.freeAllImages_keeps h1)

theorem State.publish_keeps {s0 s : State} (x2) (h : Keeps s0 s) : Keeps s0 (State.publish s x2).1 := by
  unfold State.publish
  repeat' first
    | with_reducible assumption
    | (extract_lets +onlyGivenNames x; )
    | with_reducible apply State.breakUntil_keeps
    | with_reducible apply State.freeImages_keeps
    | with_reducible apply State.setCove_keeps
    | split

theorem State.addSnap_keeps {s0 s : State} (x2) (h : Keeps s0 s) : Keeps s0 (State.addSnap s x2) := by
  unfold State.addSnap
  repeat' first
    | with_reducible assumption
    | (extract_lets +onlyGivenNames x; )
    | split
    | intro _
    | (conv => enter [2, 26]); with_reducible refine Keeps.but ?_ rfl

theorem State.replicateFor_keeps {s0 s : State} (x2 x3 x4 x5) (h : Keeps s0 s) : Keeps s0 (State.replicateFor s x2 x3 x4 x5) := by
  unfold State.replicateFor
  repeat' first
    | with_reducible assumption
    | (extract_lets +onlyGivenNames x; )
    | with_reducible apply State.replicate_keeps
    | with_reducible apply State.setDesc_keeps
    | split

theorem State.snapOpenAdmit_keeps {s0 s : State} (x2) (h : Keeps s0 s) : Keeps s0 (State.snapOpenAdmit s x2) := by
  unfold State.snapOpenAdmit
  repeat' first
    | with_reducible assumption
    | (extract_lets +onlyGivenNames x; )
    | with_reducible apply State.setDesc_keeps
    | split

theorem opSnapOpen_kept : DescOp.Kept opSnapOpen := by
  intro s0 s d h
  unfold opSnapOpen
  repeat' first
    | with_reducible assumption
    | with_reducible apply State.snapOpenAdmit_keeps

theorem State.snapOpened_keeps {s0 s : State} (x2 x3 x4) (h : Keeps s0 s) : Keeps s0 (State.snapOpened s x2 x3 x4) := by
  unfold State.snapOpened
  repeat' first
    | with_reducible assumption
    | (extract_lets +onlyGivenNames x; )
    | with_reducible apply State.replicateFor_keeps
    | with_reducible apply State.addSnap_keeps
    | with_reducible apply State.offerExtent_keeps
    | with_reducible apply State.stop_keeps
    | with_reducible apply State.ok_keeps
    | split
    | intro _
    | with_reducible refine Keeps.of_fst ?_ (by with_reducible assumption)
    | unfold x
    | dsimp only
    | dsimp +zetaDelta only

theorem execSnapOpen_ends {s0 s : State} (x1) (h : Keeps s0 s) : EndsIn Keeps s0 (execSnapOpen x1 s) := by
  unfold execSnapOpen
  repeat' first
    | with_reducible assumption
    | (extract_lets +onlyGivenNames x; )
    | with_reducible apply State.snapOpened_keeps
    | with_reducible apply State.stop_keeps
    | with_reducible apply State.work_keeps
    | with_reducible apply State.sendWork_keeps
    | with_reducible apply State.setDesc_keeps
    | with_reducible apply EndsIn.next
    | split
    | intro _
    | with_reducible refine Keeps.of_fst ?_ (by with_reducible assumption)

theorem State.holdOpened_keeps {s0 s : State} (x2 x3) (h : Keeps s0 s) : Keeps s0 (State.holdOpened s x2 x3) := by
  unfold State.holdOpened
  repeat' first
    | with_reducible assumption
    | (extract_lets +onlyGivenNames x; )
    | with_reducible apply State.addSnap_keeps
    | with_reducible apply State.ok_keeps
    | with_reducible apply State.finish_keeps
    | split

theorem opSnapClose_kept : DescOp.Kept opSnapClose := by
  intro s0 s d h
  unfold opSnapClose
  repeat' first
    | with_reducible assumption

theorem State.closeSnap_keeps {s0 s : State} (x2) (h : Keeps s0 s) : Keeps s0 (State.closeSnap s x2) := by
  unfold State.closeSnap
  repeat' first
    | with_reducible assumption
    | (extract_lets +onlyGivenNames x; )
    | with_reducible apply State.releaseAlias_keeps
    | with_reducible apply State.setSnap_keeps
    | with_reducible apply State.replicate_keeps
    | with_reducible apply State.control_keeps
    | split
    | intro _
    | (conv => enter [2, 26]); with_reducible refine Keeps.but ?_ rfl
    | with_reducible refine Keeps.of_fst ?_ (by with_reducible assumption)
    | unfold x
    | dsimp only
    | dsimp +zetaDelta only

theorem execSnapClose_ends {s0 s : State} (x1) (h : Keeps s0 s) : EndsIn Keeps s0 (execSnapClose x1 s) := by
  unfold execSnapClose
  repeat' first
    | with_reducible assumption
    | (extract_lets +onlyGivenNames x; )
    | with_reducible apply State.closeSnap_keeps
    | with_reducible apply State.stop_keeps
    | with_reducible apply State.work_keeps
    | with_reducible apply State.ok_keeps
    | with_reducible apply State.finish_keeps
    | with_reducible apply EndsIn.next
    | split
    | intro _

theorem State.publishAdmit_keeps {s0 s : State} (x2) (h : Keeps s0 s) : Keeps s0 (State.publishAdmit s x2) := by
  unfold State.publishAdmit
  repeat' first
    | with_reducible assumption
    | with_reducible apply State.setCove_keeps
    | split

theorem opPublish_kept : DescOp.Kept opPublish := by
  intro s0 s d h
  unfold opPublish
  repeat' first
    | with_reducible assumption
    | with_reducible apply State.publishAdmit_keeps

theorem State.publishNow_keeps {s0 s : State} (x2 x3) (h : Keeps s0 s) : Keeps s0 (State.publishNow s x2 x3) := by
  unfold State.publishNow
  repeat' first
    | with_reducible assumption
    | (extract_lets +onlyGivenNames x; )
    | with_reducible apply State.replicateFor_keeps
    | with_reducible apply State.publish_keeps
    | with_reducible apply State.ok_keeps
    | with_reducible apply State.setCove_keeps

theorem execPublish_ends {s0 s : State} (x1) (h : Keeps s0 s) : EndsIn Keeps s0 (execPublish x1 s) := by
  unfold execPublish
  repeat' first
    | with_reducible assumption
    | (extract_lets +onlyGivenNames x; )
    | with_reducible apply State.publishNow_keeps
    | with_reducible apply State.stop_keeps
    | with_reducible apply State.work_keeps
    | with_reducible apply EndsIn.next
    | split
    | intro _

theorem execPublishPoint_ends {s0 s : State} (x1) (h : Keeps s0 s) : EndsIn Keeps s0 (execPublishPoint x1 s) := by
  unfold execPublishPoint
  repeat' first
    | with_reducible assumption
    | (extract_lets +onlyGivenNames x; )
    | with_reducible apply State.publishNow_keeps
    | with_reducible apply State.stop_keeps
    | with_reducible apply EndsIn.next
    | split

theorem State.snapBind_keeps {s0 s : State} (x2 x3) (h : Keeps s0 s) : Keeps s0 (State.snapBind s x2 x3) := by
  unfold State.snapBind
  repeat' first
    | with_reducible assumption
    | with_reducible apply State.setDesc_keeps
    | split

theorem State.remoteHold_keeps {s0 s : State} (x2) (h : Keeps s0 s) : Keeps s0 (State.remoteHold s x2) := by
  unfold State.remoteHold
  repeat' first
    | with_reducible assumption
    | (extract_lets +onlyGivenNames x; )
    | with_reducible apply State.addSnap_keeps
    | with_reducible apply State.replicate_keeps
    | with_reducible apply State.refuse_keeps
    | with_reducible apply State.reply_keeps
    | split
    | intro _
    | (conv => enter [2, 26]); with_reducible refine Keeps.but ?_ rfl
    | with_reducible refine Keeps.of_fst ?_ (by with_reducible assumption)
    | unfold x

theorem execRemoteHold_ends {s0 s : State} (x1) (h : Keeps s0 s) : EndsIn Keeps s0 (execRemoteHold x1 s) := by
  unfold execRemoteHold
  repeat' first
    | with_reducible assumption
    | (extract_lets +onlyGivenNames x; )
    | with_reducible apply State.remoteHold_keeps
    | with_reducible apply State.forSelf_keeps
    | with_reducible apply EndsIn.next
    | split
    | intro _

theorem execHoldBroken_ends {s0 s : State} (x1) (h : Keeps s0 s) : EndsIn Keeps s0 (execHoldBroken x1 s) := by
  unfold execHoldBroken
  repeat' first
    | with_reducible assumption
    | (extract_lets +onlyGivenNames x; )
    | with_reducible apply State.failDesc_keeps
    | with_reducible apply State.forSelf_keeps
    | with_reducible apply State.reply_keeps
    | with_reducible apply EndsIn.next
    | (with_reducible apply Keeps.foldl; intro _ _ _)
    | split
    | intro _
    | (conv => enter [2, 26]); with_reducible refine Keeps.but ?_ rfl
    | with_reducible refine Keeps.of_fst ?_ (by with_reducible assumption)
    | unfold x
    | dsimp only
    | dsimp +zetaDelta only

theorem execImageFree_ends {s0 s : State} (x1 x2 x3) (h : Keeps s0 s) : EndsIn Keeps s0 (execImageFree x1 x2 x3 s) := by
  unfold execImageFree
  repeat' first
    | with_reducible assumption
    | (extract_lets +onlyGivenNames x; )
    | with_reducible apply State.setCove_keeps
    | with_reducible apply EndsIn.next

end Sys2Proof.Machine
end

