-- ==== Sys2Proof/Laws/KeepsPorter.lean ====
section
/-! SUPPORT. What the operations of Porter leave in force. -/

set_option linter.tactic.unusedName false

namespace Sys2Proof.Machine

theorem State.setChannel_keeps {s0 s : State} (x2 x3) (h : Keeps s0 s) : Keeps s0 (State.setChannel s x2 x3) := by
  unfold State.setChannel
  repeat' first
    | with_reducible assumption
    | (extract_lets +onlyGivenNames x; )
    | split
    | intro _
    | (conv => enter [2, 26]); with_reducible refine Keeps.but ?_ rfl

theorem State.takeChannels_keeps {s0 s : State} (x2 x3) (h : Keeps s0 s) : Keeps s0 (State.takeChannels s x2 x3) := by
  unfold State.takeChannels
  repeat' first
    | with_reducible assumption
    | (extract_lets +onlyGivenNames x; )
    | with_reducible apply State.setChannel_keeps
    | (with_reducible apply Keeps.foldl; intro _ _ _)
    | split

theorem State.dropAccess_keeps {s0 s : State} (x2 x3) (h : Keeps s0 s) : Keeps s0 (State.dropAccess s x2 x3) := by
  unfold State.dropAccess
  repeat' first
    | with_reducible assumption
    | with_reducible apply State.setDesc_keeps

theorem State.haltChannel_keeps {s0 s : State} (ch id cause r) (h : Keeps s0 s) : Keeps s0 (State.haltChannel s ch id cause r) := by
  unfold State.haltChannel
  split
  · exact h
  · extract_lets info halts s1 s2 s3 start s4 cap b s5
    have h1 : Keeps s0 s1 := State.setDesc_keeps _ _ (State.failDesc_keeps _ _ _ _ h)
    have h2 : Keeps s0 s2 := by
      with_reducible apply Keeps.foldl
      · intro _ _ _
        with_reducible apply State.dropAccess_keeps
        assumption
      · exact State.dropAccess_keeps _ _ h1
    have h3 : Keeps s0 s3 := State.count_keeps _ _ _ _ (State.setChannel_keeps _ _ h2)
    have h4 : Keeps s0 s4 := State.report_keeps _ h3
    have h5 : Keeps s0 s5 := Keeps.but h4 rfl
    exact Keeps.ite (State.setChannel_keeps _ _ h5) h3

theorem State.busError_keeps {s0 s : State} (x2 x3 x4) (h : Keeps s0 s) : Keeps s0 (State.busError s x2 x3 x4) := by
  unfold State.busError
  repeat' first
    | with_reducible assumption
    | (extract_lets +onlyGivenNames x; )
    | with_reducible apply State.haltChannel_keeps
    | with_reducible apply State.dropAccess_keeps
    | with_reducible apply State.setChannel_keeps
    | split

theorem State.cured_keeps {s0 s : State} (x2 x3) (h : Keeps s0 s) : Keeps s0 (State.cured s x2 x3) := by
  unfold State.cured
  repeat' first
    | with_reducible assumption
    | (extract_lets +onlyGivenNames x; )
    | with_reducible apply State.setChannel_keeps
    | with_reducible apply State.count_keeps
    | split

theorem State.retryAccess_keeps {s0 s : State} (x2 x3 x4) (h : Keeps s0 s) : Keeps s0 (State.retryAccess s x2 x3 x4) := by
  unfold State.retryAccess
  repeat' first
    | with_reducible assumption
    | (extract_lets +onlyGivenNames x; )
    | with_reducible apply State.haltChannel_keeps
    | with_reducible apply State.dropAccess_keeps
    | with_reducible apply State.setChannel_keeps
    | with_reducible apply State.sendWork_keeps
    | with_reducible apply State.setDesc_keeps
    | split
    | intro _
    | with_reducible refine Keeps.of_fst ?_ (by with_reducible assumption)

theorem execPorterRetry_ends {s0 s : State} (x1) (h : Keeps s0 s) : EndsIn Keeps s0 (execPorterRetry x1 s) := by
  unfold execPorterRetry
  repeat' first
    | with_reducible assumption
    | (extract_lets +onlyGivenNames x; )
    | with_reducible apply State.retryAccess_keeps
    | with_reducible apply EndsIn.next
    | (with_reducible apply Keeps.foldl; intro _ _ _)
    | split

theorem execPorterBusTimeout_ends {s0 s : State} (x1) (h : Keeps s0 s) : EndsIn Keeps s0 (execPorterBusTimeout x1 s) := by
  unfold execPorterBusTimeout
  repeat' first
    | with_reducible assumption
    | (extract_lets +onlyGivenNames x; )
    | with_reducible apply State.busError_keeps
    | with_reducible apply State.dropTransaction_keeps
    | with_reducible apply EndsIn.next
    | split

theorem execPorterChannelRetire_ends {s0 s : State} (x1) (h : Keeps s0 s) : EndsIn Keeps s0 (execPorterChannelRetire x1 s) := by
  unfold execPorterChannelRetire
  repeat' first
    | with_reducible assumption
    | (extract_lets +onlyGivenNames x; )
    | with_reducible apply State.setChannel_keeps
    | with_reducible apply State.report_keeps
    | with_reducible apply EndsIn.next
    | split
    | intro _
    | (conv => enter [2, 26]); with_reducible refine Keeps.but ?_ rfl

theorem State.scratchWrite_keeps {s0 s : State} (x2 x3 x4 x5) (h : Keeps s0 s) : Keeps s0 (State.scratchWrite s x2 x3 x4 x5) := by
  unfold State.scratchWrite
  repeat' first
    | with_reducible assumption
    | (extract_lets +onlyGivenNames x; )
    | (with_reducible apply Keeps.foldl; intro _ _ _)
    | split
    | intro _
    | (conv => enter [2, 26]); with_reducible refine Keeps.but ?_ rfl

theorem State.claimScratch_keeps {s0 s : State} (x2 x3 x4 x5) (h : Keeps s0 s) : Keeps s0 (State.claimScratch s x2 x3 x4 x5) := by
  unfold State.claimScratch
  repeat' first
    | with_reducible assumption
    | (extract_lets +onlyGivenNames x; )
    | split
    | intro _
    | (conv => enter [2, 26]); with_reducible refine Keeps.but ?_ rfl

theorem State.freeScratch_keeps {s0 s : State} (x2 x3 x4) (h : Keeps s0 s) : Keeps s0 (State.freeScratch s x2 x3 x4) := by
  unfold State.freeScratch
  repeat' first
    | with_reducible assumption
    | (extract_lets +onlyGivenNames x; )
    | split
    | intro _
    | (conv => enter [2, 26]); with_reducible refine Keeps.but ?_ rfl

theorem State.sideWrite_keeps {s0 s : State} (x2 x3 x4 x5 x6) (h : Keeps s0 s) : Keeps s0 (State.sideWrite s x2 x3 x4 x5 x6) := by
  unfold State.sideWrite
  repeat' first
    | with_reducible assumption
    | (extract_lets +onlyGivenNames x; )
    | with_reducible apply State.scratchWrite_keeps
    | with_reducible apply State.writeRange_keeps
    | split

theorem State.noteSource_keeps {s0 s : State} (x2 x3) (h : Keeps s0 s) : Keeps s0 (State.noteSource s x2 x3) := by
  unfold State.noteSource
  repeat' first
    | with_reducible assumption
    | (extract_lets +onlyGivenNames x; )
    | (with_reducible apply Keeps.foldl; intro _ _ _)
    | split
    | intro _
    | (conv => enter [2, 26]); with_reducible refine Keeps.but ?_ rfl

theorem State.moveChunk_keeps {s0 s : State} (x2 x3 x4 x5) (h : Keeps s0 s) : Keeps s0 (State.moveChunk s x2 x3 x4 x5).1 := by
  unfold State.moveChunk
  repeat' first
    | with_reducible assumption
    | (extract_lets +onlyGivenNames x; )
    | with_reducible apply State.sideWrite_keeps
    | with_reducible apply State.touchPieces_keeps
    | with_reducible apply State.readyWrite_keeps
    | with_reducible apply State.readyRead_keeps
    | with_reducible apply State.setDesc_keeps
    | with_reducible apply State.count_keeps
    | split
    | intro _
    | with_reducible refine Keeps.of_fst ?_ (by with_reducible assumption)

theorem State.porterStop_keeps {s0 s : State} (x2 x3 x4) (h : Keeps s0 s) : Keeps s0 (State.porterStop s x2 x3 x4) := by
  unfold State.porterStop
  repeat' first
    | with_reducible assumption
    | (extract_lets +onlyGivenNames x; )
    | with_reducible apply State.finish_keeps
    | split

theorem State.porterDone_keeps {s0 s : State} (x2) (h : Keeps s0 s) : Keeps s0 (State.porterDone s x2) := by
  unfold State.porterDone
  repeat' first
    | with_reducible assumption
    | (extract_lets +onlyGivenNames x; )
    | with_reducible apply State.noteSource_keeps
    | with_reducible apply State.freeScratch_keeps
    | with_reducible apply State.ok_keeps
    | split
    | intro _
    | with_reducible refine Keeps.of_fst ?_ (by with_reducible assumption)
    | unfold x

theorem State.porterStep_keeps {s0 s : State} (x2) (h : Keeps s0 s) : Keeps s0 (State.porterStep s x2) := by
  unfold State.porterStep
  repeat' first
    | with_reducible assumption
    | (extract_lets +onlyGivenNames x; )
    | with_reducible apply State.porterDone_keeps
    | with_reducible apply State.moveChunk_keeps
    | with_reducible apply State.takeChannels_keeps
    | with_reducible apply State.setDesc_keeps
    | split
    | intro _
    | with_reducible refine Keeps.of_fst ?_ (by with_reducible assumption)

theorem opCopy_kept : DescOp.Kept opCopy := by
  intro s0 s d h
  unfold opCopy
  repeat' first
    | with_reducible assumption
    | with_reducible apply State.snapBind_keeps

theorem execCopy_ends {s0 s : State} (x1) (h : Keeps s0 s) : EndsIn Keeps s0 (execCopy x1 s) := by
  unfold execCopy
  repeat' first
    | with_reducible assumption
    | (extract_lets +onlyGivenNames x; )
    | with_reducible apply State.porterStep_keeps
    | with_reducible apply State.porterStop_keeps
    | with_reducible apply State.work_keeps
    | with_reducible apply EndsIn.next
    | split
    | intro _

theorem opFill_kept : DescOp.Kept opFill := by
  intro s0 s d h
  unfold opFill
  repeat' first
    | with_reducible assumption

theorem execFill_ends {s0 s : State} (x1) (h : Keeps s0 s) : EndsIn Keeps s0 (execFill x1 s) := by
  unfold execFill
  repeat' first
    | with_reducible assumption
    | (extract_lets +onlyGivenNames x; )
    | with_reducible apply State.porterStep_keeps
    | with_reducible apply State.porterStop_keeps
    | with_reducible apply State.work_keeps
    | with_reducible apply EndsIn.next
    | split
    | intro _

theorem opStageIn_kept : DescOp.Kept opStageIn := by
  intro s0 s d h
  unfold opStageIn
  repeat' first
    | with_reducible assumption
    | (extract_lets +onlyGivenNames x; )
    | with_reducible apply State.claimScratch_keeps
    | with_reducible apply State.snapBind_keeps

theorem execStageIn_ends {s0 s : State} (x1) (h : Keeps s0 s) : EndsIn Keeps s0 (execStageIn x1 s) := by
  unfold execStageIn
  repeat' first
    | with_reducible assumption
    | (extract_lets +onlyGivenNames x; )
    | with_reducible apply State.porterStep_keeps
    | with_reducible apply State.porterStop_keeps
    | with_reducible apply State.work_keeps
    | with_reducible apply EndsIn.next
    | split
    | intro _

theorem opStageOut_kept : DescOp.Kept opStageOut := by
  intro s0 s d h
  unfold opStageOut
  repeat' first
    | with_reducible assumption

theorem execStageOut_ends {s0 s : State} (x1) (h : Keeps s0 s) : EndsIn Keeps s0 (execStageOut x1 s) := by
  unfold execStageOut
  repeat' first
    | with_reducible assumption
    | (extract_lets +onlyGivenNames x; )
    | with_reducible apply State.porterStep_keeps
    | with_reducible apply State.porterStop_keeps
    | with_reducible apply State.work_keeps
    | with_reducible apply EndsIn.next
    | split
    | intro _

theorem opPacedCopy_kept : DescOp.Kept opPacedCopy := by
  intro s0 s d h
  unfold opPacedCopy
  repeat' first
    | with_reducible assumption
    | with_reducible apply State.snapBind_keeps

theorem State.setPace_keeps {s0 s : State} (x2 x3 x4) (h : Keeps s0 s) : Keeps s0 (State.setPace s x2 x3 x4) := by
  unfold State.setPace
  repeat' first
    | with_reducible assumption
    | with_reducible apply State.setDesc_keeps

theorem State.addToLevel_keeps {s0 s : State} (x2 x3) (h : Keeps s0 s) : Keeps s0 (State.addToLevel s x2 x3) := by
  unfold State.addToLevel
  repeat' first
    | with_reducible assumption
    | (extract_lets +onlyGivenNames x; )
    | with_reducible apply State.sendWork_keeps
    | with_reducible apply State.failDesc_keeps
    | with_reducible apply State.applyWrite_keeps
    | with_reducible apply State.setDesc_keeps
    | split
    | intro _
    | with_reducible refine Keeps.of_fst ?_ (by with_reducible assumption)

theorem State.paceStep_keeps {s0 s : State} (f id) (h : Keeps s0 s) : Keeps s0 (State.paceStep f id s) := by
  induction f generalizing s with
  | zero => exact h
  | succ f ih =>
    unfold State.paceStep
    repeat' first
      | with_reducible assumption
      | (extract_lets +onlyGivenNames x; )
      | with_reducible apply ih
      | with_reducible apply State.finish_keeps
      | with_reducible apply State.setPace_keeps
      | with_reducible apply State.setDesc_keeps
      | with_reducible apply State.addToLevel_keeps
      | with_reducible apply State.readyRead_keeps
      | with_reducible apply State.moveChunk_keeps
      | split
      | with_reducible refine Keeps.of_fst ?_ (by with_reducible assumption)
      | unfold x

theorem execPacedCopy_ends {s0 s : State} (x1) (h : Keeps s0 s) : EndsIn Keeps s0 (execPacedCopy x1 s) := by
  unfold execPacedCopy
  repeat' first
    | with_reducible assumption
    | (extract_lets +onlyGivenNames x; )
    | with_reducible apply State.paceStep_keeps
    | with_reducible apply State.porterStop_keeps
    | with_reducible apply State.takeChannels_keeps
    | with_reducible apply State.work_keeps
    | with_reducible apply EndsIn.next
    | split
    | intro _

theorem execPacedCopyPoll_ends {s0 s : State} (x1) (h : Keeps s0 s) : EndsIn Keeps s0 (execPacedCopyPoll x1 s) := by
  unfold execPacedCopyPoll
  repeat' first
    | with_reducible assumption
    | (extract_lets +onlyGivenNames x; )
    | with_reducible apply State.paceStep_keeps
    | with_reducible apply State.porterStop_keeps
    | with_reducible apply State.work_keeps
    | with_reducible apply State.setDesc_keeps
    | with_reducible apply EndsIn.next
    | split
    | intro _

theorem State.advised_keeps {s0 s : State} (x2 x3) (h : Keeps s0 s) : Keeps s0 (State.advised s x2 x3) := by
  unfold State.advised
  repeat' first
    | with_reducible assumption
    | (extract_lets +onlyGivenNames x; )
    | with_reducible apply State.setCove_keeps
    | (with_reducible apply Keeps.foldl; intro _ _ _)

theorem opAdvise_kept : DescOp.Kept opAdvise := by
  intro s0 s d h
  unfold opAdvise
  repeat' first
    | with_reducible assumption

theorem execAdvise_ends {s0 s : State} (x1) (h : Keeps s0 s) : EndsIn Keeps s0 (execAdvise x1 s) := by
  unfold execAdvise
  repeat' first
    | with_reducible assumption
    | (extract_lets +onlyGivenNames x; )
    | with_reducible apply State.advised_keeps
    | with_reducible apply State.stop_keeps
    | with_reducible apply State.work_keeps
    | with_reducible apply State.ok_keeps
    | with_reducible apply State.queueMoves_keeps
    | with_reducible apply EndsIn.next
    | (with_reducible apply Keeps.foldl; intro _ _ _)
    | split
    | intro _
    | with_reducible refine Keeps.of_fst ?_ (by with_reducible assumption)
    | unfold x

theorem opPrefetch_kept : DescOp.Kept opPrefetch := by
  intro s0 s d h
  unfold opPrefetch
  repeat' first
    | with_reducible assumption

theorem execPrefetch_ends {s0 s : State} (x1) (h : Keeps s0 s) : EndsIn Keeps s0 (execPrefetch x1 s) := by
  unfold execPrefetch
  repeat' first
    | with_reducible assumption
    | (extract_lets +onlyGivenNames x; )
    | with_reducible apply State.stop_keeps
    | with_reducible apply State.work_keeps
    | with_reducible apply State.ok_keeps
    | with_reducible apply State.beginPull_keeps
    | with_reducible apply State.joinMiss_keeps
    | with_reducible apply State.setDesc_keeps
    | with_reducible apply EndsIn.next
    | (with_reducible apply Keeps.foldl; intro _ _ _)
    | split
    | intro _
    | (conv => enter [2, 26]); with_reducible refine Keeps.but ?_ rfl

end Sys2Proof.Machine
end

