-- ==== Sys2Proof/Laws/KeepsConvert.lean ====
section
/-! SUPPORT. What the operations of Convert leave in force. -/

set_option linter.tactic.unusedName false

namespace Sys2Proof.Machine

theorem opConvert_kept : DescOp.Kept opConvert := by
  intro s0 s d h
  unfold opConvert
  repeat' first
    | with_reducible assumption

theorem State.convertStop_keeps {s0 s : State} (x2 x3 x4) (h : Keeps s0 s) : Keeps s0 (State.convertStop s x2 x3 x4) := by
  unfold State.convertStop
  repeat' first
    | with_reducible assumption
    | (extract_lets +onlyGivenNames x; )
    | with_reducible apply State.finish_keeps
    | split

theorem State.convertChunk_keeps {s0 s : State} (x2 x3 x4 x5 x6) (h : Keeps s0 s) : Keeps s0 (State.convertChunk s x2 x3 x4 x5 x6) := by
  unfold State.convertChunk
  repeat' first
    | with_reducible assumption
    | (extract_lets +onlyGivenNames x; )
    | with_reducible apply State.writeRange_keeps
    | with_reducible apply State.touchPieces_keeps
    | with_reducible apply State.setDesc_keeps
    | split

theorem State.convertStep_keeps {s0 s : State} (x2) (h : Keeps s0 s) : Keeps s0 (State.convertStep s x2) := by
  unfold State.convertStep
  repeat' first
    | with_reducible assumption
    | (extract_lets +onlyGivenNames x; )
    | with_reducible apply State.convertChunk_keeps
    | with_reducible apply State.convertStop_keeps
    | with_reducible apply State.readyWrite_keeps
    | with_reducible apply State.readyRead_keeps
    | split
    | intro _
    | with_reducible refine Keeps.of_fst ?_ (by with_reducible assumption)

theorem execConvert_ends {s0 s : State} (x1) (h : Keeps s0 s) : EndsIn Keeps s0 (execConvert x1 s) := by
  unfold execConvert
  repeat' first
    | with_reducible assumption
    | (extract_lets +onlyGivenNames x; )
    | with_reducible apply State.convertStep_keeps
    | with_reducible apply State.convertStop_keeps
    | with_reducible apply State.work_keeps
    | with_reducible apply EndsIn.next
    | split
    | intro _

end Sys2Proof.Machine
end

