-- ==== Sys2Proof/Laws/KeepsReduce.lean ====
section
/-! SUPPORT. What the operations of Reduce leave in force. -/

set_option linter.tactic.unusedName false

namespace Sys2Proof.Machine

theorem State.signalReady_keeps {s0 s : State} (x2 x3) (h : Keeps s0 s) : Keeps s0 (State.signalReady s x2 x3) := by
  unfold State.signalReady
  repeat' first
    | with_reducible assumption
    | with_reducible apply State.signalRun_keeps
    | with_reducible apply State.control_keeps
    | split

theorem State.joinPrefix_keeps {s0 s : State} (f id) (h : Keeps s0 s) : Keeps s0 (State.joinPrefix f id s) := by
  induction f generalizing s with
  | zero => exact h
  | succ f ih =>
    unfold State.joinPrefix
    split
    · exact h
    split
    · exact h
    extract_lets
    split
    · exact h
    with_reducible apply ih
    with_reducible apply State.signalReady_keeps
    with_reducible apply State.setGroup_keeps
    exact h

theorem State.groupChanged_keeps {s0 s : State} (x2) (h : Keeps s0 s) : Keeps s0 (State.groupChanged s x2) := by
  unfold State.groupChanged
  repeat' first
    | with_reducible assumption
    | with_reducible apply State.joinPrefix_keeps
    | split

theorem State.writeKeep_keeps {s0 s : State} (x2 x3) (h : Keeps s0 s) : Keeps s0 (State.writeKeep s x2 x3) := by
  unfold State.writeKeep
  repeat' first
    | with_reducible assumption
    | (extract_lets +onlyGivenNames x; )
    | with_reducible apply State.drewN_keeps
    | with_reducible apply State.writeAt_keeps
    | (with_reducible apply Keeps.foldl_fst; intro _ _ _)
    | split

theorem State.addRecord_keeps {s0 s : State} (x2 x3 x4) (h : Keeps s0 s) : Keeps s0 (State.addRecord s x2 x3 x4).1 := by
  unfold State.addRecord
  repeat' first
    | with_reducible assumption
    | (extract_lets +onlyGivenNames x; )
    | with_reducible apply State.writeKeep_keeps
    | with_reducible apply State.groupChanged_keeps
    | with_reducible apply State.setGroup_keeps
    | split

theorem State.releaseInst_keeps {s0 s : State} (x2 x3 x4) (h : Keeps s0 s) : Keeps s0 (State.releaseInst s x2 x3 x4) := by
  unfold State.releaseInst
  repeat' first
    | with_reducible assumption
    | (extract_lets +onlyGivenNames x; )
    | with_reducible apply State.groupChanged_keeps
    | with_reducible apply State.setGroup_keeps

theorem execInstanceExpiry_ends {s0 s : State} (x1 x2 x3) (h : Keeps s0 s) : EndsIn Keeps s0 (execInstanceExpiry x1 x2 x3 s) := by
  unfold execInstanceExpiry
  repeat' first
    | with_reducible assumption
    | (extract_lets +onlyGivenNames x; )
    | with_reducible apply State.groupChanged_keeps
    | with_reducible apply State.setGroup_keeps
    | with_reducible apply EndsIn.next
    | split

theorem State.closeGroup_keeps {s0 s : State} (x2 x3 x4 x5) (h : Keeps s0 s) : Keeps s0 (State.closeGroup s x2 x3 x4 x5) := by
  unfold State.closeGroup
  repeat' first
    | with_reducible assumption
    | (extract_lets +onlyGivenNames x; )
    | with_reducible apply State.failDesc_keeps
    | (with_reducible apply Keeps.foldl; intro _ _ _)
    | split
    | intro _
    | (conv => enter [2, 26]); with_reducible refine Keeps.but ?_ rfl

theorem State.openAdmit_keeps {s0 s : State} (x2) (h : Keeps s0 s) : Keeps s0 (State.openAdmit s x2) := by
  unfold State.openAdmit
  repeat' first
    | with_reducible assumption
    | (extract_lets +onlyGivenNames x; )
    | split
    | intro _
    | (conv => enter [2, 26]); with_reducible refine Keeps.but ?_ rfl

theorem opReduceContrib_kept : DescOp.Kept opReduceContrib := by
  intro s0 s d h
  unfold opReduceContrib
  repeat' first
    | with_reducible assumption
    | with_reducible apply State.openAdmit_keeps
    | split
    | intro _
    | with_reducible refine Keeps.of_fst ?_ (by with_reducible assumption)
    | unfold x
    | dsimp only

theorem execReduceOpen_ends {s0 s : State} (x1) (h : Keeps s0 s) : EndsIn Keeps s0 (execReduceOpen x1 s) := by
  unfold execReduceOpen
  repeat' first
    | with_reducible assumption
    | (extract_lets +onlyGivenNames x; )
    | with_reducible apply State.stop_keeps
    | with_reducible apply State.workMode_keeps
    | with_reducible apply State.ok_keeps
    | with_reducible apply State.finish_keeps
    | with_reducible apply State.setGroup_keeps
    | with_reducible apply EndsIn.next
    | split
    | intro _

theorem execReduceClose_ends {s0 s : State} (x1) (h : Keeps s0 s) : EndsIn Keeps s0 (execReduceClose x1 s) := by
  unfold execReduceClose
  repeat' first
    | with_reducible assumption
    | (extract_lets +onlyGivenNames x; )
    | with_reducible apply State.closeGroup_keeps
    | with_reducible apply State.stop_keeps
    | with_reducible apply State.workMode_keeps
    | with_reducible apply State.ok_keeps
    | with_reducible apply EndsIn.next
    | split
    | intro _

theorem State.contributeEnd_keeps {s0 s : State} (x2 x3) (h : Keeps s0 s) : Keeps s0 (State.contributeEnd s x2 x3) := by
  unfold State.contributeEnd
  repeat' first
    | with_reducible assumption
    | (extract_lets +onlyGivenNames x; )
    | with_reducible apply State.ok_keeps
    | with_reducible apply State.finish_keeps
    | split

theorem State.contributeStop_keeps {s0 s : State} (x2 x3 x4) (h : Keeps s0 s) : Keeps s0 (State.contributeStop s x2 x3 x4) := by
  unfold State.contributeStop
  repeat' first
    | with_reducible assumption
    | (extract_lets +onlyGivenNames x; )
    | with_reducible apply State.finish_keeps
    | split

theorem State.contributePiece_keeps {s0 s : State} (x2 x3 x4) (h : Keeps s0 s) : Keeps s0 (State.contributePiece s x2 x3 x4) := by
  unfold State.contributePiece
  repeat' first
    | with_reducible assumption
    | (extract_lets +onlyGivenNames x; )
    | with_reducible apply State.addRecord_keeps
    | with_reducible apply State.touchPieces_keeps
    | with_reducible apply State.readyRead_keeps
    | with_reducible apply State.flushDeltas_keeps
    | with_reducible apply State.setDesc_keeps
    | split
    | intro _
    | (conv => enter [2, 26]); with_reducible refine Keeps.but ?_ rfl
    | with_reducible refine Keeps.of_fst ?_ (by with_reducible assumption)

theorem execReduceContribute_ends {s0 s : State} (x1) (h : Keeps s0 s) : EndsIn Keeps s0 (execReduceContribute x1 s) := by
  unfold execReduceContribute
  repeat' first
    | with_reducible assumption
    | (extract_lets +onlyGivenNames x; )
    | with_reducible apply State.contributePiece_keeps
    | with_reducible apply State.contributeStop_keeps
    | with_reducible apply State.contributeEnd_keeps
    | with_reducible apply State.workMode_keeps
    | with_reducible apply EndsIn.next
    | split
    | intro _
    | with_reducible refine Keeps.of_fst ?_ (by with_reducible assumption)
    | unfold x

theorem consumerOp_kept (a b c) : DescOp.Kept (consumerOp a b c) := fun _ h => h

theorem opReduceRead_kept : DescOp.Kept opReduceRead := consumerOp_kept _ _ _

theorem opUpdateSgdm_kept : DescOp.Kept opUpdateSgdm := consumerOp_kept _ _ _

theorem opUpdateAdamw_kept : DescOp.Kept opUpdateAdamw := consumerOp_kept _ _ _

theorem State.consumerEnd_keeps {s0 s : State} (x2 x3) (h : Keeps s0 s) : Keeps s0 (State.consumerEnd s x2 x3) := by
  unfold State.consumerEnd
  repeat' first
    | with_reducible assumption
    | (extract_lets +onlyGivenNames x; )
    | with_reducible apply State.ok_keeps
    | with_reducible apply State.finish_keeps
    | split

theorem State.consumerStop_keeps {s0 s : State} (x2 x3 x4) (h : Keeps s0 s) : Keeps s0 (State.consumerStop s x2 x3 x4) := by
  unfold State.consumerStop
  repeat' first
    | with_reducible assumption
    | (extract_lets +onlyGivenNames x; )
    | with_reducible apply State.finish_keeps
    | split

theorem State.writeOut_keeps {s0 s : State} (x2 x3 x4 x5 x6 x7) (h : Keeps s0 s) : Keeps s0 (State.writeOut s x2 x3 x4 x5 x6 x7).1 := by
  unfold State.writeOut
  repeat' first
    | with_reducible assumption
    | (extract_lets +onlyGivenNames x; )
    | with_reducible apply State.writeRange_keeps
    | with_reducible apply State.drew_keeps
    | (with_reducible apply Keeps.foldl; intro _ _ _)
    | split

theorem State.consumeInst_keeps {s0 s : State} (x2 x3 x4 x5 x6) (h : Keeps s0 s) : Keeps s0 (State.consumeInst s x2 x3 x4 x5 x6) := by
  unfold State.consumeInst
  repeat' first
    | with_reducible assumption
    | (extract_lets +onlyGivenNames x; )
    | with_reducible apply State.writeOut_keeps
    | with_reducible apply State.writeRange_keeps
    | with_reducible apply State.touchPieces_keeps
    | with_reducible apply State.setDesc_keeps
    | split
    | intro _
    | with_reducible refine Keeps.of_fst ?_ (by with_reducible assumption)
    | unfold x
    | dsimp only
    | dsimp +zetaDelta only

theorem State.passInst_keeps {s0 s : State} (x2 x3 x4 x5) (h : Keeps s0 s) : Keeps s0 (State.passInst s x2 x3 x4 x5) := by
  unfold State.passInst
  repeat' first
    | with_reducible assumption
    | (extract_lets +onlyGivenNames x; )
    | with_reducible apply State.releaseInst_keeps
    | with_reducible apply State.setDesc_keeps
    | split
    | intro _
    | with_reducible refine Keeps.of_fst ?_ (by with_reducible assumption)
    | unfold x

theorem State.consumerInst_keeps {s0 s : State} (x2 x3) (h : Keeps s0 s) : Keeps s0 (State.consumerInst s x2 x3) := by
  unfold State.consumerInst
  repeat' first
    | with_reducible assumption
    | (extract_lets +onlyGivenNames x; )
    | with_reducible apply State.passInst_keeps
    | with_reducible apply State.consumeInst_keeps
    | with_reducible apply State.readyWrite_keeps
    | with_reducible apply State.readyRead_keeps
    | with_reducible apply State.setDesc_keeps
    | split
    | intro _
    | with_reducible refine Keeps.of_fst ?_ (by with_reducible assumption)
    | unfold x
    | dsimp only

theorem State.consumerStep_keeps {s0 s : State} (x2) (h : Keeps s0 s) : Keeps s0 (State.consumerStep s x2) := by
  unfold State.consumerStep
  repeat' first
    | with_reducible assumption
    | (extract_lets +onlyGivenNames x; )
    | with_reducible apply State.consumerInst_keeps
    | with_reducible apply State.consumerStop_keeps
    | with_reducible apply State.consumerEnd_keeps
    | split
    | intro _
    | with_reducible refine Keeps.of_fst ?_ (by with_reducible assumption)
    | unfold x

theorem execReduceRead_ends {s0 s : State} (x1) (h : Keeps s0 s) : EndsIn Keeps s0 (execReduceRead x1 s) := by
  unfold execReduceRead
  repeat' first
    | with_reducible assumption
    | (extract_lets +onlyGivenNames x; )
    | with_reducible apply State.consumerStep_keeps
    | with_reducible apply State.consumerStop_keeps
    | with_reducible apply State.work_keeps
    | with_reducible apply EndsIn.next
    | split
    | intro _

theorem execUpdateSgdm_ends {s0 s : State} (x1) (h : Keeps s0 s) : EndsIn Keeps s0 (execUpdateSgdm x1 s) := by
  unfold execUpdateSgdm
  repeat' first
    | with_reducible assumption
    | (extract_lets +onlyGivenNames x; )
    | with_reducible apply State.consumerStep_keeps
    | with_reducible apply State.consumerStop_keeps
    | with_reducible apply State.work_keeps
    | with_reducible apply EndsIn.next
    | split
    | intro _

theorem execUpdateAdamw_ends {s0 s : State} (x1) (h : Keeps s0 s) : EndsIn Keeps s0 (execUpdateAdamw x1 s) := by
  unfold execUpdateAdamw
  repeat' first
    | with_reducible assumption
    | (extract_lets +onlyGivenNames x; )
    | with_reducible apply State.consumerStep_keeps
    | with_reducible apply State.consumerStop_keeps
    | with_reducible apply State.work_keeps
    | with_reducible apply EndsIn.next
    | split
    | intro _

theorem State.redHome_keeps {s0 s : State} (x2) (h : Keeps s0 s) : Keeps s0 (State.redHome s x2) := by
  unfold State.redHome
  repeat' first
    | with_reducible assumption
    | (extract_lets +onlyGivenNames x; )
    | with_reducible apply State.addRecord_keeps
    | with_reducible apply State.replyAfter_keeps
    | with_reducible apply State.flushDeltas_keeps
    | with_reducible apply State.reply_keeps
    | split
    | intro _
    | (conv => enter [2, 26]); with_reducible refine Keeps.but ?_ rfl
    | with_reducible refine Keeps.of_fst ?_ (by with_reducible assumption)
    | unfold x

theorem execRed_ends {s0 s : State} (x1) (h : Keeps s0 s) : EndsIn Keeps s0 (execRed x1 s) := by
  unfold execRed
  repeat' first
    | with_reducible assumption
    | (extract_lets +onlyGivenNames x; )
    | with_reducible apply State.redHome_keeps
    | with_reducible apply State.forwardRequest_keeps
    | with_reducible apply State.refuse_keeps
    | with_reducible apply State.forward_keeps
    | with_reducible apply State.setBundle_keeps
    | with_reducible apply EndsIn.next
    | split
    | intro _
    | with_reducible refine Keeps.of_fst ?_ (by with_reducible assumption)

theorem State.rebuildArray_keeps {s0 s : State} (x2) (h : Keeps s0 s) : Keeps s0 (State.rebuildArray s x2) := by
  unfold State.rebuildArray
  repeat' first
    | with_reducible assumption
    | (extract_lets +onlyGivenNames x; )
    | split
    | intro _
    | (conv => enter [2, 26]); with_reducible refine Keeps.but ?_ rfl

end Sys2Proof.Machine
end

