-- ==== Sys2Proof/Laws/KeepsRows.lean ====
section
/-! SUPPORT. What the operations of Rows leave in force. -/

set_option linter.tactic.unusedName false

namespace Sys2Proof.Machine

theorem State.admitRow_keeps {s0 s : State} (x2 x3 x4 x5) (h : Keeps s0 s) : Keeps s0 (State.admitRow s x2 x3 x4 x5) := by
  unfold State.admitRow
  repeat' first
    | with_reducible assumption
    | (extract_lets +onlyGivenNames x; )
    | split
    | intro _
    | (conv => enter [2, 26]); with_reducible refine Keeps.but ?_ rfl

theorem State.rowWasRead_keeps {s0 s : State} (x2 x3 x4 x5) (h : Keeps s0 s) : Keeps s0 (State.rowWasRead s x2 x3 x4 x5) := by
  unfold State.rowWasRead
  repeat' first
    | with_reducible assumption
    | (extract_lets +onlyGivenNames x; )
    | with_reducible apply State.admitRow_keeps
    | with_reducible apply State.touchRead_keeps
    | with_reducible apply State.count_keeps
    | split
    | intro _
    | (conv => enter [2, 26]); with_reducible refine Keeps.but ?_ rfl
    | with_reducible refine Keeps.of_fst ?_ (by with_reducible assumption)
    | unfold x
    | dsimp only
    | dsimp +zetaDelta only

theorem State.rowReply_keeps {s0 s : State} (x2 x3 x4 x5 x6 x7) (h : Keeps s0 s) : Keeps s0 (State.rowReply s x2 x3 x4 x5 x6 x7) := by
  unfold State.rowReply
  repeat' first
    | with_reducible assumption
    | with_reducible apply State.reply_keeps

theorem State.serveRow_keeps {s0 s : State} (x2) (h : Keeps s0 s) : Keeps s0 (State.serveRow s x2) := by
  unfold State.serveRow
  repeat' first
    | with_reducible assumption
    | (extract_lets +onlyGivenNames x; )
    | with_reducible apply State.rowReply_keeps
    | with_reducible apply State.rowWasRead_keeps
    | with_reducible apply State.joinMiss_keeps
    | with_reducible apply State.touchRead_keeps
    | with_reducible apply State.countRights_keeps
    | split

theorem execRowRead_ends {s0 s : State} (x1) (h : Keeps s0 s) : EndsIn Keeps s0 (execRowRead x1 s) := by
  unfold execRowRead
  repeat' first
    | with_reducible assumption
    | (extract_lets +onlyGivenNames x; )
    | with_reducible apply State.serveRow_keeps
    | with_reducible apply State.refuse_keeps
    | with_reducible apply State.forward_keeps
    | with_reducible apply State.setBundle_keeps
    | with_reducible apply EndsIn.next
    | split
    | intro _
    | with_reducible refine Keeps.of_fst ?_ (by with_reducible assumption)

theorem State.sendRow_keeps {s0 s : State} (x2 x3 x4 x5 x6) (h : Keeps s0 s) : Keeps s0 (State.sendRow s x2 x3 x4 x5 x6).1 := by
  unfold State.sendRow
  repeat' first
    | with_reducible assumption
    | (extract_lets +onlyGivenNames x; )
    | with_reducible apply State.failDesc_keeps
    | with_reducible apply State.addOutstanding_keeps
    | with_reducible apply State.forward_keeps
    | split
    | intro _
    | with_reducible refine Keeps.of_fst ?_ (by with_reducible assumption)

theorem State.rowAnswered_keeps {s0 s : State} (x2 x3) (h : Keeps s0 s) : Keeps s0 (State.rowAnswered s x2 x3) := by
  unfold State.rowAnswered
  repeat' first
    | with_reducible assumption
    | (extract_lets +onlyGivenNames x; )
    | with_reducible apply State.failDesc_keeps
    | with_reducible apply State.setDesc_keeps
    | split

end Sys2Proof.Machine
end

