-- ==== Sys2Proof/Laws/KeepsShards.lean ====
section
/-! SUPPORT. What the operations of Shards leave in force. -/

set_option linter.tactic.unusedName false

namespace Sys2Proof.Machine

theorem State.setIndex_keeps {s0 s : State} (x2 x3) (h : Keeps s0 s) : Keeps s0 (State.setIndex s x2 x3) := by
  unfold State.setIndex
  repeat' first
    | with_reducible assumption
    | (extract_lets +onlyGivenNames x; )
    | split
    | intro _
    | (conv => enter [2, 26]); with_reducible refine Keeps.but ?_ rfl

theorem State.joinCaravans_keeps {s0 s : State} (x2 x3 x4) (h : Keeps s0 s) : Keeps s0 (State.joinCaravans s x2 x3 x4) := by
  unfold State.joinCaravans
  repeat' first
    | with_reducible assumption
    | (extract_lets +onlyGivenNames x; )
    | (with_reducible apply Keeps.foldl; intro _ _ _)
    | split
    | intro _
    | (conv => enter [2, 26]); with_reducible refine Keeps.but ?_ rfl

theorem execCaravanDepart_ends {s0 s : State} (x1 x2 x3) (h : Keeps s0 s) : EndsIn Keeps s0 (execCaravanDepart x1 x2 x3 s) := by
  unfold execCaravanDepart
  repeat' first
    | with_reducible assumption
    | (extract_lets +onlyGivenNames x; )
    | with_reducible apply EndsIn.next
    | split
    | intro _
    | (conv => enter [2, 26]); with_reducible refine Keeps.but ?_ rfl

theorem State.runQuery_keeps {s0 s : State} (x2 x3 x4 x5) (h : Keeps s0 s) : Keeps s0 (State.runQuery s x2 x3 x4 x5).1 := by
  unfold State.runQuery
  repeat' first
    | with_reducible assumption
    | (extract_lets +onlyGivenNames x; )
    | with_reducible apply State.joinCaravans_keeps

theorem State.serveSearch_keeps {s0 s : State} (x2) (h : Keeps s0 s) : Keeps s0 (State.serveSearch s x2) := by
  unfold State.serveSearch
  repeat' first
    | with_reducible assumption
    | (extract_lets +onlyGivenNames x; )
    | with_reducible apply State.runQuery_keeps
    | with_reducible apply State.consume_keeps
    | with_reducible apply State.reply_keeps
    | with_reducible apply State.countRights_keeps
    | (with_reducible apply Keeps.foldl_fst; intro _ _ _)
    | split
    | intro _
    | with_reducible refine Keeps.of_fst ?_ (by with_reducible assumption)

theorem execSearchRequest_ends {s0 s : State} (x1) (h : Keeps s0 s) : EndsIn Keeps s0 (execSearchRequest x1 s) := by
  unfold execSearchRequest
  repeat' first
    | with_reducible assumption
    | (extract_lets +onlyGivenNames x; )
    | with_reducible apply State.serveSearch_keeps
    | with_reducible apply State.refuse_keeps
    | with_reducible apply State.forward_keeps
    | with_reducible apply State.setBundle_keeps
    | with_reducible apply EndsIn.next
    | split
    | intro _
    | with_reducible refine Keeps.of_fst ?_ (by with_reducible assumption)

theorem State.searchAnswered_keeps {s0 s : State} (x2 x3 x4) (h : Keeps s0 s) : Keeps s0 (State.searchAnswered s x2 x3 x4) := by
  unfold State.searchAnswered
  repeat' first
    | with_reducible assumption
    | (extract_lets +onlyGivenNames x; )
    | with_reducible apply State.setIndex_keeps
    | with_reducible apply State.failDesc_keeps
    | with_reducible apply State.setDesc_keeps
    | split

end Sys2Proof.Machine
end

