-- ==== Sys2Proof/Laws/KeepsMessages.lean ====
section
/-! SUPPORT. What the operations of Messages leave in force. -/

set_option linter.tactic.unusedName false

namespace Sys2Proof.Machine

theorem State.arrival_ends {s0 s : State} (x2 x3) (h : Keeps s0 s) (hf : ∀ s, Keeps s0 s → Keeps s0 (x3 s)) : EndsIn Keeps s0 (State.arrival s x2 x3) := by
  unfold State.arrival
  repeat' first
    | with_reducible assumption
    | (extract_lets +onlyGivenNames x; )
    | (with_reducible apply hf)
    | with_reducible apply EndsIn.next
    | split

theorem execRead_ends {s0 s : State} (x1) (h : Keeps s0 s) : EndsIn Keeps s0 (execRead x1 s) := by
  unfold execRead
  repeat' first
    | with_reducible assumption
    | (extract_lets +onlyGivenNames x; )
    | with_reducible apply State.arrival_ends
    | with_reducible apply State.plainRequest_keeps
    | with_reducible apply EndsIn.next
    | split
    | intro _

theorem execWrite_ends {s0 s : State} (x1) (h : Keeps s0 s) : EndsIn Keeps s0 (execWrite x1 s) := by
  unfold execWrite
  repeat' first
    | with_reducible assumption
    | (extract_lets +onlyGivenNames x; )
    | with_reducible apply State.arrival_ends
    | with_reducible apply State.plainRequest_keeps
    | with_reducible apply EndsIn.next
    | split
    | intro _

theorem execWriteMasked_ends {s0 s : State} (x1) (h : Keeps s0 s) : EndsIn Keeps s0 (execWriteMasked x1 s) := by
  unfold execWriteMasked
  repeat' first
    | with_reducible assumption
    | (extract_lets +onlyGivenNames x; )
    | with_reducible apply State.arrival_ends
    | with_reducible apply State.plainRequest_keeps
    | with_reducible apply EndsIn.next
    | split
    | intro _

theorem execAtomic_ends {s0 s : State} (x1) (h : Keeps s0 s) : EndsIn Keeps s0 (execAtomic x1 s) := by
  unfold execAtomic
  repeat' first
    | with_reducible assumption
    | (extract_lets +onlyGivenNames x; )
    | with_reducible apply State.arrival_ends
    | with_reducible apply State.plainRequest_keeps
    | with_reducible apply EndsIn.next
    | split
    | intro _

theorem State.fenceRequest_keeps {s0 s : State} (x2) (h : Keeps s0 s) : Keeps s0 (State.fenceRequest s x2) := by
  unfold State.fenceRequest
  repeat' first
    | with_reducible assumption
    | with_reducible apply State.plainRequest_keeps
    | with_reducible apply State.refuse_keeps
    | split

theorem execFenceRw_ends {s0 s : State} (x1) (h : Keeps s0 s) : EndsIn Keeps s0 (execFenceRw x1 s) := by
  unfold execFenceRw
  repeat' first
    | with_reducible assumption
    | (extract_lets +onlyGivenNames x; )
    | with_reducible apply State.fenceRequest_keeps
    | with_reducible apply State.arrival_ends
    | with_reducible apply EndsIn.next
    | split
    | intro _

theorem execFenceWw_ends {s0 s : State} (x1) (h : Keeps s0 s) : EndsIn Keeps s0 (execFenceWw x1 s) := by
  unfold execFenceWw
  repeat' first
    | with_reducible assumption
    | (extract_lets +onlyGivenNames x; )
    | with_reducible apply State.fenceRequest_keeps
    | with_reducible apply State.arrival_ends
    | with_reducible apply EndsIn.next
    | split
    | intro _

theorem execFenceRr_ends {s0 s : State} (x1) (h : Keeps s0 s) : EndsIn Keeps s0 (execFenceRr x1 s) := by
  unfold execFenceRr
  repeat' first
    | with_reducible assumption
    | (extract_lets +onlyGivenNames x; )
    | with_reducible apply State.fenceRequest_keeps
    | with_reducible apply State.arrival_ends
    | with_reducible apply EndsIn.next
    | split
    | intro _

theorem execHomeFence_ends {s0 s : State} (x1) (h : Keeps s0 s) : EndsIn Keeps s0 (execHomeFence x1 s) := by
  unfold execHomeFence
  repeat' first
    | with_reducible assumption
    | (extract_lets +onlyGivenNames x; )
    | with_reducible apply State.arrival_ends
    | with_reducible apply State.setHeld_keeps
    | with_reducible apply State.forSelf_keeps
    | with_reducible apply EndsIn.next
    | split
    | intro _

theorem State.unwait_keeps {s0 s : State} (x2 x3) (h : Keeps s0 s) : Keeps s0 (State.unwait s x2 x3) := by
  unfold State.unwait
  repeat' first
    | with_reducible assumption
    | with_reducible apply State.setDesc_keeps

theorem State.descResponse_keeps {s0 s : State} (x2 x3 x4) (h : Keeps s0 s) : Keeps s0 (State.descResponse s x2 x3 x4) := by
  unfold State.descResponse
  repeat' first
    | with_reducible assumption
    | (extract_lets +onlyGivenNames x; )
    | with_reducible apply State.unwait_keeps
    | with_reducible apply State.searchAnswered_keeps
    | with_reducible apply State.rowAnswered_keeps
    | with_reducible apply State.cured_keeps
    | with_reducible apply State.busError_keeps
    | with_reducible apply State.dropAccess_keeps
    | with_reducible apply State.holdOpened_keeps
    | with_reducible apply State.bollardAnswered_keeps
    | with_reducible apply State.failDesc_keeps
    | with_reducible apply State.run_keeps
    | with_reducible apply State.setDesc_keeps
    | split
    | intro _
    | with_reducible refine Keeps.of_fst ?_ (by with_reducible assumption)
    | unfold x

theorem State.pullDone_keeps {s0 s : State} (x2) (h : Keeps s0 s) : Keeps s0 (State.pullDone s x2) := by
  unfold State.pullDone
  repeat' first
    | with_reducible assumption
    | (extract_lets +onlyGivenNames x; )
    | with_reducible apply State.takeRequest_keeps
    | (with_reducible apply Keeps.foldl; intro _ _ _)
    | split
    | intro _
    | (conv => enter [2, 26]); with_reducible refine Keeps.but ?_ rfl
    | with_reducible refine Keeps.of_fst ?_ (by with_reducible assumption)
    | unfold x

theorem State.pullSector_keeps {s0 s : State} (x2 x3 x4 x5) (h : Keeps s0 s) : Keeps s0 (State.pullSector s x2 x3 x4 x5) := by
  unfold State.pullSector
  repeat' first
    | with_reducible assumption
    | (extract_lets +onlyGivenNames x; )
    | with_reducible apply State.pullDone_keeps
    | with_reducible apply State.failDesc_keeps
    | with_reducible apply State.forwardRequest_keeps
    | (with_reducible apply Keeps.foldl; intro _ _ _)
    | split
    | intro _
    | (conv => enter [2, 26]); with_reducible refine Keeps.but ?_ rfl
    | with_reducible refine Keeps.of_fst ?_ (by with_reducible assumption)
    | unfold x
    | dsimp only
    | dsimp +zetaDelta only

theorem State.rebuildSector_keeps {s0 s : State} (x2 x3 x4 x5 x6) (h : Keeps s0 s) : Keeps s0 (State.rebuildSector s x2 x3 x4 x5 x6) := by
  unfold State.rebuildSector
  repeat' first
    | with_reducible assumption
    | (extract_lets +onlyGivenNames x; )
    | with_reducible apply State.homeAccess_keeps
    | (with_reducible apply Keeps.foldl; intro _ _ _)
    | split
    | intro _
    | (conv => enter [2, 26]); with_reducible refine Keeps.but ?_ rfl
    | with_reducible refine Keeps.of_fst ?_ (by with_reducible assumption)
    | unfold x

theorem State.ownResponse_keeps {s0 s : State} (x2 x3) (h : Keeps s0 s) : Keeps s0 (State.ownResponse s x2 x3) := by
  unfold State.ownResponse
  repeat' first
    | with_reducible assumption
    | (extract_lets +onlyGivenNames x; )
    | with_reducible apply State.rebuildSector_keeps
    | with_reducible apply State.pullSector_keeps
    | with_reducible apply State.unwait_keeps
    | with_reducible apply State.run_keeps
    | with_reducible apply State.deltaDone_keeps
    | (with_reducible apply Keeps.foldl; intro _ _ _)
    | split
    | intro _
    | (conv => enter [2, 26]); with_reducible refine Keeps.but ?_ rfl
    | with_reducible refine Keeps.of_fst ?_ (by with_reducible assumption)
    | unfold x
    | dsimp only
    | dsimp +zetaDelta only

theorem State.agentResponse_keeps {s0 s : State} (x2 x3) (h : Keeps s0 s) : Keeps s0 (State.agentResponse s x2 x3) := by
  unfold State.agentResponse
  repeat' first
    | with_reducible assumption
    | (extract_lets +onlyGivenNames x; )
    | with_reducible apply State.releaseAgent_keeps
    | with_reducible apply State.consume_keeps
    | with_reducible apply State.sendJetty_keeps
    | split
    | intro _
    | with_reducible refine Keeps.of_fst ?_ (by with_reducible assumption)
    | unfold x

theorem State.takeResponse_keeps {s0 s : State} (x2) (h : Keeps s0 s) : Keeps s0 (State.takeResponse s x2) := by
  unfold State.takeResponse
  repeat' first
    | with_reducible assumption
    | (extract_lets +onlyGivenNames x; )
    | with_reducible apply State.agentResponse_keeps
    | with_reducible apply State.ownResponse_keeps
    | with_reducible apply State.descResponse_keeps
    | with_reducible apply State.dropTransaction_keeps
    | with_reducible apply State.send_keeps
    | split
    | intro _
    | (conv => enter [2, 26]); with_reducible refine Keeps.but ?_ rfl

theorem State.response_ends {s0 s : State} (x2 x3) (h : Keeps s0 s) : EndsIn Keeps s0 (State.response s x2 x3) := by
  unfold State.response
  repeat' first
    | with_reducible assumption
    | (extract_lets +onlyGivenNames x; )
    | with_reducible apply State.takeResponse_keeps
    | with_reducible apply State.arrival_ends
    | with_reducible apply EndsIn.next
    | split
    | intro _
    | (conv => enter [2, 26]); with_reducible refine Keeps.but ?_ rfl

theorem execData_ends {s0 s : State} (x1) (h : Keeps s0 s) : EndsIn Keeps s0 (execData x1 s) := by
  unfold execData
  repeat' first
    | with_reducible assumption
    | with_reducible apply State.response_ends

theorem execDone_ends {s0 s : State} (x1) (h : Keeps s0 s) : EndsIn Keeps s0 (execDone x1 s) := by
  unfold execDone
  repeat' first
    | with_reducible assumption
    | with_reducible apply State.response_ends

theorem execPerformed_ends {s0 s : State} (x1) (h : Keeps s0 s) : EndsIn Keeps s0 (execPerformed x1 s) := by
  unfold execPerformed
  repeat' first
    | with_reducible assumption
    | with_reducible apply State.response_ends

theorem execAtomicOld_ends {s0 s : State} (x1) (h : Keeps s0 s) : EndsIn Keeps s0 (execAtomicOld x1 s) := by
  unfold execAtomicOld
  repeat' first
    | with_reducible assumption
    | with_reducible apply State.response_ends

theorem execBollardValue_ends {s0 s : State} (x1) (h : Keeps s0 s) : EndsIn Keeps s0 (execBollardValue x1 s) := by
  unfold execBollardValue
  repeat' first
    | with_reducible assumption
    | with_reducible apply State.response_ends

theorem execCtlAck_ends {s0 s : State} (x1) (h : Keeps s0 s) : EndsIn Keeps s0 (execCtlAck x1 s) := by
  unfold execCtlAck
  repeat' first
    | with_reducible assumption
    | with_reducible apply State.response_ends

theorem State.invalidatePulls_keeps {s0 s : State} (x2 x3) (h : Keeps s0 s) : Keeps s0 (State.invalidatePulls s x2 x3) := by
  unfold State.invalidatePulls
  repeat' first
    | with_reducible assumption
    | (extract_lets +onlyGivenNames x; )
    | with_reducible apply State.failDesc_keeps
    | with_reducible apply State.forwardRequest_keeps
    | with_reducible apply State.dropPull_keeps
    | (with_reducible apply Keeps.foldl; intro _ _ _)
    | split
    | intro _
    | (conv => enter [2, 26]); with_reducible refine Keeps.but ?_ rfl
    | with_reducible refine Keeps.of_fst ?_ (by with_reducible assumption)
    | unfold x
    | dsimp only
    | dsimp +zetaDelta only

theorem execInvalidate_ends {s0 s : State} (x1) (h : Keeps s0 s) : EndsIn Keeps s0 (execInvalidate x1 s) := by
  unfold execInvalidate
  repeat' first
    | with_reducible assumption
    | (extract_lets +onlyGivenNames x; )
    | with_reducible apply State.invalidatePulls_keeps
    | with_reducible apply State.arrival_ends
    | with_reducible apply State.forSelf_keeps
    | with_reducible apply State.reply_keeps
    | with_reducible apply EndsIn.next
    | split
    | intro _

theorem State.invalAcked_keeps {s0 s : State} (x2) (h : Keeps s0 s) : Keeps s0 (State.invalAcked s x2) := by
  unfold State.invalAcked
  repeat' first
    | with_reducible assumption
    | (extract_lets +onlyGivenNames x; )
    | with_reducible apply State.applyCoveSet_keeps
    | with_reducible apply State.answer_keeps
    | with_reducible apply State.setCove_keeps
    | split
    | intro _
    | (conv => enter [2, 26]); with_reducible refine Keeps.but ?_ rfl
    | with_reducible refine Keeps.of_fst ?_ (by with_reducible assumption)
    | unfold x
    | dsimp only
    | dsimp +zetaDelta only

theorem execInvalidateAck_ends {s0 s : State} (x1) (h : Keeps s0 s) : EndsIn Keeps s0 (execInvalidateAck x1 s) := by
  unfold execInvalidateAck
  repeat' first
    | with_reducible assumption
    | (extract_lets +onlyGivenNames x; )
    | with_reducible apply State.invalAcked_keeps
    | with_reducible apply State.arrival_ends
    | with_reducible apply State.forSelf_keeps
    | with_reducible apply EndsIn.next
    | split
    | intro _

theorem State.watchSpans_keeps {s0 s : State} (h : Keeps s0 s) : Keeps s0 (State.watchSpans s) := by
  unfold State.watchSpans
  repeat' first
    | with_reducible assumption
    | (extract_lets +onlyGivenNames x; )
    | split
    | intro _
    | (conv => enter [2, 26]); with_reducible refine Keeps.but ?_ rfl

theorem State.setSpan_keeps {s0 s : State} (x2 x3 x4) (h : Keeps s0 s) : Keeps s0 (State.setSpan s x2 x3 x4) := by
  unfold State.setSpan
  repeat' first
    | with_reducible assumption
    | (extract_lets +onlyGivenNames x; )
    | split
    | intro _
    | (conv => enter [2, 26]); with_reducible refine Keeps.but ?_ rfl

theorem State.sendSpan_keeps {s0 s : State} (x2) (h : Keeps s0 s) : Keeps s0 (State.sendSpan s x2) := by
  unfold State.sendSpan
  repeat' first
    | with_reducible assumption
    | (extract_lets +onlyGivenNames x; )
    | with_reducible apply State.egress_keeps
    | (with_reducible apply Keeps.foldl; intro _ _ _)
    | split
    | intro _
    | (conv => enter [2, 26]); with_reducible refine Keeps.but ?_ rfl
    | with_reducible refine Keeps.of_fst ?_ (by with_reducible assumption)
    | unfold x
    | dsimp only
    | dsimp +zetaDelta only

theorem State.spanChanged_keeps {s0 s : State} (h : Keeps s0 s) : Keeps s0 (State.spanChanged s) := by
  unfold State.spanChanged
  repeat' first
    | with_reducible assumption
    | (extract_lets +onlyGivenNames x; )
    | with_reducible apply State.sendSpan_keeps
    | with_reducible apply State.setSpan_keeps
    | with_reducible apply State.watchSpans_keeps
    | (with_reducible apply Keeps.foldl; intro _ _ _)
    | split
    | intro _
    | with_reducible refine Keeps.of_fst ?_ (by with_reducible assumption)
    | unfold x
    | dsimp only
    | dsimp +zetaDelta only

theorem State.takeSpan_keeps {s0 s : State} (x2) (h : Keeps s0 s) : Keeps s0 (State.takeSpan s x2) := by
  unfold State.takeSpan
  repeat' first
    | with_reducible assumption
    | (extract_lets +onlyGivenNames x; )
    | with_reducible apply State.setSpan_keeps
    | with_reducible apply State.watchSpans_keeps
    | with_reducible apply State.egress_keeps
    | split
    | intro _
    | (conv => enter [2, 26]); with_reducible refine Keeps.but ?_ rfl
    | with_reducible refine Keeps.of_fst ?_ (by with_reducible assumption)
    | unfold x
    | dsimp only
    | dsimp +zetaDelta only

theorem execSpanState_ends {s0 s : State} (x1) (h : Keeps s0 s) : EndsIn Keeps s0 (execSpanState x1 s) := by
  unfold execSpanState
  repeat' first
    | with_reducible assumption
    | (extract_lets +onlyGivenNames x; )
    | with_reducible apply State.takeSpan_keeps
    | with_reducible apply State.arrival_ends
    | with_reducible apply State.ported_keeps
    | with_reducible apply EndsIn.next
    | split
    | intro _

end Sys2Proof.Machine
end

