-- ==== Sys2Proof/Laws/KeepsTables.lean ====
section
/-! SUPPORT. What the operations of Tables leave in force. -/

set_option linter.tactic.unusedName false

namespace Sys2Proof.Machine

theorem opTableCreate_kept : RelasOp.Kept opTableCreate := by
  intro s0 s c k h
  unfold opTableCreate
  repeat' first
    | with_reducible assumption
    | (extract_lets +onlyGivenNames x; )
    | split
    | intro _
    | (conv => enter [2, 26]); with_reducible refine Keeps.but ?_ rfl
    | with_reducible refine Keeps.of_fst ?_ (by with_reducible assumption)
    | unfold x
    | dsimp only

theorem opTableDestroy_kept : RelasOp.Kept opTableDestroy := by
  intro s0 s c k h
  unfold opTableDestroy
  repeat' first
    | with_reducible assumption
    | (extract_lets +onlyGivenNames x; )
    | with_reducible apply State.setTable_keeps
    | split
    | intro _
    | (conv => enter [2, 26]); with_reducible refine Keeps.but ?_ rfl
    | with_reducible refine Keeps.of_fst ?_ (by with_reducible assumption)
    | unfold x
    | dsimp only

theorem opTableQuery_kept : RelasOp.Kept opTableQuery := by
  intro s0 s c k h
  unfold opTableQuery
  repeat' first
    | with_reducible assumption
    | split
    | intro _
    | with_reducible refine Keeps.of_fst ?_ (by with_reducible assumption)
    | unfold x
    | dsimp only

theorem opGatherRows_kept : DescOp.Kept opGatherRows := by
  intro s0 s d h
  unfold opGatherRows
  repeat' first
    | with_reducible assumption
    | with_reducible apply State.snapBind_keeps

theorem State.gatherBegin_keeps {s0 s : State} (x2 x3) (h : Keeps s0 s) : Keeps s0 (State.gatherBegin s x2 x3) := by
  unfold State.gatherBegin
  repeat' first
    | with_reducible assumption
    | (extract_lets +onlyGivenNames x; )
    | with_reducible apply State.sendRow_keeps
    | with_reducible apply State.poisonFault_keeps
    | with_reducible apply State.touchPieces_keeps
    | with_reducible apply State.readyRead_keeps
    | with_reducible apply State.setDesc_keeps
    | (with_reducible apply Keeps.foldl_fst; intro _ _ _)
    | split
    | intro _
    | with_reducible refine Keeps.of_fst ?_ (by with_reducible assumption)
    | unfold x

theorem State.gatherClassify_keeps {s0 s : State} (x2 x3) (h : Keeps s0 s) : Keeps s0 (State.gatherClassify s x2 x3) := by
  unfold State.gatherClassify
  repeat' first
    | with_reducible assumption
    | (extract_lets +onlyGivenNames x; )
    | with_reducible apply State.poisonFault_keeps
    | with_reducible apply State.touchPieces_keeps
    | with_reducible apply State.readyRead_keeps
    | with_reducible apply State.setDesc_keeps
    | split
    | intro _
    | with_reducible refine Keeps.of_fst ?_ (by with_reducible assumption)

theorem State.cheaper_keeps {s0 s : State} (x2 x3 x4) (h : Keeps s0 s) : Keeps s0 (State.cheaper s x2 x3 x4).1 := by
  unfold State.cheaper
  repeat' first
    | with_reducible assumption
    | (extract_lets +onlyGivenNames x; )
    | with_reducible apply State.joinMiss_keeps
    | split
    | intro _
    | with_reducible refine Keeps.of_fst ?_ (by with_reducible assumption)
    | unfold x

theorem State.gatherLoad_keeps {s0 s : State} (x2 x3 x4) (h : Keeps s0 s) : Keeps s0 (State.gatherLoad s x2 x3 x4).1 := by
  unfold State.gatherLoad
  repeat' first
    | with_reducible assumption
    | (extract_lets +onlyGivenNames x; )
    | with_reducible apply State.cheaper_keeps
    | with_reducible apply State.rowWasRead_keeps
    | with_reducible apply State.readyRead_keeps
    | with_reducible apply State.sample_keeps
    | with_reducible apply State.touchRead_keeps
    | with_reducible apply State.setDesc_keeps
    | (with_reducible apply Keeps.foldl; intro _ _ _)
    | (with_reducible apply Keeps.foldl_fst; intro _ _ _)
    | split
    | intro _
    | with_reducible refine Keeps.of_fst ?_ (by with_reducible assumption)

theorem State.writePresence_keeps {s0 s : State} (x2 x3) (h : Keeps s0 s) : Keeps s0 (State.writePresence s x2 x3) := by
  unfold State.writePresence
  repeat' first
    | with_reducible assumption
    | (extract_lets +onlyGivenNames x; )
    | with_reducible apply State.writeRange_keeps
    | (with_reducible apply Keeps.foldl; intro _ _ _)

theorem State.writeOutput_keeps {s0 s : State} (x2 x3 x4 x5) (h : Keeps s0 s) : Keeps s0 (State.writeOutput s x2 x3 x4 x5) := by
  unfold State.writeOutput
  repeat' first
    | with_reducible assumption
    | (extract_lets +onlyGivenNames x; )
    | with_reducible apply State.writeRange_keeps
    | split

theorem State.gatherEnd_keeps {s0 s : State} (x2) (h : Keeps s0 s) : Keeps s0 (State.gatherEnd s x2) := by
  unfold State.gatherEnd
  repeat' first
    | with_reducible assumption
    | (extract_lets +onlyGivenNames x; )
    | with_reducible apply State.ok_keeps
    | with_reducible apply State.finish_keeps
    | split

theorem State.gatherChunk_keeps {s0 s : State} (x2 x3 x4) (h : Keeps s0 s) : Keeps s0 (State.gatherChunk s x2 x3 x4) := by
  unfold State.gatherChunk
  repeat' first
    | with_reducible assumption
    | (extract_lets +onlyGivenNames x; )
    | with_reducible apply State.writeOutput_keeps
    | with_reducible apply State.writePresence_keeps
    | with_reducible apply State.gatherLoad_keeps
    | with_reducible apply State.readyWrite_keeps
    | with_reducible apply State.readyRead_keeps
    | with_reducible apply State.setDesc_keeps
    | (with_reducible apply Keeps.foldl; intro _ _ _)
    | split
    | intro _
    | with_reducible refine Keeps.of_fst ?_ (by with_reducible assumption)
    | unfold x

theorem State.gatherStop_keeps {s0 s : State} (x2 x3 x4) (h : Keeps s0 s) : Keeps s0 (State.gatherStop s x2 x3 x4) := by
  unfold State.gatherStop
  repeat' first
    | with_reducible assumption
    | with_reducible apply State.finish_keeps

theorem execGatherRows_ends {s0 s : State} (x1) (h : Keeps s0 s) : EndsIn Keeps s0 (execGatherRows x1 s) := by
  unfold execGatherRows
  repeat' first
    | with_reducible assumption
    | (extract_lets +onlyGivenNames x; )
    | with_reducible apply State.gatherStop_keeps
    | with_reducible apply State.gatherChunk_keeps
    | with_reducible apply State.gatherEnd_keeps
    | with_reducible apply State.gatherClassify_keeps
    | with_reducible apply State.gatherBegin_keeps
    | with_reducible apply State.work_keeps
    | with_reducible apply EndsIn.next
    | split
    | intro _
    | with_reducible refine Keeps.of_fst ?_ (by with_reducible assumption)
    | unfold x

theorem State.writeOwn_keeps {s0 s : State} (x2 x3 x4 x5) (h : Keeps s0 s) : Keeps s0 (State.writeOwn s x2 x3 x4 x5) := by
  unfold State.writeOwn
  repeat' first
    | with_reducible assumption
    | (extract_lets +onlyGivenNames x; )
    | with_reducible apply State.applyWrite_keeps
    | with_reducible apply State.flushDeltas_keeps
    | with_reducible apply State.poisonSectors_keeps
    | with_reducible apply State.setDesc_keeps
    | split
    | intro _
    | with_reducible refine Keeps.of_fst ?_ (by with_reducible assumption)
    | unfold x

theorem State.commitRow_keeps {s0 s : State} (x2 x3 x4 x5 x6 x7 x8 x9) (h : Keeps s0 s) : Keeps s0 (State.commitRow s x2 x3 x4 x5 x6 x7 x8 x9) := by
  unfold State.commitRow
  repeat' first
    | with_reducible assumption
    | (extract_lets +onlyGivenNames x; )
    | with_reducible apply State.writeOwn_keeps
    | with_reducible apply State.setSlotBit_keeps
    | split
    | intro _
    | with_reducible refine Keeps.of_fst ?_ (by with_reducible assumption)
    | unfold x

theorem State.holdSlot_keeps {s0 s : State} (x2 x3) (h : Keeps s0 s) : Keeps s0 (State.holdSlot s x2 x3) := by
  unfold State.holdSlot
  repeat' first
    | with_reducible assumption
    | with_reducible apply State.setTable_keeps
    | split

theorem opScatterAddRows_kept : DescOp.Kept opScatterAddRows := by
  intro s0 s d h
  unfold opScatterAddRows
  repeat' first
    | with_reducible assumption

theorem State.scatterBegin_keeps {s0 s : State} (x2 x3) (h : Keeps s0 s) : Keeps s0 (State.scatterBegin s x2 x3) := by
  unfold State.scatterBegin
  repeat' first
    | with_reducible assumption
    | (extract_lets +onlyGivenNames x; )
    | with_reducible apply State.poisonFault_keeps
    | with_reducible apply State.touchPieces_keeps
    | with_reducible apply State.readyRead_keeps
    | with_reducible apply State.setDesc_keeps
    | split
    | intro _
    | with_reducible refine Keeps.of_fst ?_ (by with_reducible assumption)

theorem State.scatterOne_keeps {s0 s : State} (x2 x3 x4 x5) (h : Keeps s0 s) : Keeps s0 (State.scatterOne s x2 x3 x4 x5) := by
  unfold State.scatterOne
  repeat' first
    | with_reducible assumption
    | (extract_lets +onlyGivenNames x; )
    | with_reducible apply State.holdSlot_keeps
    | with_reducible apply State.commitRow_keeps
    | with_reducible apply State.poisonFault_keeps
    | with_reducible apply State.touchPieces_keeps
    | with_reducible apply State.readyRead_keeps
    | with_reducible apply State.setDesc_keeps
    | split
    | intro _
    | with_reducible refine Keeps.of_fst ?_ (by with_reducible assumption)

theorem State.scatterEnd_keeps {s0 s : State} (x2 x3 x4 x5) (h : Keeps s0 s) : Keeps s0 (State.scatterEnd s x2 x3 x4 x5) := by
  unfold State.scatterEnd
  repeat' first
    | with_reducible assumption
    | with_reducible apply State.finish_keeps

theorem State.scatterStop_keeps {s0 s : State} (x2 x3 x4) (h : Keeps s0 s) : Keeps s0 (State.scatterStop s x2 x3 x4) := by
  unfold State.scatterStop
  repeat' first
    | with_reducible assumption
    | with_reducible apply State.scatterEnd_keeps

theorem execScatterAddRows_ends {s0 s : State} (x1) (h : Keeps s0 s) : EndsIn Keeps s0 (execScatterAddRows x1 s) := by
  unfold execScatterAddRows
  repeat' first
    | with_reducible assumption
    | (extract_lets +onlyGivenNames x; )
    | with_reducible apply State.scatterStop_keeps
    | with_reducible apply State.scatterEnd_keeps
    | with_reducible apply State.scatterOne_keeps
    | with_reducible apply State.scatterBegin_keeps
    | with_reducible apply State.work_keeps
    | with_reducible apply EndsIn.next
    | split
    | intro _
    | with_reducible refine Keeps.of_fst ?_ (by with_reducible assumption)
    | unfold x

theorem opReplaceRows_kept : DescOp.Kept opReplaceRows := by
  intro s0 s d h
  unfold opReplaceRows
  repeat' first
    | with_reducible assumption

theorem State.replaceOne_keeps {s0 s : State} (x2 x3) (h : Keeps s0 s) : Keeps s0 (State.replaceOne s x2 x3) := by
  unfold State.replaceOne
  repeat' first
    | with_reducible assumption
    | (extract_lets +onlyGivenNames x; )
    | with_reducible apply State.holdSlot_keeps
    | with_reducible apply State.commitRow_keeps
    | with_reducible apply State.writeOwn_keeps
    | with_reducible apply State.poisonFault_keeps
    | with_reducible apply State.touchPieces_keeps
    | with_reducible apply State.readyRead_keeps
    | with_reducible apply State.setDesc_keeps
    | split
    | intro _
    | with_reducible refine Keeps.of_fst ?_ (by with_reducible assumption)

theorem State.replaceEnd_keeps {s0 s : State} (x2 x3 x4 x5) (h : Keeps s0 s) : Keeps s0 (State.replaceEnd s x2 x3 x4 x5) := by
  unfold State.replaceEnd
  repeat' first
    | with_reducible assumption
    | with_reducible apply State.finish_keeps

theorem State.replaceStop_keeps {s0 s : State} (x2 x3 x4) (h : Keeps s0 s) : Keeps s0 (State.replaceStop s x2 x3 x4) := by
  unfold State.replaceStop
  repeat' first
    | with_reducible assumption
    | with_reducible apply State.replaceEnd_keeps

theorem execReplaceRows_ends {s0 s : State} (x1) (h : Keeps s0 s) : EndsIn Keeps s0 (execReplaceRows x1 s) := by
  unfold execReplaceRows
  repeat' first
    | with_reducible assumption
    | (extract_lets +onlyGivenNames x; )
    | with_reducible apply State.replaceStop_keeps
    | with_reducible apply State.replaceEnd_keeps
    | with_reducible apply State.replaceOne_keeps
    | with_reducible apply State.work_keeps
    | with_reducible apply EndsIn.next
    | split
    | intro _
    | with_reducible refine Keeps.of_fst ?_ (by with_reducible assumption)
    | unfold x

theorem execRowData_ends {s0 s : State} (x1) (h : Keeps s0 s) : EndsIn Keeps s0 (execRowData x1 s) := by
  unfold execRowData
  repeat' first
    | with_reducible assumption
    | with_reducible apply State.response_ends

end Sys2Proof.Machine
end

