-- ==== Sys2Proof/Laws/KeepsKv.lean ====
section
/-! SUPPORT. What the operations of Kv leave in force. -/

set_option linter.tactic.unusedName false

namespace Sys2Proof.Machine

theorem opKvsetCreate_kept : RelasOp.Kept opKvsetCreate := by
  intro s0 s c k h
  unfold opKvsetCreate
  repeat' first
    | with_reducible assumption
    | (extract_lets +onlyGivenNames x; )
    | split
    | intro _
    | (conv => enter [2, 26]); with_reducible refine Keeps.but ?_ rfl
    | with_reducible refine Keeps.of_fst ?_ (by with_reducible assumption)
    | unfold x
    | dsimp only

theorem opKvsetDestroy_kept : RelasOp.Kept opKvsetDestroy := by
  intro s0 s c k h
  unfold opKvsetDestroy
  repeat' first
    | with_reducible assumption
    | with_reducible apply State.setKv_keeps

theorem opKvsetQuery_kept : RelasOp.Kept opKvsetQuery := by
  intro s0 s c k h
  unfold opKvsetQuery
  repeat' first
    | with_reducible assumption
    | split
    | intro _
    | with_reducible refine Keeps.of_fst ?_ (by with_reducible assumption)
    | unfold x
    | dsimp only

theorem State.newBlock_some {s0 s t : State} {b id k} (h : Keeps s0 s) (hq : State.newBlock s id k = some (t, b)) : Keeps s0 t := by
  unfold State.newBlock at hq
  cases hb : s.freeBlock k with
  | none => rw [hb] at hq; cases hq
  | some x =>
    rw [hb] at hq
    simp only [Option.map_some, Option.some.injEq, Prod.mk.injEq] at hq
    obtain ⟨rfl, -⟩ := hq
    exact State.writeOwn_keeps _ _ _ _ (State.setBlockBit_keeps _ _ _ h)

theorem State.setInfo_keeps {s0 s : State} (x2 x3 x4 x5 x6) (h : Keeps s0 s) : Keeps s0 (State.setInfo s x2 x3 x4 x5 x6) := by
  unfold State.setInfo
  repeat' first
    | with_reducible assumption
    | with_reducible apply State.writeOwn_keeps

theorem State.unrefPage_keeps {s0 s : State} (x2 x3 x4) (h : Keeps s0 s) : Keeps s0 (State.unrefPage s x2 x3 x4) := by
  unfold State.unrefPage
  repeat' first
    | with_reducible assumption
    | (extract_lets +onlyGivenNames x; )
    | with_reducible apply State.setInfo_keeps
    | with_reducible apply State.setKv_keeps
    | split

theorem State.unuseBlock_keeps {s0 s : State} (x2 x3) (h : Keeps s0 s) : Keeps s0 (State.unuseBlock s x2 x3) := by
  unfold State.unuseBlock
  repeat' first
    | with_reducible assumption
    | with_reducible apply State.setKv_keeps

theorem State.commitSeq_keeps {s0 s : State} (x2 x3 x4 x5 x6) (h : Keeps s0 s) : Keeps s0 (State.commitSeq s x2 x3 x4 x5 x6) := by
  unfold State.commitSeq
  repeat' first
    | with_reducible assumption
    | with_reducible apply State.writeOwn_keeps

theorem opKvAppend_kept : DescOp.Kept opKvAppend := by
  intro s0 s d h
  unfold opKvAppend
  repeat' first
    | with_reducible assumption

theorem State.writeRun_keeps {s0 s : State} (x2 x3 x4 x5 x6 x7 x8) (h : Keeps s0 s) : Keeps s0 (State.writeRun s x2 x3 x4 x5 x6 x7 x8) := by
  unfold State.writeRun
  repeat' first
    | with_reducible assumption
    | (extract_lets +onlyGivenNames x; )
    | with_reducible apply State.writeOwn_keeps
    | split

theorem State.copyTokens_keeps {s0 s : State} (x2 x3 x4 x5 x6) (h : Keeps s0 s) : Keeps s0 (State.copyTokens s x2 x3 x4 x5 x6) := by
  unfold State.copyTokens
  repeat' first
    | with_reducible assumption
    | (extract_lets +onlyGivenNames x; )
    | with_reducible apply State.writeOwn_keeps
    | (with_reducible apply Keeps.foldl; intro _ _ _)
    | split

theorem Growth.setLeaf_some {s0 : State} {g r : Growth} {id k page pg} (h : Keeps s0 g.s) (hq : g.setLeaf id k page pg = some r) :
    Keeps s0 r.s := by
  unfold Growth.setLeaf at hq
  extract_lets l at hq
  split at hq
  · cases hq
    exact State.writeOwn_keeps _ _ _ _ h
  · cases hb : g.s.newBlock id k with
    | none => rw [hb] at hq; cases hq
    | some x =>
      rw [hb] at hq
      cases hq
      exact State.writeOwn_keeps _ _ _ _ (State.writeOwn_keeps _ _ _ _ (State.newBlock_some h hb))

theorem Growth.page_some {s0 : State} {g r : Growth} {id k page x pg} (h : Keeps s0 g.s) (hq : g.page id k page x = some (r, pg)) :
    Keeps s0 r.s := by
  unfold Growth.page at hq
  extract_lets old at hq
  split at hq
  · simp only [Option.some.injEq, Prod.mk.injEq] at hq
    obtain ⟨rfl, -⟩ := hq
    exact h
  · split at hq
    · cases hq
    · extract_lets s1 s2 g1 at hq
      have h1 : Keeps s0 s1 := State.setInfo_keeps _ _ _ _ _ h
      have h2 : Keeps s0 g1.s := by
        show Keeps s0 s2
        unfold s2
        split
        · exact h1
        · exact State.unrefPage_keeps _ _ _ (State.copyTokens_keeps _ _ _ _ _ h1)
      clear_value g1
      rename_i p _
      cases hl : g1.setLeaf id k page p with
      | none => rw [hl] at hq; cases hq
      | some y =>
        rw [hl] at hq
        cases hq
        exact Growth.setLeaf_some h2 hl

theorem Growth.tokens_some {s0 : State} {g r : Growth} {id k f fuel pos i left} (h : Keeps s0 g.s)
    (hq : Growth.tokens id k f fuel pos i left g = some r) : Keeps s0 r.s := by
  induction fuel generalizing pos i left g with
  | zero => cases hq; exact h
  | succ fuel ih =>
    unfold Growth.tokens at hq
    split at hq
    · cases hq; exact h
    · extract_lets a n at hq
      cases hp : g.page id k (pos / k.p) a with
      | none => rw [hp] at hq; cases hq
      | some y =>
        rw [hp] at hq
        refine ih ?_ hq
        refine State.setInfo_keeps _ _ _ _ _ ?_
        refine Keeps.foldl ?_ (Growth.page_some h hp)
        intro s x hs
        refine Keeps.foldl ?_ hs
        intro s x hs
        exact State.writeRun_keeps _ _ _ _ _ _ _ hs

theorem State.appendTokens_some {s0 s : State} {r : Growth} {d k} (h : Keeps s0 s) (hq : s.appendTokens d k = some r) :
    Keeps s0 r.s := by
  unfold State.appendTokens at hq
  split at hq
  rename_i len dir hl
  extract_lets t start at hq
  cases hs : start with
  | none => rw [hs] at hq; cases hq
  | some p =>
    obtain ⟨s1, dir1⟩ := p
    have h1 : Keeps s0 s1 := by
      unfold start at hs
      split at hs
      · exact State.newBlock_some h hs
      · cases hs; exact h
    rw [hs] at hq
    simp only [Option.bind_some, Option.map_eq_some_iff] at hq
    obtain ⟨g, hg, rfl⟩ := hq
    exact State.commitSeq_keeps _ _ _ _ _ (Growth.tokens_some (g := ⟨s1, dir1, 0, 0⟩) h1 hg)

theorem State.kvNothing_keeps {s0 s : State} (d c r) (h : Keeps s0 s) : Keeps s0 (State.kvNothing s d c r) := State.finish_keeps _ _ _ _ _ _ h

theorem execKvAppend_ends {s0 s : State} (x1) (h : Keeps s0 s) : EndsIn Keeps s0 (execKvAppend x1 s) := by
  unfold execKvAppend
  repeat' first
    | with_reducible assumption
    | (extract_lets +onlyGivenNames x; )
    | with_reducible apply State.kvNothing_keeps
    | with_reducible apply State.stop_keeps
    | with_reducible apply State.work_keeps
    | with_reducible apply State.ok_keeps
    | with_reducible apply State.touchPieces_keeps
    | with_reducible apply State.readyRead_keeps
    | with_reducible apply State.setDesc_keeps
    | with_reducible refine State.appendTokens_some ?_ (by with_reducible assumption)
    | with_reducible apply EndsIn.next
    | split
    | intro _
    | with_reducible refine Keeps.of_fst ?_ (by with_reducible assumption)

theorem opKvFork_kept : DescOp.Kept opKvFork := by
  intro s0 s d h
  unfold opKvFork
  repeat' first
    | with_reducible assumption

theorem State.copyLeaves_some {s0 s t : State} {id k dir a n f} (h : Keeps s0 s) (hq : State.copyLeaves id k dir a n f s = some t) :
    Keeps s0 t := by
  induction f generalizing s with
  | zero => cases hq; exact h
  | succ f ih =>
    unfold State.copyLeaves at hq
    extract_lets i at hq
    cases hb : s.newBlock id k with
    | none => rw [hb] at hq; cases hq
    | some y =>
      rw [hb] at hq
      exact ih (State.writeOwn_keeps _ _ _ _ (State.writeOwn_keeps _ _ _ _ (State.newBlock_some h hb))) hq

theorem State.forkSeq_ok {s0 s t : State} {d k} (h : Keeps s0 s) (hq : State.forkSeq s d k = .ok t) : Keeps s0 t := by
  unfold State.forkSeq at hq
  split at hq
  extract_lets tokens n pages at hq
  split at hq
  · cases hq
  · split at hq
    · cases hq
    · split at hq
      · cases hq
      · rename_i s' b hb
        have h1 : Keeps s0 s' := by
          cases hn : s.newBlock d.id k with
          | none => rw [hn] at hb; cases hb
          | some y =>
            rw [hn] at hb
            simp only [Option.bind_some, Option.map_eq_some_iff] at hb
            obtain ⟨u, hu, hb⟩ := hb
            cases hb
            exact State.copyLeaves_some (State.newBlock_some h hn) hu
        split at hq
        · cases hq
        · cases hq
          refine State.commitSeq_keeps _ _ _ _ _ (Keeps.foldl ?_ h1)
          intro s x hs
          exact State.setInfo_keeps _ _ _ _ _ hs

theorem State.truncateSeq_keeps {s0 s : State} (x2 x3) (h : Keeps s0 s) : Keeps s0 (State.truncateSeq s x2 x3).1 := by
  unfold State.truncateSeq
  repeat' first
    | with_reducible assumption
    | (extract_lets +onlyGivenNames x; )
    | with_reducible apply State.commitSeq_keeps
    | with_reducible apply State.unuseBlock_keeps
    | with_reducible apply State.unrefPage_keeps
    | with_reducible apply State.writeOwn_keeps
    | (with_reducible apply Keeps.foldl; intro _ _ _)
    | split

theorem State.forkStep_keeps {s0 s : State} (x2 x3) (h : Keeps s0 s) (hf : ∀ s d k, Keeps s0 s → Keeps s0 (x3 s d k).1) : Keeps s0 (State.forkStep s x2 x3) := by
  unfold State.forkStep
  repeat' first
    | with_reducible assumption
    | (extract_lets +onlyGivenNames x; )
    | with_reducible apply State.stop_keeps
    | with_reducible apply State.readyRead_keeps
    | with_reducible apply State.complete_keeps
    | with_reducible apply State.setDesc_keeps
    | with_reducible apply hf
    | split
    | intro _
    | with_reducible refine Keeps.of_fst ?_ (by with_reducible assumption)

theorem execKvFork_ends {s0 s : State} (x1) (h : Keeps s0 s) : EndsIn Keeps s0 (execKvFork x1 s) := by
  unfold execKvFork
  repeat' first
    | with_reducible assumption
    | (extract_lets +onlyGivenNames x; )
    | with_reducible apply State.forkStep_keeps
    | with_reducible refine State.forkSeq_ok ?_ (by with_reducible assumption)
    | with_reducible apply State.stop_keeps
    | with_reducible apply State.workMode_keeps
    | with_reducible apply EndsIn.next
    | split
    | intro _

theorem execKvTruncate_ends {s0 s : State} (x1) (h : Keeps s0 s) : EndsIn Keeps s0 (execKvTruncate x1 s) := by
  unfold execKvTruncate
  repeat' first
    | with_reducible assumption
    | (extract_lets +onlyGivenNames x; )
    | with_reducible apply State.forkStep_keeps
    | with_reducible apply State.truncateSeq_keeps
    | with_reducible apply State.stop_keeps
    | with_reducible apply State.workMode_keeps
    | with_reducible apply EndsIn.next
    | split
    | intro _

theorem opKvGather_kept : DescOp.Kept opKvGather := by
  intro s0 s d h
  unfold opKvGather
  repeat' first
    | with_reducible assumption
    | with_reducible apply State.snapBind_keeps

theorem State.kvBegin_keeps {s0 s : State} (x2 x3) (h : Keeps s0 s) : Keeps s0 (State.kvBegin s x2 x3) := by
  unfold State.kvBegin
  repeat' first
    | with_reducible assumption
    | (extract_lets +onlyGivenNames x; )
    | with_reducible apply State.poisonFault_keeps
    | with_reducible apply State.touchPieces_keeps
    | with_reducible apply State.readyRead_keeps
    | with_reducible apply State.setDesc_keeps
    | split
    | intro _
    | with_reducible refine Keeps.of_fst ?_ (by with_reducible assumption)

theorem State.demote_keeps {s0 s : State} (x2) (h : Keeps s0 s) : Keeps s0 (State.demote s x2) := by
  unfold State.demote
  repeat' first
    | with_reducible assumption
    | (extract_lets +onlyGivenNames x; )
    | split
    | intro _
    | (conv => enter [2, 26]); with_reducible refine Keeps.but ?_ rfl

theorem State.kvRun_keeps {s0 s : State} (x2 x3 x4 x5 x6 x7 x8 x9 x10) (h : Keeps s0 s) : Keeps s0 (State.kvRun s x2 x3 x4 x5 x6 x7 x8 x9 x10) := by
  unfold State.kvRun
  repeat' first
    | with_reducible assumption
    | (extract_lets +onlyGivenNames x; )
    | with_reducible apply State.writeRange_keeps
    | with_reducible apply State.setDesc_keeps
    | split

theorem State.kvMask_keeps {s0 s : State} (x2 x3 x4) (h : Keeps s0 s) : Keeps s0 (State.kvMask s x2 x3 x4) := by
  unfold State.kvMask
  repeat' first
    | with_reducible assumption
    | (extract_lets +onlyGivenNames x; )
    | with_reducible apply State.writeRange_keeps

theorem State.kvPage_keeps {s0 s : State} (x2 x3 x4 x5 x6) (h : Keeps s0 s) : Keeps s0 (State.kvPage s x2 x3 x4 x5 x6) := by
  unfold State.kvPage
  repeat' first
    | with_reducible assumption
    | (extract_lets +onlyGivenNames x; )
    | with_reducible apply State.kvMask_keeps
    | with_reducible apply State.kvRun_keeps
    | with_reducible apply State.demote_keeps
    | with_reducible apply State.setDesc_keeps
    | (with_reducible apply Keeps.foldl; intro _ _ _)
    | split
    | intro _
    | with_reducible refine Keeps.of_fst ?_ (by with_reducible assumption)
    | unfold x
    | dsimp only
    | dsimp +zetaDelta only

theorem State.kvNext_keeps {s0 s : State} (x2 x3) (h : Keeps s0 s) : Keeps s0 (State.kvNext s x2 x3) := by
  unfold State.kvNext
  repeat' first
    | with_reducible assumption
    | (extract_lets +onlyGivenNames x; )
    | with_reducible apply State.kvPage_keeps
    | with_reducible apply State.touchPieces_keeps
    | with_reducible apply State.readyWrite_keeps
    | with_reducible apply State.readyRead_keeps
    | with_reducible apply State.joinMiss_keeps
    | with_reducible apply State.sample_keeps
    | (with_reducible apply Keeps.foldl; intro _ _ _)
    | split
    | intro _
    | with_reducible refine Keeps.of_fst ?_ (by with_reducible assumption)

theorem State.kvEnd_keeps {s0 s : State} (x2) (h : Keeps s0 s) : Keeps s0 (State.kvEnd s x2) := by
  unfold State.kvEnd
  repeat' first
    | with_reducible assumption
    | (extract_lets +onlyGivenNames x; )
    | with_reducible apply State.ok_keeps
    | with_reducible apply State.finish_keeps
    | split

theorem State.kvStop_keeps {s0 s : State} (x2 x3 x4) (h : Keeps s0 s) : Keeps s0 (State.kvStop s x2 x3 x4) := by
  unfold State.kvStop
  repeat' first
    | with_reducible assumption
    | (extract_lets +onlyGivenNames x; )
    | with_reducible apply State.finish_keeps

theorem execKvGather_ends {s0 s : State} (x1) (h : Keeps s0 s) : EndsIn Keeps s0 (execKvGather x1 s) := by
  unfold execKvGather
  repeat' first
    | with_reducible assumption
    | (extract_lets +onlyGivenNames x; )
    | with_reducible apply State.kvStop_keeps
    | with_reducible apply State.kvEnd_keeps
    | with_reducible apply State.kvNext_keeps
    | with_reducible apply State.kvBegin_keeps
    | with_reducible apply State.work_keeps
    | with_reducible apply EndsIn.next
    | split
    | intro _
    | with_reducible refine Keeps.of_fst ?_ (by with_reducible assumption)
    | unfold x

end Sys2Proof.Machine
end

