-- ==== Sys2Proof/Laws/KeepsDeep.lean ====
section
/-! SUPPORT. What the operations of Deep leave in force. -/

set_option linter.tactic.unusedName false

namespace Sys2Proof.Machine

theorem State.setDie_keeps {s0 s : State} (x2 x3) (h : Keeps s0 s) : Keeps s0 (State.setDie s x2 x3) := by
  unfold State.setDie
  repeat' first
    | with_reducible assumption
    | (extract_lets +onlyGivenNames x; )
    | split
    | intro _
    | (conv => enter [2, 26]); with_reducible refine Keeps.but ?_ rfl

theorem State.programmed_keeps {s0 s : State} (x2) (h : Keeps s0 s) : Keeps s0 (State.programmed s x2) := by
  unfold State.programmed
  repeat' first
    | with_reducible assumption
    | with_reducible apply State.count_keeps

theorem State.place_some {s0 s t : State} {y} {x2} (h : Keeps s0 s) (hq : State.place s x2 = some (t, y)) : Keeps s0 t := by
  unfold State.place at hq
  try dsimp only at hq
  repeat' split at hq
  all_goals try simp only [Option.some.injEq, Prod.mk.injEq, reduceCtorEq] at hq
  all_goals first
    | exact hq.elim
    | (obtain ⟨hq, -⟩ := hq; subst hq)
  repeat' first
    | with_reducible assumption
    | (extract_lets +onlyGivenNames x; )
    | with_reducible apply State.programmed_keeps
    | split
    | intro _
    | (conv => enter [2, 26]); with_reducible refine Keeps.but ?_ rfl

theorem State.releasePage_keeps {s0 s : State} (x2 x3) (h : Keeps s0 s) : Keeps s0 (State.releasePage s x2 x3) := by
  unfold State.releasePage
  repeat' first
    | with_reducible assumption
    | (extract_lets +onlyGivenNames x; )
    | with_reducible apply State.setDie_keeps
    | split
    | intro _
    | (conv => enter [2, 26]); with_reducible refine Keeps.but ?_ rfl
    | with_reducible refine Keeps.of_fst ?_ (by with_reducible assumption)
    | unfold x

theorem State.unmap_keeps {s0 s : State} (x2) (h : Keeps s0 s) : Keeps s0 (State.unmap s x2) := by
  unfold State.unmap
  repeat' first
    | with_reducible assumption
    | (extract_lets +onlyGivenNames x; )
    | with_reducible apply State.releasePage_keeps
    | split
    | intro _
    | (conv => enter [2, 26]); with_reducible refine Keeps.but ?_ rfl

theorem State.zeroFill_keeps {s0 s : State} (x2 x3) (h : Keeps s0 s) : Keeps s0 (State.zeroFill s x2 x3) := by
  unfold State.zeroFill
  repeat' first
    | with_reducible assumption
    | (extract_lets +onlyGivenNames x; )
    | with_reducible apply State.unmap_keeps
    | with_reducible apply State.dropRows_keeps
    | (with_reducible apply Keeps.foldl; intro _ _ _)
    | split
    | intro _
    | (conv => enter [2, 26]); with_reducible refine Keeps.butMem ?_ Mem.wf_clear
    | with_reducible refine Keeps.of_fst ?_ (by with_reducible assumption)
    | unfold x

theorem State.answerWaiter_keeps {s0 s : State} (x2) (h : Keeps s0 s) : Keeps s0 (State.answerWaiter s x2) := by
  unfold State.answerWaiter
  repeat' first
    | with_reducible assumption
    | (extract_lets +onlyGivenNames x; )
    | with_reducible apply State.serveRow_keeps
    | with_reducible apply State.releaseAgent_keeps
    | with_reducible apply State.hostAnswer_keeps
    | with_reducible apply State.answerRead_keeps
    | split
    | intro _
    | with_reducible refine Keeps.of_fst ?_ (by with_reducible assumption)
    | unfold x

theorem State.seatGranule_keeps {s0 s : State} (x2) (h : Keeps s0 s) : Keeps s0 (State.seatGranule s x2) := by
  unfold State.seatGranule
  repeat' first
    | with_reducible assumption
    | (extract_lets +onlyGivenNames x; )
    | with_reducible apply State.mirrorDirty_keeps
    | split
    | intro _
    | (conv => enter [2, 26]); with_reducible refine Keeps.but ?_ rfl

theorem execHarbourFill_ends {s0 s : State} (x1) (h : Keeps s0 s) : EndsIn Keeps s0 (execHarbourFill x1 s) := by
  unfold execHarbourFill
  repeat' first
    | with_reducible assumption
    | (extract_lets +onlyGivenNames x; )
    | with_reducible apply State.seatGranule_keeps
    | with_reducible apply State.answerWaiter_keeps
    | with_reducible apply State.releasePage_keeps
    | with_reducible apply EndsIn.next
    | (with_reducible apply Keeps.foldl; intro _ _ _)
    | split
    | intro _
    | (conv => enter [2, 26]); with_reducible refine Keeps.but ?_ rfl
    | with_reducible refine Keeps.of_fst ?_ (by with_reducible assumption)
    | unfold x
    | dsimp only
    | dsimp +zetaDelta only

theorem execWayAvailable_ends {s0 s : State} (x1) (h : Keeps s0 s) : EndsIn Keeps s0 (execWayAvailable x1 s) := by
  unfold execWayAvailable
  repeat' first
    | with_reducible assumption
    | (extract_lets +onlyGivenNames x; )
    | with_reducible apply State.seatGranule_keeps
    | with_reducible apply EndsIn.next
    | split

theorem State.enqueueWrite_some {s0 s t : State} {x2 x3 x4} (h : Keeps s0 s) (hq : State.enqueueWrite s x2 x3 x4 = some t) : Keeps s0 t := by
  unfold State.enqueueWrite at hq
  try dsimp only at hq
  repeat' split at hq
  all_goals try simp only [Option.some.injEq, Prod.mk.injEq, reduceCtorEq] at hq
  all_goals first
    | exact hq.elim
    | subst hq
  repeat' first
    | with_reducible assumption
    | (extract_lets +onlyGivenNames x; )
    | with_reducible refine State.place_some ?_ (by with_reducible assumption)
    | with_reducible apply State.count_keeps
    | split
    | intro _
    | (conv => enter [2, 26]); with_reducible refine Keeps.but ?_ rfl

theorem State.dropWay_keeps {s0 s : State} (x2) (h : Keeps s0 s) : Keeps s0 (State.dropWay s x2) := by
  unfold State.dropWay
  repeat' first
    | with_reducible assumption
    | (extract_lets +onlyGivenNames x; )
    | split
    | intro _
    | (conv => enter [2, 26]); with_reducible refine Keeps.but ?_ rfl

theorem State.cleanWay_keeps {s0 s : State} (x2) (h : Keeps s0 s) : Keeps s0 (State.cleanWay s x2) := by
  unfold State.cleanWay
  repeat' first
    | with_reducible assumption
    | (extract_lets +onlyGivenNames x; )
    | split
    | intro _
    | (conv => enter [2, 26]); with_reducible refine Keeps.but ?_ rfl

theorem execWriteBack_ends {s0 s : State} (x1 x2 x3) (h : Keeps s0 s) : EndsIn Keeps s0 (execWriteBack x1 x2 x3 s) := by
  unfold execWriteBack
  repeat' first
    | with_reducible assumption
    | (extract_lets +onlyGivenNames x; )
    | with_reducible apply State.dropWay_keeps
    | with_reducible refine State.enqueueWrite_some ?_ (by with_reducible assumption)
    | with_reducible apply EndsIn.next
    | split

theorem execMirrorWriteBack_ends {s0 s : State} (x1 x2) (h : Keeps s0 s) : EndsIn Keeps s0 (execMirrorWriteBack x1 x2 s) := by
  unfold execMirrorWriteBack
  repeat' first
    | with_reducible assumption
    | (extract_lets +onlyGivenNames x; )
    | with_reducible apply State.cleanWay_keeps
    | with_reducible refine State.enqueueWrite_some ?_ (by with_reducible assumption)
    | with_reducible apply EndsIn.next
    | split

theorem execMigrationGranule_ends {s0 s : State} (x1 x2 x3 x4) (h : Keeps s0 s) : EndsIn Keeps s0 (execMigrationGranule x1 x2 x3 x4 s) := by
  unfold execMigrationGranule
  repeat' first
    | with_reducible assumption
    | (extract_lets +onlyGivenNames x; )
    | with_reducible apply State.dropWay_keeps
    | with_reducible refine State.enqueueWrite_some ?_ (by with_reducible assumption)
    | with_reducible apply State.joinMiss_keeps
    | with_reducible apply EndsIn.next
    | split
    | intro _
    | (conv => enter [2, 26]); with_reducible refine Keeps.but ?_ rfl
    | with_reducible refine Keeps.of_fst ?_ (by with_reducible assumption)
    | unfold x
    | dsimp only
    | dsimp +zetaDelta only

theorem execHarbourScrub_ends {s0 s : State} (x1 x2 x3) (h : Keeps s0 s) : EndsIn Keeps s0 (execHarbourScrub x1 x2 x3 s) := by
  unfold execHarbourScrub
  repeat' first
    | with_reducible assumption
    | (extract_lets +onlyGivenNames x; )
    | with_reducible apply State.report_keeps
    | with_reducible apply State.poisonSectors_keeps
    | with_reducible apply State.count_keeps
    | with_reducible apply EndsIn.next
    | split
    | intro _
    | with_reducible refine Keeps.of_fst ?_ (by with_reducible assumption)
    | unfold x
    | dsimp only
    | dsimp +zetaDelta only

theorem State.lateWaiters_keeps {s0 s : State} (x2) (h : Keeps s0 s) : Keeps s0 (State.lateWaiters s x2) := by
  unfold State.lateWaiters
  repeat' first
    | with_reducible assumption
    | (extract_lets +onlyGivenNames x; )
    | with_reducible apply State.setDesc_keeps
    | (with_reducible apply Keeps.foldl; intro _ _ _)

theorem State.setRead_keeps {s0 s : State} (x2 x3) (h : Keeps s0 s) : Keeps s0 (State.setRead s x2 x3) := by
  unfold State.setRead
  repeat' first
    | with_reducible assumption
    | (extract_lets +onlyGivenNames x; )
    | split
    | intro _
    | (conv => enter [2, 26]); with_reducible refine Keeps.but ?_ rfl

theorem execNandReadDone_ends {s0 s : State} (x1 x2 x3) (h : Keeps s0 s) : EndsIn Keeps s0 (execNandReadDone x1 x2 x3 s) := by
  unfold execNandReadDone
  repeat' first
    | with_reducible assumption
    | (extract_lets +onlyGivenNames x; )
    | with_reducible apply State.setRead_keeps
    | with_reducible apply State.lateWaiters_keeps
    | with_reducible apply State.report_keeps
    | with_reducible apply State.count_keeps
    | with_reducible apply EndsIn.next
    | split
    | intro _
    | (conv => enter [2, 26]); with_reducible refine Keeps.but ?_ rfl
    | with_reducible refine Keeps.of_fst ?_ (by with_reducible assumption)
    | unfold x
    | dsimp only
    | dsimp +zetaDelta only

theorem State.failWaiter_keeps {s0 s : State} (x2 x3) (h : Keeps s0 s) : Keeps s0 (State.failWaiter s x2 x3) := by
  unfold State.failWaiter
  repeat' first
    | with_reducible assumption
    | (extract_lets +onlyGivenNames x; )
    | with_reducible apply State.failDesc_keeps
    | with_reducible apply State.releaseAgent_keeps
    | with_reducible apply State.hostAnswer_keeps
    | with_reducible apply State.refuse_keeps
    | split

theorem execGranuleLost_ends {s0 s : State} (x1) (h : Keeps s0 s) : EndsIn Keeps s0 (execGranuleLost x1 s) := by
  unfold execGranuleLost
  repeat' first
    | with_reducible assumption
    | (extract_lets +onlyGivenNames x; )
    | with_reducible apply State.failWaiter_keeps
    | with_reducible apply State.seatGranule_keeps
    | with_reducible apply State.releasePage_keeps
    | with_reducible apply State.report_keeps
    | with_reducible apply State.count_keeps
    | with_reducible apply EndsIn.next
    | (with_reducible apply Keeps.foldl; intro _ _ _)
    | split
    | intro _
    | (conv => enter [2, 26]); with_reducible refine Keeps.but ?_ rfl
    | with_reducible refine Keeps.of_fst ?_ (by with_reducible assumption)
    | unfold x
    | dsimp only
    | dsimp +zetaDelta only

theorem execNandSuspend_ends {s0 s : State} (x1) (h : Keeps s0 s) : EndsIn Keeps s0 (execNandSuspend x1 s) := by
  unfold execNandSuspend
  repeat' first
    | with_reducible assumption
    | (extract_lets +onlyGivenNames x; )
    | with_reducible apply State.setDie_keeps
    | with_reducible apply EndsIn.next
    | split

theorem execNandResume_ends {s0 s : State} (x1) (h : Keeps s0 s) : EndsIn Keeps s0 (execNandResume x1 s) := by
  unfold execNandResume
  repeat' first
    | with_reducible assumption
    | (extract_lets +onlyGivenNames x; )
    | with_reducible apply State.setDie_keeps
    | with_reducible apply EndsIn.next
    | split

theorem State.failNand_keeps {s0 s : State} (x2) (h : Keeps s0 s) : Keeps s0 (State.failNand s x2) := by
  unfold State.failNand
  repeat' first
    | with_reducible assumption
    | (extract_lets +onlyGivenNames x; )
    | with_reducible apply State.report_keeps
    | split
    | intro _
    | (conv => enter [2, 26]); with_reducible refine Keeps.but ?_ rfl
    | with_reducible refine Keeps.of_fst ?_ (by with_reducible assumption)
    | unfold x
    | dsimp only
    | dsimp +zetaDelta only

theorem execNandUnitFail_ends {s0 s : State} (x1) (h : Keeps s0 s) : EndsIn Keeps s0 (execNandUnitFail x1 s) := by
  unfold execNandUnitFail
  repeat' first
    | with_reducible assumption
    | (extract_lets +onlyGivenNames x; )
    | with_reducible apply State.failNand_keeps
    | with_reducible apply State.singleFault_keeps
    | with_reducible apply EndsIn.next
    | split

theorem State.retireBlock_keeps {s0 s : State} (x2 x3) (h : Keeps s0 s) : Keeps s0 (State.retireBlock s x2 x3) := by
  unfold State.retireBlock
  repeat' first
    | with_reducible assumption
    | (extract_lets +onlyGivenNames x; )
    | with_reducible apply State.failNand_keeps
    | with_reducible apply State.setDie_keeps
    | with_reducible apply State.report_keeps
    | split

theorem State.moveMap_keeps {s0 s : State} (x2) (h : Keeps s0 s) : Keeps s0 (State.moveMap s x2) := by
  unfold State.moveMap
  repeat' first
    | with_reducible assumption
    | (extract_lets +onlyGivenNames x; )
    | with_reducible apply State.releasePage_keeps
    | split
    | intro _
    | (conv => enter [2, 26]); with_reducible refine Keeps.but ?_ rfl
    | with_reducible refine Keeps.of_fst ?_ (by with_reducible assumption)
    | unfold x
    | dsimp only
    | dsimp +zetaDelta only

theorem execNandProgramDone_ends {s0 s : State} (x1 x2 x3 x4 x5) (h : Keeps s0 s) : EndsIn Keeps s0 (execNandProgramDone x1 x2 x3 x4 x5 s) := by
  unfold execNandProgramDone
  repeat' first
    | with_reducible assumption
    | (extract_lets +onlyGivenNames x; )
    | with_reducible apply State.moveMap_keeps
    | with_reducible apply State.retireBlock_keeps
    | with_reducible refine State.place_some ?_ (by with_reducible assumption)
    | with_reducible apply State.programmed_keeps
    | with_reducible apply EndsIn.next
    | split
    | intro _
    | (conv => enter [2, 26]); with_reducible refine Keeps.but ?_ rfl
    | with_reducible refine Keeps.of_fst ?_ (by with_reducible assumption)
    | unfold x

theorem execNandEraseDone_ends {s0 s : State} (x1 x2 x3) (h : Keeps s0 s) : EndsIn Keeps s0 (execNandEraseDone x1 x2 x3 s) := by
  unfold execNandEraseDone
  repeat' first
    | with_reducible assumption
    | (extract_lets +onlyGivenNames x; )
    | with_reducible apply State.retireBlock_keeps
    | with_reducible apply State.setDie_keeps
    | with_reducible apply EndsIn.next
    | split

theorem State.movePage_keeps {s0 s : State} (x2 x3 x4) (h : Keeps s0 s) : Keeps s0 (State.movePage s x2 x3 x4) := by
  unfold State.movePage
  repeat' first
    | with_reducible assumption
    | (extract_lets +onlyGivenNames x; )
    | with_reducible apply State.moveMap_keeps
    | with_reducible refine State.place_some ?_ (by with_reducible assumption)
    | with_reducible apply State.programmed_keeps
    | split

theorem execReclaim_ends {s0 s : State} (x1 x2 x3) (h : Keeps s0 s) : EndsIn Keeps s0 (execReclaim x1 x2 x3 s) := by
  unfold execReclaim
  repeat' first
    | with_reducible assumption
    | (extract_lets +onlyGivenNames x; )
    | with_reducible apply State.movePage_keeps
    | with_reducible apply EndsIn.next
    | split

theorem execWearLevelling_ends {s0 s : State} (x1 x2 x3) (h : Keeps s0 s) : EndsIn Keeps s0 (execWearLevelling x1 x2 x3 s) := by
  unfold execWearLevelling
  repeat' first
    | with_reducible assumption
    | (extract_lets +onlyGivenNames x; )
    | with_reducible apply State.movePage_keeps
    | with_reducible apply EndsIn.next
    | split

theorem execRetentionRefresh_ends {s0 s : State} (x1 x2 x3 x4 x5) (h : Keeps s0 s) : EndsIn Keeps s0 (execRetentionRefresh x1 x2 x3 x4 x5 s) := by
  unfold execRetentionRefresh
  repeat' first
    | with_reducible assumption
    | (extract_lets +onlyGivenNames x; )
    | with_reducible apply State.movePage_keeps
    | with_reducible apply State.retireBlock_keeps
    | with_reducible apply EndsIn.next
    | split

theorem execRestriping_ends {s0 s : State} (x1 x2 x3) (h : Keeps s0 s) : EndsIn Keeps s0 (execRestriping x1 x2 x3 s) := by
  unfold execRestriping
  repeat' first
    | with_reducible assumption
    | (extract_lets +onlyGivenNames x; )
    | with_reducible apply State.movePage_keeps
    | with_reducible apply EndsIn.next
    | split

theorem State.saveWear_keeps {s0 s : State} (x2) (h : Keeps s0 s) : Keeps s0 (State.saveWear s x2) := by
  unfold State.saveWear
  repeat' first
    | with_reducible assumption
    | with_reducible apply State.setDie_keeps

theorem execWearRecordWrite_ends {s0 s : State} (x1) (h : Keeps s0 s) : EndsIn Keeps s0 (execWearRecordWrite x1 s) := by
  unfold execWearRecordWrite
  repeat' first
    | with_reducible assumption
    | (extract_lets +onlyGivenNames x; )
    | with_reducible apply State.saveWear_keeps
    | with_reducible apply State.programmed_keeps
    | with_reducible apply EndsIn.next
    | split

end Sys2Proof.Machine
end

