-- ==== Sys2Proof/Laws/KeepsSearch.lean ====
section
/-! SUPPORT. What the operations of Search leave in force. -/

set_option linter.tactic.unusedName false

namespace Sys2Proof.Machine

theorem opIndexCreate_kept : RelasOp.Kept opIndexCreate := by
  intro s0 s c k h
  unfold opIndexCreate
  repeat' first
    | with_reducible assumption
    | (extract_lets +onlyGivenNames x; )
    | split
    | intro _
    | (conv => enter [2, 26]); with_reducible refine Keeps.but ?_ rfl
    | with_reducible refine Keeps.of_fst ?_ (by with_reducible assumption)
    | unfold x
    | dsimp only

theorem opIndexDestroy_kept : RelasOp.Kept opIndexDestroy := by
  intro s0 s c k h
  unfold opIndexDestroy
  repeat' first
    | with_reducible assumption
    | with_reducible apply State.setIndex_keeps

theorem State.dropIndex_keeps {s0 s : State} (x2) (h : Keeps s0 s) : Keeps s0 (State.dropIndex s x2) := by
  unfold State.dropIndex
  repeat' first
    | with_reducible assumption
    | (extract_lets +onlyGivenNames x; )
    | split
    | intro _
    | (conv => enter [2, 26]); with_reducible refine Keeps.but ?_ rfl

theorem opIndexQuery_kept : RelasOp.Kept opIndexQuery := by
  intro s0 s c k h
  unfold opIndexQuery
  repeat' first
    | with_reducible assumption
    | split
    | intro _
    | with_reducible refine Keeps.of_fst ?_ (by with_reducible assumption)
    | unfold x
    | dsimp only

theorem State.appendItem_keeps {s0 s : State} (x2 x3 x4 x5 x6 x7 x8) (h : Keeps s0 s) : Keeps s0 (State.appendItem s x2 x3 x4 x5 x6 x7 x8) := by
  unfold State.appendItem
  repeat' first
    | with_reducible assumption
    | (extract_lets +onlyGivenNames x; )
    | with_reducible apply State.setIndex_keeps
    | split

theorem State.vecEnd_keeps {s0 s : State} (x2) (h : Keeps s0 s) : Keeps s0 (State.vecEnd s x2) := by
  unfold State.vecEnd
  repeat' first
    | with_reducible assumption
    | (extract_lets +onlyGivenNames x; )
    | with_reducible apply State.ok_keeps
    | with_reducible apply State.finish_keeps
    | split

theorem State.outcome_keeps {s0 s : State} (x2 x3 x4 x5 x6) (h : Keeps s0 s) : Keeps s0 (State.outcome s x2 x3 x4 x5 x6) := by
  unfold State.outcome
  repeat' first
    | with_reducible assumption
    | (extract_lets +onlyGivenNames x; )
    | with_reducible apply State.writeRange_keeps
    | with_reducible apply State.setDesc_keeps

theorem opInsertVec_kept : DescOp.Kept opInsertVec := by
  intro s0 s d h
  unfold opInsertVec
  repeat' first
    | with_reducible assumption

theorem State.insertOne_keeps {s0 s : State} (x2 x3) (h : Keeps s0 s) : Keeps s0 (State.insertOne s x2 x3) := by
  unfold State.insertOne
  repeat' first
    | with_reducible assumption
    | (extract_lets +onlyGivenNames x; )
    | with_reducible apply State.outcome_keeps
    | with_reducible apply State.appendItem_keeps
    | with_reducible apply State.poisonFault_keeps
    | with_reducible apply State.touchPieces_keeps
    | with_reducible apply State.readyWrite_keeps
    | with_reducible apply State.readyRead_keeps
    | split
    | intro _
    | with_reducible refine Keeps.of_fst ?_ (by with_reducible assumption)

theorem State.vecStop_keeps {s0 s : State} (x2 x3 x4) (h : Keeps s0 s) : Keeps s0 (State.vecStop s x2 x3 x4) := by
  unfold State.vecStop
  repeat' first
    | with_reducible assumption
    | with_reducible apply State.finish_keeps

theorem State.vecStep_keeps {s0 s : State} (x2 x3) (h : Keeps s0 s) (hf : ∀ d x, Keeps s0 (x3 d x)) : Keeps s0 (State.vecStep s x2 x3) := by
  unfold State.vecStep
  repeat' first
    | with_reducible assumption
    | (extract_lets +onlyGivenNames x; )
    | with_reducible apply State.vecStop_keeps
    | with_reducible apply State.vecEnd_keeps
    | (with_reducible apply hf)
    | split
    | intro _
    | with_reducible refine Keeps.of_fst ?_ (by with_reducible assumption)
    | unfold x

theorem execInsertVec_ends {s0 s : State} (x1) (h : Keeps s0 s) : EndsIn Keeps s0 (execInsertVec x1 s) := by
  unfold execInsertVec
  repeat' first
    | with_reducible assumption
    | (extract_lets +onlyGivenNames x; )
    | with_reducible apply State.vecStep_keeps
    | with_reducible apply State.vecStop_keeps
    | with_reducible apply State.insertOne_keeps
    | with_reducible apply State.work_keeps
    | with_reducible apply EndsIn.next
    | split
    | intro _

theorem opDeleteVec_kept : DescOp.Kept opDeleteVec := by
  intro s0 s d h
  unfold opDeleteVec
  repeat' first
    | with_reducible assumption

theorem State.deleteOne_keeps {s0 s : State} (x2 x3) (h : Keeps s0 s) : Keeps s0 (State.deleteOne s x2 x3) := by
  unfold State.deleteOne
  repeat' first
    | with_reducible assumption
    | (extract_lets +onlyGivenNames x; )
    | with_reducible apply State.outcome_keeps
    | with_reducible apply State.appendItem_keeps
    | with_reducible apply State.poisonFault_keeps
    | with_reducible apply State.touchPieces_keeps
    | with_reducible apply State.readyWrite_keeps
    | with_reducible apply State.readyRead_keeps
    | split
    | intro _
    | with_reducible refine Keeps.of_fst ?_ (by with_reducible assumption)

theorem execDeleteVec_ends {s0 s : State} (x1) (h : Keeps s0 s) : EndsIn Keeps s0 (execDeleteVec x1 s) := by
  unfold execDeleteVec
  repeat' first
    | with_reducible assumption
    | (extract_lets +onlyGivenNames x; )
    | with_reducible apply State.deleteOne_keeps
    | with_reducible apply State.vecStep_keeps
    | with_reducible apply State.vecStop_keeps
    | with_reducible apply State.work_keeps
    | with_reducible apply EndsIn.next
    | split
    | intro _

theorem opMergeDriftline_kept : DescOp.Kept opMergeDriftline := by
  intro s0 s d h
  unfold opMergeDriftline
  repeat' first
    | with_reducible assumption

theorem State.mergeList_keeps {s0 s : State} (x2 x3) (h : Keeps s0 s) : Keeps s0 (State.mergeList s x2 x3).1 := by
  unfold State.mergeList
  repeat' first
    | with_reducible assumption
    | (extract_lets +onlyGivenNames x; )
    | with_reducible apply State.setIndex_keeps
    | split

theorem State.mergeStop_keeps {s0 s : State} (x2 x3 x4) (h : Keeps s0 s) : Keeps s0 (State.mergeStop s x2 x3 x4) := by
  unfold State.mergeStop
  repeat' first
    | with_reducible assumption
    | with_reducible apply State.finish_keeps

theorem execMergeDriftline_ends {s0 s : State} (x1) (h : Keeps s0 s) : EndsIn Keeps s0 (execMergeDriftline x1 s) := by
  unfold execMergeDriftline
  repeat' first
    | with_reducible assumption
    | (extract_lets +onlyGivenNames x; )
    | with_reducible apply State.mergeStop_keeps
    | with_reducible apply State.mergeList_keeps
    | with_reducible apply State.work_keeps
    | with_reducible apply State.setDesc_keeps
    | with_reducible apply EndsIn.next
    | split
    | intro _
    | with_reducible refine Keeps.of_fst ?_ (by with_reducible assumption)

theorem execDriftlineAutoMerge_ends {s0 s : State} (x1 x2) (h : Keeps s0 s) : EndsIn Keeps s0 (execDriftlineAutoMerge x1 x2 s) := by
  unfold execDriftlineAutoMerge
  repeat' first
    | with_reducible assumption
    | (extract_lets +onlyGivenNames x; )
    | with_reducible apply State.mergeList_keeps
    | with_reducible apply EndsIn.next
    | split

theorem opSearch_kept : DescOp.Kept opSearch := by
  intro s0 s d h
  unfold opSearch
  repeat' first
    | with_reducible assumption
    | (extract_lets +onlyGivenNames x; )
    | with_reducible apply State.snapBind_keeps
    | with_reducible apply State.setDesc_keeps
    | split
    | intro _
    | with_reducible refine Keeps.of_fst ?_ (by with_reducible assumption)
    | unfold x
    | dsimp only

theorem State.sendSearch_keeps {s0 s : State} (x2 x3 x4 x5 x6 x7) (h : Keeps s0 s) : Keeps s0 (State.sendSearch s x2 x3 x4 x5 x6 x7) := by
  unfold State.sendSearch
  repeat' first
    | with_reducible assumption
    | (extract_lets +onlyGivenNames x; )
    | with_reducible apply State.failDesc_keeps
    | with_reducible apply State.addOutstanding_keeps
    | with_reducible apply State.forward_keeps
    | with_reducible apply State.setDesc_keeps
    | split
    | intro _
    | with_reducible refine Keeps.of_fst ?_ (by with_reducible assumption)

theorem State.searchBegin_keeps {s0 s : State} (x2 x3 x4) (h : Keeps s0 s) : Keeps s0 (State.searchBegin s x2 x3 x4) := by
  unfold State.searchBegin
  repeat' first
    | with_reducible assumption
    | (extract_lets +onlyGivenNames x; )
    | with_reducible apply State.sendSearch_keeps
    | with_reducible apply State.poisonFault_keeps
    | with_reducible apply State.touchPieces_keeps
    | with_reducible apply State.readyRead_keeps
    | with_reducible apply State.setDesc_keeps
    | (with_reducible apply Keeps.foldl; intro _ _ _)
    | split
    | intro _
    | with_reducible refine Keeps.of_fst ?_ (by with_reducible assumption)

theorem State.writeHits_keeps {s0 s : State} (x2 x3 x4) (h : Keeps s0 s) : Keeps s0 (State.writeHits s x2 x3 x4) := by
  unfold State.writeHits
  repeat' first
    | with_reducible assumption
    | (extract_lets +onlyGivenNames x; )
    | with_reducible apply State.writeRange_keeps
    | with_reducible apply State.setDesc_keeps

theorem State.searchEnd_keeps {s0 s : State} (x2) (h : Keeps s0 s) : Keeps s0 (State.searchEnd s x2) := by
  unfold State.searchEnd
  repeat' first
    | with_reducible assumption
    | (extract_lets +onlyGivenNames x; )
    | with_reducible apply State.ok_keeps
    | with_reducible apply State.finish_keeps
    | with_reducible apply State.consume_keeps
    | split
    | intro _
    | with_reducible refine Keeps.of_fst ?_ (by with_reducible assumption)
    | unfold x

theorem State.searchQuery_keeps {s0 s : State} (x2 x3 x4) (h : Keeps s0 s) : Keeps s0 (State.searchQuery s x2 x3 x4) := by
  unfold State.searchQuery
  repeat' first
    | with_reducible assumption
    | (extract_lets +onlyGivenNames x; )
    | with_reducible apply State.writeHits_keeps
    | with_reducible apply State.runQuery_keeps
    | with_reducible apply State.readyWrite_keeps
    | split
    | intro _
    | with_reducible refine Keeps.of_fst ?_ (by with_reducible assumption)

theorem State.searchStop_keeps {s0 s : State} (x2 x3 x4) (h : Keeps s0 s) : Keeps s0 (State.searchStop s x2 x3 x4) := by
  unfold State.searchStop
  repeat' first
    | with_reducible assumption
    | with_reducible apply State.finish_keeps

theorem execSearch_ends {s0 s : State} (x1) (h : Keeps s0 s) : EndsIn Keeps s0 (execSearch x1 s) := by
  unfold execSearch
  repeat' first
    | with_reducible assumption
    | (extract_lets +onlyGivenNames x; )
    | with_reducible apply State.searchStop_keeps
    | with_reducible apply State.searchQuery_keeps
    | with_reducible apply State.searchEnd_keeps
    | with_reducible apply State.searchBegin_keeps
    | with_reducible apply State.work_keeps
    | with_reducible apply EndsIn.next
    | split
    | intro _
    | with_reducible refine Keeps.of_fst ?_ (by with_reducible assumption)
    | unfold x

theorem execSearchResult_ends {s0 s : State} (x1) (h : Keeps s0 s) : EndsIn Keeps s0 (execSearchResult x1 s) := by
  unfold execSearchResult
  repeat' first
    | with_reducible assumption
    | with_reducible apply State.response_ends

end Sys2Proof.Machine
end

