-- ==== Sys2Proof/Laws/KeepsLinkRows.lean ====
section
/-! SUPPORT. What the operations of LinkRows leave in force. -/

set_option linter.tactic.unusedName false

namespace Sys2Proof.Machine

theorem State.sendFrame_keeps {s0 s : State} (x2 x3 x4 x5 x6 x7 x8) (h : Keeps s0 s) : Keeps s0 (State.sendFrame s x2 x3 x4 x5 x6 x7 x8) := by
  unfold State.sendFrame
  repeat' first
    | with_reducible assumption
    | (extract_lets +onlyGivenNames x; )
    | with_reducible apply State.setLink_keeps
    | with_reducible apply State.emit_keeps
    | split

theorem State.sendReplay_keeps {s0 s : State} (f id xs) (h : Keeps s0 s) : Keeps s0 (State.sendReplay f id xs s) := by
  induction f generalizing xs s with
  | zero => exact h
  | succ f ih =>
    cases xs with
    | nil => exact h
    | cons x xs => exact ih _ (State.sendFrame_keeps _ _ _ _ _ _ _ h)

theorem State.linkDown_keeps {s0 s : State} (x2 x3) (h : Keeps s0 s) : Keeps s0 (State.linkDown s x2 x3) := by
  unfold State.linkDown
  repeat' first
    | with_reducible assumption
    | (extract_lets +onlyGivenNames x; )
    | with_reducible apply State.spanChanged_keeps
    | with_reducible apply State.pumpLink_keeps
    | with_reducible apply State.setLink_keeps
    | split
    | intro _
    | with_reducible refine Keeps.of_fst ?_ (by with_reducible assumption)
    | unfold x

theorem State.loseLink_keeps {s0 s : State} (x2) (h : Keeps s0 s) : Keeps s0 (State.loseLink s x2) := by
  unfold State.loseLink
  repeat' first
    | with_reducible assumption
    | (extract_lets +onlyGivenNames x; )
    | with_reducible apply State.linkDown_keeps
    | with_reducible apply State.singleFault_keeps
    | with_reducible apply State.report_keeps
    | split

theorem State.replay_keeps {s0 s : State} (x2) (h : Keeps s0 s) : Keeps s0 (State.replay s x2) := by
  unfold State.replay
  repeat' first
    | with_reducible assumption
    | (extract_lets +onlyGivenNames x; )
    | with_reducible apply State.loseLink_keeps
    | with_reducible apply State.sendReplay_keeps
    | with_reducible apply State.report_keeps
    | with_reducible apply State.setLink_keeps
    | split

theorem State.maintenance_keeps {s0 s : State} (x2 x3) (h : Keeps s0 s) : Keeps s0 (State.maintenance s x2 x3) := by
  unfold State.maintenance
  repeat' first
    | with_reducible assumption
    | (extract_lets +onlyGivenNames x; )
    | with_reducible apply State.sendFrame_keeps
    | with_reducible apply State.setLink_keeps
    | split

theorem State.takeFrame_keeps {s0 s : State} (x2 x3 x4 x5 x6 x7) (h : Keeps s0 s) : Keeps s0 (State.takeFrame s x2 x3 x4 x5 x6 x7) := by
  unfold State.takeFrame
  repeat' first
    | with_reducible assumption
    | (extract_lets +onlyGivenNames x; )
    | with_reducible apply State.maintenance_keeps
    | with_reducible apply State.replay_keeps
    | with_reducible apply State.linkDown_keeps
    | with_reducible apply State.sendFrame_keeps
    | with_reducible apply State.report_keeps
    | with_reducible apply State.pumpLink_keeps
    | with_reducible apply State.setLink_keeps
    | split
    | intro _
    | with_reducible refine Keeps.of_fst ?_ (by with_reducible assumption)
    | unfold x
    | dsimp only
    | dsimp +zetaDelta only

theorem execFrame_ends {s0 s : State} (x1 x2 x3 x4 x5 x6) (h : Keeps s0 s) : EndsIn Keeps s0 (execFrame x1 x2 x3 x4 x5 x6 s) := by
  unfold execFrame
  repeat' first
    | with_reducible assumption
    | (extract_lets +onlyGivenNames x; )
    | with_reducible apply State.takeFrame_keeps
    | with_reducible apply EndsIn.next

theorem execReplayTimeout_ends {s0 s : State} (x1) (h : Keeps s0 s) : EndsIn Keeps s0 (execReplayTimeout x1 s) := by
  unfold execReplayTimeout
  repeat' first
    | with_reducible assumption
    | (extract_lets +onlyGivenNames x; )
    | with_reducible apply State.replay_keeps
    | with_reducible apply EndsIn.next
    | split

theorem State.failLane_keeps {s0 s : State} (x2 x3) (h : Keeps s0 s) : Keeps s0 (State.failLane s x2 x3) := by
  unfold State.failLane
  repeat' first
    | with_reducible assumption
    | (extract_lets +onlyGivenNames x; )
    | with_reducible apply State.loseLink_keeps
    | with_reducible apply State.sendFrame_keeps
    | with_reducible apply State.report_keeps
    | with_reducible apply State.setLink_keeps
    | split

theorem execLaneFail_ends {s0 s : State} (x1 x2) (h : Keeps s0 s) : EndsIn Keeps s0 (execLaneFail x1 x2 s) := by
  unfold execLaneFail
  repeat' first
    | with_reducible assumption
    | (extract_lets +onlyGivenNames x; )
    | with_reducible apply State.failLane_keeps
    | with_reducible apply State.singleFault_keeps
    | with_reducible apply EndsIn.next
    | split

theorem execLaneMapApply_ends {s0 s : State} (x1) (h : Keeps s0 s) : EndsIn Keeps s0 (execLaneMapApply x1 s) := by
  unfold execLaneMapApply
  repeat' first
    | with_reducible assumption
    | (extract_lets +onlyGivenNames x; )
    | with_reducible apply State.replay_keeps
    | with_reducible apply State.setLink_keeps
    | with_reducible apply EndsIn.next
    | split

theorem State.lightLost_keeps {s0 s : State} (x2 x3) (h : Keeps s0 s) : Keeps s0 (State.lightLost s x2 x3) := by
  unfold State.lightLost
  repeat' first
    | with_reducible assumption
    | (extract_lets +onlyGivenNames x; )
    | with_reducible apply State.failLane_keeps
    | with_reducible apply State.loseLink_keeps
    | with_reducible apply State.setLink_keeps
    | (with_reducible apply Keeps.foldl; intro _ _ _)
    | split

theorem execLightOutOfRange_ends {s0 s : State} (x1 x2) (h : Keeps s0 s) : EndsIn Keeps s0 (execLightOutOfRange x1 x2 s) := by
  unfold execLightOutOfRange
  repeat' first
    | with_reducible assumption
    | (extract_lets +onlyGivenNames x; )
    | with_reducible apply State.lightLost_keeps
    | with_reducible apply EndsIn.next
    | split

theorem execLinkLoss_ends {s0 s : State} (x1) (h : Keeps s0 s) : EndsIn Keeps s0 (execLinkLoss x1 s) := by
  unfold execLinkLoss
  repeat' first
    | with_reducible assumption
    | (extract_lets +onlyGivenNames x; )
    | with_reducible apply State.loseLink_keeps
    | with_reducible apply EndsIn.next

theorem State.linkTrained_keeps {s0 s : State} (x2 x3 x4 x5) (h : Keeps s0 s) : Keeps s0 (State.linkTrained s x2 x3 x4 x5) := by
  unfold State.linkTrained
  repeat' first
    | with_reducible assumption
    | (extract_lets +onlyGivenNames x; )
    | with_reducible apply State.spanChanged_keeps
    | with_reducible apply State.endTicket_keeps
    | with_reducible apply State.report_keeps
    | with_reducible apply State.setLink_keeps
    | split
    | intro _
    | with_reducible refine Keeps.of_fst ?_ (by with_reducible assumption)
    | unfold x

theorem execLinkTrainStep_ends {s0 s : State} (x1 x2 x3 x4) (h : Keeps s0 s) : EndsIn Keeps s0 (execLinkTrainStep x1 x2 x3 x4 s) := by
  unfold execLinkTrainStep
  repeat' first
    | with_reducible assumption
    | (extract_lets +onlyGivenNames x; )
    | with_reducible apply State.linkTrained_keeps
    | with_reducible apply State.setLink_keeps
    | with_reducible apply EndsIn.next
    | split

theorem execLinkTrainTimeout_ends {s0 s : State} (x1) (h : Keeps s0 s) : EndsIn Keeps s0 (execLinkTrainTimeout x1 s) := by
  unfold execLinkTrainTimeout
  repeat' first
    | with_reducible assumption
    | (extract_lets +onlyGivenNames x; )
    | with_reducible apply State.setLink_keeps
    | with_reducible apply EndsIn.next
    | split

theorem execLinkTrainBatch_ends {s0 s : State} (x1) (h : Keeps s0 s) : EndsIn Keeps s0 (execLinkTrainBatch x1 s) := by
  unfold execLinkTrainBatch
  repeat' first
    | with_reducible assumption
    | (extract_lets +onlyGivenNames x; )
    | with_reducible apply State.setLink_keeps
    | with_reducible apply EndsIn.next
    | (with_reducible apply Keeps.foldl; intro _ _ _)
    | split
    | intro _
    | (conv => enter [2, 26]); with_reducible refine Keeps.but ?_ rfl

theorem execKeyGenerationRoll_ends {s0 s : State} (x1) (h : Keeps s0 s) : EndsIn Keeps s0 (execKeyGenerationRoll x1 s) := by
  unfold execKeyGenerationRoll
  repeat' first
    | with_reducible assumption
    | (extract_lets +onlyGivenNames x; )
    | with_reducible apply State.setLink_keeps
    | with_reducible apply EndsIn.next
    | split

theorem State.recalRings_keeps {s0 s : State} (x2) (h : Keeps s0 s) : Keeps s0 (State.recalRings s x2) := by
  unfold State.recalRings
  repeat' first
    | with_reducible assumption
    | (extract_lets +onlyGivenNames x; )
    | with_reducible apply State.sendFrame_keeps
    | with_reducible apply State.setLink_keeps

theorem execRingRecal_ends {s0 s : State} (x1) (h : Keeps s0 s) : EndsIn Keeps s0 (execRingRecal x1 s) := by
  unfold execRingRecal
  repeat' first
    | with_reducible assumption
    | (extract_lets +onlyGivenNames x; )
    | with_reducible apply State.recalRings_keeps
    | with_reducible apply EndsIn.next
    | split

theorem opBundleSet_kept : RelasOp.Kept opBundleSet := by
  intro s0 s c k h
  unfold opBundleSet
  repeat' first
    | with_reducible assumption
    | with_reducible apply State.setBundle_keeps
    | split
    | intro _
    | (conv => enter [2, 26]); with_reducible refine Keeps.but ?_ rfl
    | with_reducible refine Keeps.of_fst ?_ (by with_reducible assumption)
    | unfold x
    | dsimp only

theorem State.announceCapacity_keeps {s0 s : State} (h : Keeps s0 s) : Keeps s0 (State.announceCapacity s) := by
  unfold State.announceCapacity
  repeat' first
    | with_reducible assumption
    | (extract_lets +onlyGivenNames x; )
    | with_reducible apply State.takeover_keeps
    | (with_reducible apply Keeps.foldl; intro _ _ _)
    | split

theorem opBundleOpen_kept : RelasOp.Kept opBundleOpen := by
  intro s0 s c k h
  unfold opBundleOpen
  repeat' first
    | with_reducible assumption
    | (extract_lets +onlyGivenNames x; )
    | with_reducible apply State.announceCapacity_keeps
    | with_reducible apply State.spanChanged_keeps
    | with_reducible apply State.setBundle_keeps
    | split
    | intro _
    | with_reducible refine Keeps.of_fst ?_ (by with_reducible assumption)
    | unfold x
    | dsimp only

theorem execBundleClose_ends {s0 s : State} (x1) (h : Keeps s0 s) : EndsIn Keeps s0 (execBundleClose x1 s) := by
  unfold execBundleClose
  repeat' first
    | with_reducible assumption
    | (extract_lets +onlyGivenNames x; )
    | with_reducible apply State.spanChanged_keeps
    | with_reducible apply EndsIn.next
    | split
    | intro _
    | (conv => enter [2, 26]); with_reducible refine Keeps.but ?_ rfl

theorem opLinkQuery_kept : RelasOp.Kept opLinkQuery := by
  intro s0 s c k h
  unfold opLinkQuery
  repeat' first
    | with_reducible assumption
    | with_reducible apply State.drewN_keeps
    | split
    | intro _
    | with_reducible refine Keeps.of_fst ?_ (by with_reducible assumption)
    | unfold x
    | dsimp only

theorem opLinkRecal_kept : RelasOp.Kept opLinkRecal := by
  intro s0 s c k h
  unfold opLinkRecal
  repeat' first
    | with_reducible assumption
    | (extract_lets +onlyGivenNames x; )
    | with_reducible apply State.recalRings_keeps
    | with_reducible apply State.linkDown_keeps
    | with_reducible apply State.setLink_keeps
    | split
    | intro _
    | with_reducible refine Keeps.of_fst ?_ (by with_reducible assumption)
    | unfold x
    | dsimp only

theorem opFabricSet_kept : RelasOp.Kept opFabricSet := by
  intro s0 s c k h
  unfold opFabricSet
  repeat' first
    | with_reducible assumption
    | (extract_lets +onlyGivenNames x; )
    | split
    | intro _
    | (conv => enter [2, 26]); with_reducible refine Keeps.but ?_ rfl
    | with_reducible refine Keeps.of_fst ?_ (by with_reducible assumption)
    | unfold x
    | dsimp only

end Sys2Proof.Machine
end

