-- ==== Sys2Proof/Laws/KeepsQueues.lean ====
section
/-! SUPPORT. What the operations of Queues leave in force. -/

set_option linter.tactic.unusedName false

namespace Sys2Proof.Machine

theorem State.enter_keeps {s0 s : State} (x2 x3) (h : Keeps s0 s) : Keeps s0 (State.enter s x2 x3) := by
  unfold State.enter
  repeat' first
    | with_reducible assumption
    | (extract_lets +onlyGivenNames x; )
    | with_reducible apply State.setCq_keeps
    | with_reducible apply State.setSq_keeps
    | split
    | intro _
    | (conv => enter [2, 26]); with_reducible refine Keeps.but ?_ rfl
    | with_reducible refine Keeps.of_fst ?_ (by with_reducible assumption)
    | unfold x
    | dsimp only
    | dsimp +zetaDelta only

theorem State.walkFault_keeps {s0 s : State} (x2 x3 x4 x5 x6 x7 x8) (h : Keeps s0 s) : Keeps s0 (State.walkFault s x2 x3 x4 x5 x6 x7 x8) := by
  unfold State.walkFault
  repeat' first
    | with_reducible assumption
    | (extract_lets +onlyGivenNames x; )
    | with_reducible apply State.enter_keeps
    | with_reducible apply State.finish_keeps

theorem State.admitOrRefuse_keeps {s0 s : State} (x2 x3 x4) (h : Keeps s0 s) (ho : x2.Kept) : Keeps s0 (State.admitOrRefuse s x2 x3 x4) := by
  unfold State.admitOrRefuse
  repeat' first
    | with_reducible assumption
    | (extract_lets +onlyGivenNames x; )
    | with_reducible apply State.enter_keeps
    | with_reducible apply State.refusal_keeps
    | with_reducible apply State.offer_keeps
    | with_reducible apply State.book_keeps
    | with_reducible apply State.countRights_keeps
    | with_reducible apply State.count_keeps
    | apply ho
    | (with_reducible apply Keeps.foldl; intro _ _ _)
    | split
    | intro _
    | with_reducible refine Keeps.of_fst ?_ (by with_reducible assumption)
    | unfold x

theorem State.sendPage_keeps {s0 s : State} (x2) (h : Keeps s0 s) : Keeps s0 (State.sendPage s x2) := by
  unfold State.sendPage
  repeat' first
    | with_reducible assumption
    | (extract_lets +onlyGivenNames x; )
    | with_reducible apply State.sendJetty_keeps
    | with_reducible apply State.emit_keeps
    | split
    | intro _
    | (conv => enter [2, 26]); with_reducible refine Keeps.but ?_ rfl
    | with_reducible refine Keeps.of_fst ?_ (by with_reducible assumption)
    | unfold x
    | dsimp only
    | dsimp +zetaDelta only

theorem State.holdWalk_keeps {s0 s : State} (x2 x3 x4 x5 x6 x7 x8 x9 x10 x11) (h : Keeps s0 s) : Keeps s0 (State.holdWalk s x2 x3 x4 x5 x6 x7 x8 x9 x10 x11) := by
  unfold State.holdWalk
  repeat' first
    | with_reducible assumption
    | (extract_lets +onlyGivenNames x; )
    | with_reducible apply State.sendPage_keeps
    | split
    | intro _
    | (conv => enter [2, 26]); with_reducible refine Keeps.but ?_ rfl

theorem State.pumpPages_keeps {s0 s : State} (h : Keeps s0 s) : Keeps s0 (State.pumpPages s) := by
  unfold State.pumpPages
  repeat' first
    | with_reducible assumption
    | (extract_lets +onlyGivenNames x; )
    | with_reducible apply State.sendPage_keeps
    | (with_reducible apply Keeps.foldl; intro _ _ _)

theorem State.consider_keeps {s0 s : State} (x1 x3 x4 x5 x6 x7) (h : Keeps s0 s) (ht : DescTableKept x1) : Keeps s0 (State.consider x1 s x3 x4 x5 x6 x7) := by
  unfold State.consider
  repeat' first
    | with_reducible assumption
    | (extract_lets +onlyGivenNames x; )
    | with_reducible apply State.holdWalk_keeps
    | with_reducible apply State.admitOrRefuse_keeps
    | with_reducible apply State.walkFault_keeps
    | with_reducible apply State.cache_keeps
    | with_reducible apply State.refusal_keeps
    | exact ht
    | exact ht _ _ (by with_reducible assumption)
    | split

theorem State.fetch_keeps {s0 s : State} (x1 x3) (h : Keeps s0 s) (ht : DescTableKept x1) : Keeps s0 (State.fetch x1 s x3) := by
  unfold State.fetch
  repeat' first
    | with_reducible assumption
    | (extract_lets +onlyGivenNames x; )
    | with_reducible apply State.consider_keeps
    | with_reducible apply State.refusal_keeps
    | with_reducible apply State.offer_keeps
    | with_reducible apply State.writeAt_keeps
    | with_reducible apply State.setSq_keeps
    | with_reducible apply State.count_keeps
    | exact ht
    | exact ht _ _ (by with_reducible assumption)
    | split

theorem State.dropPage_keeps {s0 s : State} (x2) (h : Keeps s0 s) : Keeps s0 (State.dropPage s x2) := by
  unfold State.dropPage
  repeat' first
    | with_reducible assumption
    | (extract_lets +onlyGivenNames x; )
    | split
    | intro _
    | (conv => enter [2, 26]); with_reducible refine Keeps.but ?_ rfl

theorem State.walkOver_keeps {s0 s : State} (x2 x3) (h : Keeps s0 s) : Keeps s0 (State.walkOver s x2 x3) := by
  unfold State.walkOver
  repeat' first
    | with_reducible assumption
    | (extract_lets +onlyGivenNames x; )
    | with_reducible apply State.mapInvalidations_keeps
    | split

theorem State.resume_keeps {s0 s : State} (x1 x3 x4 x5) (h : Keeps s0 s) (ht : DescTableKept x1) : Keeps s0 (State.resume x1 s x3 x4 x5) := by
  unfold State.resume
  repeat' first
    | with_reducible assumption
    | (extract_lets +onlyGivenNames x; )
    | with_reducible apply State.walkOver_keeps
    | with_reducible apply State.dropPage_keeps
    | with_reducible apply State.consider_keeps
    | with_reducible apply State.pumpPages_keeps
    | exact ht
    | exact ht _ _ (by with_reducible assumption)
    | split

theorem State.failWalk_keeps {s0 s : State} (x2 x3) (h : Keeps s0 s) : Keeps s0 (State.failWalk s x2 x3) := by
  unfold State.failWalk
  repeat' first
    | with_reducible assumption
    | (extract_lets +onlyGivenNames x; )
    | with_reducible apply State.walkOver_keeps
    | with_reducible apply State.dropPage_keeps
    | with_reducible apply State.pumpPages_keeps
    | with_reducible apply State.walkFault_keeps
    | split

theorem State.pageResponse_keeps {s0 s : State} (x1 x3) (h : Keeps s0 s) (ht : DescTableKept x1) : Keeps s0 (State.pageResponse x1 s x3) := by
  unfold State.pageResponse
  repeat' first
    | with_reducible assumption
    | with_reducible apply State.resume_keeps
    | with_reducible apply State.count_keeps
    | exact ht
    | exact ht _ _ (by with_reducible assumption)
    | split

theorem State.pageTimeoutEnd_keeps {s0 s : State} (x2) (h : Keeps s0 s) : Keeps s0 (State.pageTimeoutEnd s x2) := by
  unfold State.pageTimeoutEnd
  repeat' first
    | with_reducible assumption
    | with_reducible apply State.failWalk_keeps
    | split

theorem execPageRequestTimeout_ends {s0 s : State} (x1) (h : Keeps s0 s) : EndsIn Keeps s0 (execPageRequestTimeout x1 s) := by
  unfold execPageRequestTimeout
  repeat' first
    | with_reducible assumption
    | (extract_lets +onlyGivenNames x; )
    | with_reducible apply State.pageTimeoutEnd_keeps
    | with_reducible apply EndsIn.next

theorem execDescriptorStart_ends {s0 s : State} (x1) (h : Keeps s0 s) : EndsIn Keeps s0 (execDescriptorStart x1 s) := by
  unfold execDescriptorStart
  repeat' first
    | with_reducible assumption
    | (extract_lets +onlyGivenNames x; )
    | with_reducible apply State.setDesc_keeps
    | with_reducible apply EndsIn.next
    | split

theorem State.sendCqNotify_keeps {s0 s : State} (x2) (h : Keeps s0 s) : Keeps s0 (State.sendCqNotify s x2) := by
  unfold State.sendCqNotify
  repeat' first
    | with_reducible assumption
    | (extract_lets +onlyGivenNames x; )
    | with_reducible apply State.sendJetty_keeps
    | with_reducible apply State.setCq_keeps
    | with_reducible apply State.msix_keeps
    | split

theorem execCalendarSlot_ends {s0 s : State} (h : Keeps s0 s) : EndsIn Keeps s0 (execCalendarSlot s) := by
  unfold execCalendarSlot
  repeat' first
    | with_reducible assumption
    | (extract_lets +onlyGivenNames x; )
    | with_reducible apply State.sendCqNotify_keeps
    | with_reducible apply State.flushDeltas_keeps
    | with_reducible apply EndsIn.next
    | (with_reducible apply Keeps.foldl; intro _ _ _)
    | split
    | intro _
    | (conv => enter [2, 26]); with_reducible refine Keeps.but ?_ rfl
    | with_reducible refine Keeps.of_fst ?_ (by with_reducible assumption)
    | unfold x

theorem opNop_kept : DescOp.Kept opNop := by
  intro s0 s d h
  unfold opNop
  repeat' first
    | with_reducible assumption

theorem execNop_ends {s0 s : State} (x1) (h : Keeps s0 s) : EndsIn Keeps s0 (execNop x1 s) := by
  unfold execNop
  repeat' first
    | with_reducible assumption
    | (extract_lets +onlyGivenNames x; )
    | with_reducible apply State.stop_keeps
    | with_reducible apply State.work_keeps
    | with_reducible apply State.ok_keeps
    | with_reducible apply EndsIn.next
    | split
    | intro _

theorem opQueueCreate_kept : RelasOp.Kept opQueueCreate := by
  intro s0 s c k h
  unfold opQueueCreate
  repeat' first
    | with_reducible assumption
    | split
    | intro _
    | (conv => enter [2, 26]); with_reducible refine Keeps.but ?_ rfl
    | with_reducible refine Keeps.of_fst ?_ (by with_reducible assumption)
    | unfold x
    | dsimp only

theorem State.abortQueue_keeps {s0 s : State} (x2) (h : Keeps s0 s) : Keeps s0 (State.abortQueue s x2) := by
  unfold State.abortQueue
  repeat' first
    | with_reducible assumption
    | (extract_lets +onlyGivenNames x; )
    | with_reducible apply State.failDesc_keeps
    | (with_reducible apply Keeps.foldl; intro _ _ _)

theorem opQueueDestroy_kept : RelasOp.Kept opQueueDestroy := by
  intro s0 s c k h
  unfold opQueueDestroy
  repeat' first
    | with_reducible assumption
    | (extract_lets +onlyGivenNames x; )
    | with_reducible apply State.abortQueue_keeps
    | with_reducible apply State.setSq_keeps
    | split
    | intro _
    | with_reducible refine Keeps.of_fst ?_ (by with_reducible assumption)
    | unfold x
    | dsimp only

theorem State.setAdmission_keeps {s0 s : State} (x2) (h : Keeps s0 s) : Keeps s0 (State.setAdmission s x2) := by
  unfold State.setAdmission
  repeat' first
    | with_reducible assumption
    | (extract_lets +onlyGivenNames x; )
    | split
    | intro _
    | (conv => enter [2, 26]); with_reducible refine Keeps.but ?_ rfl

theorem opQueueSet_kept : RelasOp.Kept opQueueSet := by
  intro s0 s c k h
  unfold opQueueSet
  repeat' first
    | with_reducible assumption
    | with_reducible apply State.setAdmission_keeps
    | with_reducible apply State.setCq_keeps
    | with_reducible apply State.setSq_keeps
    | split
    | intro _
    | with_reducible refine Keeps.of_fst ?_ (by with_reducible assumption)
    | unfold x
    | dsimp only

theorem opQueueQuery_kept : RelasOp.Kept opQueueQuery := by
  intro s0 s c k h
  unfold opQueueQuery
  repeat' first
    | with_reducible assumption
    | split
    | intro _
    | with_reducible refine Keeps.of_fst ?_ (by with_reducible assumption)
    | unfold x
    | dsimp only

end Sys2Proof.Machine
end

