-- ==== Sys2Proof/Laws/KeepsHostRows.lean ====
section
/-! SUPPORT. What the operations of HostRows leave in force. -/

set_option linter.tactic.unusedName false

namespace Sys2Proof.Machine

theorem State.dropHost_keeps {s0 s : State} (x2) (h : Keeps s0 s) : Keeps s0 (State.dropHost s x2) := by
  unfold State.dropHost
  repeat' first
    | with_reducible assumption
    | (extract_lets +onlyGivenNames x; )
    | split
    | intro _
    | (conv => enter [2, 26]); with_reducible refine Keeps.but ?_ rfl

theorem State.loseHolder_keeps {s0 s : State} (x2) (h : Keeps s0 s) : Keeps s0 (State.loseHolder s x2) := by
  unfold State.loseHolder
  repeat' first
    | with_reducible assumption
    | (extract_lets +onlyGivenNames x; )
    | with_reducible apply State.finishRecall_keeps
    | with_reducible apply State.poisonSectors_keeps
    | (with_reducible apply Keeps.foldl; intro _ _ _)
    | split
    | intro _
    | (conv => enter [2, 26]); with_reducible refine Keeps.but ?_ rfl
    | with_reducible refine Keeps.of_fst ?_ (by with_reducible assumption)
    | unfold x
    | dsimp only
    | dsimp +zetaDelta only

theorem State.fencePort_keeps {s0 s : State} (x2 x3) (h : Keeps s0 s) : Keeps s0 (State.fencePort s x2 x3) := by
  unfold State.fencePort
  repeat' first
    | with_reducible assumption
    | (extract_lets +onlyGivenNames x; )
    | with_reducible apply State.loseHolder_keeps
    | with_reducible apply State.dropHost_keeps
    | with_reducible apply State.report_keeps
    | with_reducible apply State.setPort_keeps
    | with_reducible apply State.count_keeps
    | with_reducible apply State.emit_keeps
    | (with_reducible apply Keeps.foldl; intro _ _ _)
    | split

theorem execHostPortFence_ends {s0 s : State} (x1 x2) (h : Keeps s0 s) : EndsIn Keeps s0 (execHostPortFence x1 x2 s) := by
  unfold execHostPortFence
  repeat' first
    | with_reducible assumption
    | (extract_lets +onlyGivenNames x; )
    | with_reducible apply State.fencePort_keeps
    | with_reducible apply State.report_keeps
    | with_reducible apply State.setPort_keeps
    | with_reducible apply State.count_keeps
    | with_reducible apply EndsIn.next
    | split

theorem State.abortHost_keeps {s0 s : State} (x2 x3) (h : Keeps s0 s) : Keeps s0 (State.abortHost s x2 x3) := by
  unfold State.abortHost
  repeat' first
    | with_reducible assumption
    | (extract_lets +onlyGivenNames x; )
    | with_reducible apply State.relasRecord_keeps
    | with_reducible apply State.count_keeps
    | with_reducible apply State.emit_keeps

theorem State.discardInsecure_keeps {s0 s : State} (x2) (h : Keeps s0 s) : Keeps s0 (State.discardInsecure s x2) := by
  unfold State.discardInsecure
  repeat' first
    | with_reducible assumption
    | (extract_lets +onlyGivenNames x; )
    | with_reducible apply State.fencePort_keeps
    | with_reducible apply State.count_keeps

theorem State.hostRead_keeps {s0 s : State} (x2 x3 x4 x5 x6) (h : Keeps s0 s) : Keeps s0 (State.hostRead s x2 x3 x4 x5 x6) := by
  unfold State.hostRead
  repeat' first
    | with_reducible assumption
    | (extract_lets +onlyGivenNames x; )
    | with_reducible apply State.discardInsecure_keeps
    | with_reducible apply State.abortHost_keeps
    | with_reducible apply State.dirEvent_keeps
    | with_reducible apply State.hostData_keeps
    | with_reducible apply State.hostAnswer_keeps
    | with_reducible apply State.emit_keeps
    | split

theorem execHostMemRead_ends {s0 s : State} (x1 x2 x3 x4) (h : Keeps s0 s) : EndsIn Keeps s0 (execHostMemRead x1 x2 x3 x4 s) := by
  unfold execHostMemRead
  repeat' first
    | with_reducible assumption
    | (extract_lets +onlyGivenNames x; )
    | with_reducible apply State.hostRead_keeps
    | with_reducible apply EndsIn.next

theorem execHostSharedRead_ends {s0 s : State} (x1 x2 x3 x4) (h : Keeps s0 s) : EndsIn Keeps s0 (execHostSharedRead x1 x2 x3 x4 s) := by
  unfold execHostSharedRead
  repeat' first
    | with_reducible assumption
    | (extract_lets +onlyGivenNames x; )
    | with_reducible apply State.hostRead_keeps
    | with_reducible apply EndsIn.next

theorem execHostOwnershipRead_ends {s0 s : State} (x1 x2 x3 x4) (h : Keeps s0 s) : EndsIn Keeps s0 (execHostOwnershipRead x1 x2 x3 x4 s) := by
  unfold execHostOwnershipRead
  repeat' first
    | with_reducible assumption
    | (extract_lets +onlyGivenNames x; )
    | with_reducible apply State.hostRead_keeps
    | with_reducible apply EndsIn.next

theorem State.hostWriteAt_keeps {s0 s : State} (x2 x3 x4 x5 x6 x7 x8 x9) (h : Keeps s0 s) : Keeps s0 (State.hostWriteAt s x2 x3 x4 x5 x6 x7 x8 x9) := by
  unfold State.hostWriteAt
  repeat' first
    | with_reducible assumption
    | (extract_lets +onlyGivenNames x; )
    | with_reducible apply State.discardInsecure_keeps
    | with_reducible apply State.abortHost_keeps
    | with_reducible apply State.dirEvent_keeps
    | with_reducible apply State.hostStore_keeps
    | with_reducible apply State.setLine_keeps
    | with_reducible apply State.emit_keeps
    | split

theorem execHostMemWrite_ends {s0 s : State} (x1 x2 x3 x4 x5 x6 x7) (h : Keeps s0 s) : EndsIn Keeps s0 (execHostMemWrite x1 x2 x3 x4 x5 x6 x7 s) := by
  unfold execHostMemWrite
  repeat' first
    | with_reducible assumption
    | (extract_lets +onlyGivenNames x; )
    | with_reducible apply State.hostWriteAt_keeps
    | with_reducible apply EndsIn.next

theorem execHostWriteBack_ends {s0 s : State} (x1 x2 x3 x4 x5 x6 x7) (h : Keeps s0 s) : EndsIn Keeps s0 (execHostWriteBack x1 x2 x3 x4 x5 x6 x7 s) := by
  unfold execHostWriteBack
  repeat' first
    | with_reducible assumption
    | (extract_lets +onlyGivenNames x; )
    | with_reducible apply State.hostWriteAt_keeps
    | with_reducible apply EndsIn.next

theorem execHostCleanEviction_ends {s0 s : State} (x1 x2) (h : Keeps s0 s) : EndsIn Keeps s0 (execHostCleanEviction x1 x2 s) := by
  unfold execHostCleanEviction
  repeat' first
    | with_reducible assumption
    | (extract_lets +onlyGivenNames x; )
    | with_reducible apply State.setLine_keeps
    | with_reducible apply EndsIn.next
    | split

theorem execBiResponse_ends {s0 s : State} (x1 x2 x3 x4) (h : Keeps s0 s) : EndsIn Keeps s0 (execBiResponse x1 x2 x3 x4 s) := by
  unfold execBiResponse
  repeat' first
    | with_reducible assumption
    | (extract_lets +onlyGivenNames x; )
    | with_reducible apply State.snoopAnswer_keeps
    | with_reducible apply State.count_keeps
    | with_reducible apply EndsIn.next
    | split

theorem execSnoopTimeout_ends {s0 s : State} (x1 x2) (h : Keeps s0 s) : EndsIn Keeps s0 (execSnoopTimeout x1 x2 s) := by
  unfold execSnoopTimeout
  repeat' first
    | with_reducible assumption
    | (extract_lets +onlyGivenNames x; )
    | with_reducible apply State.fencePort_keeps
    | with_reducible apply State.report_keeps
    | with_reducible apply State.count_keeps
    | with_reducible apply EndsIn.next
    | split

theorem State.offerHeld_keeps {s0 s : State} (x2) (h : Keeps s0 s) : Keeps s0 (State.offerHeld s x2) := by
  unfold State.offerHeld
  repeat' first
    | with_reducible assumption
    | (extract_lets +onlyGivenNames x; )
    | with_reducible apply State.mapExtents_keeps
    | with_reducible apply State.extentEvent_keeps
    | with_reducible apply State.count_keeps
    | with_reducible apply State.emit_keeps
    | (with_reducible apply Keeps.foldl; intro _ _ _)
    | split

theorem execHostLinkUp_ends {s0 s : State} (x1 x2 x3 x4 x5 x6) (h : Keeps s0 s) : EndsIn Keeps s0 (execHostLinkUp x1 x2 x3 x4 x5 x6 s) := by
  unfold execHostLinkUp
  repeat' first
    | with_reducible assumption
    | (extract_lets +onlyGivenNames x; )
    | with_reducible apply State.offerHeld_keeps
    | with_reducible apply State.loseHolder_keeps
    | with_reducible apply State.setPort_keeps
    | with_reducible apply EndsIn.next
    | split
    | intro _
    | with_reducible refine Keeps.of_fst ?_ (by with_reducible assumption)
    | unfold x

theorem State.linkOff_keeps {s0 s : State} (x2) (h : Keeps s0 s) : Keeps s0 (State.linkOff s x2) := by
  unfold State.linkOff
  repeat' first
    | with_reducible assumption
    | (extract_lets +onlyGivenNames x; )
    | with_reducible apply State.loseHolder_keeps
    | with_reducible apply State.dropHost_keeps
    | with_reducible apply State.setPort_keeps
    | split

theorem State.linkLost_keeps {s0 s : State} (x2) (h : Keeps s0 s) : Keeps s0 (State.linkLost s x2) := by
  unfold State.linkLost
  repeat' first
    | with_reducible assumption
    | (extract_lets +onlyGivenNames x; )
    | with_reducible apply State.linkOff_keeps
    | with_reducible apply State.singleFault_keeps
    | with_reducible apply State.report_keeps
    | split

theorem execHostLinkDown_ends {s0 s : State} (x1) (h : Keeps s0 s) : EndsIn Keeps s0 (execHostLinkDown x1 s) := by
  unfold execHostLinkDown
  repeat' first
    | with_reducible assumption
    | (extract_lets +onlyGivenNames x; )
    | with_reducible apply State.linkLost_keeps
    | with_reducible apply EndsIn.next

theorem execHostLinkWidthDrop_ends {s0 s : State} (x1 x2) (h : Keeps s0 s) : EndsIn Keeps s0 (execHostLinkWidthDrop x1 x2 s) := by
  unfold execHostLinkWidthDrop
  repeat' first
    | with_reducible assumption
    | (extract_lets +onlyGivenNames x; )
    | with_reducible apply State.singleFault_keeps
    | with_reducible apply State.report_keeps
    | with_reducible apply State.setPort_keeps
    | with_reducible apply EndsIn.next
    | split

theorem State.flr_keeps {s0 s : State} (x2) (h : Keeps s0 s) : Keeps s0 (State.flr s x2) := by
  unfold State.flr
  repeat' first
    | with_reducible assumption
    | (extract_lets +onlyGivenNames x; )
    | with_reducible apply State.failWalk_keeps
    | with_reducible apply State.setPort_keeps
    | (with_reducible apply Keeps.foldl; intro _ _ _)
    | split
    | intro _
    | (conv => enter [2, 26]); with_reducible refine Keeps.but ?_ rfl

theorem execFlr_ends {s0 s : State} (x1) (h : Keeps s0 s) : EndsIn Keeps s0 (execFlr x1 s) := by
  unfold execFlr
  repeat' first
    | with_reducible assumption
    | (extract_lets +onlyGivenNames x; )
    | with_reducible apply State.flr_keeps
    | with_reducible apply EndsIn.next
    | split

theorem execExtentOffer_ends {s0 s : State} (x1 x2 x3) (h : Keeps s0 s) : EndsIn Keeps s0 (execExtentOffer x1 x2 x3 s) := by
  unfold execExtentOffer
  repeat' first
    | with_reducible assumption
    | (extract_lets +onlyGivenNames x; )
    | with_reducible apply State.offerExtent_keeps
    | with_reducible apply EndsIn.next
    | split

theorem State.removeExtent_keeps {s0 s : State} (x2) (h : Keeps s0 s) : Keeps s0 (State.removeExtent s x2) := by
  unfold State.removeExtent
  repeat' first
    | with_reducible assumption
    | (extract_lets +onlyGivenNames x; )
    | with_reducible apply State.dropExtents_keeps
    | split
    | intro _
    | (conv => enter [2, 26]); with_reducible refine Keeps.but ?_ rfl

theorem execExtentForcedRelease_ends {s0 s : State} (x1 x2) (h : Keeps s0 s) : EndsIn Keeps s0 (execExtentForcedRelease x1 x2 s) := by
  unfold execExtentForcedRelease
  repeat' first
    | with_reducible assumption
    | (extract_lets +onlyGivenNames x; )
    | with_reducible apply State.removeExtent_keeps
    | with_reducible apply State.extentEvent_keeps
    | with_reducible apply State.count_keeps
    | with_reducible apply EndsIn.next
    | split

theorem execAddDynamicCapacityResponse_ends {s0 s : State} (x1 x2 x3) (h : Keeps s0 s) : EndsIn Keeps s0 (execAddDynamicCapacityResponse x1 x2 x3 s) := by
  unfold execAddDynamicCapacityResponse
  repeat' first
    | with_reducible assumption
    | (extract_lets +onlyGivenNames x; )
    | with_reducible apply State.removeExtent_keeps
    | with_reducible apply State.mapExtents_keeps
    | with_reducible apply State.setPort_keeps
    | with_reducible apply State.emit_keeps
    | with_reducible apply EndsIn.next
    | split

theorem execReleaseDynamicCapacity_ends {s0 s : State} (x1 x2) (h : Keeps s0 s) : EndsIn Keeps s0 (execReleaseDynamicCapacity x1 x2 s) := by
  unfold execReleaseDynamicCapacity
  repeat' first
    | with_reducible assumption
    | (extract_lets +onlyGivenNames x; )
    | with_reducible apply State.removeExtent_keeps
    | with_reducible apply State.setLine_keeps
    | with_reducible apply State.emit_keeps
    | with_reducible apply EndsIn.next
    | (with_reducible apply Keeps.foldl; intro _ _ _)
    | split
    | intro _
    | with_reducible refine Keeps.of_fst ?_ (by with_reducible assumption)
    | unfold x

theorem execHdmDecoderCommit_ends {s0 s : State} (x1 x2 x3 x4 x5 x6) (h : Keeps s0 s) : EndsIn Keeps s0 (execHdmDecoderCommit x1 x2 x3 x4 x5 x6 s) := by
  unfold execHdmDecoderCommit
  repeat' first
    | with_reducible assumption
    | (extract_lets +onlyGivenNames x; )
    | with_reducible apply State.offerHeld_keeps
    | with_reducible apply State.setPort_keeps
    | with_reducible apply EndsIn.next
    | split

theorem execAtsInvalidation_ends {s0 s : State} (x1 x2 x3 x4 x5) (h : Keeps s0 s) : EndsIn Keeps s0 (execAtsInvalidation x1 x2 x3 x4 x5 s) := by
  unfold execAtsInvalidation
  repeat' first
    | with_reducible assumption
    | (extract_lets +onlyGivenNames x; )
    | with_reducible apply State.mapInvalidations_keeps
    | with_reducible apply State.setPort_keeps
    | with_reducible apply EndsIn.next
    | split

theorem execMarginingCommand_ends {s0 s : State} (x1 x2) (h : Keeps s0 s) : EndsIn Keeps s0 (execMarginingCommand x1 x2 s) := by
  unfold execMarginingCommand
  repeat' first
    | with_reducible assumption
    | (extract_lets +onlyGivenNames x; )
    | with_reducible apply State.emit_keeps
    | with_reducible apply EndsIn.next
    | split

theorem execMsixUnmask_ends {s0 s : State} (x1 x2) (h : Keeps s0 s) : EndsIn Keeps s0 (execMsixUnmask x1 x2 s) := by
  unfold execMsixUnmask
  repeat' first
    | with_reducible assumption
    | (extract_lets +onlyGivenNames x; )
    | with_reducible apply State.msix_keeps
    | with_reducible apply State.setPort_keeps
    | with_reducible apply EndsIn.next
    | split

theorem State.cxlOk_keeps {s0 s : State} (x2 x3) (h : Keeps s0 s) : Keeps s0 (State.cxlOk s x2 x3) := by
  unfold State.cxlOk
  repeat' first
    | with_reducible assumption
    | with_reducible apply State.emit_keeps
    | split

theorem execIdentifyMemoryDevice_ends {s0 s : State} (x1) (h : Keeps s0 s) : EndsIn Keeps s0 (execIdentifyMemoryDevice x1 s) := by
  unfold execIdentifyMemoryDevice
  repeat' first
    | with_reducible assumption
    | (extract_lets +onlyGivenNames x; )
    | with_reducible apply State.cxlOk_keeps
    | with_reducible apply EndsIn.next

theorem execGetSupportedLogs_ends {s0 s : State} (x1) (h : Keeps s0 s) : EndsIn Keeps s0 (execGetSupportedLogs x1 s) := by
  unfold execGetSupportedLogs
  repeat' first
    | with_reducible assumption
    | (extract_lets +onlyGivenNames x; )
    | with_reducible apply State.cxlOk_keeps
    | with_reducible apply EndsIn.next

theorem execGetLog_ends {s0 s : State} (x1 x2 x3) (h : Keeps s0 s) : EndsIn Keeps s0 (execGetLog x1 x2 x3 s) := by
  unfold execGetLog
  repeat' first
    | with_reducible assumption
    | (extract_lets +onlyGivenNames x; )
    | with_reducible apply State.cxlOk_keeps
    | with_reducible apply EndsIn.next

theorem execGetEventRecords_ends {s0 s : State} (x1) (h : Keeps s0 s) : EndsIn Keeps s0 (execGetEventRecords x1 s) := by
  unfold execGetEventRecords
  repeat' first
    | with_reducible assumption
    | (extract_lets +onlyGivenNames x; )
    | with_reducible apply State.cxlOk_keeps
    | with_reducible apply EndsIn.next

theorem execClearEventRecords_ends {s0 s : State} (x1 x2) (h : Keeps s0 s) : EndsIn Keeps s0 (execClearEventRecords x1 x2 s) := by
  unfold execClearEventRecords
  repeat' first
    | with_reducible assumption
    | (extract_lets +onlyGivenNames x; )
    | with_reducible apply State.cxlOk_keeps
    | with_reducible apply State.setPort_keeps
    | with_reducible apply EndsIn.next

theorem execGetDynamicCapacityConfiguration_ends {s0 s : State} (x1) (h : Keeps s0 s) : EndsIn Keeps s0 (execGetDynamicCapacityConfiguration x1 s) := by
  unfold execGetDynamicCapacityConfiguration
  repeat' first
    | with_reducible assumption
    | (extract_lets +onlyGivenNames x; )
    | with_reducible apply State.cxlOk_keeps
    | with_reducible apply EndsIn.next

theorem execGetDynamicCapacityExtentList_ends {s0 s : State} (x1) (h : Keeps s0 s) : EndsIn Keeps s0 (execGetDynamicCapacityExtentList x1 s) := by
  unfold execGetDynamicCapacityExtentList
  repeat' first
    | with_reducible assumption
    | (extract_lets +onlyGivenNames x; )
    | with_reducible apply State.cxlOk_keeps
    | with_reducible apply State.drew_keeps
    | with_reducible apply EndsIn.next

theorem execGetPoisonList_ends {s0 s : State} (x1) (h : Keeps s0 s) : EndsIn Keeps s0 (execGetPoisonList x1 s) := by
  unfold execGetPoisonList
  repeat' first
    | with_reducible assumption
    | (extract_lets +onlyGivenNames x; )
    | with_reducible apply State.cxlOk_keeps
    | with_reducible apply EndsIn.next

theorem execSetTimestamp_ends {s0 s : State} (x1 x2) (h : Keeps s0 s) : EndsIn Keeps s0 (execSetTimestamp x1 x2 s) := by
  unfold execSetTimestamp
  repeat' first
    | with_reducible assumption
    | (extract_lets +onlyGivenNames x; )
    | with_reducible apply State.cxlOk_keeps
    | with_reducible apply State.setPort_keeps
    | with_reducible apply EndsIn.next

theorem execGetTimestamp_ends {s0 s : State} (x1) (h : Keeps s0 s) : EndsIn Keeps s0 (execGetTimestamp x1 s) := by
  unfold execGetTimestamp
  repeat' first
    | with_reducible assumption
    | (extract_lets +onlyGivenNames x; )
    | with_reducible apply State.cxlOk_keeps
    | with_reducible apply EndsIn.next

end Sys2Proof.Machine
end

