-- ==== Sys2Proof/Laws/KeepsFaults.lean ====
section
/-! SUPPORT. What the operations of Faults leave in force. -/

set_option linter.tactic.unusedName false

namespace Sys2Proof.Machine

theorem State.redirect_keeps {s0 s : State} (x2 x3) (h : Keeps s0 s) : Keeps s0 (State.redirect s x2 x3) := by
  unfold State.redirect
  repeat' first
    | with_reducible assumption
    | (extract_lets +onlyGivenNames x; )
    | with_reducible apply State.takeResponse_keeps
    | with_reducible apply State.ownResponse_keeps
    | with_reducible apply State.dropTransaction_keeps
    | with_reducible apply State.send_keeps
    | split

theorem State.markDead_keeps {s0 s : State} (x2) (h : Keeps s0 s) : Keeps s0 (State.markDead s x2) := by
  unfold State.markDead
  repeat' first
    | with_reducible assumption
    | (extract_lets +onlyGivenNames x; )
    | with_reducible apply State.redirect_keeps
    | with_reducible apply State.singleFault_keeps
    | with_reducible apply State.report_keeps
    | (with_reducible apply Keeps.foldl; intro _ _ _)
    | split
    | intro _
    | (conv => enter [2, 26]); with_reducible refine Keeps.but ?_ rfl
    | with_reducible refine Keeps.of_fst ?_ (by with_reducible assumption)
    | unfold x
    | dsimp only
    | dsimp +zetaDelta only

theorem State.flood_keeps {s0 s : State} (x2 x3) (h : Keeps s0 s) : Keeps s0 (State.flood s x2 x3) := by
  unfold State.flood
  repeat' first
    | with_reducible assumption
    | (extract_lets +onlyGivenNames x; )
    | with_reducible apply State.takeover_keeps
    | (with_reducible apply Keeps.foldl; intro _ _ _)

theorem State.selfFence_keeps {s0 s : State} (h : Keeps s0 s) : Keeps s0 (State.selfFence s) := by
  unfold State.selfFence
  repeat' first
    | with_reducible assumption
    | (extract_lets +onlyGivenNames x; )
    | with_reducible apply State.report_keeps
    | split
    | intro _
    | (conv => enter [2, 26]); with_reducible refine Keeps.but ?_ rfl

theorem execSpanDeadDetect_ends {s0 s : State} (x1) (h : Keeps s0 s) : EndsIn Keeps s0 (execSpanDeadDetect x1 s) := by
  unfold execSpanDeadDetect
  repeat' first
    | with_reducible assumption
    | (extract_lets +onlyGivenNames x; )
    | with_reducible apply State.flood_keeps
    | with_reducible apply State.markDead_keeps
    | with_reducible apply EndsIn.next
    | split

theorem execSelfFence_ends {s0 s : State} (h : Keeps s0 s) : EndsIn Keeps s0 (execSelfFence s) := by
  unfold execSelfFence
  repeat' first
    | with_reducible assumption
    | (extract_lets +onlyGivenNames x; )
    | with_reducible apply State.selfFence_keeps
    | with_reducible apply EndsIn.next
    | split

theorem State.takeoverKind_ends {s0 s : State} (x2 x3 x4) (h : Keeps s0 s) (hf : ∀ s, Keeps s0 s → Keeps s0 (x4 s)) : EndsIn Keeps s0 (State.takeoverKind s x2 x3 x4) := by
  unfold State.takeoverKind
  repeat' first
    | with_reducible assumption
    | (extract_lets +onlyGivenNames x; )
    | with_reducible apply State.arrival_ends
    | with_reducible apply State.forSelf_keeps
    | with_reducible apply State.reply_keeps
    | (with_reducible apply hf)
    | with_reducible apply EndsIn.next
    | split
    | intro _

theorem State.learnDead_keeps {s0 s : State} (x2) (h : Keeps s0 s) : Keeps s0 (State.learnDead s x2) := by
  unfold State.learnDead
  repeat' first
    | with_reducible assumption
    | (extract_lets +onlyGivenNames x; )
    | with_reducible apply State.selfFence_keeps
    | with_reducible apply State.flood_keeps
    | with_reducible apply State.markDead_keeps
    | split

theorem execTakeoverDeclare_ends {s0 s : State} (x1) (h : Keeps s0 s) : EndsIn Keeps s0 (execTakeoverDeclare x1 s) := by
  unfold execTakeoverDeclare
  repeat' first
    | with_reducible assumption
    | (extract_lets +onlyGivenNames x; )
    | with_reducible apply State.learnDead_keeps
    | with_reducible apply State.takeoverKind_ends
    | with_reducible apply EndsIn.next
    | split
    | intro _

theorem execTakeoverSelf_ends {s0 s : State} (x1) (h : Keeps s0 s) : EndsIn Keeps s0 (execTakeoverSelf x1 s) := by
  unfold execTakeoverSelf
  repeat' first
    | with_reducible assumption
    | (extract_lets +onlyGivenNames x; )
    | with_reducible apply State.learnDead_keeps
    | with_reducible apply State.takeoverKind_ends
    | with_reducible apply EndsIn.next
    | split
    | intro _

theorem execTakeoverRebuilt_ends {s0 s : State} (x1) (h : Keeps s0 s) : EndsIn Keeps s0 (execTakeoverRebuilt x1 s) := by
  unfold execTakeoverRebuilt
  repeat' first
    | with_reducible assumption
    | (extract_lets +onlyGivenNames x; )
    | with_reducible apply State.takeoverKind_ends
    | with_reducible apply EndsIn.next
    | split
    | intro _
    | (conv => enter [2, 26]); with_reducible refine Keeps.but ?_ rfl

theorem execTakeoverCapacity_ends {s0 s : State} (x1) (h : Keeps s0 s) : EndsIn Keeps s0 (execTakeoverCapacity x1 s) := by
  unfold execTakeoverCapacity
  repeat' first
    | with_reducible assumption
    | (extract_lets +onlyGivenNames x; )
    | with_reducible apply State.takeoverKind_ends
    | with_reducible apply State.report_keeps
    | with_reducible apply State.drew_keeps
    | with_reducible apply EndsIn.next
    | split
    | intro _
    | (conv => enter [2, 26]); with_reducible refine Keeps.but ?_ rfl
    | with_reducible refine Keeps.of_fst ?_ (by with_reducible assumption)
    | unfold x

theorem execTakeoverMark_ends {s0 s : State} (x1) (h : Keeps s0 s) : EndsIn Keeps s0 (execTakeoverMark x1 s) := by
  unfold execTakeoverMark
  repeat' first
    | with_reducible assumption
    | (extract_lets +onlyGivenNames x; )
    | with_reducible apply State.takeoverKind_ends
    | with_reducible apply EndsIn.next
    | split
    | intro _
    | (conv => enter [2, 26]); with_reducible refine Keeps.but ?_ rfl

theorem execTakeoverState_ends {s0 s : State} (x1) (h : Keeps s0 s) : EndsIn Keeps s0 (execTakeoverState x1 s) := by
  unfold execTakeoverState
  repeat' first
    | with_reducible assumption
    | (extract_lets +onlyGivenNames x; )
    | with_reducible apply State.takeoverKind_ends
    | with_reducible apply EndsIn.next
    | split
    | intro _
    | (conv => enter [2, 26]); with_reducible refine Keeps.but ?_ rfl

theorem execTakeoverAtomic_ends {s0 s : State} (x1) (h : Keeps s0 s) : EndsIn Keeps s0 (execTakeoverAtomic x1 s) := by
  unfold execTakeoverAtomic
  repeat' first
    | with_reducible assumption
    | (extract_lets +onlyGivenNames x; )
    | with_reducible apply State.takeoverKind_ends
    | with_reducible apply EndsIn.next
    | split
    | intro _
    | (conv => enter [2, 26]); with_reducible refine Keeps.but ?_ rfl

theorem execAtomicRecordExpiry_ends {s0 s : State} (x1 x2) (h : Keeps s0 s) : EndsIn Keeps s0 (execAtomicRecordExpiry x1 x2 s) := by
  unfold execAtomicRecordExpiry
  repeat' first
    | with_reducible assumption
    | (extract_lets +onlyGivenNames x; )
    | with_reducible apply EndsIn.next
    | split
    | intro _
    | (conv => enter [2, 26]); with_reducible refine Keeps.but ?_ rfl

theorem State.replicateChanges_keeps {s0 s : State} (old) (h : Keeps s0 s) : Keeps s0 (State.replicateChanges old s) := by
  unfold State.replicateChanges
  repeat' first
    | with_reducible assumption
    | (extract_lets +onlyGivenNames x; )
    | with_reducible apply State.replicate_keeps
    | (with_reducible apply Keeps.foldl; intro _ _ _)
    | split

theorem State.contentDelta_keeps {s0 s : State} (x2) (h : Keeps s0 s) : Keeps s0 (State.contentDelta s x2) := by
  unfold State.contentDelta
  repeat' first
    | with_reducible assumption
    | with_reducible apply State.sendOwed_keeps

theorem State.sendMark_keeps {s0 s : State} (x2 x3) (h : Keeps s0 s) : Keeps s0 (State.sendMark s x2 x3) := by
  unfold State.sendMark
  repeat' first
    | with_reducible assumption
    | (extract_lets +onlyGivenNames x; )
    | with_reducible apply State.takeover_keeps
    | (with_reducible apply Keeps.foldl; intro _ _ _)

theorem execProtectionUpdate_ends {s0 s : State} (x1) (h : Keeps s0 s) : EndsIn Keeps s0 (execProtectionUpdate x1 s) := by
  unfold execProtectionUpdate
  repeat' first
    | with_reducible assumption
    | (extract_lets +onlyGivenNames x; )
    | with_reducible apply State.sendMark_keeps
    | with_reducible apply State.contentDelta_keeps
    | with_reducible apply EndsIn.next
    | split
    | intro _
    | (conv => enter [2, 26]); with_reducible refine Keeps.but ?_ rfl

theorem execProtectionRebuild_ends {s0 s : State} (x1) (h : Keeps s0 s) : EndsIn Keeps s0 (execProtectionRebuild x1 s) := by
  unfold execProtectionRebuild
  repeat' first
    | with_reducible assumption
    | (extract_lets +onlyGivenNames x; )
    | with_reducible apply State.beginRebuild_keeps
    | with_reducible apply State.takeover_keeps
    | with_reducible apply EndsIn.next
    | (with_reducible apply Keeps.foldl; intro _ _ _)
    | split
    | intro _
    | (conv => enter [2, 26]); with_reducible refine Keeps.but ?_ rfl

theorem State.loseHbm_keeps {s0 s : State} (x2 x3) (h : Keeps s0 s) : Keeps s0 (State.loseHbm s x2 x3) := by
  unfold State.loseHbm
  repeat' first
    | with_reducible assumption
    | (extract_lets +onlyGivenNames x; )
    | with_reducible apply State.poisonSectors_keeps
    | split

theorem State.retireStack_keeps {s0 s : State} (x2 x3) (h : Keeps s0 s) : Keeps s0 (State.retireStack s x2 x3) := by
  unfold State.retireStack
  repeat' first
    | with_reducible assumption
    | (extract_lets +onlyGivenNames x; )
    | with_reducible apply State.loseHbm_keeps
    | with_reducible apply State.singleFault_keeps
    | with_reducible apply State.report_keeps
    | split
    | intro _
    | (conv => enter [2, 26]); with_reducible refine Keeps.but ?_ rfl
    | with_reducible refine Keeps.of_fst ?_ (by with_reducible assumption)
    | unfold x
    | dsimp only
    | dsimp +zetaDelta only

theorem State.retireChannel_keeps {s0 s : State} (x2 x3 x4) (h : Keeps s0 s) : Keeps s0 (State.retireChannel s x2 x3 x4) := by
  unfold State.retireChannel
  repeat' first
    | with_reducible assumption
    | (extract_lets +onlyGivenNames x; )
    | with_reducible apply State.retireStack_keeps
    | with_reducible apply State.loseHbm_keeps
    | with_reducible apply State.singleFault_keeps
    | with_reducible apply State.report_keeps
    | split
    | intro _
    | (conv => enter [2, 26]); with_reducible refine Keeps.but ?_ rfl
    | with_reducible refine Keeps.of_fst ?_ (by with_reducible assumption)
    | unfold x
    | dsimp only
    | dsimp +zetaDelta only

theorem execHbmChannelFail_ends {s0 s : State} (x1 x2) (h : Keeps s0 s) : EndsIn Keeps s0 (execHbmChannelFail x1 x2 s) := by
  unfold execHbmChannelFail
  repeat' first
    | with_reducible assumption
    | (extract_lets +onlyGivenNames x; )
    | with_reducible apply State.retireChannel_keeps
    | with_reducible apply EndsIn.next
    | split

theorem execHbmStackRetire_ends {s0 s : State} (x1) (h : Keeps s0 s) : EndsIn Keeps s0 (execHbmStackRetire x1 s) := by
  unfold execHbmStackRetire
  repeat' first
    | with_reducible assumption
    | (extract_lets +onlyGivenNames x; )
    | with_reducible apply State.retireStack_keeps
    | with_reducible apply EndsIn.next
    | split

theorem execDirectoryEntryError_ends {s0 s : State} (x1) (h : Keeps s0 s) : EndsIn Keeps s0 (execDirectoryEntryError x1 s) := by
  unfold execDirectoryEntryError
  repeat' first
    | with_reducible assumption
    | (extract_lets +onlyGivenNames x; )
    | with_reducible apply State.recall_keeps
    | with_reducible apply State.setLine_keeps
    | with_reducible apply State.report_keeps
    | with_reducible apply EndsIn.next
    | split
    | intro _
    | (conv => enter [2, 26]); with_reducible refine Keeps.but ?_ rfl

theorem execReserveRaise_ends {s0 s : State} (x1 x2 x3 x4) (h : Keeps s0 s) : EndsIn Keeps s0 (execReserveRaise x1 x2 x3 x4 s) := by
  unfold execReserveRaise
  repeat' first
    | with_reducible assumption
    | (extract_lets +onlyGivenNames x; )
    | with_reducible apply State.count_keeps
    | with_reducible apply EndsIn.next
    | split
    | intro _
    | (conv => enter [2, 26]); with_reducible refine Keeps.but ?_ rfl
    | with_reducible refine Keeps.of_fst ?_ (by with_reducible assumption)
    | unfold x
    | dsimp only
    | dsimp +zetaDelta only

theorem execReserveLower_ends {s0 s : State} (x1) (h : Keeps s0 s) : EndsIn Keeps s0 (execReserveLower x1 s) := by
  unfold execReserveLower
  repeat' first
    | with_reducible assumption
    | (extract_lets +onlyGivenNames x; )
    | with_reducible apply EndsIn.next
    | split
    | intro _
    | (conv => enter [2, 26]); with_reducible refine Keeps.but ?_ rfl

theorem execEventDatagram_ends {s0 s : State} (h : Keeps s0 s) : EndsIn Keeps s0 (execEventDatagram s) := by
  unfold execEventDatagram
  repeat' first
    | with_reducible assumption
    | (extract_lets +onlyGivenNames x; )
    | with_reducible apply State.count_keeps
    | with_reducible apply State.emit_keeps
    | with_reducible apply EndsIn.next
    | split
    | intro _
    | (conv => enter [2, 26]); with_reducible refine Keeps.but ?_ rfl

theorem State.writeLog_keeps {s0 s : State} (h : Keeps s0 s) : Keeps s0 (State.writeLog s) := by
  unfold State.writeLog
  repeat' first
    | with_reducible assumption
    | (extract_lets +onlyGivenNames x; )
    | with_reducible apply State.writeAt_keeps
    | with_reducible apply State.emit_keeps
    | split
    | intro _
    | (conv => enter [2, 26]); with_reducible refine Keeps.but ?_ rfl

theorem execLogbookWrite_ends {s0 s : State} (h : Keeps s0 s) : EndsIn Keeps s0 (execLogbookWrite s) := by
  unfold execLogbookWrite
  repeat' first
    | with_reducible assumption
    | (extract_lets +onlyGivenNames x; )
    | with_reducible apply State.writeLog_keeps
    | with_reducible apply EndsIn.next
    | split

theorem opFaultRead_kept : RelasOp.Kept opFaultRead := by
  intro s0 s c k h
  unfold opFaultRead
  repeat' first
    | with_reducible assumption

theorem opWeatherQuery_kept : RelasOp.Kept opWeatherQuery := by
  intro s0 s c k h
  unfold opWeatherQuery
  repeat' first
    | with_reducible assumption

theorem opLogbookRead_kept : RelasOp.Kept opLogbookRead := by
  intro s0 s c k h
  unfold opLogbookRead
  repeat' first
    | with_reducible assumption

theorem opQuarantineRelease_kept : RelasOp.Kept opQuarantineRelease := by
  intro s0 s c k h
  unfold opQuarantineRelease
  repeat' first
    | with_reducible assumption
    | (extract_lets +onlyGivenNames x; )
    | with_reducible apply State.report_keeps
    | with_reducible apply State.setGuest_keeps

end Sys2Proof.Machine
end

