-- ==== Sys2Proof/Laws/KeepsTime.lean ====
section
/-! SUPPORT. What the operations of Time leave in force. -/

set_option linter.tactic.unusedName false

namespace Sys2Proof.Machine

theorem State.loseLock_keeps {s0 s : State} (h : Keeps s0 s) : Keeps s0 (State.loseLock s) := by
  unfold State.loseLock
  repeat' first
    | with_reducible assumption
    | (extract_lets +onlyGivenNames x; )
    | with_reducible apply State.report_keeps
    | with_reducible apply State.interrupt_keeps
    | with_reducible apply State.count_keeps
    | split
    | intro _
    | (conv => enter [2, 26]); with_reducible refine Keeps.but ?_ rfl

theorem State.reclock_keeps {s0 s : State} (old) (h : Keeps s0 s) : Keeps s0 (State.reclock old s) := by
  unfold State.reclock
  repeat' first
    | with_reducible assumption
    | (extract_lets +onlyGivenNames x; )
    | split
    | intro _
    | (conv => enter [2, 26]); with_reducible refine Keeps.but ?_ rfl

theorem State.enterService_keeps {s0 s : State} (x2) (h : Keeps s0 s) : Keeps s0 (State.enterService s x2) := by
  unfold State.enterService
  repeat' first
    | with_reducible assumption
    | (extract_lets +onlyGivenNames x; )
    | with_reducible apply State.endTicket_keeps
    | with_reducible apply State.become_keeps
    | split
    | intro _
    | (conv => enter [2, 26]); with_reducible refine Keeps.but ?_ rfl
    | with_reducible refine Keeps.of_fst ?_ (by with_reducible assumption)
    | unfold x
    | dsimp only
    | dsimp +zetaDelta only

theorem State.lockedIn_keeps {s0 s : State} (x2 x3) (h : Keeps s0 s) : Keeps s0 (State.lockedIn s x2 x3) := by
  unfold State.lockedIn
  repeat' first
    | with_reducible assumption
    | with_reducible apply State.enterService_keeps
    | split

theorem State.lock_keeps {s0 s : State} (h : Keeps s0 s) : Keeps s0 (State.lock s) := by
  unfold State.lock
  repeat' first
    | with_reducible assumption
    | (extract_lets +onlyGivenNames x; )
    | with_reducible apply State.lockedIn_keeps
    | with_reducible apply State.interrupt_keeps
    | split
    | intro _
    | (conv => enter [2, 26]); with_reducible refine Keeps.but ?_ rfl
    | with_reducible refine Keeps.of_fst ?_ (by with_reducible assumption)
    | unfold x

theorem State.sendTime_keeps {s0 s : State} (x2 x3 x4 x5 x6) (h : Keeps s0 s) : Keeps s0 (State.sendTime s x2 x3 x4 x5 x6) := by
  unfold State.sendTime
  repeat' first
    | with_reducible assumption
    | with_reducible apply State.egress_keeps
    | split

theorem State.timeMsg_ends {s0 s : State} (x2 x3 x4) (h : Keeps s0 s) (hf : ∀ b s, Keeps s0 s → Keeps s0 (x4 b s)) : EndsIn Keeps s0 (State.timeMsg s x2 x3 x4) := by
  unfold State.timeMsg
  repeat' first
    | with_reducible assumption
    | (extract_lets +onlyGivenNames x; )
    | with_reducible apply State.arrival_ends
    | with_reducible apply State.ported_keeps
    | (with_reducible apply hf)
    | with_reducible apply EndsIn.next
    | split
    | intro _

theorem execTimeAnnounce_ends {s0 s : State} (x1) (h : Keeps s0 s) : EndsIn Keeps s0 (execTimeAnnounce x1 s) := by
  unfold execTimeAnnounce
  repeat' first
    | with_reducible assumption
    | (extract_lets +onlyGivenNames x; )
    | with_reducible apply State.timeMsg_ends
    | with_reducible apply State.reclock_keeps
    | with_reducible apply EndsIn.next
    | split
    | intro _
    | (conv => enter [2, 26]); with_reducible refine Keeps.but ?_ rfl

theorem execTimeSync_ends {s0 s : State} (x1) (h : Keeps s0 s) : EndsIn Keeps s0 (execTimeSync x1 s) := by
  unfold execTimeSync
  repeat' first
    | with_reducible assumption
    | (extract_lets +onlyGivenNames x; )
    | with_reducible apply State.timeMsg_ends
    | with_reducible apply State.sendTime_keeps
    | with_reducible apply EndsIn.next
    | split
    | intro _

theorem State.takeOffset_keeps {s0 s : State} (x2 x3) (h : Keeps s0 s) : Keeps s0 (State.takeOffset s x2 x3) := by
  unfold State.takeOffset
  repeat' first
    | with_reducible assumption
    | (extract_lets +onlyGivenNames x; )
    | with_reducible apply State.lock_keeps
    | with_reducible apply State.loseLock_keeps
    | with_reducible apply State.drew_keeps
    | split
    | intro _
    | (conv => enter [2, 26]); with_reducible refine Keeps.but ?_ rfl
    | with_reducible refine Keeps.of_fst ?_ (by with_reducible assumption)
    | unfold x
    | dsimp only
    | dsimp +zetaDelta only

theorem execTimeReply_ends {s0 s : State} (x1) (h : Keeps s0 s) : EndsIn Keeps s0 (execTimeReply x1 s) := by
  unfold execTimeReply
  repeat' first
    | with_reducible assumption
    | (extract_lets +onlyGivenNames x; )
    | with_reducible apply State.takeOffset_keeps
    | with_reducible apply State.timeMsg_ends
    | with_reducible apply EndsIn.next
    | split
    | intro _
    | (conv => enter [2, 26]); with_reducible refine Keeps.but ?_ rfl
    | with_reducible refine Keeps.of_fst ?_ (by with_reducible assumption)
    | unfold x
    | dsimp only
    | dsimp +zetaDelta only

theorem execAnnounceTimer_ends {s0 s : State} (h : Keeps s0 s) : EndsIn Keeps s0 (execAnnounceTimer s) := by
  unfold execAnnounceTimer
  repeat' first
    | with_reducible assumption
    | (extract_lets +onlyGivenNames x; )
    | with_reducible apply State.sendTime_keeps
    | with_reducible apply EndsIn.next
    | (with_reducible apply Keeps.foldl; intro _ _ _)
    | split
    | intro _
    | (conv => enter [2, 26]); with_reducible refine Keeps.but ?_ rfl

theorem execSyncTimer_ends {s0 s : State} (h : Keeps s0 s) : EndsIn Keeps s0 (execSyncTimer s) := by
  unfold execSyncTimer
  repeat' first
    | with_reducible assumption
    | (extract_lets +onlyGivenNames x; )
    | with_reducible apply State.sendTime_keeps
    | with_reducible apply EndsIn.next
    | split
    | intro _
    | (conv => enter [2, 26]); with_reducible refine Keeps.but ?_ rfl

theorem execSyncLost_ends {s0 s : State} (x1) (h : Keeps s0 s) : EndsIn Keeps s0 (execSyncLost x1 s) := by
  unfold execSyncLost
  repeat' first
    | with_reducible assumption
    | (extract_lets +onlyGivenNames x; )
    | with_reducible apply State.count_keeps
    | with_reducible apply EndsIn.next
    | split
    | intro _
    | (conv => enter [2, 26]); with_reducible refine Keeps.but ?_ rfl

theorem execAnnounceAgeOut_ends {s0 s : State} (x1) (h : Keeps s0 s) : EndsIn Keeps s0 (execAnnounceAgeOut x1 s) := by
  unfold execAnnounceAgeOut
  repeat' first
    | with_reducible assumption
    | (extract_lets +onlyGivenNames x; )
    | with_reducible apply State.reclock_keeps
    | with_reducible apply EndsIn.next
    | split
    | intro _
    | (conv => enter [2, 26]); with_reducible refine Keeps.but ?_ rfl

theorem execHeadlandLock_ends {s0 s : State} (h : Keeps s0 s) : EndsIn Keeps s0 (execHeadlandLock s) := by
  unfold execHeadlandLock
  repeat' first
    | with_reducible assumption
    | (extract_lets +onlyGivenNames x; )
    | with_reducible apply State.lock_keeps
    | with_reducible apply EndsIn.next
    | split
    | intro _
    | (conv => enter [2, 26]); with_reducible refine Keeps.but ?_ rfl

theorem execHoldoverExpiry_ends {s0 s : State} (h : Keeps s0 s) : EndsIn Keeps s0 (execHoldoverExpiry s) := by
  unfold execHoldoverExpiry
  repeat' first
    | with_reducible assumption
    | (extract_lets +onlyGivenNames x; )
    | with_reducible apply State.loseLock_keeps
    | with_reducible apply EndsIn.next
    | split
    | intro _
    | (conv => enter [2, 26]); with_reducible refine Keeps.but ?_ rfl

theorem execTideReferenceChange_ends {s0 s : State} (x1 x2) (h : Keeps s0 s) : EndsIn Keeps s0 (execTideReferenceChange x1 x2 s) := by
  unfold execTideReferenceChange
  repeat' first
    | with_reducible assumption
    | (extract_lets +onlyGivenNames x; )
    | with_reducible apply State.reclock_keeps
    | with_reducible apply EndsIn.next
    | split
    | intro _
    | (conv => enter [2, 26]); with_reducible refine Keeps.but ?_ rfl

theorem execPtpMessage_ends {s0 s : State} (x1 x2) (h : Keeps s0 s) : EndsIn Keeps s0 (execPtpMessage x1 x2 s) := by
  unfold execPtpMessage
  repeat' first
    | with_reducible assumption
    | (extract_lets +onlyGivenNames x; )
    | with_reducible apply State.drew_keeps
    | with_reducible apply EndsIn.next
    | split
    | intro _
    | (conv => enter [2, 26]); with_reducible refine Keeps.but ?_ rfl

theorem execTide1ppsEdge_ends {s0 s : State} (h : Keeps s0 s) : EndsIn Keeps s0 (execTide1ppsEdge s) := by
  unfold execTide1ppsEdge
  repeat' first
    | with_reducible assumption
    | (extract_lets +onlyGivenNames x; )
    | with_reducible apply State.drew_keeps
    | with_reducible apply EndsIn.next
    | split
    | intro _
    | (conv => enter [2, 26]); with_reducible refine Keeps.but ?_ rfl

theorem opCounterRead_kept {deep} : RelasOp.Kept (opCounterRead deep) := by
  intro s0 s c k h
  unfold opCounterRead
  repeat' first
    | with_reducible assumption

theorem opEventRing_kept : RelasOp.Kept opEventRing := by
  intro s0 s c k h
  unfold opEventRing
  repeat' first
    | with_reducible assumption
    | split
    | intro _
    | (conv => enter [2, 26]); with_reducible refine Keeps.but ?_ rfl
    | with_reducible refine Keeps.of_fst ?_ (by with_reducible assumption)
    | unfold x
    | dsimp only

theorem opMark_kept : DescOp.Kept opMark := by
  intro s0 s d h
  unfold opMark
  repeat' first
    | with_reducible assumption

theorem execMark_ends {s0 s : State} (x1) (h : Keeps s0 s) : EndsIn Keeps s0 (execMark x1 s) := by
  unfold execMark
  repeat' first
    | with_reducible assumption
    | (extract_lets +onlyGivenNames x; )
    | with_reducible apply State.stop_keeps
    | with_reducible apply State.work_keeps
    | with_reducible apply State.ok_keeps
    | with_reducible apply State.setDesc_keeps
    | with_reducible apply State.setSq_keeps
    | with_reducible apply State.count_keeps
    | with_reducible apply EndsIn.next
    | split
    | intro _
    | with_reducible refine Keeps.of_fst ?_ (by with_reducible assumption)
    | unfold x

end Sys2Proof.Machine
end

