-- ==== Sys2Proof/Laws/KeepsTrust.lean ====
section
/-! SUPPORT. What the operations of Trust leave in force. -/

set_option linter.tactic.unusedName false

namespace Sys2Proof.Machine

theorem opMailboxBind_kept : RelasOp.Kept opMailboxBind := by
  intro s0 s c k h
  unfold opMailboxBind
  repeat' first
    | with_reducible assumption
    | with_reducible apply State.setChan_keeps

theorem State.sweepSlots_keeps {s0 s : State} (h : Keeps s0 s) : Keeps s0 (State.sweepSlots s) := by
  unfold State.sweepSlots
  repeat' first
    | with_reducible assumption
    | (extract_lets +onlyGivenNames x; )
    | split
    | intro _
    | (conv => enter [2, 26]); with_reducible refine Keeps.but ?_ rfl

theorem State.endHolding_keeps {s0 s : State} (x2) (h : Keeps s0 s) : Keeps s0 (State.endHolding s x2) := by
  unfold State.endHolding
  repeat' first
    | with_reducible assumption
    | (extract_lets +onlyGivenNames x; )
    | with_reducible apply State.sweepSlots_keeps
    | split
    | intro _
    | (conv => enter [2, 26]); with_reducible refine Keeps.but ?_ rfl

theorem State.freshSlot_keeps {s0 s : State} (x2) (h : Keeps s0 s) : Keeps s0 (State.freshSlot s x2).1 := by
  unfold State.freshSlot
  repeat' first
    | with_reducible assumption
    | (extract_lets +onlyGivenNames x; )
    | with_reducible apply State.drew_keeps
    | split
    | intro _
    | (conv => enter [2, 26]); with_reducible refine Keeps.but ?_ rfl

theorem opKeySlotLoad_kept : RelasOp.Kept opKeySlotLoad := by
  intro s0 s c k h
  unfold opKeySlotLoad
  repeat' first
    | with_reducible assumption
    | split
    | intro _
    | (conv => enter [2, 26]); with_reducible refine Keeps.but ?_ rfl
    | with_reducible refine Keeps.of_fst ?_ (by with_reducible assumption)
    | unfold x
    | dsimp only

theorem opKeySlotClear_kept : RelasOp.Kept opKeySlotClear := by
  intro s0 s c k h
  unfold opKeySlotClear
  repeat' first
    | with_reducible assumption
    | split
    | intro _
    | (conv => enter [2, 26]); with_reducible refine Keeps.but ?_ rfl
    | with_reducible refine Keeps.of_fst ?_ (by with_reducible assumption)
    | unfold x
    | dsimp only

theorem State.debugChanged_keeps {s0 s : State} (h : Keeps s0 s) : Keeps s0 (State.debugChanged s) := by
  unfold State.debugChanged
  repeat' first
    | with_reducible assumption
    | (extract_lets +onlyGivenNames x; )
    | with_reducible apply State.logEvent_keeps
    | split
    | intro _
    | (conv => enter [2, 26]); with_reducible refine Keeps.but ?_ rfl
    | with_reducible refine Keeps.of_fst ?_ (by with_reducible assumption)
    | unfold x

theorem opDebugUnlock_kept : RelasOp.Kept opDebugUnlock := by
  intro s0 s c k h
  unfold opDebugUnlock
  repeat' first
    | with_reducible assumption
    | (extract_lets +onlyGivenNames x; )
    | with_reducible apply State.debugChanged_keeps
    | with_reducible apply State.drew_keeps
    | split
    | intro _
    | (conv => enter [2, 26]); with_reducible refine Keeps.but ?_ rfl
    | with_reducible refine Keeps.of_fst ?_ (by with_reducible assumption)
    | unfold x
    | dsimp only

theorem execDebugExpiry_ends {s0 s : State} (h : Keeps s0 s) : EndsIn Keeps s0 (execDebugExpiry s) := by
  unfold execDebugExpiry
  repeat' first
    | with_reducible assumption
    | (extract_lets +onlyGivenNames x; )
    | with_reducible apply State.debugChanged_keeps
    | with_reducible apply EndsIn.next
    | split
    | intro _
    | (conv => enter [2, 26]); with_reducible refine Keeps.but ?_ rfl

theorem execJtagInstruction_ends {s0 s : State} (x1) (h : Keeps s0 s) : EndsIn Keeps s0 (execJtagInstruction x1 s) := by
  unfold execJtagInstruction
  repeat' first
    | with_reducible assumption
    | (extract_lets +onlyGivenNames x; )
    | with_reducible apply State.drew_keeps
    | with_reducible apply State.emit_keeps
    | with_reducible apply EndsIn.next
    | split

theorem execTlsSessionOpen_ends {s0 s : State} (x1 x2) (h : Keeps s0 s) : EndsIn Keeps s0 (execTlsSessionOpen x1 x2 s) := by
  unfold execTlsSessionOpen
  repeat' first
    | with_reducible assumption
    | (extract_lets +onlyGivenNames x; )
    | with_reducible apply State.setChan_keeps
    | with_reducible apply EndsIn.next
    | split
    | intro _
    | (conv => enter [2, 26]); with_reducible refine Keeps.but ?_ rfl

theorem State.closeTls_keeps {s0 s : State} (x2) (h : Keeps s0 s) : Keeps s0 (State.closeTls s x2) := by
  unfold State.closeTls
  repeat' first
    | with_reducible assumption
    | (extract_lets +onlyGivenNames x; )
    | split
    | intro _
    | (conv => enter [2, 26]); with_reducible refine Keeps.but ?_ rfl

theorem execTlsSessionClose_ends {s0 s : State} (x1) (h : Keeps s0 s) : EndsIn Keeps s0 (execTlsSessionClose x1 s) := by
  unfold execTlsSessionClose
  repeat' first
    | with_reducible assumption
    | (extract_lets +onlyGivenNames x; )
    | with_reducible apply State.closeTls_keeps
    | with_reducible apply EndsIn.next

theorem execRedfishRequest_ends {s0 s : State} (x1 x2) (h : Keeps s0 s) : EndsIn Keeps s0 (execRedfishRequest x1 x2 s) := by
  unfold execRedfishRequest
  repeat' first
    | with_reducible assumption
    | (extract_lets +onlyGivenNames x; )
    | with_reducible apply State.emit_keeps
    | with_reducible apply EndsIn.next
    | split
    | intro _
    | (conv => enter [2, 26]); with_reducible refine Keeps.but ?_ rfl

theorem State.setSpdm_keeps {s0 s : State} (x2) (h : Keeps s0 s) : Keeps s0 (State.setSpdm s x2) := by
  unfold State.setSpdm
  repeat' first
    | with_reducible assumption
    | (extract_lets +onlyGivenNames x; )
    | split
    | intro _
    | (conv => enter [2, 26]); with_reducible refine Keeps.but ?_ rfl

theorem execSpdmMessage_ends {s0 s : State} (x1 x2 x3 x4 x5) (h : Keeps s0 s) : EndsIn Keeps s0 (execSpdmMessage x1 x2 x3 x4 x5 s) := by
  unfold execSpdmMessage
  repeat' first
    | with_reducible assumption
    | (extract_lets +onlyGivenNames x; )
    | with_reducible apply State.setSpdm_keeps
    | with_reducible apply State.setPort_keeps
    | with_reducible apply State.emit_keeps
    | with_reducible apply EndsIn.next
    | split
    | intro _
    | with_reducible refine Keeps.of_fst ?_ (by with_reducible assumption)
    | unfold x

end Sys2Proof.Machine
end

