-- ==== Sys2Proof/Laws/KeepsTeardown.lean ====
section
/-! SUPPORT. What the operations of Teardown leave in force. -/

set_option linter.tactic.unusedName false

namespace Sys2Proof.Machine

theorem opGuestSet_kept : RelasOp.Kept opGuestSet := by
  intro s0 s c k h
  unfold opGuestSet
  repeat' first
    | with_reducible assumption
    | (extract_lets +onlyGivenNames x; )
    | with_reducible apply State.reviewExtents_keeps
    | with_reducible apply State.setGuest_keeps

theorem opCoveGrantAll_kept : RelasOp.Kept opCoveGrantAll := by
  intro s0 s c k h
  unfold opCoveGrantAll
  repeat' first
    | with_reducible assumption
    | (extract_lets +onlyGivenNames x; )
    | with_reducible apply State.reviewExtents_keeps
    | with_reducible apply grantEffect_keeps

theorem State.stopByOpcode_keeps {s0 s : State} (x2 x3 x4) (h : Keeps s0 s) : Keeps s0 (State.stopByOpcode s x2 x3 x4) := by
  unfold State.stopByOpcode
  repeat' first
    | with_reducible assumption
    | (extract_lets +onlyGivenNames x; )
    | with_reducible apply State.searchStop_keeps
    | with_reducible apply State.mergeStop_keeps
    | with_reducible apply State.vecStop_keeps
    | with_reducible apply State.kvStop_keeps
    | with_reducible apply State.replaceStop_keeps
    | with_reducible apply State.scatterStop_keeps
    | with_reducible apply State.gatherStop_keeps
    | with_reducible apply State.consumerStop_keeps
    | with_reducible apply State.contributeStop_keeps
    | with_reducible apply State.convertStop_keeps
    | with_reducible apply State.porterStop_keeps
    | with_reducible apply State.stop_keeps
    | split

theorem State.tearDesc_keeps {s0 s : State} (x2) (h : Keeps s0 s) : Keeps s0 (State.tearDesc s x2) := by
  unfold State.tearDesc
  repeat' first
    | with_reducible assumption
    | (extract_lets +onlyGivenNames x; )
    | with_reducible apply State.stopByOpcode_keeps
    | with_reducible apply State.finish_keeps
    | with_reducible apply State.run_keeps
    | with_reducible apply State.setDesc_keeps
    | split
    | intro _
    | with_reducible refine Keeps.of_fst ?_ (by with_reducible assumption)
    | unfold x

theorem State.tearWalk_keeps {s0 s : State} (x2) (h : Keeps s0 s) : Keeps s0 (State.tearWalk s x2) := by
  unfold State.tearWalk
  repeat' first
    | with_reducible assumption
    | (extract_lets +onlyGivenNames x; )
    | with_reducible apply State.walkOver_keeps
    | with_reducible apply State.dropPage_keeps
    | with_reducible apply State.walkFault_keeps
    | split

theorem State.tearWait_keeps {s0 s : State} (x2) (h : Keeps s0 s) : Keeps s0 (State.tearWait s x2) := by
  unfold State.tearWait
  repeat' first
    | with_reducible assumption
    | (extract_lets +onlyGivenNames x; )
    | with_reducible apply State.finish_keeps
    | with_reducible apply State.dropWait_keeps
    | with_reducible apply State.endTicket_keeps
    | with_reducible apply State.reply_keeps
    | split

theorem State.tearBollards_keeps {s0 s : State} (x2) (h : Keeps s0 s) : Keeps s0 (State.tearBollards s x2) := by
  unfold State.tearBollards
  repeat' first
    | with_reducible assumption
    | (extract_lets +onlyGivenNames x; )
    | with_reducible apply State.tearWait_keeps
    | (with_reducible apply Keeps.foldl; intro _ _ _)
    | split
    | intro _
    | (conv => enter [2, 26]); with_reducible refine Keeps.but ?_ rfl

theorem State.tearObjects_keeps {s0 s : State} (x2) (h : Keeps s0 s) : Keeps s0 (State.tearObjects s x2) := by
  unfold State.tearObjects
  repeat' first
    | with_reducible assumption
    | (extract_lets +onlyGivenNames x; )
    | with_reducible apply State.dropIndex_keeps
    | with_reducible apply State.closeGroup_keeps
    | (with_reducible apply Keeps.foldl; intro _ _ _)
    | split
    | intro _
    | (conv => enter [2, 26]); with_reducible refine Keeps.but ?_ rfl
    | with_reducible refine Keeps.of_fst ?_ (by with_reducible assumption)
    | unfold x
    | dsimp only
    | dsimp +zetaDelta only

theorem State.teardown_keeps {s0 s : State} (x2) (h : Keeps s0 s) : Keeps s0 (State.teardown s x2) := by
  unfold State.teardown
  repeat' first
    | with_reducible assumption
    | (extract_lets +onlyGivenNames x; )
    | with_reducible apply State.tearObjects_keeps
    | with_reducible apply State.tearBollards_keeps
    | with_reducible apply State.tearWalk_keeps
    | with_reducible apply State.tearDesc_keeps
    | with_reducible apply State.endHolding_keeps
    | with_reducible apply State.pumpPages_keeps
    | with_reducible apply State.closeSnap_keeps
    | with_reducible apply State.freeAllImages_keeps
    | with_reducible apply State.reviewExtents_keeps
    | with_reducible apply State.guestNotice_keeps
    | with_reducible apply State.forget_keeps
    | with_reducible apply State.report_keeps
    | (with_reducible apply Keeps.foldl; intro _ _ _)

theorem opGuestDestroy_kept : RelasOp.Kept opGuestDestroy := by
  intro s0 s c k h
  unfold opGuestDestroy
  repeat' first
    | with_reducible assumption
    | with_reducible apply State.teardown_keeps

theorem State.beginHandover_keeps {s0 s : State} (x2 x3 x4 x5 x6 x7) (h : Keeps s0 s) : Keeps s0 (State.beginHandover s x2 x3 x4 x5 x6 x7) := by
  unfold State.beginHandover
  repeat' first
    | with_reducible assumption
    | (extract_lets +onlyGivenNames x; )
    | with_reducible apply State.reviewExtents_keeps
    | with_reducible apply State.setCove_keeps
    | split
    | intro _
    | (conv => enter [2, 26]); with_reducible refine Keeps.but ?_ rfl

theorem opCoveDestroy_kept : RelasOp.Kept opCoveDestroy := by
  intro s0 s c k h
  unfold opCoveDestroy
  repeat' first
    | with_reducible assumption
    | with_reducible apply State.beginHandover_keeps
    | split
    | intro _
    | with_reducible refine Keeps.of_fst ?_ (by with_reducible assumption)
    | unfold x
    | dsimp only

theorem opCoveHandover_kept : RelasOp.Kept opCoveHandover := by
  intro s0 s c k h
  unfold opCoveHandover
  repeat' first
    | with_reducible assumption
    | with_reducible apply State.beginHandover_keeps
    | split
    | intro _
    | with_reducible refine Keeps.of_fst ?_ (by with_reducible assumption)
    | unfold x
    | dsimp only

theorem State.setHandover_keeps {s0 s : State} (x2 x3) (h : Keeps s0 s) : Keeps s0 (State.setHandover s x2 x3) := by
  unfold State.setHandover
  repeat' first
    | with_reducible assumption
    | (extract_lets +onlyGivenNames x; )
    | split
    | intro _
    | (conv => enter [2, 26]); with_reducible refine Keeps.but ?_ rfl

theorem State.dropHandover_keeps {s0 s : State} (x2) (h : Keeps s0 s) : Keeps s0 (State.dropHandover s x2) := by
  unfold State.dropHandover
  repeat' first
    | with_reducible assumption
    | (extract_lets +onlyGivenNames x; )
    | split
    | intro _
    | (conv => enter [2, 26]); with_reducible refine Keeps.but ?_ rfl

theorem State.clearRange_keeps {s0 s : State} (x2 x3) (h : Keeps s0 s) : Keeps s0 (State.clearRange s x2 x3) := by
  unfold State.clearRange
  repeat' first
    | with_reducible assumption
    | (extract_lets +onlyGivenNames x; )
    | with_reducible apply State.zeroFill_keeps
    | with_reducible apply State.owe_keeps
    | (with_reducible apply Keeps.foldl; intro _ _ _)

theorem State.rekey_keeps {s0 s : State} (x2 x3) (h : Keeps s0 s) : Keeps s0 (State.rekey s x2 x3) := by
  unfold State.rekey
  repeat' first
    | with_reducible assumption
    | (extract_lets +onlyGivenNames x; )
    | with_reducible apply State.clearRange_keeps
    | with_reducible apply State.freshSlot_keeps
    | with_reducible apply State.sweepSlots_keeps
    | with_reducible apply State.setCove_keeps
    | split
    | intro _
    | (conv => enter [2, 26]); with_reducible refine Keeps.but ?_ rfl

theorem State.endCove_keeps {s0 s : State} (x2) (h : Keeps s0 s) : Keeps s0 (State.endCove s x2) := by
  unfold State.endCove
  repeat' first
    | with_reducible assumption
    | (extract_lets +onlyGivenNames x; )
    | with_reducible apply State.clearRange_keeps
    | with_reducible apply State.sweepSlots_keeps
    | split
    | intro _
    | (conv => enter [2, 26]); with_reducible refine Keeps.but ?_ rfl

theorem State.nextStep_keeps {s0 s : State} (x2 x3) (h : Keeps s0 s) : Keeps s0 (State.nextStep s x2 x3) := by
  unfold State.nextStep
  repeat' first
    | with_reducible assumption
    | (extract_lets +onlyGivenNames x; )
    | with_reducible apply State.endCove_keeps
    | with_reducible apply State.rekey_keeps
    | with_reducible apply State.dropHandover_keeps
    | with_reducible apply State.setHandover_keeps
    | with_reducible apply State.closeSnap_keeps
    | with_reducible apply State.publish_keeps
    | with_reducible apply State.freeImages_keeps
    | with_reducible apply State.reviewExtents_keeps
    | with_reducible apply State.requestRelease_keeps
    | with_reducible apply State.recallFor_keeps
    | with_reducible apply State.sendInvalidates_keeps
    | with_reducible apply State.endTicket_keeps
    | with_reducible apply State.setCove_keeps
    | (with_reducible apply Keeps.foldl; intro _ _ _)
    | split
    | intro _
    | with_reducible refine Keeps.of_fst ?_ (by with_reducible assumption)
    | unfold x

theorem execHandoverStep_ends {s0 s : State} (x1) (h : Keeps s0 s) : EndsIn Keeps s0 (execHandoverStep x1 s) := by
  unfold execHandoverStep
  repeat' first
    | with_reducible assumption
    | (extract_lets +onlyGivenNames x; )
    | with_reducible apply State.nextStep_keeps
    | with_reducible apply State.replicateChanges_keeps
    | with_reducible apply EndsIn.next
    | split

end Sys2Proof.Machine
end

