-- ==== Sys2Proof/Laws/KeepsPower.lean ====
section
/-! SUPPORT. What the operations of Power leave in force. -/

set_option linter.tactic.unusedName false

namespace Sys2Proof.Machine

theorem State.sayDead_keeps {s0 s : State} (h : Keeps s0 s) : Keeps s0 (State.sayDead s) := by
  unfold State.sayDead
  repeat' first
    | with_reducible assumption
    | (extract_lets +onlyGivenNames x; )
    | with_reducible apply State.takeover_keeps
    | (with_reducible apply Keeps.foldl; intro _ _ _)

theorem State.halt_keeps {s0 s : State} (x2) (h : Keeps s0 s) : Keeps s0 (State.halt s x2) := by
  unfold State.halt
  repeat' first
    | with_reducible assumption
    | (extract_lets +onlyGivenNames x; )
    | with_reducible apply State.sayDead_keeps
    | with_reducible apply State.endTicket_keeps
    | with_reducible apply State.become_keeps
    | (with_reducible apply Keeps.foldl; intro _ _ _)
    | split
    | intro _
    | (conv => enter [2, 26]); with_reducible refine Keeps.but ?_ rfl
    | with_reducible refine Keeps.of_fst ?_ (by with_reducible assumption)
    | unfold x
    | dsimp only
    | dsimp +zetaDelta only

theorem State.restart_keeps {s0 s : State} (c) (h : Keeps s0 s) : Keeps s0 (State.restart s c) := by
  unfold State.restart
  exact ⟨h.pending, h.toll, fun _ => rfl⟩

theorem execRailGood_ends {s0 s : State} (x1) (h : Keeps s0 s) : EndsIn Keeps s0 (execRailGood x1 s) := by
  unfold execRailGood
  repeat' first
    | with_reducible assumption
    | (extract_lets +onlyGivenNames x; )
    | with_reducible apply State.restart_keeps
    | with_reducible apply EndsIn.next
    | split
    | intro _
    | (conv => enter [2, 26]); with_reducible refine Keeps.but ?_ rfl
    | with_reducible refine Keeps.of_fst ?_ (by with_reducible assumption)
    | unfold x

theorem State.resetManagement_keeps {s0 s : State} (h : Keeps s0 s) : Keeps s0 (State.resetManagement s) := by
  unfold State.resetManagement
  repeat' first
    | with_reducible assumption
    | (extract_lets +onlyGivenNames x; )
    | with_reducible apply State.closeTls_keeps
    | (with_reducible apply Keeps.foldl; intro _ _ _)
    | split
    | intro _
    | (conv => enter [2, 26]); with_reducible refine Keeps.but ?_ rfl

theorem execRailFault_ends {s0 s : State} (x1) (h : Keeps s0 s) : EndsIn Keeps s0 (execRailFault x1 s) := by
  unfold execRailFault
  repeat' first
    | with_reducible assumption
    | (extract_lets +onlyGivenNames x; )
    | with_reducible apply State.resetManagement_keeps
    | with_reducible apply State.halt_keeps
    | with_reducible apply State.linkLost_keeps
    | with_reducible apply State.report_keeps
    | with_reducible apply EndsIn.next
    | (with_reducible apply Keeps.foldl; intro _ _ _)
    | split
    | intro _
    | (conv => enter [2, 26]); with_reducible refine Keeps.but ?_ rfl
    | with_reducible refine Keeps.of_fst ?_ (by with_reducible assumption)
    | unfold x
    | dsimp only
    | dsimp +zetaDelta only

theorem execShoreRstN_ends {s0 s : State} (x1) (h : Keeps s0 s) : EndsIn Keeps s0 (execShoreRstN x1 s) := by
  unfold execShoreRstN
  repeat' first
    | with_reducible assumption
    | (extract_lets +onlyGivenNames x; )
    | with_reducible apply State.restart_keeps
    | with_reducible apply EndsIn.next
    | split
    | intro _
    | (conv => enter [2, 26]); with_reducible refine Keeps.but ?_ rfl
    | with_reducible refine Keeps.of_fst ?_ (by with_reducible assumption)
    | unfold x

theorem execClockFault_ends {s0 s : State} (x1 x2) (h : Keeps s0 s) : EndsIn Keeps s0 (execClockFault x1 x2 s) := by
  unfold execClockFault
  repeat' first
    | with_reducible assumption
    | (extract_lets +onlyGivenNames x; )
    | with_reducible apply State.halt_keeps
    | with_reducible apply State.report_keeps
    | with_reducible apply EndsIn.next
    | split

theorem execQuayError_ends {s0 s : State} (x1 x2 x3) (h : Keeps s0 s) : EndsIn Keeps s0 (execQuayError x1 x2 x3 s) := by
  unfold execQuayError
  repeat' first
    | with_reducible assumption
    | (extract_lets +onlyGivenNames x; )
    | with_reducible apply State.halt_keeps
    | with_reducible apply State.report_keeps
    | with_reducible apply State.poisonSectors_keeps
    | with_reducible apply EndsIn.next
    | split
    | intro _
    | with_reducible refine Keeps.of_fst ?_ (by with_reducible assumption)
    | unfold x

theorem State.resetBoxes_keeps {s0 s : State} (x2) (h : Keeps s0 s) : Keeps s0 (State.resetBoxes s x2) := by
  unfold State.resetBoxes
  repeat' first
    | with_reducible assumption
    | (extract_lets +onlyGivenNames x; )
    | split
    | intro _
    | (conv => enter [2, 26]); with_reducible refine Keeps.but ?_ rfl

theorem execPerst_ends {s0 s : State} (x1 x2) (h : Keeps s0 s) : EndsIn Keeps s0 (execPerst x1 x2 s) := by
  unfold execPerst
  repeat' first
    | with_reducible assumption
    | (extract_lets +onlyGivenNames x; )
    | with_reducible apply State.resetBoxes_keeps
    | with_reducible apply State.flr_keeps
    | with_reducible apply State.linkOff_keeps
    | with_reducible apply State.setPort_keeps
    | with_reducible apply EndsIn.next
    | split
    | intro _
    | (conv => enter [2, 26]); with_reducible refine Keeps.but ?_ rfl

theorem State.populate_keeps {s0 s : State} (x2) (h : Keeps s0 s) : Keeps s0 (State.populate s x2) := by
  unfold State.populate
  repeat' first
    | with_reducible assumption
    | (extract_lets +onlyGivenNames x; )
    | with_reducible apply State.report_keeps
    | (with_reducible apply Keeps.foldl; intro _ _ _)
    | split
    | intro _
    | (conv => enter [2, 26]); with_reducible refine Keeps.but ?_ rfl
    | with_reducible refine Keeps.of_fst ?_ (by with_reducible assumption)
    | unfold x

theorem State.setVcore_keeps {s0 s : State} (h : Keeps s0 s) : Keeps s0 (State.setVcore s) := by
  unfold State.setVcore
  repeat' first
    | with_reducible assumption
    | (extract_lets +onlyGivenNames x; )
    | with_reducible apply State.drew_keeps
    | with_reducible apply State.emit_keeps
    | split
    | intro _
    | (conv => enter [2, 26]); with_reducible refine Keeps.but ?_ rfl

theorem execWakingComplete_ends {s0 s : State} (x1 x2) (h : Keeps s0 s) : EndsIn Keeps s0 (execWakingComplete x1 x2 s) := by
  unfold execWakingComplete
  repeat' first
    | with_reducible assumption
    | (extract_lets +onlyGivenNames x; )
    | with_reducible apply State.setVcore_keeps
    | with_reducible apply State.populate_keeps
    | with_reducible apply State.lockedIn_keeps
    | with_reducible apply State.retireStack_keeps
    | with_reducible apply State.become_keeps
    | with_reducible apply EndsIn.next
    | (with_reducible apply Keeps.foldl; intro _ _ _)
    | split

theorem State.dropGoal_keeps {s0 s : State} (h : Keeps s0 s) : Keeps s0 (State.dropGoal s) := by
  unfold State.dropGoal
  repeat' first
    | with_reducible assumption
    | (extract_lets +onlyGivenNames x; )
    | with_reducible apply State.endTicket_keeps
    | split
    | intro _
    | (conv => enter [2, 26]); with_reducible refine Keeps.but ?_ rfl

theorem State.aim_keeps {s0 s : State} (x2 x3) (h : Keeps s0 s) : Keeps s0 (State.aim s x2 x3) := by
  unfold State.aim
  repeat' first
    | with_reducible assumption
    | (extract_lets +onlyGivenNames x; )
    | split
    | intro _
    | (conv => enter [2, 26]); with_reducible refine Keeps.but ?_ rfl

theorem State.setHold_keeps {s0 s : State} (x2) (h : Keeps s0 s) : Keeps s0 (State.setHold s x2) := by
  unfold State.setHold
  repeat' first
    | with_reducible assumption
    | (extract_lets +onlyGivenNames x; )
    | split
    | intro _
    | (conv => enter [2, 26]); with_reducible refine Keeps.but ?_ rfl

theorem State.stateSet_keeps {s0 s : State} (x2 x3 x4) (h : Keeps s0 s) : Keeps s0 (State.stateSet s x2 x3 x4) := by
  unfold State.stateSet
  repeat' first
    | with_reducible assumption
    | (extract_lets +onlyGivenNames x; )
    | with_reducible apply State.setHold_keeps
    | with_reducible apply State.aim_keeps
    | with_reducible apply State.dropGoal_keeps
    | with_reducible apply State.become_keeps
    | split
    | intro _
    | (conv => enter [2, 26]); with_reducible refine Keeps.but ?_ rfl

theorem opStateSet_kept : RelasOp.Kept opStateSet := by
  intro s0 s c k h
  unfold opStateSet
  repeat' first
    | with_reducible assumption
    | with_reducible apply State.stateSet_keeps

theorem execStateReached_ends {s0 s : State} (h : Keeps s0 s) : EndsIn Keeps s0 (execStateReached s) := by
  unfold execStateReached
  repeat' first
    | with_reducible assumption
    | (extract_lets +onlyGivenNames x; )
    | with_reducible apply State.endTicket_keeps
    | with_reducible apply State.become_keeps
    | with_reducible apply EndsIn.next
    | split
    | intro _
    | (conv => enter [2, 26]); with_reducible refine Keeps.but ?_ rfl

theorem execOfflineHalt_ends {s0 s : State} (h : Keeps s0 s) : EndsIn Keeps s0 (execOfflineHalt s) := by
  unfold execOfflineHalt
  repeat' first
    | with_reducible assumption
    | (extract_lets +onlyGivenNames x; )
    | with_reducible apply State.halt_keeps
    | with_reducible apply State.writeLog_keeps
    | with_reducible apply State.saveWear_keeps
    | with_reducible apply EndsIn.next
    | (with_reducible apply Keeps.foldl; intro _ _ _)
    | split

theorem opPowerCapSet_kept : RelasOp.Kept opPowerCapSet := by
  intro s0 s c k h
  unfold opPowerCapSet
  repeat' first
    | with_reducible assumption
    | (extract_lets +onlyGivenNames x; )
    | with_reducible apply State.interrupt_keeps
    | split
    | intro _
    | (conv => enter [2, 26]); with_reducible refine Keeps.but ?_ rfl

theorem execPowerCapEffect_ends {s0 s : State} (h : Keeps s0 s) : EndsIn Keeps s0 (execPowerCapEffect s) := by
  unfold execPowerCapEffect
  repeat' first
    | with_reducible assumption
    | (extract_lets +onlyGivenNames x; )
    | with_reducible apply State.interrupt_keeps
    | with_reducible apply EndsIn.next
    | split
    | intro _
    | (conv => enter [2, 26]); with_reducible refine Keeps.but ?_ rfl

theorem opThermalQuery_kept : RelasOp.Kept opThermalQuery := by
  intro s0 s c k h
  unfold opThermalQuery
  repeat' first
    | with_reducible assumption

theorem State.coolDown_keeps {s0 s : State} (h : Keeps s0 s) : Keeps s0 (State.coolDown s) := by
  unfold State.coolDown
  repeat' first
    | with_reducible assumption
    | (extract_lets +onlyGivenNames x; )
    | with_reducible apply State.interrupt_keeps
    | split
    | intro _
    | (conv => enter [2, 26]); with_reducible refine Keeps.but ?_ rfl

theorem State.warmUp_keeps {s0 s : State} (h : Keeps s0 s) : Keeps s0 (State.warmUp s) := by
  unfold State.warmUp
  repeat' first
    | with_reducible assumption
    | (extract_lets +onlyGivenNames x; )
    | with_reducible apply State.interrupt_keeps
    | split
    | intro _
    | (conv => enter [2, 26]); with_reducible refine Keeps.but ?_ rfl

theorem execThermalSample_ends {s0 s : State} (x1 x2) (h : Keeps s0 s) : EndsIn Keeps s0 (execThermalSample x1 x2 s) := by
  unfold execThermalSample
  repeat' first
    | with_reducible assumption
    | (extract_lets +onlyGivenNames x; )
    | with_reducible apply State.warmUp_keeps
    | with_reducible apply State.coolDown_keeps
    | with_reducible apply State.setVcore_keeps
    | with_reducible apply State.halt_keeps
    | with_reducible apply State.singleFault_keeps
    | with_reducible apply State.interrupt_keeps
    | with_reducible apply State.emit_keeps
    | with_reducible apply EndsIn.next
    | split
    | intro _
    | (conv => enter [2, 26]); with_reducible refine Keeps.but ?_ rfl
    | with_reducible refine Keeps.of_fst ?_ (by with_reducible assumption)
    | unfold x
    | dsimp only
    | dsimp +zetaDelta only

theorem execGetHealthInfo_ends {s0 s : State} (x1) (h : Keeps s0 s) : EndsIn Keeps s0 (execGetHealthInfo x1 s) := by
  unfold execGetHealthInfo
  repeat' first
    | with_reducible assumption
    | (extract_lets +onlyGivenNames x; )
    | with_reducible apply State.cxlOk_keeps
    | with_reducible apply EndsIn.next

end Sys2Proof.Machine
end

