-- ==== Sys2Proof/Laws/KeepsFirmware.lean ====
section
/-! SUPPORT. What the operations of Firmware leave in force. -/

set_option linter.tactic.unusedName false

namespace Sys2Proof.Machine

theorem State.setFw_keeps {s0 s : State} (x2) (h : Keeps s0 s) : Keeps s0 (State.setFw s x2) := by
  unfold State.setFw
  repeat' first
    | with_reducible assumption
    | (extract_lets +onlyGivenNames x; )
    | split
    | intro _
    | (conv => enter [2, 26]); with_reducible refine Keeps.but ?_ rfl

theorem execInnkeeperBoot_ends {s0 s : State} (x1 x2) (h : Keeps s0 s) : EndsIn Keeps s0 (execInnkeeperBoot x1 x2 s) := by
  unfold execInnkeeperBoot
  repeat' first
    | with_reducible assumption
    | (extract_lets +onlyGivenNames x; )
    | with_reducible apply State.setFw_keeps
    | with_reducible apply State.halt_keeps
    | with_reducible apply EndsIn.next
    | split
    | intro _
    | (conv => enter [2, 26]); with_reducible refine Keeps.but ?_ rfl
    | with_reducible refine Keeps.of_fst ?_ (by with_reducible assumption)
    | unfold x
    | dsimp only
    | dsimp +zetaDelta only

theorem opFwWrite_kept : RelasOp.Kept opFwWrite := by
  intro s0 s c k h
  unfold opFwWrite
  repeat' first
    | with_reducible assumption
    | (extract_lets +onlyGivenNames x; )
    | with_reducible apply State.setFw_keeps
    | with_reducible apply State.emit_keeps

theorem opFwVerify_kept : RelasOp.Kept opFwVerify := by
  intro s0 s c k h
  unfold opFwVerify
  repeat' first
    | with_reducible assumption

theorem State.closeAllTls_keeps {s0 s : State} (h : Keeps s0 s) : Keeps s0 (State.closeAllTls s) := by
  unfold State.closeAllTls
  repeat' first
    | with_reducible assumption
    | (extract_lets +onlyGivenNames x; )
    | with_reducible apply State.closeTls_keeps
    | (with_reducible apply Keeps.foldl; intro _ _ _)

theorem opFwActivate_kept : RelasOp.Kept opFwActivate := by
  intro s0 s c k h
  unfold opFwActivate
  repeat' first
    | with_reducible assumption
    | with_reducible apply State.setFw_keeps
    | split
    | intro _
    | with_reducible refine Keeps.of_fst ?_ (by with_reducible assumption)
    | unfold x
    | dsimp only

theorem opFwQuery_kept : RelasOp.Kept opFwQuery := by
  intro s0 s c k h
  unfold opFwQuery
  repeat' first
    | with_reducible assumption

theorem execFwSelfCheckPass_ends {s0 s : State} (h : Keeps s0 s) : EndsIn Keeps s0 (execFwSelfCheckPass s) := by
  unfold execFwSelfCheckPass
  repeat' first
    | with_reducible assumption
    | (extract_lets +onlyGivenNames x; )
    | with_reducible apply State.closeAllTls_keeps
    | with_reducible apply State.setFw_keeps
    | with_reducible apply State.endTicket_keeps
    | with_reducible apply State.count_keeps
    | with_reducible apply EndsIn.next
    | split
    | intro _
    | (conv => enter [2, 26]); with_reducible refine Keeps.but ?_ rfl
    | with_reducible refine Keeps.of_fst ?_ (by with_reducible assumption)
    | unfold x

theorem execFwSelfCheckTimeout_ends {s0 s : State} (h : Keeps s0 s) : EndsIn Keeps s0 (execFwSelfCheckTimeout s) := by
  unfold execFwSelfCheckTimeout
  repeat' first
    | with_reducible assumption
    | (extract_lets +onlyGivenNames x; )
    | with_reducible apply State.closeAllTls_keeps
    | with_reducible apply State.setFw_keeps
    | with_reducible apply State.endTicket_keeps
    | with_reducible apply EndsIn.next
    | split

theorem execLockstepMismatch_ends {s0 s : State} (x1 x2) (h : Keeps s0 s) : EndsIn Keeps s0 (execLockstepMismatch x1 x2 s) := by
  unfold execLockstepMismatch
  repeat' first
    | with_reducible assumption
    | (extract_lets +onlyGivenNames x; )
    | with_reducible apply State.closeAllTls_keeps
    | with_reducible apply State.setFw_keeps
    | with_reducible apply State.report_keeps
    | with_reducible apply State.become_keeps
    | with_reducible apply EndsIn.next
    | split
    | intro _
    | (conv => enter [2, 26]); with_reducible refine Keeps.but ?_ rfl
    | with_reducible refine Keeps.of_fst ?_ (by with_reducible assumption)
    | unfold x
    | dsimp only
    | dsimp +zetaDelta only

end Sys2Proof.Machine
end

