-- ==== Sys2Proof/Laws/KeepsStaging.lean ====
section
/-! SUPPORT. What the operations of Staging leave in force. -/

set_option linter.tactic.unusedName false

namespace Sys2Proof.Machine

theorem opTicketStatus_kept : RelasOp.Kept opTicketStatus := by
  intro s0 s c k h
  unfold opTicketStatus
  repeat' first
    | with_reducible assumption
    | split
    | intro _
    | with_reducible refine Keeps.of_fst ?_ (by with_reducible assumption)
    | unfold x
    | dsimp only

theorem State.dropTable_keeps {s0 s : State} (x2) (h : Keeps s0 s) : Keeps s0 (State.dropTable s x2) := by
  unfold State.dropTable
  repeat' first
    | with_reducible assumption
    | (extract_lets +onlyGivenNames x; )
    | split
    | intro _
    | (conv => enter [2, 26]); with_reducible refine Keeps.but ?_ rfl

theorem State.dropKv_keeps {s0 s : State} (x2) (h : Keeps s0 s) : Keeps s0 (State.dropKv s x2) := by
  unfold State.dropKv
  repeat' first
    | with_reducible assumption
    | split
    | intro _
    | (conv => enter [2, 26]); with_reducible refine Keeps.but ?_ rfl

theorem State.sweepDying_keeps {s0 s : State} (h : Keeps s0 s) : Keeps s0 (State.sweepDying s) := by
  unfold State.sweepDying
  repeat' first
    | with_reducible assumption
    | (extract_lets +onlyGivenNames x; )
    | with_reducible apply State.dropKv_keeps
    | with_reducible apply State.dropTable_keeps
    | with_reducible apply State.dropIndex_keeps
    | (with_reducible apply Keeps.foldl; intro _ _ _)

theorem State.ticketWork_some {s0 s t : State} {y} {x2} (h : Keeps s0 s) (hq : State.ticketWork s x2 = some (t, y)) : Keeps s0 t := by
  unfold State.ticketWork at hq
  try dsimp only at hq
  repeat' split at hq
  all_goals try simp only [Option.some.injEq, Prod.mk.injEq, reduceCtorEq] at hq
  all_goals first
    | exact hq.elim
    | (obtain ⟨hq, -⟩ := hq; subst hq)
  repeat' first
    | with_reducible assumption
    | with_reducible apply State.dropKv_keeps
    | with_reducible apply State.dropTable_keeps
    | with_reducible apply State.setFw_keeps
    | with_reducible apply State.dropIndex_keeps
    | split
    | intro _
    | (conv => enter [2, 26]); with_reducible refine Keeps.but ?_ rfl

theorem execTicketEnd_ends {s0 s : State} (x1) (h : Keeps s0 s) : EndsIn Keeps s0 (execTicketEnd x1 s) := by
  unfold execTicketEnd
  repeat' first
    | with_reducible assumption
    | (extract_lets +onlyGivenNames x; )
    | with_reducible refine State.ticketWork_some ?_ (by with_reducible assumption)
    | with_reducible apply State.sweepDying_keeps
    | with_reducible apply State.endTicket_keeps
    | with_reducible apply EndsIn.next
    | split

theorem execTicketExpiry_ends {s0 s : State} (x1) (h : Keeps s0 s) : EndsIn Keeps s0 (execTicketExpiry x1 s) := by
  unfold execTicketExpiry
  repeat' first
    | with_reducible assumption
    | (extract_lets +onlyGivenNames x; )
    | with_reducible apply EndsIn.next
    | split
    | intro _
    | (conv => enter [2, 26]); with_reducible refine Keeps.but ?_ rfl

theorem opConfigOpen_kept : RelasOp.Kept opConfigOpen := by
  intro s0 s c k h
  unfold opConfigOpen
  repeat' first
    | with_reducible assumption
    | with_reducible apply State.setSet_keeps

theorem opConfigDiscard_kept : RelasOp.Kept opConfigDiscard := by
  intro s0 s c k h
  unfold opConfigDiscard
  repeat' first
    | with_reducible assumption
    | with_reducible apply State.setSet_keeps
    | split
    | intro _
    | with_reducible refine Keeps.of_fst ?_ (by with_reducible assumption)
    | unfold x
    | dsimp only

theorem opConfigQuery_kept : RelasOp.Kept opConfigQuery := by
  intro s0 s c k h
  unfold opConfigQuery
  repeat' first
    | with_reducible assumption
    | split
    | intro _
    | with_reducible refine Keeps.of_fst ?_ (by with_reducible assumption)
    | unfold x
    | dsimp only

theorem State.checked_keeps {s0 s : State} (x2 x3 x4) (h : Keeps s0 s) : Keeps s0 (State.checked s x2 x3 x4).1 := by
  unfold State.checked
  repeat' first
    | with_reducible assumption
    | (extract_lets +onlyGivenNames x; )
    | with_reducible apply State.setSet_keeps
    | split

theorem State.ask_keeps {s0 s : State} (x2 x3 x4 x5 x6) (h : Keeps s0 s) : Keeps s0 (State.ask s x2 x3 x4 x5 x6) := by
  unfold State.ask
  repeat' first
    | with_reducible assumption
    | with_reducible apply State.send_keeps

theorem opConfigCheck_kept {table} : RelasOp.Kept (opConfigCheck table) := by
  intro s0 s c k h
  unfold opConfigCheck
  repeat' first
    | with_reducible assumption
    | (extract_lets +onlyGivenNames x; )
    | with_reducible apply State.ask_keeps
    | with_reducible apply State.checked_keeps
    | with_reducible apply copyAfter_keeps
    | (with_reducible apply Keeps.foldl; intro _ _ _)
    | split
    | intro _
    | (conv => enter [2, 26]); with_reducible refine Keeps.but ?_ rfl
    | with_reducible refine Keeps.of_fst ?_ (by with_reducible assumption)
    | unfold x
    | dsimp only

theorem State.fabricAnswer_keeps {s0 s : State} (x2 x3) (h : Keeps s0 s) : Keeps s0 (State.fabricAnswer s x2 x3) := by
  unfold State.fabricAnswer
  repeat' first
    | with_reducible assumption
    | (extract_lets +onlyGivenNames x; )
    | with_reducible apply State.checked_keeps
    | with_reducible apply State.fail_keeps
    | with_reducible apply State.answer_keeps
    | split
    | intro _
    | (conv => enter [2, 26]); with_reducible refine Keeps.but ?_ rfl
    | with_reducible refine Keeps.of_fst ?_ (by with_reducible assumption)
    | unfold x
    | dsimp only
    | dsimp +zetaDelta only

theorem execFabricCheckTimeout_ends {s0 s : State} (x1) (h : Keeps s0 s) : EndsIn Keeps s0 (execFabricCheckTimeout x1 s) := by
  unfold execFabricCheckTimeout
  repeat' first
    | with_reducible assumption
    | (extract_lets +onlyGivenNames x; )
    | with_reducible apply State.fabricAnswer_keeps
    | with_reducible apply EndsIn.next
    | split

theorem opConfigTurn_kept {table} : RelasOp.Kept (opConfigTurn table) := by
  intro s0 s c k h
  unfold opConfigTurn
  repeat' first
    | with_reducible assumption
    | with_reducible apply copyAfter_keeps
    | with_reducible apply State.setSet_keeps
    | split
    | intro _
    | with_reducible refine Keeps.of_fst ?_ (by with_reducible assumption)
    | unfold x
    | dsimp only

theorem State.sendVeto_keeps {s0 s : State} (x2) (h : Keeps s0 s) : Keeps s0 (State.sendVeto s x2) := by
  unfold State.sendVeto
  repeat' first
    | with_reducible assumption
    | (extract_lets +onlyGivenNames x; )
    | with_reducible apply State.control_keeps
    | (with_reducible apply Keeps.foldl; intro _ _ _)

theorem opConfigCancel_kept : RelasOp.Kept opConfigCancel := by
  intro s0 s c k h
  unfold opConfigCancel
  repeat' first
    | with_reducible assumption
    | (extract_lets +onlyGivenNames x; )
    | with_reducible apply State.sendVeto_keeps
    | with_reducible apply State.setSet_keeps
    | split
    | intro _
    | with_reducible refine Keeps.of_fst ?_ (by with_reducible assumption)
    | unfold x
    | dsimp only

theorem State.asOf_keeps {s0 s : State} (x2 x3) (h : Keeps s0 s) (hf : ∀ s, Keeps s0 s → Keeps s0 (x3 s)) : Keeps s0 (State.asOf s x2 x3) := by
  unfold State.asOf
  repeat' first
    | with_reducible assumption
    | (extract_lets +onlyGivenNames x; )
    | (with_reducible apply hf)
    | split
    | intro _
    | (conv => enter [2, 26]); with_reducible refine Keeps.but ?_ rfl

theorem State.turnVerify_keeps {s0 s : State} (x1 x2) (h : Keeps s0 s) (ht : TableKept x1) : Keeps s0 (State.turnVerify x1 x2 s) := by
  unfold State.turnVerify
  repeat' first
    | with_reducible assumption
    | (extract_lets +onlyGivenNames x; )
    | with_reducible apply State.sendVeto_keeps
    | with_reducible apply State.setSet_keeps
    | exact ht _ _ (by with_reducible assumption) _ _ (by with_reducible assumption)
    | exact ht
    | exact ht _ _ (by with_reducible assumption)
    | with_reducible refine runSet_ok ht ?_ (by with_reducible assumption)
    | split

theorem applySet_keeps {s0 s : State} (x1 x2) (h : Keeps s0 s) (ht : TableKept x1) : Keeps s0 (applySet x1 x2 s) := by
  unfold applySet
  repeat' first
    | with_reducible assumption
    | (extract_lets +onlyGivenNames x; )
    | exact ht _ _ (by with_reducible assumption) _ _ (by with_reducible assumption)
    | exact ht
    | exact ht _ _ (by with_reducible assumption)
    | with_reducible refine runSet_ok ht ?_ (by with_reducible assumption)
    | (with_reducible apply Keeps.foldl; intro _ _ _)
    | split

theorem State.resized_keeps {s0 s : State} (old) (h : Keeps s0 s) : Keeps s0 (State.resized old s) := by
  unfold State.resized
  repeat' first
    | with_reducible assumption
    | (extract_lets +onlyGivenNames x; )
    | split
    | intro _
    | (conv => enter [2, 26]); with_reducible refine Keeps.but ?_ rfl

theorem State.turn_keeps {s0 s : State} (x1 x2) (h : Keeps s0 s) (ht : TableKept x1) : Keeps s0 (State.turn x1 x2 s) := by
  unfold State.turn
  repeat' first
    | with_reducible assumption
    | (extract_lets +onlyGivenNames x; )
    | with_reducible apply State.resized_keeps
    | with_reducible apply applySet_keeps
    | with_reducible apply State.asOf_keeps
    | with_reducible apply State.sweepDying_keeps
    | with_reducible apply State.replicateChanges_keeps
    | with_reducible apply State.endTicket_keeps
    | with_reducible apply State.setSet_keeps
    | exact ht _ _ (by with_reducible assumption) _ _ (by with_reducible assumption)
    | exact ht
    | exact ht _ _ (by with_reducible assumption)
    | with_reducible refine runSet_ok ht ?_ (by with_reducible assumption)
    | split
    | intro _

theorem execVeto_ends {s0 s : State} (x1) (h : Keeps s0 s) : EndsIn Keeps s0 (execVeto x1 s) := by
  unfold execVeto
  repeat' first
    | with_reducible assumption
    | (extract_lets +onlyGivenNames x; )
    | with_reducible apply State.arrival_ends
    | with_reducible apply State.setSet_keeps
    | with_reducible apply State.forSelf_keeps
    | with_reducible apply State.reply_keeps
    | with_reducible apply State.count_keeps
    | with_reducible apply EndsIn.next
    | split
    | intro _
    | with_reducible refine Keeps.of_fst ?_ (by with_reducible assumption)
    | unfold x

theorem State.mailboxBusy_keeps {s0 s : State} (x2 x3 x4) (h : Keeps s0 s) : Keeps s0 (State.mailboxBusy s x2 x3 x4) := by
  unfold State.mailboxBusy
  repeat' first
    | with_reducible assumption
    | (extract_lets +onlyGivenNames x; )
    | with_reducible apply State.sendJetty_keeps
    | with_reducible apply State.count_keeps
    | with_reducible apply State.drew_keeps

theorem execMailbox_ends {s0 s : State} (x1) (h : Keeps s0 s) : EndsIn Keeps s0 (execMailbox x1 s) := by
  unfold execMailbox
  repeat' first
    | with_reducible assumption
    | (extract_lets +onlyGivenNames x; )
    | with_reducible apply State.mailboxBusy_keeps
    | with_reducible apply State.arrival_ends
    | with_reducible apply State.setChan_keeps
    | with_reducible apply State.refuse_keeps
    | with_reducible apply State.send_keeps
    | with_reducible apply EndsIn.next
    | split
    | intro _

theorem execMailboxRsp_ends {s0 s : State} (x1) (h : Keeps s0 s) : EndsIn Keeps s0 (execMailboxRsp x1 s) := by
  unfold execMailboxRsp
  repeat' first
    | with_reducible assumption
    | (extract_lets +onlyGivenNames x; )
    | with_reducible apply State.fabricAnswer_keeps
    | with_reducible apply State.arrival_ends
    | with_reducible apply State.dropPull_keeps
    | with_reducible apply State.endTicket_keeps
    | with_reducible apply State.forSelf_keeps
    | with_reducible apply EndsIn.next
    | split
    | intro _
    | (conv => enter [2, 26]); with_reducible refine Keeps.but ?_ rfl

theorem opPullHold_kept : RelasOp.Kept opPullHold := by
  intro s0 s c k h
  unfold opPullHold
  repeat' first
    | with_reducible assumption
    | with_reducible apply State.setCove_keeps
    | split
    | intro _
    | with_reducible refine Keeps.of_fst ?_ (by with_reducible assumption)
    | unfold x
    | dsimp only

theorem opShoreQuery_kept {create} {runs} : RelasOp.Kept (opShoreQuery create runs) := by
  intro s0 s c k h
  unfold opShoreQuery
  repeat' first
    | with_reducible assumption

end Sys2Proof.Machine
end

