-- ==== Sys2Proof/Laws/KeepsRetire.lean ====
section
/-! SUPPORT. What the operations of Retire leave in force. -/

set_option linter.tactic.unusedName false

namespace Sys2Proof.Machine

theorem State.restage_keeps {s0 s : State} (x2) (h : Keeps s0 s) : Keeps s0 (State.restage s x2) := by
  unfold State.restage
  repeat' first
    | with_reducible assumption
    | (extract_lets +onlyGivenNames x; )
    | with_reducible apply State.scratchWrite_keeps
    | with_reducible apply State.drewN_keeps
    | (with_reducible apply Keeps.foldl; intro _ _ _)
    | split

theorem State.loseArray_keeps {s0 s : State} (x2) (h : Keeps s0 s) : Keeps s0 (State.loseArray s x2) := by
  unfold State.loseArray
  repeat' first
    | with_reducible assumption
    | (extract_lets +onlyGivenNames x; )
    | with_reducible apply State.groupChanged_keeps
    | with_reducible apply State.finish_keeps
    | with_reducible apply State.drew_keeps
    | (with_reducible apply Keeps.foldl; intro _ _ _)
    | split
    | intro _
    | (conv => enter [2, 26]); with_reducible refine Keeps.but ?_ rfl
    | with_reducible refine Keeps.of_fst ?_ (by with_reducible assumption)
    | unfold x
    | dsimp only
    | dsimp +zetaDelta only

theorem State.failArray_keeps {s0 s : State} (a) (h : Keeps s0 s) : Keeps s0 (State.failArray s a) := by
  unfold State.failArray
  split
  · exact h
  · extract_lets l f s1 s2 f2
    have h2 : Keeps s0 s2 := State.report_keeps _ (Keeps.but h rfl)
    clear_value s2
    cases l with
    | none => exact h2
    | some n =>
      refine Keeps.ite ?_ (State.report_keeps _ (State.loseArray_keeps _ h2))
      exact State.rebuildArray_keeps _ (State.restage_keeps _ (State.report_keeps _ (State.singleFault_keeps _ (Keeps.but h2 rfl))))

theorem execArrayFail_ends {s0 s : State} (x1) (h : Keeps s0 s) : EndsIn Keeps s0 (execArrayFail x1 s) := by
  unfold execArrayFail
  repeat' first
    | with_reducible assumption
    | (extract_lets +onlyGivenNames x; )
    | with_reducible apply State.failArray_keeps
    | with_reducible apply EndsIn.next

theorem State.dropWave_keeps {s0 s : State} (x2 x3) (h : Keeps s0 s) : Keeps s0 (State.dropWave s x2 x3) := by
  unfold State.dropWave
  repeat' first
    | with_reducible assumption
    | with_reducible apply State.failLane_keeps
    | with_reducible apply State.setLink_keeps
    | split

theorem State.retireUnit_keeps {s0 s : State} (x2 x3 x4) (h : Keeps s0 s) : Keeps s0 (State.retireUnit s x2 x3 x4) := by
  unfold State.retireUnit
  repeat' first
    | with_reducible assumption
    | (extract_lets +onlyGivenNames x; )
    | with_reducible apply State.dropWave_keeps
    | with_reducible apply State.failArray_keeps
    | with_reducible apply State.retireChannel_keeps
    | with_reducible apply State.retireStack_keeps
    | with_reducible apply State.linkDown_keeps
    | with_reducible apply State.failNand_keeps
    | with_reducible apply State.setChannel_keeps
    | with_reducible apply State.report_keeps
    | split
    | intro _
    | (conv => enter [2, 26]); with_reducible refine Keeps.but ?_ rfl
    | with_reducible refine Keeps.of_fst ?_ (by with_reducible assumption)
    | unfold x
    | dsimp only
    | dsimp +zetaDelta only

theorem State.announceLoss_keeps {s0 s : State} (x2 x3 x4) (h : Keeps s0 s) : Keeps s0 (State.announceLoss s x2 x3 x4) := by
  unfold State.announceLoss
  repeat' first
    | with_reducible assumption
    | (extract_lets +onlyGivenNames x; )
    | with_reducible apply State.retireUnit_keeps
    | split
    | intro _
    | (conv => enter [2, 26]); with_reducible refine Keeps.but ?_ rfl

theorem State.announceUnit_keeps {s0 s : State} (x2 x3 x4) (h : Keeps s0 s) : Keeps s0 (State.announceUnit s x2 x3 x4) := by
  unfold State.announceUnit
  repeat' first
    | with_reducible assumption
    | (extract_lets +onlyGivenNames x; )
    | with_reducible apply State.announceLoss_keeps
    | with_reducible apply State.setChannel_keeps
    | split
    | intro _
    | (conv => enter [2, 26]); with_reducible refine Keeps.but ?_ rfl

theorem opUnitRetire_kept : RelasOp.Kept opUnitRetire := by
  intro s0 s c k h
  unfold opUnitRetire
  repeat' first
    | with_reducible assumption
    | (extract_lets +onlyGivenNames x; )
    | with_reducible apply State.announceUnit_keeps
    | with_reducible apply State.retireUnit_keeps
    | with_reducible apply State.singleFault_keeps
    | split
    | intro _
    | (conv => enter [2, 26]); with_reducible refine Keeps.but ?_ rfl
    | with_reducible refine Keeps.of_fst ?_ (by with_reducible assumption)
    | unfold x
    | dsimp only

theorem execCapacityReductionEffect_ends {s0 s : State} (h : Keeps s0 s) : EndsIn Keeps s0 (execCapacityReductionEffect s) := by
  unfold execCapacityReductionEffect
  repeat' first
    | with_reducible assumption
    | (extract_lets +onlyGivenNames x; )
    | with_reducible apply State.retireUnit_keeps
    | with_reducible apply EndsIn.next
    | (with_reducible apply Keeps.foldl; intro _ _ _)
    | split
    | intro _
    | (conv => enter [2, 26]); with_reducible refine Keeps.but ?_ rfl
    | with_reducible refine Keeps.of_fst ?_ (by with_reducible assumption)
    | unfold x

theorem State.flushMerged_keeps {s0 s : State} (h : Keeps s0 s) : Keeps s0 (State.flushMerged s) := by
  unfold State.flushMerged
  repeat' first
    | with_reducible assumption
    | (extract_lets +onlyGivenNames x; )
    | with_reducible apply State.event_keeps
    | (with_reducible apply Keeps.foldl; intro _ _ _)
    | split
    | intro _
    | (conv => enter [2, 26]); with_reducible refine Keeps.but ?_ rfl

theorem State.weatherRetire_keeps {s0 s : State} (x2 x3) (h : Keeps s0 s) : Keeps s0 (State.weatherRetire s x2 x3) := by
  unfold State.weatherRetire
  repeat' first
    | with_reducible assumption
    | (extract_lets +onlyGivenNames x; )
    | with_reducible apply State.dropWave_keeps
    | with_reducible apply State.failArray_keeps
    | with_reducible apply State.retireChannel_keeps
    | with_reducible apply State.singleFault_keeps
    | split

theorem State.foresee_keeps {s0 s : State} (x2 x3) (h : Keeps s0 s) : Keeps s0 (State.foresee s x2 x3) := by
  unfold State.foresee
  repeat' first
    | with_reducible assumption
    | (extract_lets +onlyGivenNames x; )
    | with_reducible apply State.announceUnit_keeps
    | split

theorem State.weather_keeps {s0 s : State} (x2 x3) (h : Keeps s0 s) : Keeps s0 (State.weather s x2 x3) := by
  unfold State.weather
  repeat' first
    | with_reducible assumption
    | (extract_lets +onlyGivenNames x; )
    | with_reducible apply State.foresee_keeps
    | with_reducible apply State.weatherRetire_keeps
    | with_reducible apply State.reweigh_keeps
    | split
    | intro _
    | with_reducible refine Keeps.of_fst ?_ (by with_reducible assumption)
    | unfold x

theorem execWeatherRecompute_ends {s0 s : State} (x1) (h : Keeps s0 s) : EndsIn Keeps s0 (execWeatherRecompute x1 s) := by
  unfold execWeatherRecompute
  repeat' first
    | with_reducible assumption
    | (extract_lets +onlyGivenNames x; )
    | with_reducible apply State.weather_keeps
    | with_reducible apply State.flushMerged_keeps
    | with_reducible apply EndsIn.next
    | (with_reducible apply Keeps.foldl; intro _ _ _)
    | split
    | intro _
    | (conv => enter [2, 26]); with_reducible refine Keeps.but ?_ rfl
    | with_reducible refine Keeps.of_fst ?_ (by with_reducible assumption)
    | unfold x
    | dsimp only
    | dsimp +zetaDelta only

theorem State.traceBytes_keeps {s0 s : State} (x2) (h : Keeps s0 s) : Keeps s0 (State.traceBytes s x2).1 := by
  unfold State.traceBytes
  repeat' first
    | with_reducible assumption
    | (extract_lets +onlyGivenNames x; )
    | with_reducible apply State.drewN_keeps

theorem opTraceSet_kept : RelasOp.Kept opTraceSet := by
  intro s0 s c k h
  unfold opTraceSet
  repeat' first
    | with_reducible assumption
    | (extract_lets +onlyGivenNames x; )
    | with_reducible apply State.traceBytes_keeps
    | with_reducible apply State.count_keeps
    | with_reducible apply State.drew_keeps
    | split
    | intro _
    | (conv => enter [2, 26]); with_reducible refine Keeps.but ?_ rfl
    | with_reducible refine Keeps.of_fst ?_ (by with_reducible assumption)
    | unfold x
    | dsimp only

end Sys2Proof.Machine
end

