-- ==== Sys2Proof/Laws/KeepsToll.lean ====
section
/-! SUPPORT. What the operations of the Tollhouse leave in force. -/

namespace Sys2Proof.Machine

theorem KeepsAll.refl (s : State) : KeepsAll s s := ⟨rfl, id, Nat.le_refl _, id, id⟩

theorem KeepsAll.trans {r s t : State} (h : KeepsAll r s) (g : KeepsAll s t) : KeepsAll r t :=
  ⟨g.pending.trans h.pending, fun w => g.mem (h.mem w), Nat.le_trans h.seq g.seq, fun w => g.broken (h.broken w), fun w => g.ok (h.ok w)⟩

theorem Keeps.all {s t : State} (h : Keeps s t) : KeepsAll s t :=
  ⟨h.pending, h.mem, Nat.le_of_eq (by rw [h.toll]), by rw [h.toll]; exact id, by rw [h.toll]; exact id⟩

theorem KeepsAll.step {r s t : State} (h : KeepsAll r s) (g : Keeps s t) : KeepsAll r t := h.trans g.all

/-- A change of the Tollhouse that leaves its records and its seal alone. -/
theorem KeepsAll.toll {r s : State} {t : Toll} (h : KeepsAll r s) (h1 : t.nextSeq = s.toll.nextSeq) (h2 : t.acked = s.toll.acked)
    (h3 : t.store = s.toll.store) (h4 : s.toll.broken = true → t.broken = true) : KeepsAll r { s with toll := t } :=
  ⟨h.pending, h.mem, by rw [h1]; exact h.seq, fun w => h4 (h.broken w), fun w => by
    have k := h.ok w
    exact ⟨by rw [h1, h2]; exact k.acked, by rw [h3]; exact k.places, by rw [h1, h2, h3]; exact k.held, by rw [h1, h3]; exact k.numbered⟩⟩

theorem KeepsAll.foldl {α : Type} {s0 : State} {f : State → α → State} {s : State} {l : List α}
    (hf : ∀ s x, KeepsAll s0 s → KeepsAll s0 (f s x)) (h : KeepsAll s0 s) : KeepsAll s0 (l.foldl f s) := by
  induction l generalizing s with
  | nil => exact h
  | cons x t ih => exact ih (hf s x h)

theorem State.mirrorRecord_keeps {s0 s : State} (r) (h : Keeps s0 s) : Keeps s0 (State.mirrorRecord s r) := by
  unfold State.mirrorRecord
  split
  · exact h
  · extract_lets
    split
    · exact State.report_keeps _ (Keeps.but h rfl)
    · exact Keeps.but h rfl

theorem leNat_leBytes (n v : Nat) : leNat (leBytes n v) ≤ v := by
  induction n generalizing v with
  | zero => exact Nat.zero_le _
  | succ n ih =>
    have := ih (v / 256)
    simp only [leBytes, leNat, BitVec.toNat_ofNat]
    omega

theorem leBytes_length (n v : Nat) : (leBytes n v).length = n := by
  induction n generalizing v with
  | zero => rfl
  | succ n ih => simp [leBytes, ih]

/-- The SEQUENCE of a record as it is written. -/
theorem record_seq {kind n : Nat} {head rest : List Byte} (hh : head.length = 6) :
    fld (leBytes 1 kind ++ leBytes 1 1 ++ head ++ leBytes 8 n ++ rest) 8 8 ≤ n := by
  have e : slice (leBytes 1 kind ++ leBytes 1 1 ++ head ++ leBytes 8 n ++ rest) 8 8 = leBytes 8 n := by
    have h1 : (leBytes 1 kind ++ leBytes 1 1 ++ head).length = 8 := by simp [leBytes_length, hh]
    unfold slice
    rw [List.append_assoc, List.drop_append_of_le_length (by omega), List.drop_of_length_le (by omega), List.nil_append,
      List.take_append_of_le_length (by simp [leBytes_length]), List.take_of_length_le (by simp [leBytes_length])]
  unfold fld
  rw [e]
  exact leNat_leBytes 8 n

theorem newest_length {α : Type} (n : Nat) (l : List α) : (newest n l).length = min l.length n := by
  simp only [newest, List.length_reverse, List.length_take]; omega

theorem mem_newest {α : Type} {n : Nat} {l : List α} {x : α} (h : x ∈ newest n l) : x ∈ l :=
  List.mem_reverse.1 (List.mem_of_mem_take (List.mem_reverse.1 h))

/-- What writing one more record into a store of so many places leaves true of it. -/
theorem store_grows {l : List (List Byte)} {r : List Byte} {next acked places : Nat} (hr : next - acked < places)
    (hl : l.length ≤ places) (hh : next ≤ acked + l.length) (hn : ∀ x ∈ l, fld x 8 8 < next) (hq : fld r 8 8 ≤ next) :
    (newest places (l ++ [r])).length ≤ places ∧ next + 1 ≤ acked + (newest places (l ++ [r])).length ∧
      ∀ x ∈ newest places (l ++ [r]), fld x 8 8 < next + 1 := by
  have e : (newest places (l ++ [r])).length = min (l.length + 1) places := by
    rw [newest_length, List.length_append, List.length_singleton]
  refine ⟨by omega, by omega, fun x hx => ?_⟩
  rcases List.mem_append.1 (mem_newest hx) with hx | hx
  · have := hn x hx; omega
  · rw [List.mem_singleton.1 hx]; omega

theorem Toll.Ok.put {t : Toll} {r : List Byte} (k : t.Ok) (hr : t.room = true) (hq : fld r 8 8 ≤ t.nextSeq) : (t.put r).Ok := by
  unfold Toll.room Toll.held at hr
  have g := store_grows (of_decide_eq_true hr) k.places k.held k.numbered hq
  exact ⟨Nat.le_succ_of_le k.acked, g.1, g.2.1, g.2.2⟩

theorem State.tollWrite_all {s0 s : State} (kind head body) (h : KeepsAll s0 s) (hr : s.toll.room = true) (hh : head.length = 6) :
    KeepsAll s0 (s.tollWrite kind head body) := by
  unfold State.tollWrite
  extract_lets t chain r
  refine KeepsAll.trans ?_ (State.mirrorRecord_keeps r (Keeps.refl _)).all
  have hq : fld r 8 8 ≤ s.toll.nextSeq := by
    unfold r
    rw [List.append_assoc]
    exact record_seq hh
  exact ⟨h.pending, h.mem, Nat.le_succ_of_le h.seq, h.broken, fun w => (h.ok w).put hr hq⟩

theorem State.tollEvent_all {s0 s : State} (e d) (h : KeepsAll s0 s) : KeepsAll s0 (s.tollEvent e d) := by
  unfold State.tollEvent
  split
  · rename_i hr
    exact State.tollWrite_all _ _ _ (h.step (State.drew_keeps (Keeps.refl s))) hr (by simp [leBytes_length, zeros])
  · exact h.toll rfl rfl rfl id

theorem State.tollSign_all {s0 s : State} (h : KeepsAll s0 s) : KeepsAll s0 s.tollSign := by
  unfold State.tollSign
  extract_lets t head first sig s1
  split
  · exact h.toll rfl rfl rfl id
  · rename_i hr
    have h1 : KeepsAll s0 s1 := State.tollWrite_all _ _ _ h (by simpa using hr) (by simp [head, leBytes_length])
    exact h1.toll rfl rfl rfl id

theorem State.setAccount_all {s0 s : State} (a) (h : KeepsAll s0 s) : KeepsAll s0 (s.setAccount a) := h.toll rfl rfl rfl id

theorem Toll.room_of_guestRoom {t : Toll} (h : t.guestRoom = true) : t.room = true := by
  simp only [Toll.guestRoom, Toll.room, decide_eq_true_eq] at *
  exact Nat.lt_of_lt_of_le h (Nat.sub_le _ _)

theorem State.guestRecord_all {s0 s : State} (a stop) (h : KeepsAll s0 s) : KeepsAll s0 (s.guestRecord a stop) := by
  unfold State.guestRecord
  split
  · exact h
  · split
    · rename_i hg
      extract_lets t s1 s2
      have h1 : KeepsAll s0 s1 := State.tollWrite_all _ _ _ h (Toll.room_of_guestRoom hg) (by simp [leBytes_length])
      have h2 : KeepsAll s0 s2 := State.setAccount_all _ h1
      exact h2.toll rfl rfl rfl id
    · have h1 : KeepsAll s0 (s.tollEvent 5 0) := State.tollEvent_all _ _ h
      refine State.setAccount_all _ ?_
      split
      · exact h
      · exact h1.toll rfl rfl rfl id

theorem State.shoreRecord_all {s0 s : State} (stop) (h : KeepsAll s0 s) : KeepsAll s0 (s.shoreRecord stop) := by
  unfold State.shoreRecord
  extract_lets t body s1
  split
  · exact h.toll rfl rfl rfl id
  · rename_i hr
    have h1 : KeepsAll s0 s1 := State.tollWrite_all _ _ _ h (by simpa using hr) (by simp [leBytes_length, zeros])
    exact h1.toll rfl rfl rfl id

theorem State.closePeriod_all {s0 s : State} (stop) (h : KeepsAll s0 s) : KeepsAll s0 (s.closePeriod stop) := by
  unfold State.closePeriod
  extract_lets order s1 s2
  have h1 : KeepsAll s0 s1 := KeepsAll.foldl (fun s x hs => State.guestRecord_all _ _ hs) h
  have h2 : KeepsAll s0 s2 := State.tollSign_all (State.shoreRecord_all _ h1)
  exact h2.toll rfl rfl rfl id

theorem State.settlePeriod_all {s0 s : State} (h : KeepsAll s0 s) : KeepsAll s0 s.settlePeriod := by
  unfold State.settlePeriod
  split
  · exact State.closePeriod_all _ h
  · exact h

theorem State.breakSeal_all {s0 s : State} (c) (h : KeepsAll s0 s) : KeepsAll s0 (s.breakSeal c) := by
  unfold State.breakSeal
  split
  · exact h
  · extract_lets s1
    have h1 : KeepsAll s0 s1 := State.tollSign_all (State.tollEvent_all _ _ h)
    exact h1.toll rfl rfl rfl fun _ => rfl

theorem execActivityFrame_ends {s0 s : State} (a b c d e f) (h : KeepsAll s0 s) : EndsIn KeepsAll s0 (execActivityFrame a b c d e f s) := by
  unfold execActivityFrame
  refine EndsIn.next ?_
  split
  · exact h
  · extract_lets s1 s2 stamp t first beyond
    have h1 : KeepsAll s0 s1 := State.settlePeriod_all h
    have h2 : KeepsAll s0 s2 := by unfold s2; split <;> first | exact h1 | exact State.tollEvent_all _ _ h1
    exact h2.toll rfl rfl rfl id

theorem execIntervalTimeout_ends {s0 s : State} (a b) (h : KeepsAll s0 s) : EndsIn KeepsAll s0 (execIntervalTimeout a b s) := by
  unfold execIntervalTimeout
  refine EndsIn.next ?_
  split
  · exact h
  · extract_lets s1 s2 t
    have h1 : KeepsAll s0 s1 := State.settlePeriod_all h
    have h2 : KeepsAll s0 s2 := by unfold s2; split <;> first | exact h1 | exact State.tollEvent_all _ _ h1
    exact h2.toll rfl rfl rfl id

theorem execPeriodEnd_ends {s0 s : State} (h : KeepsAll s0 s) : EndsIn KeepsAll s0 (execPeriodEnd s) := by
  unfold execPeriodEnd
  refine EndsIn.next ?_
  split
  · exact h
  · split
    · exact State.closePeriod_all _ h
    · split
      · exact State.closePeriod_all _ (h.toll rfl rfl rfl id)
      · exact h

theorem execSealBreak_ends {s0 s : State} (c) (h : KeepsAll s0 s) : EndsIn KeepsAll s0 (execSealBreak c s) := by
  unfold execSealBreak
  refine EndsIn.next ?_
  split
  · exact State.breakSeal_all _ h
  · exact h

theorem execVtollLoss_ends {s0 s : State} (h : KeepsAll s0 s) : EndsIn KeepsAll s0 (execVtollLoss s) := by
  unfold execVtollLoss
  refine EndsIn.next ?_
  split
  · exact h
  · extract_lets s1
    have h1 : KeepsAll s0 s1 := State.tollEvent_all _ _ h
    exact (h1.toll (t := { s1.toll with powered := false }) rfl rfl rfl id).step (Keeps.but (Keeps.refl _) rfl)

theorem execTollhousePowerUp_ends {s0 s : State} (c) (h : KeepsAll s0 s) : EndsIn KeepsAll s0 (execTollhousePowerUp c s) := by
  unfold execTollhousePowerUp
  refine EndsIn.next ?_
  split
  · exact h
  · have h1 : KeepsAll s0 { s with
        toll := { s.toll with powered := true, baud := 0 }
        power := { s.power with rails := setAdd 10 s.power.rails } } :=
      (h.toll (t := { s.toll with powered := true, baud := 0 }) rfl rfl rfl id).step (Keeps.but (Keeps.refl _) rfl)
    exact State.tollEvent_all _ _ (State.breakSeal_all _ h1)

theorem State.port'_keeps {s0 s : State} (fr cmd len f) (h : Keeps s0 s) (hf : ∀ p s, Keeps s0 s → Keeps s0 (f p s).1) :
    Keeps s0 (s.port' fr cmd len f) := by
  unfold State.port'
  split
  · exact h
  · split
    · exact State.emit_keeps _ h
    · split
      · exact h
      · split
        · exact State.emit_keeps _ h
        · exact State.emit_keeps _ (hf _ _ h)

theorem State.port'_all {s0 s : State} (fr cmd len f) (h : KeepsAll s0 s) (hf : ∀ p s, KeepsAll s0 s → KeepsAll s0 (f p s).1) :
    KeepsAll s0 (s.port' fr cmd len f) := by
  have e : ∀ (t : State) o, KeepsAll s0 t → KeepsAll s0 (t.emit o) := fun t o ht => ht.step (State.emit_keeps o (Keeps.refl t))
  unfold State.port'
  split
  · exact h
  · split
    · exact e _ _ h
    · split
      · exact h
      · split
        · exact e _ _ h
        · exact e _ _ (hf _ _ h)

theorem execTollStatusMirror_ends {s0 s : State} (h : Keeps s0 s) : EndsIn Keeps s0 (execTollStatusMirror s) := by
  unfold execTollStatusMirror
  exact EndsIn.next (Keeps.ite h (State.drew_keeps (Keeps.but h rfl)))

theorem execTollMirrorTimeout_ends {s0 s : State} (h : Keeps s0 s) : EndsIn Keeps s0 (execTollMirrorTimeout s) := by
  unfold execTollMirrorTimeout
  refine EndsIn.next ?_
  repeat' first
    | with_reducible assumption
    | with_reducible apply State.report_keeps
    | split
    | (conv => enter [2, 26]); with_reducible refine Keeps.but ?_ rfl

theorem execTollStatus_ends {s0 s : State} (f) (h : Keeps s0 s) : EndsIn Keeps s0 (execTollStatus f s) :=
  EndsIn.next (State.port'_keeps _ _ _ _ h fun _ _ h => State.drew_keeps h)

theorem execTollPortRead_ends {s0 s : State} (f) (h : Keeps s0 s) : EndsIn Keeps s0 (execTollPortRead f s) := by
  refine EndsIn.next (State.port'_keeps _ _ _ _ h fun p s hs => ?_)
  dsimp only
  split <;> exact hs

theorem execTollCert_ends {s0 s : State} (f) (h : Keeps s0 s) : EndsIn Keeps s0 (execTollCert f s) :=
  EndsIn.next (State.port'_keeps _ _ _ _ h fun _ _ h => h)

theorem execTollInstant_ends {s0 s : State} (f) (h : Keeps s0 s) : EndsIn Keeps s0 (execTollInstant f s) :=
  EndsIn.next (State.port'_keeps _ _ _ _ h fun _ _ h => State.drewN_keeps _ h)

theorem execTollAttest_ends {s0 s : State} (f) (h : Keeps s0 s) : EndsIn Keeps s0 (execTollAttest f s) :=
  EndsIn.next (State.port'_keeps _ _ _ _ h fun _ _ h => State.drewN_keeps _ h)

theorem execTollAck_ends {s0 s : State} (f) (h : KeepsAll s0 s) : EndsIn KeepsAll s0 (execTollAck f s) := by
  unfold execTollAck
  refine EndsIn.next (State.port'_all _ _ _ _ h fun p s hs => ?_)
  have h1 : s.toll.store.any (fun r => decide (fld r 8 8 = fld p 0 8 ∧ fld r 0 1 = 3)) = true →
      KeepsAll s0 { s with toll := { s.toll with acked := max s.toll.acked (fld p 0 8 + 1) } } := by
    intro sig
    obtain ⟨r, hr, hd⟩ := List.any_eq_true.1 sig
    have he := (of_decide_eq_true hd).1
    refine ⟨hs.pending, hs.mem, hs.seq, hs.broken, fun w => ?_⟩
    have k := hs.ok w
    have hu := k.numbered r hr
    rw [he] at hu
    have ka := k.acked
    have kh := k.held
    refine ⟨?_, k.places, ?_, k.numbered⟩
    · show max s.toll.acked (fld p 0 8 + 1) ≤ s.toll.nextSeq
      omega
    · show s.toll.nextSeq ≤ max s.toll.acked (fld p 0 8 + 1) + s.toll.store.length
      omega
  extract_lets upto signature ok s1 s2 s3 s4 s5
  split
  · exact hs
  · rename_i hok
    have hsig : signature = true := by
      revert hok
      unfold ok
      split
      · simp only [Bool.not_eq_true, Bool.not_eq_false', Bool.and_eq_true]; exact fun w => w.1
      · simp
    have h2 := h1 hsig
    refine State.tollEvent_all _ _ ?_
    unfold s5
    split
    · have h3 : KeepsAll s0 (State.tollEvent _ 6 0) := State.tollEvent_all _ _ h2
      exact h3.toll rfl rfl rfl id
    · exact h2

theorem execCommission_ends {s0 s : State} (f) (h : KeepsAll s0 s) : EndsIn KeepsAll s0 (execCommission f s) := by
  refine EndsIn.next (State.port'_all _ _ _ _ h fun p s hs => ?_)
  dsimp only
  split
  · exact hs
  · exact State.tollEvent_all _ _ (hs.toll rfl rfl rfl id)

theorem execSetBaud_ends {s0 s : State} (f) (h : KeepsAll s0 s) : EndsIn KeepsAll s0 (execSetBaud f s) := by
  refine EndsIn.next (State.port'_all _ _ _ _ h fun p s hs => ?_)
  dsimp only
  split
  · exact hs
  · exact hs.toll rfl rfl rfl id

theorem opTollRead_kept : RelasOp.Kept opTollRead := by
  intro s0 s c k h
  unfold opTollRead
  repeat' first
    | with_reducible assumption
    | split
    | dsimp only

end Sys2Proof.Machine
end

