-- ==== Sys2Proof/Laws/KeepsRegisters.lean ====
section
/-! SUPPORT. What the operations of Registers leave in force. -/

set_option linter.tactic.unusedName false

namespace Sys2Proof.Machine

theorem State.countBad_keeps {s0 s : State} (x2) (h : Keeps s0 s) : Keeps s0 (State.countBad s x2) := by
  unfold State.countBad
  repeat' first
    | with_reducible assumption
    | (extract_lets +onlyGivenNames x; )
    | with_reducible apply State.interrupt_keeps
    | with_reducible apply State.setView_keeps
    | split

theorem State.readTidetime_keeps {s0 s : State} (x2) (h : Keeps s0 s) : Keeps s0 (State.readTidetime s x2).1 := by
  unfold State.readTidetime
  repeat' first
    | with_reducible assumption
    | (extract_lets +onlyGivenNames x; )
    | split
    | intro _
    | (conv => enter [2, 26]); with_reducible refine Keeps.but ?_ rfl
    | with_reducible refine Keeps.of_fst ?_ (by with_reducible assumption)
    | unfold x
    | dsimp only

theorem State.readCount_keeps {s0 s : State} (x2) (h : Keeps s0 s) : Keeps s0 (State.readCount s x2).1 := by
  unfold State.readCount
  repeat' first
    | with_reducible assumption
    | (extract_lets +onlyGivenNames x; )
    | with_reducible apply State.setView_keeps
    | split

theorem State.regRead_keeps {s0 s : State} (x2) (h : Keeps s0 s) : Keeps s0 (State.regRead s x2).1 := by
  unfold State.regRead
  repeat' first
    | with_reducible assumption
    | with_reducible apply State.readCount_keeps
    | with_reducible apply State.readTidetime_keeps
    | with_reducible apply State.countBad_keeps
    | split

theorem State.hostAccess_ends {s0 s : State} (x2 x3) (h : Keeps s0 s) (hf : ∀ p, Keeps s0 (x3 p)) : EndsIn Keeps s0 (State.hostAccess s x2 x3) := by
  unfold State.hostAccess
  repeat' first
    | with_reducible assumption
    | (extract_lets +onlyGivenNames x; )
    | (with_reducible apply hf)
    | with_reducible apply EndsIn.next
    | split

theorem State.hostRead'_ends {s0 s : State} (x2 x3) (h : Keeps s0 s) : EndsIn Keeps s0 (State.hostRead' s x2 x3) := by
  unfold State.hostRead'
  repeat' first
    | with_reducible assumption
    | (extract_lets +onlyGivenNames x; )
    | with_reducible apply State.hostAccess_ends
    | with_reducible apply State.regRead_keeps
    | with_reducible apply State.emit_keeps
    | with_reducible apply EndsIn.next
    | split
    | intro _
    | with_reducible refine Keeps.of_fst ?_ (by with_reducible assumption)

theorem execTidetimeLowRead_ends {s0 s : State} (x1) (h : Keeps s0 s) : EndsIn Keeps s0 (execTidetimeLowRead x1 s) := by
  unfold execTidetimeLowRead
  repeat' first
    | with_reducible assumption
    | with_reducible apply State.hostRead'_ends
    | with_reducible apply EndsIn.next
    | split

theorem execBadAccessRead_ends {s0 s : State} (x1) (h : Keeps s0 s) : EndsIn Keeps s0 (execBadAccessRead x1 s) := by
  unfold execBadAccessRead
  repeat' first
    | with_reducible assumption
    | with_reducible apply State.hostRead'_ends

theorem execDoorbellDeniedRead_ends {s0 s : State} (x1) (h : Keeps s0 s) : EndsIn Keeps s0 (execDoorbellDeniedRead x1 s) := by
  unfold execDoorbellDeniedRead
  repeat' first
    | with_reducible assumption
    | with_reducible apply State.hostRead'_ends

theorem execBadRegisterAccess_ends {s0 s : State} (x1) (h : Keeps s0 s) : EndsIn Keeps s0 (execBadRegisterAccess x1 s) := by
  unfold execBadRegisterAccess
  repeat' first
    | with_reducible assumption
    | (extract_lets +onlyGivenNames x; )
    | with_reducible apply State.hostAccess_ends
    | with_reducible apply State.countBad_keeps
    | with_reducible apply State.emit_keeps
    | with_reducible apply EndsIn.next
    | split
    | intro _

theorem execIntStatusWrite_ends {s0 s : State} (x1) (h : Keeps s0 s) : EndsIn Keeps s0 (execIntStatusWrite x1 s) := by
  unfold execIntStatusWrite
  repeat' first
    | with_reducible assumption
    | (extract_lets +onlyGivenNames x; )
    | with_reducible apply State.hostAccess_ends
    | with_reducible apply State.setInt_keeps
    | with_reducible apply EndsIn.next
    | split
    | intro _

theorem execIntEnableWrite_ends {s0 s : State} (x1) (h : Keeps s0 s) : EndsIn Keeps s0 (execIntEnableWrite x1 s) := by
  unfold execIntEnableWrite
  repeat' first
    | with_reducible assumption
    | (extract_lets +onlyGivenNames x; )
    | with_reducible apply State.hostAccess_ends
    | with_reducible apply State.setInt_keeps
    | with_reducible apply EndsIn.next
    | split
    | intro _

theorem execIntSetWrite_ends {s0 s : State} (x1) (h : Keeps s0 s) : EndsIn Keeps s0 (execIntSetWrite x1 s) := by
  unfold execIntSetWrite
  repeat' first
    | with_reducible assumption
    | (extract_lets +onlyGivenNames x; )
    | with_reducible apply State.hostAccess_ends
    | with_reducible apply State.setInt_keeps
    | with_reducible apply EndsIn.next
    | split
    | intro _

theorem execRegisterWrite_ends {s0 s : State} (x1) (h : Keeps s0 s) : EndsIn Keeps s0 (execRegisterWrite x1 s) := by
  unfold execRegisterWrite
  repeat' first
    | with_reducible assumption
    | (extract_lets +onlyGivenNames x; )
    | with_reducible apply State.hostAccess_ends
    | with_reducible apply State.setBox_keeps
    | with_reducible apply EndsIn.next
    | split
    | intro _

theorem State.countDenied_keeps {s0 s : State} (x2 x3 x4 x5) (h : Keeps s0 s) : Keeps s0 (State.countDenied s x2 x3 x4 x5) := by
  unfold State.countDenied
  repeat' first
    | with_reducible assumption
    | (extract_lets +onlyGivenNames x; )
    | with_reducible apply State.interrupt_keeps
    | with_reducible apply State.setView_keeps
    | split

theorem State.doorbellError_keeps {s0 s : State} (x2) (h : Keeps s0 s) : Keeps s0 (State.doorbellError s x2) := by
  unfold State.doorbellError
  repeat' first
    | with_reducible assumption
    | (extract_lets +onlyGivenNames x; )
    | with_reducible apply State.setSq_keeps
    | with_reducible apply State.count_keeps

theorem State.writeTail_keeps {s0 s : State} (x2 x3) (h : Keeps s0 s) : Keeps s0 (State.writeTail s x2 x3) := by
  unfold State.writeTail
  repeat' first
    | with_reducible assumption
    | with_reducible apply State.doorbellError_keeps
    | with_reducible apply State.setSq_keeps
    | split

theorem State.writeCqHead_keeps {s0 s : State} (x2 x3) (h : Keeps s0 s) : Keeps s0 (State.writeCqHead s x2 x3) := by
  unfold State.writeCqHead
  repeat' first
    | with_reducible assumption
    | (extract_lets +onlyGivenNames x; )
    | with_reducible apply State.doorbellError_keeps
    | with_reducible apply State.setCq_keeps
    | (with_reducible apply Keeps.foldl; intro _ _ _)
    | split

theorem State.writeErrHead_keeps {s0 s : State} (x2 x3) (h : Keeps s0 s) : Keeps s0 (State.writeErrHead s x2 x3) := by
  unfold State.writeErrHead
  repeat' first
    | with_reducible assumption
    | (extract_lets +onlyGivenNames x; )
    | with_reducible apply State.doorbellError_keeps
    | with_reducible apply State.setSq_keeps
    | split

theorem State.doorbell_keeps {s0 s : State} (x2 x3 x4) (h : Keeps s0 s) : Keeps s0 (State.doorbell s x2 x3 x4) := by
  unfold State.doorbell
  repeat' first
    | with_reducible assumption
    | (extract_lets +onlyGivenNames x; )
    | with_reducible apply State.writeErrHead_keeps
    | with_reducible apply State.writeCqHead_keeps
    | with_reducible apply State.writeTail_keeps
    | with_reducible apply State.countDenied_keeps
    | split

theorem State.hostDoorbell_ends {s0 s : State} (x2 x3 x4) (h : Keeps s0 s) : EndsIn Keeps s0 (State.hostDoorbell s x2 x3 x4) := by
  unfold State.hostDoorbell
  repeat' first
    | with_reducible assumption
    | (extract_lets +onlyGivenNames x; )
    | with_reducible apply State.doorbell_keeps
    | with_reducible apply State.hostAccess_ends
    | with_reducible apply EndsIn.next
    | split
    | intro _

theorem execSqTail_ends {s0 s : State} (x1) (h : Keeps s0 s) : EndsIn Keeps s0 (execSqTail x1 s) := by
  unfold execSqTail
  repeat' first
    | with_reducible assumption
    | with_reducible apply State.hostDoorbell_ends

theorem execCqHead_ends {s0 s : State} (x1) (h : Keeps s0 s) : EndsIn Keeps s0 (execCqHead x1 s) := by
  unfold execCqHead
  repeat' first
    | with_reducible assumption
    | with_reducible apply State.hostDoorbell_ends

theorem execErrHead_ends {s0 s : State} (x1) (h : Keeps s0 s) : EndsIn Keeps s0 (execErrHead x1 s) := by
  unfold execErrHead
  repeat' first
    | with_reducible assumption
    | with_reducible apply State.hostDoorbell_ends

theorem execErrHeadResume_ends {s0 s : State} (x1) (h : Keeps s0 s) : EndsIn Keeps s0 (execErrHeadResume x1 s) := by
  unfold execErrHeadResume
  repeat' first
    | with_reducible assumption
    | with_reducible apply State.hostDoorbell_ends

theorem execMbxDoorbell_ends {s0 s : State} (x1) (h : Keeps s0 s) : EndsIn Keeps s0 (execMbxDoorbell x1 s) := by
  unfold execMbxDoorbell
  repeat' first
    | with_reducible assumption
    | (extract_lets +onlyGivenNames x; )
    | with_reducible apply State.hostAccess_ends
    | with_reducible apply State.setBox_keeps
    | with_reducible apply State.setChan_keeps
    | with_reducible apply State.count_keeps
    | with_reducible apply EndsIn.next
    | split
    | intro _

theorem execRegRead_ends {s0 s : State} (x1) (h : Keeps s0 s) : EndsIn Keeps s0 (execRegRead x1 s) := by
  unfold execRegRead
  repeat' first
    | with_reducible assumption
    | (extract_lets +onlyGivenNames x; )
    | with_reducible apply State.regRead_keeps
    | with_reducible apply State.refuse_keeps
    | with_reducible apply State.reply_keeps
    | with_reducible apply EndsIn.next
    | split

theorem execRegWrite_ends {s0 s : State} (x1) (h : Keeps s0 s) : EndsIn Keeps s0 (execRegWrite x1 s) := by
  unfold execRegWrite
  repeat' first
    | with_reducible assumption
    | (extract_lets +onlyGivenNames x; )
    | with_reducible apply State.doorbell_keeps
    | with_reducible apply State.countBad_keeps
    | with_reducible apply State.refuse_keeps
    | with_reducible apply State.reply_keeps
    | with_reducible apply EndsIn.next
    | split
    | intro _
    | with_reducible refine Keeps.of_fst ?_ (by with_reducible assumption)
    | unfold x
    | dsimp only
    | dsimp +zetaDelta only

end Sys2Proof.Machine
end

