-- ==== Sys2Proof/Laws/KeepsWayfarer.lean ====
section
/-! SUPPORT. What the commands of Wayfarer leave in force. -/

namespace Sys2Proof.Machine

theorem State.wayfarer_keeps {s0 s : State} (line name mask need f) (h : Keeps s0 s)
    (hf : ∀ ns s t y, Keeps s0 s → f ns s = some (t, y) → Keeps s0 t) : Keeps s0 (State.wayfarer s line name mask need f) := by
  unfold State.wayfarer
  repeat' first
    | with_reducible assumption
    | with_reducible apply State.emit_keeps
    | split
  exact hf _ _ _ _ h ‹_›

theorem execWayfarerHelp_ends {s0 s : State} (l) (h : Keeps s0 s) : EndsIn Keeps s0 (execWayfarerHelp l s) := by
  refine EndsIn.next (State.wayfarer_keeps _ _ _ _ _ h fun ns s t y hs e => ?_)
  split at e <;> cases e <;> exact hs

theorem execWayfarerVersion_ends {s0 s : State} (l) (h : Keeps s0 s) : EndsIn Keeps s0 (execWayfarerVersion l s) := by
  refine EndsIn.next (State.wayfarer_keeps _ _ _ _ _ h fun ns s t y hs e => ?_)
  split at e <;> cases e <;> exact hs

theorem execWayfarerState_ends {s0 s : State} (l) (h : Keeps s0 s) : EndsIn Keeps s0 (execWayfarerState l s) := by
  refine EndsIn.next (State.wayfarer_keeps _ _ _ _ _ h fun ns s t y hs e => ?_)
  dsimp only at e
  split at e <;> cases e <;> exact hs

theorem execWayfarerTime_ends {s0 s : State} (l) (h : Keeps s0 s) : EndsIn Keeps s0 (execWayfarerTime l s) := by
  refine EndsIn.next (State.wayfarer_keeps _ _ _ _ _ h fun ns s t y hs e => ?_)
  dsimp only at e
  split at e <;> cases e <;> exact hs

theorem execWayfarerBoot_ends {s0 s : State} (l) (h : Keeps s0 s) : EndsIn Keeps s0 (execWayfarerBoot l s) := by
  refine EndsIn.next (State.wayfarer_keeps _ _ _ _ _ h fun ns s t y hs e => ?_)
  split at e <;> cases e <;> exact hs

theorem execWayfarerBaud_ends {s0 s : State} (l) (h : Keeps s0 s) : EndsIn Keeps s0 (execWayfarerBaud l s) := by
  refine EndsIn.next (State.wayfarer_keeps _ _ _ _ _ h fun ns s t y hs e => ?_)
  repeat' split at e
  all_goals cases e
  exact Keeps.but hs rfl

theorem execWayfarerCount_ends {s0 s : State} (l) (h : Keeps s0 s) : EndsIn Keeps s0 (execWayfarerCount l s) := by
  refine EndsIn.next (State.wayfarer_keeps _ _ _ _ _ h fun ns s t y hs e => ?_)
  repeat' split at e
  · cases e
  · obtain ⟨n, -, e⟩ := Option.map_eq_some_iff.1 e
    cases e
    exact hs
  · cases e

theorem execWayfarerEvents_ends {s0 s : State} (l) (h : Keeps s0 s) : EndsIn Keeps s0 (execWayfarerEvents l s) := by
  refine EndsIn.next (State.wayfarer_keeps _ _ _ _ _ h fun ns s t y hs e => ?_)
  repeat' split at e
  all_goals cases e
  exact hs

theorem execWayfarerWeather_ends {s0 s : State} (l) (h : Keeps s0 s) : EndsIn Keeps s0 (execWayfarerWeather l s) := by
  refine EndsIn.next (State.wayfarer_keeps _ _ _ _ _ h fun ns s t y hs e => ?_)
  repeat' split at e
  all_goals cases e
  exact hs

theorem execWayfarerLinks_ends {s0 s : State} (l) (h : Keeps s0 s) : EndsIn Keeps s0 (execWayfarerLinks l s) := by
  refine EndsIn.next (State.wayfarer_keeps _ _ _ _ _ h fun ns s t y hs e => ?_)
  split at e <;> cases e
  exact State.drewN_keeps _ hs

theorem execWayfarerReg_ends {s0 s : State} (l) (h : Keeps s0 s) : EndsIn Keeps s0 (execWayfarerReg l s) := by
  refine EndsIn.next (State.wayfarer_keeps _ _ _ _ _ h fun ns s t y hs e => ?_)
  repeat' split at e
  all_goals first | (cases e; exact hs) | cases e

theorem execWayfarerTrace_ends {s0 s : State} (l) (h : Keeps s0 s) : EndsIn Keeps s0 (execWayfarerTrace l s) := by
  refine EndsIn.next (State.wayfarer_keeps _ _ _ _ _ h fun ns s t y hs e => ?_)
  split at e
  · split at e
    · cases e
    · cases e
      exact State.traceBytes_keeps _ hs
  · cases e

end Sys2Proof.Machine
end

