-- ==== Sys2Proof/Laws/KeepsExec.lean ====
section
/-! SUPPORT. What the operations of Exec leave in force. -/

set_option linter.tactic.unusedName false

namespace Sys2Proof.Machine

theorem opGuestCreate_kept : RelasOp.Kept opGuestCreate := by
  intro s0 s c k h
  unfold opGuestCreate
  repeat' first
    | with_reducible assumption
    | split
    | intro _
    | (conv => enter [2, 26]); with_reducible refine Keeps.but ?_ rfl
    | with_reducible refine Keeps.of_fst ?_ (by with_reducible assumption)
    | unfold x
    | dsimp only

theorem opGuestSync_kept : RelasOp.Kept opGuestSync := by
  intro s0 s c k h
  unfold opGuestSync
  repeat' first
    | with_reducible assumption

theorem opGuestQuery_kept : RelasOp.Kept opGuestQuery := by
  intro s0 s c k h
  unfold opGuestQuery
  repeat' first
    | with_reducible assumption
    | split
    | intro _
    | with_reducible refine Keeps.of_fst ?_ (by with_reducible assumption)
    | unfold x
    | dsimp only

theorem opUnknown_kept : RelasOp.Kept opUnknown := by
  intro s0 s c k h
  unfold opUnknown
  repeat' first
    | with_reducible assumption

theorem relasGuest_kept {n op} (h : relasGuest n = some op) : op.Kept := by
  unfold relasGuest at h
  split at h <;> cases h
  · exact opGuestCreate_kept
  · exact opGuestDestroy_kept
  · exact opGuestSet_kept
  · exact opGuestSync_kept
  · exact opGuestQuery_kept

theorem relasCove_kept {n op} (h : relasCove n = some op) : op.Kept := by
  unfold relasCove at h
  split at h <;> cases h
  · exact opCoveCreate_kept
  · exact opCoveDestroy_kept
  · exact opCoveSet_kept
  · exact opCoveGrantAll_kept
  · exact opCoveHandover_kept
  · exact opCoveQuery_kept

theorem relasPlace_kept {n op} (h : relasPlace n = some op) : op.Kept := by
  unfold relasPlace at h
  split at h <;> cases h
  · exact opPlaceSet_kept
  · exact opPlaceQuery_kept
  · exact opPullAdd_kept
  · exact opPullRemove_kept
  · exact opHarbourAreas_kept

theorem relasQueue_kept {n op} (h : relasQueue n = some op) : op.Kept := by
  unfold relasQueue at h
  split at h <;> cases h
  · exact opQueueCreate_kept
  · exact opQueueDestroy_kept
  · exact opQueueSet_kept
  · exact opQueueQuery_kept

theorem relasTables_kept {n op} (h : relasTables n = some op) : op.Kept := by
  unfold relasTables at h
  split at h <;> cases h
  · exact opTableCreate_kept
  · exact opTableDestroy_kept
  · exact opTableQuery_kept

theorem relasIndices_kept {n op} (h : relasIndices n = some op) : op.Kept := by
  unfold relasIndices at h
  split at h <;> cases h
  · exact opIndexCreate_kept
  · exact opIndexDestroy_kept
  · exact opIndexQuery_kept

theorem relasKv_kept {n op} (h : relasKv n = some op) : op.Kept := by
  unfold relasKv at h
  split at h <;> cases h
  · exact opKvsetCreate_kept
  · exact opKvsetDestroy_kept
  · exact opKvsetQuery_kept

theorem relasBollard_kept {n op} (h : relasBollard n = some op) : op.Kept := by
  unfold relasBollard at h
  split at h <;> cases h
  · exact opBollardAlloc_kept
  · exact opBollardFree_kept
  · exact opBollardSignalCmd_kept
  · exact opBollardWaitCmd_kept
  · exact opBollardTryWait_kept

theorem relasFabric_kept {n op} (h : relasFabric n = some op) : op.Kept := by
  unfold relasFabric at h
  split at h <;> cases h
  · exact opBundleSet_kept
  · exact opBundleOpen_kept
  · exact opLinkQuery_kept
  · exact opLinkRecal_kept
  · exact opFabricSet_kept

theorem relasFault_kept {n op} (h : relasFault n = some op) : op.Kept := by
  unfold relasFault at h
  split at h <;> cases h
  · exact opFaultRead_kept
  · exact opUnitRetire_kept
  · exact opWeatherQuery_kept
  · exact opLogbookRead_kept
  · exact opQuarantineRelease_kept

theorem relasTrust_kept {n op} (h : relasTrust n = some op) : op.Kept := by
  unfold relasTrust at h
  split at h <;> cases h
  · exact opMailboxBind_kept
  · exact opKeySlotLoad_kept
  · exact opKeySlotClear_kept
  · exact opDebugUnlock_kept

theorem relasObserve_kept {n op} (h : relasObserve n = some op) : op.Kept := by
  unfold relasObserve at h
  split at h <;> cases h
  · exact opTicketStatus_kept
  · exact opCounterRead_kept
  · exact opEventRing_kept
  · exact opTraceSet_kept
  · exact opTollRead_kept

theorem relasPower_kept {n op} (h : relasPower n = some op) : op.Kept := by
  unfold relasPower at h
  split at h <;> cases h
  · exact opPowerCapSet_kept
  · exact opThermalQuery_kept
  · exact opStateSet_kept

theorem relasFirmware_kept {n op} (h : relasFirmware n = some op) : op.Kept := by
  unfold relasFirmware at h
  split at h <;> cases h
  · exact opFwWrite_kept
  · exact opFwVerify_kept
  · exact opFwActivate_kept
  · exact opFwQuery_kept

theorem relasTable_kept : TableKept relasTable := by
  intro n op h
  unfold relasTable at h
  split at h
  · exact relasGuest_kept h
  · exact relasCove_kept h
  · exact relasPlace_kept h
  · exact relasQueue_kept h
  · exact relasTables_kept h
  · exact relasIndices_kept h
  · exact relasKv_kept h
  · exact relasBollard_kept h
  · exact relasFabric_kept h
  · exact relasFault_kept h
  · exact relasTrust_kept h
  · exact relasObserve_kept h
  · exact relasPower_kept h
  · exact relasFirmware_kept h
  · cases h

theorem relasConfig_kept {n op} (h : relasConfig n = some op) : op.Kept := by
  unfold relasConfig at h
  split at h <;> cases h
  · exact opConfigOpen_kept
  · exact opConfigDiscard_kept
  · exact opConfigCheck_kept
  · exact opConfigTurn_kept
  · exact opConfigCancel_kept
  · exact opConfigQuery_kept

theorem relasOpOf_kept {c op} (h : relasOpOf c = some op) : op.Kept := by
  unfold relasOpOf at h
  repeat' split at h
  · cases h; exact opPullHold_kept
  · cases h; exact opShoreQuery_kept
  · cases h; exact opShoreQuery_kept
  · exact relasTable_kept _ _ h
  · exact relasConfig_kept h
  · exact relasTable_kept _ _ h

theorem served_kept (c : RelasCmd) : ((relasOpOf c).getD opUnknown).Kept := by
  cases h : relasOpOf c with
  | none => exact opUnknown_kept
  | some op => exact relasOpOf_kept h

theorem State.serve_keeps {s0 s : State} (c) (h : Keeps s0 s) : Keeps s0 (State.serve s c) := by
  have g := relas_keeps (table := relasTable) (served_kept c) c h
  unfold State.serve
  split
  · exact h
  · split
    · exact State.replicateChanges_keeps _ g
    · exact g

theorem descTable_kept : DescTableKept descTable := by
  intro n op h
  unfold descTable at h
  split at h <;> cases h
  · exact opCopy_kept
  · exact opFill_kept
  · exact opStageIn_kept
  · exact opStageOut_kept
  · exact opPacedCopy_kept
  · exact opAdvise_kept
  · exact opPrefetch_kept
  · exact opReduceContrib_kept
  · exact opReduceRead_kept
  · exact opUpdateSgdm_kept
  · exact opUpdateAdamw_kept
  · exact opConvert_kept
  · exact opGatherRows_kept
  · exact opScatterAddRows_kept
  · exact opReplaceRows_kept
  · exact opSearch_kept
  · exact opInsertVec_kept
  · exact opDeleteVec_kept
  · exact opMergeDriftline_kept
  · exact opKvAppend_kept
  · exact opKvGather_kept
  · exact opKvFork_kept
  · exact opBollardSignal_kept
  · exact opBollardWait_kept
  · exact opBollardArrive_kept
  · exact opSnapOpen_kept
  · exact opSnapClose_kept
  · exact opPublish_kept
  · exact opMark_kept
  · exact opNop_kept

theorem State.serveAs_keeps {s0 s : State} (x2 x3) (h : Keeps s0 s) : Keeps s0 (State.serveAs s x2 x3) := by
  unfold State.serveAs
  repeat' first
    | with_reducible assumption
    | with_reducible apply State.serve_keeps
    | split

theorem State.servePart_keeps {s0 s : State} (x2 x3 x4) (h : Keeps s0 s) : Keeps s0 (State.servePart s x2 x3 x4) := by
  unfold State.servePart
  repeat' first
    | with_reducible assumption
    | with_reducible apply State.serveAs_keeps
    | split

theorem execGuestCreate_ends {s0 s : State} (x1) (h : Keeps s0 s) : EndsIn Keeps s0 (execGuestCreate x1 s) := by
  unfold execGuestCreate
  repeat' first
    | with_reducible assumption
    | (extract_lets +onlyGivenNames x; )
    | with_reducible apply State.serveAs_keeps
    | with_reducible apply EndsIn.next

theorem execGuestDestroy_ends {s0 s : State} (x1) (h : Keeps s0 s) : EndsIn Keeps s0 (execGuestDestroy x1 s) := by
  unfold execGuestDestroy
  repeat' first
    | with_reducible assumption
    | (extract_lets +onlyGivenNames x; )
    | with_reducible apply State.serveAs_keeps
    | with_reducible apply EndsIn.next

theorem execGuestSet_ends {s0 s : State} (x1) (h : Keeps s0 s) : EndsIn Keeps s0 (execGuestSet x1 s) := by
  unfold execGuestSet
  repeat' first
    | with_reducible assumption
    | (extract_lets +onlyGivenNames x; )
    | with_reducible apply State.serveAs_keeps
    | with_reducible apply EndsIn.next

theorem execGuestSyncXlate_ends {s0 s : State} (x1) (h : Keeps s0 s) : EndsIn Keeps s0 (execGuestSyncXlate x1 s) := by
  unfold execGuestSyncXlate
  repeat' first
    | with_reducible assumption
    | (extract_lets +onlyGivenNames x; )
    | with_reducible apply State.serveAs_keeps
    | with_reducible apply EndsIn.next

theorem execGuestQuery_ends {s0 s : State} (x1) (h : Keeps s0 s) : EndsIn Keeps s0 (execGuestQuery x1 s) := by
  unfold execGuestQuery
  repeat' first
    | with_reducible assumption
    | (extract_lets +onlyGivenNames x; )
    | with_reducible apply State.serveAs_keeps
    | with_reducible apply EndsIn.next

theorem execCoveCreate_ends {s0 s : State} (x1) (h : Keeps s0 s) : EndsIn Keeps s0 (execCoveCreate x1 s) := by
  unfold execCoveCreate
  repeat' first
    | with_reducible assumption
    | (extract_lets +onlyGivenNames x; )
    | with_reducible apply State.serveAs_keeps
    | with_reducible apply EndsIn.next

theorem execCoveDestroy_ends {s0 s : State} (x1) (h : Keeps s0 s) : EndsIn Keeps s0 (execCoveDestroy x1 s) := by
  unfold execCoveDestroy
  repeat' first
    | with_reducible assumption
    | (extract_lets +onlyGivenNames x; )
    | with_reducible apply State.serveAs_keeps
    | with_reducible apply EndsIn.next

theorem execCoveSet_ends {s0 s : State} (x1) (h : Keeps s0 s) : EndsIn Keeps s0 (execCoveSet x1 s) := by
  unfold execCoveSet
  repeat' first
    | with_reducible assumption
    | (extract_lets +onlyGivenNames x; )
    | with_reducible apply State.serveAs_keeps
    | with_reducible apply EndsIn.next

theorem execCoveGrant_ends {s0 s : State} (x1) (h : Keeps s0 s) : EndsIn Keeps s0 (execCoveGrant x1 s) := by
  unfold execCoveGrant
  repeat' first
    | with_reducible assumption
    | (extract_lets +onlyGivenNames x; )
    | with_reducible apply State.serveAs_keeps
    | with_reducible apply EndsIn.next

theorem execCoveHandover_ends {s0 s : State} (x1) (h : Keeps s0 s) : EndsIn Keeps s0 (execCoveHandover x1 s) := by
  unfold execCoveHandover
  repeat' first
    | with_reducible assumption
    | (extract_lets +onlyGivenNames x; )
    | with_reducible apply State.serveAs_keeps
    | with_reducible apply EndsIn.next

theorem execCoveQuery_ends {s0 s : State} (x1) (h : Keeps s0 s) : EndsIn Keeps s0 (execCoveQuery x1 s) := by
  unfold execCoveQuery
  repeat' first
    | with_reducible assumption
    | (extract_lets +onlyGivenNames x; )
    | with_reducible apply State.serveAs_keeps
    | with_reducible apply EndsIn.next

theorem execPlaceSet_ends {s0 s : State} (x1) (h : Keeps s0 s) : EndsIn Keeps s0 (execPlaceSet x1 s) := by
  unfold execPlaceSet
  repeat' first
    | with_reducible assumption
    | (extract_lets +onlyGivenNames x; )
    | with_reducible apply State.serveAs_keeps
    | with_reducible apply EndsIn.next

theorem execPlaceQuery_ends {s0 s : State} (x1) (h : Keeps s0 s) : EndsIn Keeps s0 (execPlaceQuery x1 s) := by
  unfold execPlaceQuery
  repeat' first
    | with_reducible assumption
    | (extract_lets +onlyGivenNames x; )
    | with_reducible apply State.serveAs_keeps
    | with_reducible apply EndsIn.next

theorem execPullAdd_ends {s0 s : State} (x1) (h : Keeps s0 s) : EndsIn Keeps s0 (execPullAdd x1 s) := by
  unfold execPullAdd
  repeat' first
    | with_reducible assumption
    | (extract_lets +onlyGivenNames x; )
    | with_reducible apply State.serveAs_keeps
    | with_reducible apply EndsIn.next

theorem execPullRemove_ends {s0 s : State} (x1) (h : Keeps s0 s) : EndsIn Keeps s0 (execPullRemove x1 s) := by
  unfold execPullRemove
  repeat' first
    | with_reducible assumption
    | (extract_lets +onlyGivenNames x; )
    | with_reducible apply State.serveAs_keeps
    | with_reducible apply EndsIn.next

theorem execHarbourAreas_ends {s0 s : State} (x1) (h : Keeps s0 s) : EndsIn Keeps s0 (execHarbourAreas x1 s) := by
  unfold execHarbourAreas
  repeat' first
    | with_reducible assumption
    | (extract_lets +onlyGivenNames x; )
    | with_reducible apply State.serveAs_keeps
    | with_reducible apply EndsIn.next

theorem execQueueCreate_ends {s0 s : State} (x1) (h : Keeps s0 s) : EndsIn Keeps s0 (execQueueCreate x1 s) := by
  unfold execQueueCreate
  repeat' first
    | with_reducible assumption
    | (extract_lets +onlyGivenNames x; )
    | with_reducible apply State.serveAs_keeps
    | with_reducible apply EndsIn.next

theorem execQueueDestroy_ends {s0 s : State} (x1) (h : Keeps s0 s) : EndsIn Keeps s0 (execQueueDestroy x1 s) := by
  unfold execQueueDestroy
  repeat' first
    | with_reducible assumption
    | (extract_lets +onlyGivenNames x; )
    | with_reducible apply State.serveAs_keeps
    | with_reducible apply EndsIn.next

theorem execQueueSet_ends {s0 s : State} (x1) (h : Keeps s0 s) : EndsIn Keeps s0 (execQueueSet x1 s) := by
  unfold execQueueSet
  repeat' first
    | with_reducible assumption
    | (extract_lets +onlyGivenNames x; )
    | with_reducible apply State.serveAs_keeps
    | with_reducible apply EndsIn.next

theorem execQueueQuery_ends {s0 s : State} (x1) (h : Keeps s0 s) : EndsIn Keeps s0 (execQueueQuery x1 s) := by
  unfold execQueueQuery
  repeat' first
    | with_reducible assumption
    | (extract_lets +onlyGivenNames x; )
    | with_reducible apply State.serveAs_keeps
    | with_reducible apply EndsIn.next

theorem execTableCreate_ends {s0 s : State} (x1) (h : Keeps s0 s) : EndsIn Keeps s0 (execTableCreate x1 s) := by
  unfold execTableCreate
  repeat' first
    | with_reducible assumption
    | (extract_lets +onlyGivenNames x; )
    | with_reducible apply State.serveAs_keeps
    | with_reducible apply EndsIn.next

theorem execTableDestroy_ends {s0 s : State} (x1) (h : Keeps s0 s) : EndsIn Keeps s0 (execTableDestroy x1 s) := by
  unfold execTableDestroy
  repeat' first
    | with_reducible assumption
    | (extract_lets +onlyGivenNames x; )
    | with_reducible apply State.serveAs_keeps
    | with_reducible apply EndsIn.next

theorem execTableQuery_ends {s0 s : State} (x1) (h : Keeps s0 s) : EndsIn Keeps s0 (execTableQuery x1 s) := by
  unfold execTableQuery
  repeat' first
    | with_reducible assumption
    | (extract_lets +onlyGivenNames x; )
    | with_reducible apply State.serveAs_keeps
    | with_reducible apply EndsIn.next

theorem execIndexCreate_ends {s0 s : State} (x1) (h : Keeps s0 s) : EndsIn Keeps s0 (execIndexCreate x1 s) := by
  unfold execIndexCreate
  repeat' first
    | with_reducible assumption
    | (extract_lets +onlyGivenNames x; )
    | with_reducible apply State.serveAs_keeps
    | with_reducible apply EndsIn.next

theorem execIndexDestroy_ends {s0 s : State} (x1) (h : Keeps s0 s) : EndsIn Keeps s0 (execIndexDestroy x1 s) := by
  unfold execIndexDestroy
  repeat' first
    | with_reducible assumption
    | (extract_lets +onlyGivenNames x; )
    | with_reducible apply State.serveAs_keeps
    | with_reducible apply EndsIn.next

theorem execIndexQuery_ends {s0 s : State} (x1) (h : Keeps s0 s) : EndsIn Keeps s0 (execIndexQuery x1 s) := by
  unfold execIndexQuery
  repeat' first
    | with_reducible assumption
    | (extract_lets +onlyGivenNames x; )
    | with_reducible apply State.serveAs_keeps
    | with_reducible apply EndsIn.next

theorem execKvsetCreate_ends {s0 s : State} (x1) (h : Keeps s0 s) : EndsIn Keeps s0 (execKvsetCreate x1 s) := by
  unfold execKvsetCreate
  repeat' first
    | with_reducible assumption
    | (extract_lets +onlyGivenNames x; )
    | with_reducible apply State.serveAs_keeps
    | with_reducible apply EndsIn.next

theorem execKvsetDestroy_ends {s0 s : State} (x1) (h : Keeps s0 s) : EndsIn Keeps s0 (execKvsetDestroy x1 s) := by
  unfold execKvsetDestroy
  repeat' first
    | with_reducible assumption
    | (extract_lets +onlyGivenNames x; )
    | with_reducible apply State.serveAs_keeps
    | with_reducible apply EndsIn.next

theorem execKvsetQuery_ends {s0 s : State} (x1) (h : Keeps s0 s) : EndsIn Keeps s0 (execKvsetQuery x1 s) := by
  unfold execKvsetQuery
  repeat' first
    | with_reducible assumption
    | (extract_lets +onlyGivenNames x; )
    | with_reducible apply State.serveAs_keeps
    | with_reducible apply EndsIn.next

theorem execBollardAlloc_ends {s0 s : State} (x1) (h : Keeps s0 s) : EndsIn Keeps s0 (execBollardAlloc x1 s) := by
  unfold execBollardAlloc
  repeat' first
    | with_reducible assumption
    | (extract_lets +onlyGivenNames x; )
    | with_reducible apply State.serveAs_keeps
    | with_reducible apply EndsIn.next

theorem execBollardFree_ends {s0 s : State} (x1) (h : Keeps s0 s) : EndsIn Keeps s0 (execBollardFree x1 s) := by
  unfold execBollardFree
  repeat' first
    | with_reducible assumption
    | (extract_lets +onlyGivenNames x; )
    | with_reducible apply State.serveAs_keeps
    | with_reducible apply EndsIn.next

theorem execBollardSignalCmd_ends {s0 s : State} (x1) (h : Keeps s0 s) : EndsIn Keeps s0 (execBollardSignalCmd x1 s) := by
  unfold execBollardSignalCmd
  repeat' first
    | with_reducible assumption
    | (extract_lets +onlyGivenNames x; )
    | with_reducible apply State.serveAs_keeps
    | with_reducible apply EndsIn.next

theorem execBollardWaitCmd_ends {s0 s : State} (x1) (h : Keeps s0 s) : EndsIn Keeps s0 (execBollardWaitCmd x1 s) := by
  unfold execBollardWaitCmd
  repeat' first
    | with_reducible assumption
    | (extract_lets +onlyGivenNames x; )
    | with_reducible apply State.serveAs_keeps
    | with_reducible apply EndsIn.next

theorem execBollardTryWait_ends {s0 s : State} (x1) (h : Keeps s0 s) : EndsIn Keeps s0 (execBollardTryWait x1 s) := by
  unfold execBollardTryWait
  repeat' first
    | with_reducible assumption
    | (extract_lets +onlyGivenNames x; )
    | with_reducible apply State.serveAs_keeps
    | with_reducible apply EndsIn.next

theorem execBundleSet_ends {s0 s : State} (x1) (h : Keeps s0 s) : EndsIn Keeps s0 (execBundleSet x1 s) := by
  unfold execBundleSet
  repeat' first
    | with_reducible assumption
    | (extract_lets +onlyGivenNames x; )
    | with_reducible apply State.serveAs_keeps
    | with_reducible apply EndsIn.next

theorem execBundleOpen_ends {s0 s : State} (x1) (h : Keeps s0 s) : EndsIn Keeps s0 (execBundleOpen x1 s) := by
  unfold execBundleOpen
  repeat' first
    | with_reducible assumption
    | (extract_lets +onlyGivenNames x; )
    | with_reducible apply State.serveAs_keeps
    | with_reducible apply EndsIn.next

theorem execLinkQuery_ends {s0 s : State} (x1) (h : Keeps s0 s) : EndsIn Keeps s0 (execLinkQuery x1 s) := by
  unfold execLinkQuery
  repeat' first
    | with_reducible assumption
    | (extract_lets +onlyGivenNames x; )
    | with_reducible apply State.serveAs_keeps
    | with_reducible apply EndsIn.next

theorem execLinkRecal_ends {s0 s : State} (x1) (h : Keeps s0 s) : EndsIn Keeps s0 (execLinkRecal x1 s) := by
  unfold execLinkRecal
  repeat' first
    | with_reducible assumption
    | (extract_lets +onlyGivenNames x; )
    | with_reducible apply State.serveAs_keeps
    | with_reducible apply EndsIn.next

theorem execFabricSet_ends {s0 s : State} (x1) (h : Keeps s0 s) : EndsIn Keeps s0 (execFabricSet x1 s) := by
  unfold execFabricSet
  repeat' first
    | with_reducible assumption
    | (extract_lets +onlyGivenNames x; )
    | with_reducible apply State.serveAs_keeps
    | with_reducible apply EndsIn.next

theorem execFaultRead_ends {s0 s : State} (x1) (h : Keeps s0 s) : EndsIn Keeps s0 (execFaultRead x1 s) := by
  unfold execFaultRead
  repeat' first
    | with_reducible assumption
    | (extract_lets +onlyGivenNames x; )
    | with_reducible apply State.serveAs_keeps
    | with_reducible apply EndsIn.next

theorem execUnitRetire_ends {s0 s : State} (x1) (h : Keeps s0 s) : EndsIn Keeps s0 (execUnitRetire x1 s) := by
  unfold execUnitRetire
  repeat' first
    | with_reducible assumption
    | (extract_lets +onlyGivenNames x; )
    | with_reducible apply State.serveAs_keeps
    | with_reducible apply EndsIn.next

theorem execWeatherQuery_ends {s0 s : State} (x1) (h : Keeps s0 s) : EndsIn Keeps s0 (execWeatherQuery x1 s) := by
  unfold execWeatherQuery
  repeat' first
    | with_reducible assumption
    | (extract_lets +onlyGivenNames x; )
    | with_reducible apply State.serveAs_keeps
    | with_reducible apply EndsIn.next

theorem execLogbookRead_ends {s0 s : State} (x1) (h : Keeps s0 s) : EndsIn Keeps s0 (execLogbookRead x1 s) := by
  unfold execLogbookRead
  repeat' first
    | with_reducible assumption
    | (extract_lets +onlyGivenNames x; )
    | with_reducible apply State.serveAs_keeps
    | with_reducible apply EndsIn.next

theorem execQuarantineRelease_ends {s0 s : State} (x1) (h : Keeps s0 s) : EndsIn Keeps s0 (execQuarantineRelease x1 s) := by
  unfold execQuarantineRelease
  repeat' first
    | with_reducible assumption
    | (extract_lets +onlyGivenNames x; )
    | with_reducible apply State.serveAs_keeps
    | with_reducible apply EndsIn.next

theorem execMailboxBind_ends {s0 s : State} (x1) (h : Keeps s0 s) : EndsIn Keeps s0 (execMailboxBind x1 s) := by
  unfold execMailboxBind
  repeat' first
    | with_reducible assumption
    | (extract_lets +onlyGivenNames x; )
    | with_reducible apply State.serveAs_keeps
    | with_reducible apply EndsIn.next

theorem execKeySlotLoad_ends {s0 s : State} (x1) (h : Keeps s0 s) : EndsIn Keeps s0 (execKeySlotLoad x1 s) := by
  unfold execKeySlotLoad
  repeat' first
    | with_reducible assumption
    | (extract_lets +onlyGivenNames x; )
    | with_reducible apply State.serveAs_keeps
    | with_reducible apply EndsIn.next

theorem execKeySlotClear_ends {s0 s : State} (x1) (h : Keeps s0 s) : EndsIn Keeps s0 (execKeySlotClear x1 s) := by
  unfold execKeySlotClear
  repeat' first
    | with_reducible assumption
    | (extract_lets +onlyGivenNames x; )
    | with_reducible apply State.serveAs_keeps
    | with_reducible apply EndsIn.next

theorem execDebugUnlockNonce_ends {s0 s : State} (x1) (h : Keeps s0 s) : EndsIn Keeps s0 (execDebugUnlockNonce x1 s) := by
  unfold execDebugUnlockNonce
  repeat' first
    | with_reducible assumption
    | (extract_lets +onlyGivenNames x; )
    | with_reducible apply State.servePart_keeps
    | with_reducible apply EndsIn.next

theorem execDebugUnlockGrant_ends {s0 s : State} (x1) (h : Keeps s0 s) : EndsIn Keeps s0 (execDebugUnlockGrant x1 s) := by
  unfold execDebugUnlockGrant
  repeat' first
    | with_reducible assumption
    | (extract_lets +onlyGivenNames x; )
    | with_reducible apply State.servePart_keeps
    | with_reducible apply EndsIn.next

theorem execTicketStatus_ends {s0 s : State} (x1) (h : Keeps s0 s) : EndsIn Keeps s0 (execTicketStatus x1 s) := by
  unfold execTicketStatus
  repeat' first
    | with_reducible assumption
    | (extract_lets +onlyGivenNames x; )
    | with_reducible apply State.serveAs_keeps
    | with_reducible apply EndsIn.next

theorem execCounterRead_ends {s0 s : State} (x1) (h : Keeps s0 s) : EndsIn Keeps s0 (execCounterRead x1 s) := by
  unfold execCounterRead
  repeat' first
    | with_reducible assumption
    | (extract_lets +onlyGivenNames x; )
    | with_reducible apply State.serveAs_keeps
    | with_reducible apply EndsIn.next

theorem execEventRingConfigure_ends {s0 s : State} (x1) (h : Keeps s0 s) : EndsIn Keeps s0 (execEventRingConfigure x1 s) := by
  unfold execEventRingConfigure
  repeat' first
    | with_reducible assumption
    | (extract_lets +onlyGivenNames x; )
    | with_reducible apply State.servePart_keeps
    | with_reducible apply EndsIn.next

theorem execEventRingRead_ends {s0 s : State} (x1) (h : Keeps s0 s) : EndsIn Keeps s0 (execEventRingRead x1 s) := by
  unfold execEventRingRead
  repeat' first
    | with_reducible assumption
    | (extract_lets +onlyGivenNames x; )
    | with_reducible apply State.servePart_keeps
    | with_reducible apply EndsIn.next

theorem execTraceConfigure_ends {s0 s : State} (x1) (h : Keeps s0 s) : EndsIn Keeps s0 (execTraceConfigure x1 s) := by
  unfold execTraceConfigure
  repeat' first
    | with_reducible assumption
    | (extract_lets +onlyGivenNames x; )
    | with_reducible apply State.servePart_keeps
    | with_reducible apply EndsIn.next

theorem execTraceRead_ends {s0 s : State} (x1) (h : Keeps s0 s) : EndsIn Keeps s0 (execTraceRead x1 s) := by
  unfold execTraceRead
  repeat' first
    | with_reducible assumption
    | (extract_lets +onlyGivenNames x; )
    | with_reducible apply State.servePart_keeps
    | with_reducible apply EndsIn.next

theorem execTollRead_ends {s0 s : State} (x1) (h : Keeps s0 s) : EndsIn Keeps s0 (execTollRead x1 s) := by
  unfold execTollRead
  repeat' first
    | with_reducible assumption
    | (extract_lets +onlyGivenNames x; )
    | with_reducible apply State.serveAs_keeps
    | with_reducible apply EndsIn.next

theorem execConfigOpen_ends {s0 s : State} (x1) (h : Keeps s0 s) : EndsIn Keeps s0 (execConfigOpen x1 s) := by
  unfold execConfigOpen
  repeat' first
    | with_reducible assumption
    | (extract_lets +onlyGivenNames x; )
    | with_reducible apply State.serveAs_keeps
    | with_reducible apply EndsIn.next

theorem execConfigDiscard_ends {s0 s : State} (x1) (h : Keeps s0 s) : EndsIn Keeps s0 (execConfigDiscard x1 s) := by
  unfold execConfigDiscard
  repeat' first
    | with_reducible assumption
    | (extract_lets +onlyGivenNames x; )
    | with_reducible apply State.serveAs_keeps
    | with_reducible apply EndsIn.next

theorem execConfigCheck_ends {s0 s : State} (x1) (h : Keeps s0 s) : EndsIn Keeps s0 (execConfigCheck x1 s) := by
  unfold execConfigCheck
  repeat' first
    | with_reducible assumption
    | (extract_lets +onlyGivenNames x; )
    | with_reducible apply State.serveAs_keeps
    | with_reducible apply EndsIn.next

theorem execConfigTurn_ends {s0 s : State} (x1) (h : Keeps s0 s) : EndsIn Keeps s0 (execConfigTurn x1 s) := by
  unfold execConfigTurn
  repeat' first
    | with_reducible assumption
    | (extract_lets +onlyGivenNames x; )
    | with_reducible apply State.serveAs_keeps
    | with_reducible apply EndsIn.next

theorem execConfigCancel_ends {s0 s : State} (x1) (h : Keeps s0 s) : EndsIn Keeps s0 (execConfigCancel x1 s) := by
  unfold execConfigCancel
  repeat' first
    | with_reducible assumption
    | (extract_lets +onlyGivenNames x; )
    | with_reducible apply State.serveAs_keeps
    | with_reducible apply EndsIn.next

theorem execConfigQuery_ends {s0 s : State} (x1) (h : Keeps s0 s) : EndsIn Keeps s0 (execConfigQuery x1 s) := by
  unfold execConfigQuery
  repeat' first
    | with_reducible assumption
    | (extract_lets +onlyGivenNames x; )
    | with_reducible apply State.serveAs_keeps
    | with_reducible apply EndsIn.next

theorem execPowerCapSet_ends {s0 s : State} (x1) (h : Keeps s0 s) : EndsIn Keeps s0 (execPowerCapSet x1 s) := by
  unfold execPowerCapSet
  repeat' first
    | with_reducible assumption
    | (extract_lets +onlyGivenNames x; )
    | with_reducible apply State.serveAs_keeps
    | with_reducible apply EndsIn.next

theorem execThermalQuery_ends {s0 s : State} (x1) (h : Keeps s0 s) : EndsIn Keeps s0 (execThermalQuery x1 s) := by
  unfold execThermalQuery
  repeat' first
    | with_reducible assumption
    | (extract_lets +onlyGivenNames x; )
    | with_reducible apply State.serveAs_keeps
    | with_reducible apply EndsIn.next

theorem execStateSet_ends {s0 s : State} (x1) (h : Keeps s0 s) : EndsIn Keeps s0 (execStateSet x1 s) := by
  unfold execStateSet
  repeat' first
    | with_reducible assumption
    | (extract_lets +onlyGivenNames x; )
    | with_reducible apply State.serveAs_keeps
    | with_reducible apply EndsIn.next

theorem execFwWrite_ends {s0 s : State} (x1) (h : Keeps s0 s) : EndsIn Keeps s0 (execFwWrite x1 s) := by
  unfold execFwWrite
  repeat' first
    | with_reducible assumption
    | (extract_lets +onlyGivenNames x; )
    | with_reducible apply State.serveAs_keeps
    | with_reducible apply EndsIn.next

theorem execFwVerify_ends {s0 s : State} (x1) (h : Keeps s0 s) : EndsIn Keeps s0 (execFwVerify x1 s) := by
  unfold execFwVerify
  repeat' first
    | with_reducible assumption
    | (extract_lets +onlyGivenNames x; )
    | with_reducible apply State.serveAs_keeps
    | with_reducible apply EndsIn.next

theorem execFwActivate_ends {s0 s : State} (x1) (h : Keeps s0 s) : EndsIn Keeps s0 (execFwActivate x1 s) := by
  unfold execFwActivate
  repeat' first
    | with_reducible assumption
    | (extract_lets +onlyGivenNames x; )
    | with_reducible apply State.serveAs_keeps
    | with_reducible apply EndsIn.next

theorem execFwQuery_ends {s0 s : State} (x1) (h : Keeps s0 s) : EndsIn Keeps s0 (execFwQuery x1 s) := by
  unfold execFwQuery
  repeat' first
    | with_reducible assumption
    | (extract_lets +onlyGivenNames x; )
    | with_reducible apply State.serveAs_keeps
    | with_reducible apply EndsIn.next

theorem execStageCommand_ends {s0 s : State} (x1) (h : Keeps s0 s) : EndsIn Keeps s0 (execStageCommand x1 s) := by
  unfold execStageCommand
  repeat' first
    | with_reducible assumption
    | (extract_lets +onlyGivenNames x; )
    | with_reducible apply State.serve_keeps
    | with_reducible apply EndsIn.next
    | split

theorem execTurnVerify_ends {s0 s : State} (x1) (h : Keeps s0 s) : EndsIn Keeps s0 (execTurnVerify x1 s) := by
  unfold execTurnVerify
  repeat' first
    | with_reducible assumption
    | (extract_lets +onlyGivenNames x; )
    | with_reducible apply State.turnVerify_keeps
    | exact relasTable_kept
    | exact descTable_kept
    | with_reducible apply EndsIn.next

theorem execTurn_ends {s0 s : State} (x1) (h : Keeps s0 s) : EndsIn Keeps s0 (execTurn x1 s) := by
  unfold execTurn
  repeat' first
    | with_reducible assumption
    | (extract_lets +onlyGivenNames x; )
    | with_reducible apply State.turn_keeps
    | exact relasTable_kept
    | exact descTable_kept
    | with_reducible apply EndsIn.next

theorem execDescriptorFetch_ends {s0 s : State} (x1) (h : Keeps s0 s) : EndsIn Keeps s0 (execDescriptorFetch x1 s) := by
  unfold execDescriptorFetch
  repeat' first
    | with_reducible assumption
    | (extract_lets +onlyGivenNames x; )
    | with_reducible apply State.fetch_keeps
    | exact relasTable_kept
    | exact descTable_kept
    | with_reducible apply EndsIn.next

theorem execPageResponse_ends {s0 s : State} (x1) (h : Keeps s0 s) : EndsIn Keeps s0 (execPageResponse x1 s) := by
  unfold execPageResponse
  repeat' first
    | with_reducible assumption
    | (extract_lets +onlyGivenNames x; )
    | with_reducible apply State.pageResponse_keeps
    | with_reducible apply State.arrival_ends
    | exact relasTable_kept
    | exact descTable_kept
    | with_reducible apply EndsIn.next
    | split
    | intro _

theorem execAtsCompletion_ends {s0 s : State} (x1 x2 x3 x4 x5 x6) (h : Keeps s0 s) : EndsIn Keeps s0 (execAtsCompletion x1 x2 x3 x4 x5 x6 s) := by
  unfold execAtsCompletion
  repeat' first
    | with_reducible assumption
    | (extract_lets +onlyGivenNames x; )
    | with_reducible apply State.resume_keeps
    | exact relasTable_kept
    | exact descTable_kept
    | with_reducible apply EndsIn.next
    | split

theorem execPriResponse_ends {s0 s : State} (x1 x2 x3) (h : Keeps s0 s) : EndsIn Keeps s0 (execPriResponse x1 x2 x3 s) := by
  unfold execPriResponse
  repeat' first
    | with_reducible assumption
    | (extract_lets +onlyGivenNames x; )
    | with_reducible apply State.failWalk_keeps
    | with_reducible apply State.resume_keeps
    | with_reducible apply State.setPort_keeps
    | exact relasTable_kept
    | exact descTable_kept
    | with_reducible apply EndsIn.next
    | split

theorem execAtsCompletionTimeout_ends {s0 s : State} (x1) (h : Keeps s0 s) : EndsIn Keeps s0 (execAtsCompletionTimeout x1 s) := by
  unfold execAtsCompletionTimeout
  repeat' first
    | with_reducible assumption
    | (extract_lets +onlyGivenNames x; )
    | with_reducible apply State.failWalk_keeps
    | with_reducible apply EndsIn.next
    | split

theorem execDescriptorBookingEnd_ends {s0 s : State} (x1) (h : Keeps s0 s) : EndsIn Keeps s0 (execDescriptorBookingEnd x1 s) := by
  unfold execDescriptorBookingEnd
  repeat' first
    | with_reducible assumption
    | (extract_lets +onlyGivenNames x; )
    | with_reducible apply State.consumerEnd_keeps
    | with_reducible apply State.contributeEnd_keeps
    | with_reducible apply State.finish_keeps
    | with_reducible apply EndsIn.next
    | split

end Sys2Proof.Machine
end

