-- ==== Sys2Proof/Laws/Commands.lean ====
section
/-! SUPPORT. What every command, and so every step, leaves in force. -/

namespace Sys2Proof.Machine

/-- Every command but the Tollhouse's own leaves the waiting commands and the Tollhouse alone and shore memory canonical. -/
theorem exec_keeps (i : Instr) (h : tollRow i = false) (s : State) : EndsIn Keeps s (exec i s) := by
  cases i
  case guestCreate => exact execGuestCreate_ends _ (Keeps.refl s)
  case guestDestroy => exact execGuestDestroy_ends _ (Keeps.refl s)
  case guestSet => exact execGuestSet_ends _ (Keeps.refl s)
  case guestSyncXlate => exact execGuestSyncXlate_ends _ (Keeps.refl s)
  case guestQuery => exact execGuestQuery_ends _ (Keeps.refl s)
  case coveCreate => exact execCoveCreate_ends _ (Keeps.refl s)
  case coveDestroy => exact execCoveDestroy_ends _ (Keeps.refl s)
  case coveSet => exact execCoveSet_ends _ (Keeps.refl s)
  case coveGrant => exact execCoveGrant_ends _ (Keeps.refl s)
  case coveHandover => exact execCoveHandover_ends _ (Keeps.refl s)
  case handoverStep => exact execHandoverStep_ends _ (Keeps.refl s)
  case coveQuery => exact execCoveQuery_ends _ (Keeps.refl s)
  case placeSet => exact execPlaceSet_ends _ (Keeps.refl s)
  case placeQuery => exact execPlaceQuery_ends _ (Keeps.refl s)
  case pullAdd => exact execPullAdd_ends _ (Keeps.refl s)
  case pullRemove => exact execPullRemove_ends _ (Keeps.refl s)
  case harbourAreas => exact execHarbourAreas_ends _ (Keeps.refl s)
  case queueCreate => exact execQueueCreate_ends _ (Keeps.refl s)
  case queueDestroy => exact execQueueDestroy_ends _ (Keeps.refl s)
  case queueSet => exact execQueueSet_ends _ (Keeps.refl s)
  case queueQuery => exact execQueueQuery_ends _ (Keeps.refl s)
  case tableCreate => exact execTableCreate_ends _ (Keeps.refl s)
  case tableDestroy => exact execTableDestroy_ends _ (Keeps.refl s)
  case tableQuery => exact execTableQuery_ends _ (Keeps.refl s)
  case indexCreate => exact execIndexCreate_ends _ (Keeps.refl s)
  case indexDestroy => exact execIndexDestroy_ends _ (Keeps.refl s)
  case indexQuery => exact execIndexQuery_ends _ (Keeps.refl s)
  case kvsetCreate => exact execKvsetCreate_ends _ (Keeps.refl s)
  case kvsetDestroy => exact execKvsetDestroy_ends _ (Keeps.refl s)
  case kvsetQuery => exact execKvsetQuery_ends _ (Keeps.refl s)
  case bollardAlloc => exact execBollardAlloc_ends _ (Keeps.refl s)
  case bollardFree => exact execBollardFree_ends _ (Keeps.refl s)
  case bollardSignalCmd => exact execBollardSignalCmd_ends _ (Keeps.refl s)
  case bollardWaitCmd => exact execBollardWaitCmd_ends _ (Keeps.refl s)
  case bollardTryWait => exact execBollardTryWait_ends _ (Keeps.refl s)
  case bundleSet => exact execBundleSet_ends _ (Keeps.refl s)
  case bundleOpen => exact execBundleOpen_ends _ (Keeps.refl s)
  case bundleClose => exact execBundleClose_ends _ (Keeps.refl s)
  case linkQuery => exact execLinkQuery_ends _ (Keeps.refl s)
  case linkRecal => exact execLinkRecal_ends _ (Keeps.refl s)
  case fabricSet => exact execFabricSet_ends _ (Keeps.refl s)
  case faultRead => exact execFaultRead_ends _ (Keeps.refl s)
  case unitRetire => exact execUnitRetire_ends _ (Keeps.refl s)
  case weatherQuery => exact execWeatherQuery_ends _ (Keeps.refl s)
  case logbookRead => exact execLogbookRead_ends _ (Keeps.refl s)
  case quarantineRelease => exact execQuarantineRelease_ends _ (Keeps.refl s)
  case mailboxBind => exact execMailboxBind_ends _ (Keeps.refl s)
  case keySlotLoad => exact execKeySlotLoad_ends _ (Keeps.refl s)
  case keySlotClear => exact execKeySlotClear_ends _ (Keeps.refl s)
  case debugUnlockNonce => exact execDebugUnlockNonce_ends _ (Keeps.refl s)
  case debugUnlockGrant => exact execDebugUnlockGrant_ends _ (Keeps.refl s)
  case debugExpiry => exact execDebugExpiry_ends (Keeps.refl s)
  case ticketStatus => exact execTicketStatus_ends _ (Keeps.refl s)
  case ticketEnd => exact execTicketEnd_ends _ (Keeps.refl s)
  case ticketExpiry => exact execTicketExpiry_ends _ (Keeps.refl s)
  case counterRead => exact execCounterRead_ends _ (Keeps.refl s)
  case eventRingConfigure => exact execEventRingConfigure_ends _ (Keeps.refl s)
  case eventRingRead => exact execEventRingRead_ends _ (Keeps.refl s)
  case traceConfigure => exact execTraceConfigure_ends _ (Keeps.refl s)
  case traceRead => exact execTraceRead_ends _ (Keeps.refl s)
  case tollRead => exact execTollRead_ends _ (Keeps.refl s)
  case configOpen => exact execConfigOpen_ends _ (Keeps.refl s)
  case configDiscard => exact execConfigDiscard_ends _ (Keeps.refl s)
  case configCheck => exact execConfigCheck_ends _ (Keeps.refl s)
  case configTurn => exact execConfigTurn_ends _ (Keeps.refl s)
  case configCancel => exact execConfigCancel_ends _ (Keeps.refl s)
  case configQuery => exact execConfigQuery_ends _ (Keeps.refl s)
  case stageCommand => exact execStageCommand_ends _ (Keeps.refl s)
  case turnVerify => exact execTurnVerify_ends _ (Keeps.refl s)
  case turn => exact execTurn_ends _ (Keeps.refl s)
  case veto => exact execVeto_ends _ (Keeps.refl s)
  case powerCapSet => exact execPowerCapSet_ends _ (Keeps.refl s)
  case thermalQuery => exact execThermalQuery_ends _ (Keeps.refl s)
  case stateSet => exact execStateSet_ends _ (Keeps.refl s)
  case stateReached => exact execStateReached_ends (Keeps.refl s)
  case offlineHalt => exact execOfflineHalt_ends (Keeps.refl s)
  case fwWrite => exact execFwWrite_ends _ (Keeps.refl s)
  case fwVerify => exact execFwVerify_ends _ (Keeps.refl s)
  case fwActivate => exact execFwActivate_ends _ (Keeps.refl s)
  case fwQuery => exact execFwQuery_ends _ (Keeps.refl s)
  case fwSelfCheckPass => exact execFwSelfCheckPass_ends (Keeps.refl s)
  case fwSelfCheckTimeout => exact execFwSelfCheckTimeout_ends (Keeps.refl s)
  case badRegisterAccess => exact execBadRegisterAccess_ends _ (Keeps.refl s)
  case registerWrite => exact execRegisterWrite_ends _ (Keeps.refl s)
  case tidetimeLowRead => exact execTidetimeLowRead_ends _ (Keeps.refl s)
  case badAccessRead => exact execBadAccessRead_ends _ (Keeps.refl s)
  case doorbellDeniedRead => exact execDoorbellDeniedRead_ends _ (Keeps.refl s)
  case intStatusWrite => exact execIntStatusWrite_ends _ (Keeps.refl s)
  case intEnableWrite => exact execIntEnableWrite_ends _ (Keeps.refl s)
  case intSetWrite => exact execIntSetWrite_ends _ (Keeps.refl s)
  case sqTail => exact execSqTail_ends _ (Keeps.refl s)
  case cqHead => exact execCqHead_ends _ (Keeps.refl s)
  case errHead => exact execErrHead_ends _ (Keeps.refl s)
  case errHeadResume => exact execErrHeadResume_ends _ (Keeps.refl s)
  case regRead => exact execRegRead_ends _ (Keeps.refl s)
  case regWrite => exact execRegWrite_ends _ (Keeps.refl s)
  case descriptorFetch => exact execDescriptorFetch_ends _ (Keeps.refl s)
  case pageResponse => exact execPageResponse_ends _ (Keeps.refl s)
  case pageRequestTimeout => exact execPageRequestTimeout_ends _ (Keeps.refl s)
  case descriptorStart => exact execDescriptorStart_ends _ (Keeps.refl s)
  case calendarSlot => exact execCalendarSlot_ends (Keeps.refl s)
  case shareRecompute => exact execShareRecompute_ends (Keeps.refl s)
  case descriptorBookingEnd => exact execDescriptorBookingEnd_ends _ (Keeps.refl s)
  case copy => exact execCopy_ends _ (Keeps.refl s)
  case fill => exact execFill_ends _ (Keeps.refl s)
  case stageIn => exact execStageIn_ends _ (Keeps.refl s)
  case stageOut => exact execStageOut_ends _ (Keeps.refl s)
  case pacedCopy => exact execPacedCopy_ends _ (Keeps.refl s)
  case pacedCopyPoll => exact execPacedCopyPoll_ends _ (Keeps.refl s)
  case porterRetry => exact execPorterRetry_ends _ (Keeps.refl s)
  case porterChannelRetire => exact execPorterChannelRetire_ends _ (Keeps.refl s)
  case advise => exact execAdvise_ends _ (Keeps.refl s)
  case prefetch => exact execPrefetch_ends _ (Keeps.refl s)
  case reduceOpen => exact execReduceOpen_ends _ (Keeps.refl s)
  case reduceClose => exact execReduceClose_ends _ (Keeps.refl s)
  case reduceContribute => exact execReduceContribute_ends _ (Keeps.refl s)
  case red => exact execRed_ends _ (Keeps.refl s)
  case instanceExpiry => exact execInstanceExpiry_ends _ _ _ (Keeps.refl s)
  case reduceRead => exact execReduceRead_ends _ (Keeps.refl s)
  case updateSgdm => exact execUpdateSgdm_ends _ (Keeps.refl s)
  case updateAdamw => exact execUpdateAdamw_ends _ (Keeps.refl s)
  case convert => exact execConvert_ends _ (Keeps.refl s)
  case gatherRows => exact execGatherRows_ends _ (Keeps.refl s)
  case scatterAddRows => exact execScatterAddRows_ends _ (Keeps.refl s)
  case replaceRows => exact execReplaceRows_ends _ (Keeps.refl s)
  case rowRead => exact execRowRead_ends _ (Keeps.refl s)
  case rowData => exact execRowData_ends _ (Keeps.refl s)
  case search => exact execSearch_ends _ (Keeps.refl s)
  case searchRequest => exact execSearchRequest_ends _ (Keeps.refl s)
  case searchResult => exact execSearchResult_ends _ (Keeps.refl s)
  case caravanDepart => exact execCaravanDepart_ends _ _ _ (Keeps.refl s)
  case insertVec => exact execInsertVec_ends _ (Keeps.refl s)
  case deleteVec => exact execDeleteVec_ends _ (Keeps.refl s)
  case mergeDriftline => exact execMergeDriftline_ends _ (Keeps.refl s)
  case driftlineAutoMerge => exact execDriftlineAutoMerge_ends _ _ (Keeps.refl s)
  case kvAppend => exact execKvAppend_ends _ (Keeps.refl s)
  case kvGather => exact execKvGather_ends _ (Keeps.refl s)
  case kvFork => exact execKvFork_ends _ (Keeps.refl s)
  case kvTruncate => exact execKvTruncate_ends _ (Keeps.refl s)
  case bollardSignal => exact execBollardSignal_ends _ (Keeps.refl s)
  case bollardWait => exact execBollardWait_ends _ (Keeps.refl s)
  case bollardArrive => exact execBollardArrive_ends _ (Keeps.refl s)
  case bollard => exact execBollard_ends _ (Keeps.refl s)
  case bollardWaitTimeout => exact execBollardWaitTimeout_ends _ (Keeps.refl s)
  case snapOpen => exact execSnapOpen_ends _ (Keeps.refl s)
  case snapClose => exact execSnapClose_ends _ (Keeps.refl s)
  case publish => exact execPublish_ends _ (Keeps.refl s)
  case publishPoint => exact execPublishPoint_ends _ (Keeps.refl s)
  case remoteHold => exact execRemoteHold_ends _ (Keeps.refl s)
  case holdBroken => exact execHoldBroken_ends _ (Keeps.refl s)
  case imageFree => exact execImageFree_ends _ _ _ (Keeps.refl s)
  case mark => exact execMark_ends _ (Keeps.refl s)
  case nop => exact execNop_ends _ (Keeps.refl s)
  case read => exact execRead_ends _ (Keeps.refl s)
  case write => exact execWrite_ends _ (Keeps.refl s)
  case writeMasked => exact execWriteMasked_ends _ (Keeps.refl s)
  case atomic => exact execAtomic_ends _ (Keeps.refl s)
  case fenceRw => exact execFenceRw_ends _ (Keeps.refl s)
  case fenceWw => exact execFenceWw_ends _ (Keeps.refl s)
  case fenceRr => exact execFenceRr_ends _ (Keeps.refl s)
  case homeFence => exact execHomeFence_ends _ (Keeps.refl s)
  case data => exact execData_ends _ (Keeps.refl s)
  case done => exact execDone_ends _ (Keeps.refl s)
  case performed => exact execPerformed_ends _ (Keeps.refl s)
  case atomicOld => exact execAtomicOld_ends _ (Keeps.refl s)
  case bollardValue => exact execBollardValue_ends _ (Keeps.refl s)
  case ctlAck => exact execCtlAck_ends _ (Keeps.refl s)
  case invalidate => exact execInvalidate_ends _ (Keeps.refl s)
  case invalidateAck => exact execInvalidateAck_ends _ (Keeps.refl s)
  case spanState => exact execSpanState_ends _ (Keeps.refl s)
  case timeAnnounce => exact execTimeAnnounce_ends _ (Keeps.refl s)
  case timeSync => exact execTimeSync_ends _ (Keeps.refl s)
  case timeReply => exact execTimeReply_ends _ (Keeps.refl s)
  case announceTimer => exact execAnnounceTimer_ends (Keeps.refl s)
  case syncTimer => exact execSyncTimer_ends (Keeps.refl s)
  case syncLost => exact execSyncLost_ends _ (Keeps.refl s)
  case announceAgeOut => exact execAnnounceAgeOut_ends _ (Keeps.refl s)
  case headlandLock => exact execHeadlandLock_ends (Keeps.refl s)
  case holdoverExpiry => exact execHoldoverExpiry_ends (Keeps.refl s)
  case ptpMessage => exact execPtpMessage_ends _ _ (Keeps.refl s)
  case tide1ppsEdge => exact execTide1ppsEdge_ends (Keeps.refl s)
  case takeoverDeclare => exact execTakeoverDeclare_ends _ (Keeps.refl s)
  case takeoverSelf => exact execTakeoverSelf_ends _ (Keeps.refl s)
  case takeoverRebuilt => exact execTakeoverRebuilt_ends _ (Keeps.refl s)
  case takeoverCapacity => exact execTakeoverCapacity_ends _ (Keeps.refl s)
  case takeoverMark => exact execTakeoverMark_ends _ (Keeps.refl s)
  case takeoverState => exact execTakeoverState_ends _ (Keeps.refl s)
  case takeoverAtomic => exact execTakeoverAtomic_ends _ (Keeps.refl s)
  case atomicRecordExpiry => exact execAtomicRecordExpiry_ends _ _ (Keeps.refl s)
  case spanDeadDetect => exact execSpanDeadDetect_ends _ (Keeps.refl s)
  case selfFence => exact execSelfFence_ends (Keeps.refl s)
  case protectionRebuild => exact execProtectionRebuild_ends _ (Keeps.refl s)
  case protectionUpdate => exact execProtectionUpdate_ends _ (Keeps.refl s)
  case frame => exact execFrame_ends _ _ _ _ _ _ (Keeps.refl s)
  case replayTimeout => exact execReplayTimeout_ends _ (Keeps.refl s)
  case laneFail => exact execLaneFail_ends _ _ (Keeps.refl s)
  case laneMapApply => exact execLaneMapApply_ends _ (Keeps.refl s)
  case lightOutOfRange => exact execLightOutOfRange_ends _ _ (Keeps.refl s)
  case linkLoss => exact execLinkLoss_ends _ (Keeps.refl s)
  case linkTrainStep => exact execLinkTrainStep_ends _ _ _ _ (Keeps.refl s)
  case linkTrainTimeout => exact execLinkTrainTimeout_ends _ (Keeps.refl s)
  case linkTrainBatch => exact execLinkTrainBatch_ends _ (Keeps.refl s)
  case keyGenerationRoll => exact execKeyGenerationRoll_ends _ (Keeps.refl s)
  case ringRecal => exact execRingRecal_ends _ (Keeps.refl s)
  case hostMemRead => exact execHostMemRead_ends _ _ _ _ (Keeps.refl s)
  case hostMemWrite => exact execHostMemWrite_ends _ _ _ _ _ _ _ (Keeps.refl s)
  case hostSharedRead => exact execHostSharedRead_ends _ _ _ _ (Keeps.refl s)
  case hostOwnershipRead => exact execHostOwnershipRead_ends _ _ _ _ (Keeps.refl s)
  case hostWriteBack => exact execHostWriteBack_ends _ _ _ _ _ _ _ (Keeps.refl s)
  case hostCleanEviction => exact execHostCleanEviction_ends _ _ (Keeps.refl s)
  case biResponse => exact execBiResponse_ends _ _ _ _ (Keeps.refl s)
  case snoopTimeout => exact execSnoopTimeout_ends _ _ (Keeps.refl s)
  case hostLinkDown => exact execHostLinkDown_ends _ (Keeps.refl s)
  case perst => exact execPerst_ends _ _ (Keeps.refl s)
  case flr => exact execFlr_ends _ (Keeps.refl s)
  case extentOffer => exact execExtentOffer_ends _ _ _ (Keeps.refl s)
  case extentForcedRelease => exact execExtentForcedRelease_ends _ _ (Keeps.refl s)
  case hdmDecoderCommit => exact execHdmDecoderCommit_ends _ _ _ _ _ _ (Keeps.refl s)
  case atsCompletion => exact execAtsCompletion_ends _ _ _ _ _ _ (Keeps.refl s)
  case priResponse => exact execPriResponse_ends _ _ _ (Keeps.refl s)
  case atsInvalidation => exact execAtsInvalidation_ends _ _ _ _ _ (Keeps.refl s)
  case spdmMessage => exact execSpdmMessage_ends _ _ _ _ _ (Keeps.refl s)
  case marginingCommand => exact execMarginingCommand_ends _ _ (Keeps.refl s)
  case identifyMemoryDevice => exact execIdentifyMemoryDevice_ends _ (Keeps.refl s)
  case getSupportedLogs => exact execGetSupportedLogs_ends _ (Keeps.refl s)
  case getLog => exact execGetLog_ends _ _ _ (Keeps.refl s)
  case getEventRecords => exact execGetEventRecords_ends _ (Keeps.refl s)
  case clearEventRecords => exact execClearEventRecords_ends _ _ (Keeps.refl s)
  case getDynamicCapacityConfiguration => exact execGetDynamicCapacityConfiguration_ends _ (Keeps.refl s)
  case getDynamicCapacityExtentList => exact execGetDynamicCapacityExtentList_ends _ (Keeps.refl s)
  case addDynamicCapacityResponse => exact execAddDynamicCapacityResponse_ends _ _ _ (Keeps.refl s)
  case releaseDynamicCapacity => exact execReleaseDynamicCapacity_ends _ _ (Keeps.refl s)
  case getPoisonList => exact execGetPoisonList_ends _ (Keeps.refl s)
  case getHealthInfo => exact execGetHealthInfo_ends _ (Keeps.refl s)
  case setTimestamp => exact execSetTimestamp_ends _ _ (Keeps.refl s)
  case getTimestamp => exact execGetTimestamp_ends _ (Keeps.refl s)
  case harbourFill => exact execHarbourFill_ends _ (Keeps.refl s)
  case wayAvailable => exact execWayAvailable_ends _ (Keeps.refl s)
  case writeBack => exact execWriteBack_ends _ _ _ (Keeps.refl s)
  case migrationGranule => exact execMigrationGranule_ends _ _ _ _ (Keeps.refl s)
  case mirrorWriteBack => exact execMirrorWriteBack_ends _ _ (Keeps.refl s)
  case harbourScrub => exact execHarbourScrub_ends _ _ _ (Keeps.refl s)
  case nandReadDone => exact execNandReadDone_ends _ _ _ (Keeps.refl s)
  case nandProgramDone => exact execNandProgramDone_ends _ _ _ _ _ (Keeps.refl s)
  case nandEraseDone => exact execNandEraseDone_ends _ _ _ (Keeps.refl s)
  case nandSuspend => exact execNandSuspend_ends _ (Keeps.refl s)
  case nandResume => exact execNandResume_ends _ (Keeps.refl s)
  case granuleLost => exact execGranuleLost_ends _ (Keeps.refl s)
  case nandUnitFail => exact execNandUnitFail_ends _ (Keeps.refl s)
  case reclaim => exact execReclaim_ends _ _ _ (Keeps.refl s)
  case wearLevelling => exact execWearLevelling_ends _ _ _ (Keeps.refl s)
  case retentionRefresh => exact execRetentionRefresh_ends _ _ _ _ _ (Keeps.refl s)
  case restriping => exact execRestriping_ends _ _ _ (Keeps.refl s)
  case wearRecordWrite => exact execWearRecordWrite_ends _ (Keeps.refl s)
  case reserveRaise => exact execReserveRaise_ends _ _ _ _ (Keeps.refl s)
  case reserveLower => exact execReserveLower_ends _ (Keeps.refl s)
  case capacityReductionEffect => exact execCapacityReductionEffect_ends (Keeps.refl s)
  case hbmChannelFail => exact execHbmChannelFail_ends _ _ (Keeps.refl s)
  case hbmStackRetire => exact execHbmStackRetire_ends _ (Keeps.refl s)
  case arrayFail => exact execArrayFail_ends _ (Keeps.refl s)
  case directoryEntryError => exact execDirectoryEntryError_ends _ (Keeps.refl s)
  case hostPortFence => exact execHostPortFence_ends _ _ (Keeps.refl s)
  case lockstepMismatch => exact execLockstepMismatch_ends _ _ (Keeps.refl s)
  case weatherRecompute => exact execWeatherRecompute_ends _ (Keeps.refl s)
  case eventDatagram => exact execEventDatagram_ends (Keeps.refl s)
  case logbookWrite => exact execLogbookWrite_ends (Keeps.refl s)
  case tlsSessionOpen => exact execTlsSessionOpen_ends _ _ (Keeps.refl s)
  case tlsSessionClose => exact execTlsSessionClose_ends _ (Keeps.refl s)
  case railGood => exact execRailGood_ends _ (Keeps.refl s)
  case railFault => exact execRailFault_ends _ (Keeps.refl s)
  case shoreRstN => exact execShoreRstN_ends _ (Keeps.refl s)
  case wakingComplete => exact execWakingComplete_ends _ _ (Keeps.refl s)
  case clockFault => exact execClockFault_ends _ _ (Keeps.refl s)
  case thermalSample => exact execThermalSample_ends _ _ (Keeps.refl s)
  case powerCapEffect => exact execPowerCapEffect_ends (Keeps.refl s)
  case activityFrame => cases h
  case intervalTimeout => cases h
  case periodEnd => cases h
  case sealBreak => cases h
  case vtollLoss => cases h
  case tollhousePowerUp => cases h
  case tollStatusMirror => exact execTollStatusMirror_ends (Keeps.refl s)
  case tollMirrorTimeout => exact execTollMirrorTimeout_ends (Keeps.refl s)
  case tollStatus => exact execTollStatus_ends _ (Keeps.refl s)
  case tollPortRead => exact execTollPortRead_ends _ (Keeps.refl s)
  case tollAck => cases h
  case tollCert => exact execTollCert_ends _ (Keeps.refl s)
  case tollInstant => exact execTollInstant_ends _ (Keeps.refl s)
  case tollAttest => exact execTollAttest_ends _ (Keeps.refl s)
  case commission => cases h
  case setBaud => cases h
  case wayfarerHelp => exact execWayfarerHelp_ends _ (Keeps.refl s)
  case wayfarerVersion => exact execWayfarerVersion_ends _ (Keeps.refl s)
  case wayfarerState => exact execWayfarerState_ends _ (Keeps.refl s)
  case wayfarerTime => exact execWayfarerTime_ends _ (Keeps.refl s)
  case wayfarerBoot => exact execWayfarerBoot_ends _ (Keeps.refl s)
  case wayfarerBaud => exact execWayfarerBaud_ends _ (Keeps.refl s)
  case wayfarerCount => exact execWayfarerCount_ends _ (Keeps.refl s)
  case wayfarerEvents => exact execWayfarerEvents_ends _ (Keeps.refl s)
  case wayfarerWeather => exact execWayfarerWeather_ends _ (Keeps.refl s)
  case wayfarerLinks => exact execWayfarerLinks_ends _ (Keeps.refl s)
  case wayfarerReg => exact execWayfarerReg_ends _ (Keeps.refl s)
  case wayfarerTrace => exact execWayfarerTrace_ends _ (Keeps.refl s)
  case mbxDoorbell => exact execMbxDoorbell_ends _ (Keeps.refl s)
  case mailbox => exact execMailbox_ends _ (Keeps.refl s)
  case mailboxRsp => exact execMailboxRsp_ends _ (Keeps.refl s)
  case fabricCheckTimeout => exact execFabricCheckTimeout_ends _ (Keeps.refl s)
  case innkeeperBoot => exact execInnkeeperBoot_ends _ _ (Keeps.refl s)
  case quayError => exact execQuayError_ends _ _ _ (Keeps.refl s)
  case hostLinkUp => exact execHostLinkUp_ends _ _ _ _ _ _ (Keeps.refl s)
  case hostLinkWidthDrop => exact execHostLinkWidthDrop_ends _ _ (Keeps.refl s)
  case atsCompletionTimeout => exact execAtsCompletionTimeout_ends _ (Keeps.refl s)
  case porterBusTimeout => exact execPorterBusTimeout_ends _ (Keeps.refl s)
  case tideReferenceChange => exact execTideReferenceChange_ends _ _ (Keeps.refl s)
  case redfishRequest => exact execRedfishRequest_ends _ _ (Keeps.refl s)
  case jtagInstruction => exact execJtagInstruction_ends _ (Keeps.refl s)
  case msixUnmask => exact execMsixUnmask_ends _ _ (Keeps.refl s)

/-- Every command leaves in force what `KeepsAll` says. -/
theorem exec_keepsAll (i : Instr) (s : State) : EndsIn KeepsAll s (exec i s) := by
  cases h : tollRow i with
  | false =>
    obtain ⟨t, e, k⟩ := exec_keeps i h s
    exact ⟨t, e, k.all⟩
  | true =>
    cases i <;> first | cases h | skip
    · exact execActivityFrame_ends _ _ _ _ _ _ (KeepsAll.refl s)
    · exact execIntervalTimeout_ends _ _ (KeepsAll.refl s)
    · exact execPeriodEnd_ends (KeepsAll.refl s)
    · exact execSealBreak_ends _ (KeepsAll.refl s)
    · exact execVtollLoss_ends (KeepsAll.refl s)
    · exact execTollhousePowerUp_ends _ (KeepsAll.refl s)
    · exact execTollAck_ends _ (KeepsAll.refl s)
    · exact execCommission_ends _ (KeepsAll.refl s)
    · exact execSetBaud_ends _ (KeepsAll.refl s)

end Sys2Proof.Machine
end

