-- ==== Sys2Proof/Laws/Sends.lean ====
section
/-! SUPPORT. Everything that sending a message can do: it changes the links and what has left the block, nothing else. -/

namespace Sys2Proof.Machine

/-- The second state differs from the first in its links and in what has left the block, at most. -/
def Sent (s t : State) : Prop := ∃ l o, t = { s with fabric := { s.fabric with links := l }, out := o }

theorem Sent.refl (s : State) : Sent s s := ⟨s.fabric.links, s.out, rfl⟩

theorem Sent.trans {s t u : State} (h : Sent s t) (k : Sent t u) : Sent s u := by
  obtain ⟨l, o, rfl⟩ := h
  obtain ⟨l', o', rfl⟩ := k
  exact ⟨l', o', rfl⟩

theorem Sent.store {s t : State} (h : Sent s t) : t.store = s.store := by obtain ⟨l, o, rfl⟩ := h; rfl
theorem Sent.bundles {s t : State} (h : Sent s t) : t.fabric.bundles = s.fabric.bundles := by obtain ⟨l, o, rfl⟩ := h; rfl
theorem Sent.faults {s t : State} (h : Sent s t) : t.faults = s.faults := by obtain ⟨l, o, rfl⟩ := h; rfl
theorem Sent.pending {s t : State} (h : Sent s t) : t.pending = s.pending := by obtain ⟨l, o, rfl⟩ := h; rfl

theorem emit_sent (s : State) (x : Output) : Sent s (s.emit x) := ⟨s.fabric.links, (s.emit x).out, rfl⟩

theorem setLink_sent (s : State) (n : Nat) (f : Link → Link) : Sent s (s.setLink n f) := ⟨(s.setLink n f).fabric.links, s.out, rfl⟩

theorem foldl_sent {α : Type} (f : State → α → State) (h : ∀ s a, Sent s (f s a)) : ∀ (l : List α) (s : State), Sent s (l.foldl f s)
  | [], s => Sent.refl s
  | a :: l, s => (h s a).trans (foldl_sent f h l (f s a))

theorem pumpLink_sent (s : State) (n : Nat) : Sent s (s.pumpLink n) := by
  unfold State.pumpLink
  split
  · exact Sent.refl s
  · exact (setLink_sent s n _).trans (foldl_sent _ (fun s x => emit_sent s _) _ _)

theorem egress_sent (s : State) (b : Bundle) (link vc : Nat) (fin : Bool) (m : SxfMsg) : Sent s (s.egress b link vc fin m) := by
  unfold State.egress
  split
  · exact emit_sent s _
  · exact (setLink_sent s link _).trans (pumpLink_sent _ link)

theorem forward_sent (s : State) (m : SxfMsg) : Sent s (s.forward m).1 := by
  unfold State.forward
  split
  · split
    · exact egress_sent s _ _ _ _ _
    · exact Sent.refl s
  · exact Sent.refl s

theorem send_sent (s : State) (m : SxfMsg) : Sent s (s.send m) := forward_sent s m

theorem sendJetty_sent (s : State) (b : Nat) (m : SxfMsg) : Sent s (s.sendJetty b m) := by
  unfold State.sendJetty
  split
  · exact egress_sent s _ _ _ _ _
  · exact Sent.refl s

theorem sendBack_sent (s : State) (via : Nat) (r : SxfMsg) : Sent s (s.sendBack via r) := by
  unfold State.sendBack
  split
  · split
    · exact sendJetty_sent s _ r
    · exact send_sent s r
  · exact send_sent s r

theorem reply_sent (s : State) (m : SxfMsg) (op st ca v : Nat) (f p : Bool) (data : List Byte) : Sent s (s.reply m op st ca v f p data) :=
  sendBack_sent s m.via _

theorem refuse_sent (s : State) (m : SxfMsg) (st ca : Nat) : Sent s (s.refuse m st ca) := reply_sent s m _ _ _ _ _ _ _

end Sys2Proof.Machine
end

