-- ==== Sys2Proof/Laws/Served.lean ====
section
/-! SUPPORT. What serving a Relas command comes to once every check lets it through. -/

namespace Sys2Proof.Machine

/-- The state that a command which every check lets through leaves. -/
def RelasOp.completes (op : RelasOp) (c : RelasCmd) (s : State) : State :=
  let (s', rep) := op.effect c s.inn.nextTicket s
  if rep.later then s'
  else
    let eff := if rep.tookHold then s.now else 0
    match rep.work with
    | some w => (s'.openTicket c w).answer c (response c rep.result rep.detail s.inn.nextTicket eff rep.body)
    | none => s'.answer c (response c rep.result rep.detail 0 eff rep.body)

/-- A command that passes every check completes. -/
theorem relas_accepts {op : RelasOp} {r : CatRow} {c : RelasCmd} {s : State} (hd : s.delivered c = true)
    (hr : catRow c.opcode = some r) (hs : c.stage = false) (h : op.accepts r c (s.taken c) = true) :
    relas relasTable op c s = op.completes c (s.taken c) := by
  unfold RelasOp.accepts RelasOp.wellMade at h
  simp only [Bool.and_eq_true, decide_eq_true_eq, Bool.not_eq_true', Option.isNone_iff_eq_none, Bool.or_eq_true, beq_iff_eq] at h
  obtain ⟨⟨⟨⟨⟨⟨⟨⟨⟨⟨⟨⟨⟨⟨⟨⟨-, hk⟩, hl⟩, hlen⟩, hb⟩, hg⟩, hst⟩, hrf⟩, hout⟩, hh⟩, hf⟩, hden⟩, hlim⟩, htl⟩, hc⟩, htouch⟩, hver⟩ := h
  unfold relas
  rw [if_neg (by simp [hd])]
  unfold State.taken at *
  dsimp only
  generalize s.countCommand c.chan = u at *
  rw [hk]
  dsimp only
  rw [hr]
  dsimp only
  have n1 : ¬ (c.len % 8 ≠ 0 ∨ c.len < 16 ∨ c.len > 4096 ∨ c.bytes.length ≠ c.len) := by omega
  rw [if_neg (by simpa using n1), hlen]
  dsimp only
  have n2 : ¬ ((u.chanRec c.chan).bound ≠ some (c.guest, c.epoch) ∨ c.guest ≠ 0 ∧ ((!r.guest) = true ∨ (!op.owns c u) = true)) := by
    rintro (hx | ⟨h0, hx⟩)
    · exact hx hb
    · rcases hg with hg | ⟨h1, h2⟩
      · exact h0 hg
      · rcases hx with hx | hx
        · rw [h1] at hx; cases hx
        · rw [h2] at hx; cases hx
  rw [if_neg n2, if_neg (by rw [hst]; simp), if_neg (by rw [hrf]; simp; omega), hh]
  dsimp only
  rw [hf]
  dsimp only
  rw [hs, if_neg (by simp), if_neg (by rw [hden]; simp), hlim]
  dsimp only
  have e1 : (if r.pending = true then u.ticketLimit c else none) = none := by
    rcases htl with htl | htl
    · rw [htl]; rfl
    · rw [htl]; exact ite_self _
  have e2 : (if r.reads = true then none else u.scheduledTouch relasTable (op.objects c)) = none := by
    rcases htouch with htouch | htouch
    · rw [htouch]; rfl
    · rw [htouch]; exact ite_self _
  rw [e1]
  dsimp only
  rw [hc]
  dsimp only
  rw [e2]
  dsimp only
  unfold RelasOp.completes
  refine (if_neg ?_).trans rfl
  rintro ⟨a, b, d⟩
  rcases hver with (hver | hver) | hver
  · rw [hver] at a; cases a
  · rw [hver] at b; cases b
  · rw [hver] at d; cases d

/-- A staged command that is well made joins its set, if the set takes it. -/
theorem relas_stages {op : RelasOp} {r : CatRow} {c : RelasCmd} {s : State} (hd : s.delivered c = true)
    (hr : catRow c.opcode = some r) (hs : c.stage = true) (h : op.wellMade r c (s.taken c) = true) :
    relas relasTable op c s = (s.taken c).stage c := by
  unfold RelasOp.wellMade at h
  simp only [Bool.and_eq_true, decide_eq_true_eq, Bool.not_eq_true', Option.isNone_iff_eq_none, Bool.or_eq_true, beq_iff_eq] at h
  obtain ⟨⟨⟨⟨⟨⟨⟨⟨⟨⟨-, hk⟩, hl⟩, hlen⟩, hb⟩, hg⟩, hst⟩, hrf⟩, hout⟩, hh⟩, hf⟩ := h
  unfold relas
  rw [if_neg (by simp [hd])]
  unfold State.taken at *
  dsimp only
  generalize s.countCommand c.chan = u at *
  rw [hk]
  dsimp only
  rw [hr]
  dsimp only
  have n1 : ¬ (c.len % 8 ≠ 0 ∨ c.len < 16 ∨ c.len > 4096 ∨ c.bytes.length ≠ c.len) := by omega
  rw [if_neg (by simpa using n1), hlen]
  dsimp only
  have n2 : ¬ ((u.chanRec c.chan).bound ≠ some (c.guest, c.epoch) ∨ c.guest ≠ 0 ∧ ((!r.guest) = true ∨ (!op.owns c u) = true)) := by
    rintro (hx | ⟨h0, hx⟩)
    · exact hx hb
    · rcases hg with hg | ⟨h1, h2⟩
      · exact h0 hg
      · rcases hx with hx | hx
        · rw [h1] at hx; cases hx
        · rw [h2] at hx; cases hx
  rw [if_neg n2, if_neg (by rw [hst]; simp), if_neg (by rw [hrf]; simp; omega), hh]
  dsimp only
  rw [hf]
  dsimp only
  rw [hs, if_pos rfl]

theorem stage_takes {s : State} {c : RelasCmd} {x : ConfigSet} (hx : (s.taken c).set c.setId = some x) (h : x.takes c = true) :
    (s.taken c).stage c = stagedWith s c x := by
  unfold ConfigSet.takes at h
  simp only [Bool.and_eq_true, decide_eq_true_eq, Bool.not_eq_true'] at h
  obtain ⟨⟨h1, h2⟩, h3⟩ := h
  unfold State.stage
  rw [hx]
  dsimp only
  rw [if_neg (by omega), if_neg (by omega)]
  split
  · rename_i e; rw [e] at h3; cases h3
  · rename_i e; rw [e] at h3; cases h3
  · rename_i e; rw [e] at h3; cases h3
  · rfl

/-- A command that is served completes; one that changes coves also reaches the protection set (R662). -/
theorem serve_served {op : RelasOp} {n : Nat} {c : RelasCmd} {s : State} (h : served n c s = true) (ho : relasOpOf c = some op) :
    s.serveAs n c = if n / 256 = 2 then s.replicateChanges (op.completes c (s.taken c)) else op.completes c (s.taken c) := by
  unfold served at h
  simp only [Bool.and_eq_true, beq_iff_eq, Bool.not_eq_true'] at h
  obtain ⟨⟨⟨⟨h0, h1⟩, h2⟩, h3⟩, h4⟩ := h
  subst h0
  cases hr : catRow c.opcode with
  | none => rw [hr] at h4; cases h4
  | some r =>
    rw [hr] at h4
    dsimp only at h4
    rw [ho] at h4
    unfold State.serveAs
    rw [if_neg (by simp)]
    unfold State.serve
    rw [if_neg (by simp [h3]), ho]
    dsimp only
    rw [relas_accepts h2 hr h1 h4]
    by_cases e : c.opcode / 256 = 2 <;> simp [e]

theorem State.taken_now (s : State) (c : RelasCmd) : (s.taken c).now = s.now := by
  unfold State.taken State.countCommand
  dsimp only
  split <;> rfl

theorem State.taken_nextTicket (s : State) (c : RelasCmd) : (s.taken c).inn.nextTicket = s.inn.nextTicket := by
  unfold State.taken State.countCommand
  dsimp only
  split <;> rfl

/-- The operation of a command by its opcode, where the opcode has one operation on every channel. -/
theorem relasOpOf_plain {c : RelasCmd} {n : Nat} (h : c.opcode = n) (hn : n / 256 ≠ 13) (h3 : n ≠ 0x0303) (h5 : n ≠ 0x0503) (h6 : n ≠ 0x0603) :
    relasOpOf c = relasTable n := by
  subst h
  unfold relasOpOf
  split
  · split <;> first | contradiction | rfl
  · rw [if_neg hn]

/-- The operation of a command that did not come from another shore. -/
theorem relasOpOf_local {c : RelasCmd} {n : Nat} (h : c.opcode = n) (hc : ∀ k, c.chan ≠ .shore k) :
    relasOpOf c = if n / 256 = 0x0D then relasConfig (n % 256) else relasTable n := by
  subst h
  unfold relasOpOf
  split
  · exact absurd ‹_› (hc _)
  · rfl

theorem served_opcode {n : Nat} {c : RelasCmd} {s : State} (h : served n c s = true) : c.opcode = n := by
  unfold served at h
  simp only [Bool.and_eq_true, beq_iff_eq] at h
  exact h.1.1.1.1

/-- The operation of a served command whose opcode has one operation on every channel. -/
theorem served_plain {n : Nat} {op : RelasOp} {c : RelasCmd} {s : State} (h : served n c s = true)
    (hp : n / 256 ≠ 13 ∧ n ≠ 0x0303 ∧ n ≠ 0x0503 ∧ n ≠ 0x0603) (hr : relasTable n = some op) : relasOpOf c = some op :=
  (relasOpOf_plain (served_opcode h) hp.1 hp.2.1 hp.2.2.1 hp.2.2.2).trans hr

/-- A served command whose effect takes hold at once. -/
theorem served_done {n : Nat} {op : RelasOp} {c : RelasCmd} {s u : State} {b : List Byte} (h : served n c s = true) (ho : relasOpOf c = some op)
    (hn : n / 256 ≠ 2) (he : op.effect c (s.taken c).inn.nextTicket (s.taken c) = (u, { Reply.done with body := b })) :
    s.serveAs n c = doneWith s c u b := by
  rw [serve_served h ho, if_neg hn]
  unfold RelasOp.completes doneWith
  rw [he]
  simp only [Reply.done, State.taken_now]
  rfl

/-- A served command that only reads. -/
theorem served_read {n : Nat} {op : RelasOp} {c : RelasCmd} {s u : State} {b : List Byte} (h : served n c s = true) (ho : relasOpOf c = some op)
    (hn : n / 256 ≠ 2) (he : op.effect c (s.taken c).inn.nextTicket (s.taken c) = (u, .read b)) :
    s.serveAs n c = readWith c u b := by
  rw [serve_served h ho, if_neg hn]
  unfold RelasOp.completes readWith
  rw [he]
  rfl

/-- A served command whose work goes on. -/
theorem served_pending {n : Nat} {op : RelasOp} {c : RelasCmd} {s u : State} {w : Work} (h : served n c s = true) (ho : relasOpOf c = some op)
    (hn : n / 256 ≠ 2) (he : op.effect c s.inn.nextTicket (s.taken c) = (u, .pending w)) :
    s.serveAs n c = pendingWith s c u w := by
  rw [serve_served h ho, if_neg hn]
  unfold RelasOp.completes pendingWith
  rw [State.taken_nextTicket, he]
  simp only [Reply.pending, State.taken_now]
  rfl

/-- A served cove command whose effect takes hold at once; its change reaches the protection set (R662). -/
theorem served_cove_done {n : Nat} {op : RelasOp} {c : RelasCmd} {s u : State} {b : List Byte} (h : served n c s = true) (ho : relasOpOf c = some op)
    (hn : n / 256 = 2) (he : op.effect c (s.taken c).inn.nextTicket (s.taken c) = (u, { Reply.done with body := b })) :
    s.serveAs n c = s.replicateChanges (doneWith s c u b) := by
  rw [serve_served h ho, if_pos hn]
  unfold RelasOp.completes doneWith
  rw [he]
  simp only [Reply.done, State.taken_now]
  rfl

theorem served_cove_read {n : Nat} {op : RelasOp} {c : RelasCmd} {s u : State} {b : List Byte} (h : served n c s = true) (ho : relasOpOf c = some op)
    (hn : n / 256 = 2) (he : op.effect c (s.taken c).inn.nextTicket (s.taken c) = (u, .read b)) :
    s.serveAs n c = s.replicateChanges (readWith c u b) := by
  rw [serve_served h ho, if_pos hn]
  unfold RelasOp.completes readWith
  rw [he]
  rfl

theorem served_cove_pending {n : Nat} {op : RelasOp} {c : RelasCmd} {s u : State} {w : Work} (h : served n c s = true) (ho : relasOpOf c = some op)
    (hn : n / 256 = 2) (he : op.effect c s.inn.nextTicket (s.taken c) = (u, .pending w)) :
    s.serveAs n c = s.replicateChanges (pendingWith s c u w) := by
  rw [serve_served h ho, if_pos hn]
  unfold RelasOp.completes pendingWith
  rw [State.taken_nextTicket, he]
  simp only [Reply.pending, State.taken_now]
  rfl

/-- A staged command joins its set. -/
theorem staged_serve {n : Nat} {c : RelasCmd} {s : State} {x : ConfigSet} (h : staged n c s = true)
    (hx : (s.taken c).set c.setId = some x) (ht : x.takes c = true) :
    s.serve c = if n / 256 = 2 then s.replicateChanges (stagedWith s c x) else stagedWith s c x := by
  unfold staged at h
  simp only [Bool.and_eq_true, beq_iff_eq, Bool.not_eq_true'] at h
  obtain ⟨⟨⟨⟨h0, h1⟩, h2⟩, h3⟩, h4⟩ := h
  subst h0
  cases hr : catRow c.opcode with
  | none => rw [hr] at h4; cases h4
  | some r =>
    rw [hr] at h4
    dsimp only at h4
    unfold State.serve
    rw [if_neg (by simp [h3])]
    dsimp only
    rw [relas_stages h2 hr h1 h4, stage_takes hx ht]

theorem staged_opcode {n : Nat} {c : RelasCmd} {s : State} (h : staged n c s = true) : c.opcode = n := by
  unfold staged at h
  simp only [Bool.and_eq_true, beq_iff_eq] at h
  exact h.1.1.1.1

theorem staged_stage {n : Nat} {c : RelasCmd} {s : State} (h : staged n c s = true) : c.stage = true := by
  unfold staged at h
  simp only [Bool.and_eq_true, beq_iff_eq] at h
  exact h.1.1.1.2

/-- The row of a staged command, of a family other than the coves, puts it into its set. -/
theorem staged_stages {n : Nat} {c : RelasCmd} {s : State} {x : ConfigSet} (h : staged n c s = true)
    (hn : n / 256 ≠ 2) (hx : (s.taken c).set c.setId = some x) (ht : x.takes c = true) : s.serveAs n c = stagedWith s c x := by
  unfold State.serveAs
  rw [if_neg (by simp [staged_opcode h]), staged_serve h hx ht, if_neg hn]

/-- An opcode with two rows serves a command in the row that its byte 16 names. -/
theorem servePart_eq {s : State} {n : Nat} {second : Bool} {c : RelasCmd} (h : (c.f 16 1 == 1) = second) :
    s.servePart n second c = s.serveAs n c := by
  unfold State.servePart
  rw [if_neg (by simp [h])]

/-- A served command whose answer has any result. -/
theorem served_reply {n : Nat} {op : RelasOp} {c : RelasCmd} {s u : State} {r d : Nat} {b : List Byte} (h : served n c s = true)
    (ho : relasOpOf c = some op) (hn : n / 256 ≠ 2)
    (he : op.effect c (s.taken c).inn.nextTicket (s.taken c) = (u, ⟨r, d, b, false, none, false⟩)) :
    s.serveAs n c = u.answer c (response c r d 0 0 b) := by
  rw [serve_served h ho, if_neg hn]
  unfold RelasOp.completes
  rw [he]
  rfl

/-- A served command that answers later. -/
theorem served_later {n : Nat} {op : RelasOp} {c : RelasCmd} {s u : State} {r : Reply} (h : served n c s = true)
    (ho : relasOpOf c = some op) (hn : n / 256 ≠ 2)
    (he : op.effect c (s.taken c).inn.nextTicket (s.taken c) = (u, { r with later := true })) : s.serveAs n c = u := by
  rw [serve_served h ho, if_neg hn]
  unfold RelasOp.completes
  rw [he]
  rfl

end Sys2Proof.Machine
end

