-- ==== Sys2Proof/Laws/Serves.lean ====
section
/-! SUPPORT. What a plain request comes to at its home once no check stops it. -/

namespace Sys2Proof.Machine

theorem servesHere_home {m : SxfMsg} {s : State} (h : servesHere m s = true) : s.plainRequest m =
    match m.access with
      | .read => (s.count 1 m.guest 11 1).serveRead m
      | _ => (s.count 1 m.guest 11 1).serveWrite m := by
  unfold servesHere at h
  simp only [Bool.and_eq_true, beq_iff_eq, Option.isNone_iff_eq_none, Bool.not_eq_true'] at h
  obtain ⟨⟨⟨⟨⟨⟨⟨⟨⟨⟨⟨⟨h1, h2⟩, h3⟩, h4⟩, h5⟩, h6⟩, h7⟩, h8⟩, h9⟩, h10⟩, h11⟩, h12⟩, h13⟩ := h
  unfold State.plainRequest
  rw [h1]
  dsimp only
  cases hb : s.bundle m.via with
  | none => rw [hb] at h2; cases h2
  | some b =>
    rw [hb, Option.any_some, beq_iff_eq] at h2
    dsimp only
    rw [h2]
    dsimp only
    rw [if_neg (by simp [h3]), if_pos h4, if_pos h5]
    unfold State.homeAccess
    dsimp only
    have h8' : ¬ (s.faults.selfFenced = true ∧ s.faults.guarded.contains (gpaOffset m.gpa / granuleSize) = true) := by
      rintro ⟨a, b⟩; rw [a, b] at h8; cases h8
    have h9' : ¬ (m.op = Sxf.atomic ∧ (m.atType = 3 ∨ (m.atType = 2 ∧ m.atOp = 3))) := by
      rintro ⟨a, b⟩
      have : (m.op == Sxf.atomic && (m.atType == 3 || (m.atType == 2 && m.atOp == 3))) = true := by
        simp only [Bool.and_eq_true, Bool.or_eq_true, beq_iff_eq]
        exact ⟨a, b⟩
      rw [this] at h9; cases h9
    have h12' : ¬ (m.isRead = true ∧ m.ordered = true ∧ m.tc = 3) := by
      rintro ⟨a, b, c⟩
      have : (m.isRead && m.ordered && m.tc == 3) = true := by
        simp only [Bool.and_eq_true, beq_iff_eq]
        exact ⟨⟨a, b⟩, c⟩
      rw [this] at h12; cases h12
    rw [if_neg (by simp [h6]), if_neg (by simp [h7]), if_neg h8', if_neg h9', if_neg (by simp [h10]), if_neg (by simp [h11]), if_neg h12']
    have e : ((s.count 1 m.guest 11 1).coveAt (gpaOffset m.gpa)).any (fun c => decide (c.coherence = .sharedHdmDb)) = false := by
      have : (s.count 1 m.guest 11 1).coveAt (gpaOffset m.gpa) = s.coveAt (gpaOffset m.gpa) := rfl
      rw [this]
      exact h13
    rw [e]
    cases m.access <;> rfl

end Sys2Proof.Machine
end

