-- ==== Sys2Proof/Laws/State.lean ====
section
/-! SUPPORT. What each small update of the state leaves, field by field, and what a lookup finds after it. -/

namespace Sys2Proof.Machine

/-- A lookup by key after one element was changed, where the change keeps the key. -/
theorem find_mapIf {α : Type} (key : α → Nat) (k : Nat) (f : α → α) (h : ∀ x, key (f x) = key x) (j : Nat) : ∀ (l : List α),
    (mapIf (fun x => decide (key x = k)) f l).find? (fun x => decide (key x = j)) =
      if j = k then (l.find? fun x => decide (key x = j)).map f else l.find? fun x => decide (key x = j)
  | [] => by simp [mapIf]
  | x :: l => by
    have ih := find_mapIf key k f h j l
    unfold mapIf at ih ⊢
    rw [List.map_cons, List.find?_cons, List.find?_cons, ih]
    by_cases hk : key x = k <;> by_cases hj : key x = j <;> by_cases hjk : j = k <;> simp_all

@[simp] theorem State.emit_pending (s : State) (o : Output) : (s.emit o).pending = s.pending := rfl
@[simp] theorem State.emit_free (s : State) (o : Output) : (s.emit o).free = s.free := rfl
@[simp] theorem State.emit_clock (s : State) (o : Output) : (s.emit o).clock = s.clock := rfl
@[simp] theorem State.emit_power (s : State) (o : Output) : (s.emit o).power = s.power := rfl
@[simp] theorem State.emit_store (s : State) (o : Output) : (s.emit o).store = s.store := rfl
@[simp] theorem State.emit_inn (s : State) (o : Output) : (s.emit o).inn = s.inn := rfl
@[simp] theorem State.emit_ord (s : State) (o : Output) : (s.emit o).ord = s.ord := rfl
@[simp] theorem State.emit_dir (s : State) (o : Output) : (s.emit o).dir = s.dir := rfl
@[simp] theorem State.emit_queues (s : State) (o : Output) : (s.emit o).queues = s.queues := rfl
@[simp] theorem State.emit_brk (s : State) (o : Output) : (s.emit o).brk = s.brk := rfl
@[simp] theorem State.emit_fabric (s : State) (o : Output) : (s.emit o).fabric = s.fabric := rfl
@[simp] theorem State.emit_porter (s : State) (o : Output) : (s.emit o).porter = s.porter := rfl
@[simp] theorem State.emit_red (s : State) (o : Output) : (s.emit o).red = s.red := rfl
@[simp] theorem State.emit_boll (s : State) (o : Output) : (s.emit o).boll = s.boll := rfl
@[simp] theorem State.emit_tables (s : State) (o : Output) : (s.emit o).tables = s.tables := rfl
@[simp] theorem State.emit_indices (s : State) (o : Output) : (s.emit o).indices = s.indices := rfl
@[simp] theorem State.emit_kv (s : State) (o : Output) : (s.emit o).kv = s.kv := rfl
@[simp] theorem State.emit_deep (s : State) (o : Output) : (s.emit o).deep = s.deep := rfl
@[simp] theorem State.emit_host (s : State) (o : Output) : (s.emit o).host = s.host := rfl
@[simp] theorem State.emit_obs (s : State) (o : Output) : (s.emit o).obs = s.obs := rfl
@[simp] theorem State.emit_faults (s : State) (o : Output) : (s.emit o).faults = s.faults := rfl
@[simp] theorem State.emit_trust (s : State) (o : Output) : (s.emit o).trust = s.trust := rfl
@[simp] theorem State.emit_toll (s : State) (o : Output) : (s.emit o).toll = s.toll := rfl
@[simp] theorem State.emit_mirror (s : State) (o : Output) : (s.emit o).mirror = s.mirror := rfl
@[simp] theorem State.emit_regs (s : State) (o : Output) : (s.emit o).regs = s.regs := rfl

@[simp] theorem State.drew_pending (s : State) : (s.drew).pending = s.pending := rfl
@[simp] theorem State.drew_out (s : State) : (s.drew).out = s.out := rfl
@[simp] theorem State.drew_clock (s : State) : (s.drew).clock = s.clock := rfl
@[simp] theorem State.drew_power (s : State) : (s.drew).power = s.power := rfl
@[simp] theorem State.drew_store (s : State) : (s.drew).store = s.store := rfl
@[simp] theorem State.drew_inn (s : State) : (s.drew).inn = s.inn := rfl
@[simp] theorem State.drew_ord (s : State) : (s.drew).ord = s.ord := rfl
@[simp] theorem State.drew_dir (s : State) : (s.drew).dir = s.dir := rfl
@[simp] theorem State.drew_queues (s : State) : (s.drew).queues = s.queues := rfl
@[simp] theorem State.drew_brk (s : State) : (s.drew).brk = s.brk := rfl
@[simp] theorem State.drew_fabric (s : State) : (s.drew).fabric = s.fabric := rfl
@[simp] theorem State.drew_porter (s : State) : (s.drew).porter = s.porter := rfl
@[simp] theorem State.drew_red (s : State) : (s.drew).red = s.red := rfl
@[simp] theorem State.drew_boll (s : State) : (s.drew).boll = s.boll := rfl
@[simp] theorem State.drew_tables (s : State) : (s.drew).tables = s.tables := rfl
@[simp] theorem State.drew_indices (s : State) : (s.drew).indices = s.indices := rfl
@[simp] theorem State.drew_kv (s : State) : (s.drew).kv = s.kv := rfl
@[simp] theorem State.drew_deep (s : State) : (s.drew).deep = s.deep := rfl
@[simp] theorem State.drew_host (s : State) : (s.drew).host = s.host := rfl
@[simp] theorem State.drew_obs (s : State) : (s.drew).obs = s.obs := rfl
@[simp] theorem State.drew_faults (s : State) : (s.drew).faults = s.faults := rfl
@[simp] theorem State.drew_trust (s : State) : (s.drew).trust = s.trust := rfl
@[simp] theorem State.drew_toll (s : State) : (s.drew).toll = s.toll := rfl
@[simp] theorem State.drew_mirror (s : State) : (s.drew).mirror = s.mirror := rfl
@[simp] theorem State.drew_regs (s : State) : (s.drew).regs = s.regs := rfl

@[simp] theorem State.setPort_pending (s : State) (p : Nat) (f : HostPort → HostPort) : (s.setPort p f).pending = s.pending := rfl
@[simp] theorem State.setPort_out (s : State) (p : Nat) (f : HostPort → HostPort) : (s.setPort p f).out = s.out := rfl
@[simp] theorem State.setPort_free (s : State) (p : Nat) (f : HostPort → HostPort) : (s.setPort p f).free = s.free := rfl
@[simp] theorem State.setPort_clock (s : State) (p : Nat) (f : HostPort → HostPort) : (s.setPort p f).clock = s.clock := rfl
@[simp] theorem State.setPort_power (s : State) (p : Nat) (f : HostPort → HostPort) : (s.setPort p f).power = s.power := rfl
@[simp] theorem State.setPort_store (s : State) (p : Nat) (f : HostPort → HostPort) : (s.setPort p f).store = s.store := rfl
@[simp] theorem State.setPort_inn (s : State) (p : Nat) (f : HostPort → HostPort) : (s.setPort p f).inn = s.inn := rfl
@[simp] theorem State.setPort_ord (s : State) (p : Nat) (f : HostPort → HostPort) : (s.setPort p f).ord = s.ord := rfl
@[simp] theorem State.setPort_dir (s : State) (p : Nat) (f : HostPort → HostPort) : (s.setPort p f).dir = s.dir := rfl
@[simp] theorem State.setPort_queues (s : State) (p : Nat) (f : HostPort → HostPort) : (s.setPort p f).queues = s.queues := rfl
@[simp] theorem State.setPort_brk (s : State) (p : Nat) (f : HostPort → HostPort) : (s.setPort p f).brk = s.brk := rfl
@[simp] theorem State.setPort_fabric (s : State) (p : Nat) (f : HostPort → HostPort) : (s.setPort p f).fabric = s.fabric := rfl
@[simp] theorem State.setPort_porter (s : State) (p : Nat) (f : HostPort → HostPort) : (s.setPort p f).porter = s.porter := rfl
@[simp] theorem State.setPort_red (s : State) (p : Nat) (f : HostPort → HostPort) : (s.setPort p f).red = s.red := rfl
@[simp] theorem State.setPort_boll (s : State) (p : Nat) (f : HostPort → HostPort) : (s.setPort p f).boll = s.boll := rfl
@[simp] theorem State.setPort_tables (s : State) (p : Nat) (f : HostPort → HostPort) : (s.setPort p f).tables = s.tables := rfl
@[simp] theorem State.setPort_indices (s : State) (p : Nat) (f : HostPort → HostPort) : (s.setPort p f).indices = s.indices := rfl
@[simp] theorem State.setPort_kv (s : State) (p : Nat) (f : HostPort → HostPort) : (s.setPort p f).kv = s.kv := rfl
@[simp] theorem State.setPort_deep (s : State) (p : Nat) (f : HostPort → HostPort) : (s.setPort p f).deep = s.deep := rfl
@[simp] theorem State.setPort_obs (s : State) (p : Nat) (f : HostPort → HostPort) : (s.setPort p f).obs = s.obs := rfl
@[simp] theorem State.setPort_faults (s : State) (p : Nat) (f : HostPort → HostPort) : (s.setPort p f).faults = s.faults := rfl
@[simp] theorem State.setPort_trust (s : State) (p : Nat) (f : HostPort → HostPort) : (s.setPort p f).trust = s.trust := rfl
@[simp] theorem State.setPort_toll (s : State) (p : Nat) (f : HostPort → HostPort) : (s.setPort p f).toll = s.toll := rfl
@[simp] theorem State.setPort_mirror (s : State) (p : Nat) (f : HostPort → HostPort) : (s.setPort p f).mirror = s.mirror := rfl
@[simp] theorem State.setPort_regs (s : State) (p : Nat) (f : HostPort → HostPort) : (s.setPort p f).regs = s.regs := rfl

@[simp] theorem State.setCove_pending (s : State) (n : Nat) (f : Cove → Cove) : (s.setCove n f).pending = s.pending := rfl
@[simp] theorem State.setCove_out (s : State) (n : Nat) (f : Cove → Cove) : (s.setCove n f).out = s.out := rfl
@[simp] theorem State.setCove_free (s : State) (n : Nat) (f : Cove → Cove) : (s.setCove n f).free = s.free := rfl
@[simp] theorem State.setCove_clock (s : State) (n : Nat) (f : Cove → Cove) : (s.setCove n f).clock = s.clock := rfl
@[simp] theorem State.setCove_power (s : State) (n : Nat) (f : Cove → Cove) : (s.setCove n f).power = s.power := rfl
@[simp] theorem State.setCove_inn (s : State) (n : Nat) (f : Cove → Cove) : (s.setCove n f).inn = s.inn := rfl
@[simp] theorem State.setCove_ord (s : State) (n : Nat) (f : Cove → Cove) : (s.setCove n f).ord = s.ord := rfl
@[simp] theorem State.setCove_dir (s : State) (n : Nat) (f : Cove → Cove) : (s.setCove n f).dir = s.dir := rfl
@[simp] theorem State.setCove_queues (s : State) (n : Nat) (f : Cove → Cove) : (s.setCove n f).queues = s.queues := rfl
@[simp] theorem State.setCove_brk (s : State) (n : Nat) (f : Cove → Cove) : (s.setCove n f).brk = s.brk := rfl
@[simp] theorem State.setCove_fabric (s : State) (n : Nat) (f : Cove → Cove) : (s.setCove n f).fabric = s.fabric := rfl
@[simp] theorem State.setCove_porter (s : State) (n : Nat) (f : Cove → Cove) : (s.setCove n f).porter = s.porter := rfl
@[simp] theorem State.setCove_red (s : State) (n : Nat) (f : Cove → Cove) : (s.setCove n f).red = s.red := rfl
@[simp] theorem State.setCove_boll (s : State) (n : Nat) (f : Cove → Cove) : (s.setCove n f).boll = s.boll := rfl
@[simp] theorem State.setCove_tables (s : State) (n : Nat) (f : Cove → Cove) : (s.setCove n f).tables = s.tables := rfl
@[simp] theorem State.setCove_indices (s : State) (n : Nat) (f : Cove → Cove) : (s.setCove n f).indices = s.indices := rfl
@[simp] theorem State.setCove_kv (s : State) (n : Nat) (f : Cove → Cove) : (s.setCove n f).kv = s.kv := rfl
@[simp] theorem State.setCove_deep (s : State) (n : Nat) (f : Cove → Cove) : (s.setCove n f).deep = s.deep := rfl
@[simp] theorem State.setCove_host (s : State) (n : Nat) (f : Cove → Cove) : (s.setCove n f).host = s.host := rfl
@[simp] theorem State.setCove_obs (s : State) (n : Nat) (f : Cove → Cove) : (s.setCove n f).obs = s.obs := rfl
@[simp] theorem State.setCove_faults (s : State) (n : Nat) (f : Cove → Cove) : (s.setCove n f).faults = s.faults := rfl
@[simp] theorem State.setCove_trust (s : State) (n : Nat) (f : Cove → Cove) : (s.setCove n f).trust = s.trust := rfl
@[simp] theorem State.setCove_toll (s : State) (n : Nat) (f : Cove → Cove) : (s.setCove n f).toll = s.toll := rfl
@[simp] theorem State.setCove_mirror (s : State) (n : Nat) (f : Cove → Cove) : (s.setCove n f).mirror = s.mirror := rfl
@[simp] theorem State.setCove_regs (s : State) (n : Nat) (f : Cove → Cove) : (s.setCove n f).regs = s.regs := rfl

@[simp] theorem State.setGuest_pending (s : State) (n : Nat) (f : Guest → Guest) : (s.setGuest n f).pending = s.pending := rfl
@[simp] theorem State.setGuest_out (s : State) (n : Nat) (f : Guest → Guest) : (s.setGuest n f).out = s.out := rfl
@[simp] theorem State.setGuest_free (s : State) (n : Nat) (f : Guest → Guest) : (s.setGuest n f).free = s.free := rfl
@[simp] theorem State.setGuest_clock (s : State) (n : Nat) (f : Guest → Guest) : (s.setGuest n f).clock = s.clock := rfl
@[simp] theorem State.setGuest_power (s : State) (n : Nat) (f : Guest → Guest) : (s.setGuest n f).power = s.power := rfl
@[simp] theorem State.setGuest_store (s : State) (n : Nat) (f : Guest → Guest) : (s.setGuest n f).store = s.store := rfl
@[simp] theorem State.setGuest_ord (s : State) (n : Nat) (f : Guest → Guest) : (s.setGuest n f).ord = s.ord := rfl
@[simp] theorem State.setGuest_dir (s : State) (n : Nat) (f : Guest → Guest) : (s.setGuest n f).dir = s.dir := rfl
@[simp] theorem State.setGuest_queues (s : State) (n : Nat) (f : Guest → Guest) : (s.setGuest n f).queues = s.queues := rfl
@[simp] theorem State.setGuest_brk (s : State) (n : Nat) (f : Guest → Guest) : (s.setGuest n f).brk = s.brk := rfl
@[simp] theorem State.setGuest_fabric (s : State) (n : Nat) (f : Guest → Guest) : (s.setGuest n f).fabric = s.fabric := rfl
@[simp] theorem State.setGuest_porter (s : State) (n : Nat) (f : Guest → Guest) : (s.setGuest n f).porter = s.porter := rfl
@[simp] theorem State.setGuest_red (s : State) (n : Nat) (f : Guest → Guest) : (s.setGuest n f).red = s.red := rfl
@[simp] theorem State.setGuest_boll (s : State) (n : Nat) (f : Guest → Guest) : (s.setGuest n f).boll = s.boll := rfl
@[simp] theorem State.setGuest_tables (s : State) (n : Nat) (f : Guest → Guest) : (s.setGuest n f).tables = s.tables := rfl
@[simp] theorem State.setGuest_indices (s : State) (n : Nat) (f : Guest → Guest) : (s.setGuest n f).indices = s.indices := rfl
@[simp] theorem State.setGuest_kv (s : State) (n : Nat) (f : Guest → Guest) : (s.setGuest n f).kv = s.kv := rfl
@[simp] theorem State.setGuest_deep (s : State) (n : Nat) (f : Guest → Guest) : (s.setGuest n f).deep = s.deep := rfl
@[simp] theorem State.setGuest_host (s : State) (n : Nat) (f : Guest → Guest) : (s.setGuest n f).host = s.host := rfl
@[simp] theorem State.setGuest_obs (s : State) (n : Nat) (f : Guest → Guest) : (s.setGuest n f).obs = s.obs := rfl
@[simp] theorem State.setGuest_faults (s : State) (n : Nat) (f : Guest → Guest) : (s.setGuest n f).faults = s.faults := rfl
@[simp] theorem State.setGuest_trust (s : State) (n : Nat) (f : Guest → Guest) : (s.setGuest n f).trust = s.trust := rfl
@[simp] theorem State.setGuest_toll (s : State) (n : Nat) (f : Guest → Guest) : (s.setGuest n f).toll = s.toll := rfl
@[simp] theorem State.setGuest_mirror (s : State) (n : Nat) (f : Guest → Guest) : (s.setGuest n f).mirror = s.mirror := rfl
@[simp] theorem State.setGuest_regs (s : State) (n : Nat) (f : Guest → Guest) : (s.setGuest n f).regs = s.regs := rfl

@[simp] theorem State.setSq_pending (s : State) (n : Nat) (f : Sq → Sq) : (s.setSq n f).pending = s.pending := rfl
@[simp] theorem State.setSq_out (s : State) (n : Nat) (f : Sq → Sq) : (s.setSq n f).out = s.out := rfl
@[simp] theorem State.setSq_free (s : State) (n : Nat) (f : Sq → Sq) : (s.setSq n f).free = s.free := rfl
@[simp] theorem State.setSq_clock (s : State) (n : Nat) (f : Sq → Sq) : (s.setSq n f).clock = s.clock := rfl
@[simp] theorem State.setSq_power (s : State) (n : Nat) (f : Sq → Sq) : (s.setSq n f).power = s.power := rfl
@[simp] theorem State.setSq_store (s : State) (n : Nat) (f : Sq → Sq) : (s.setSq n f).store = s.store := rfl
@[simp] theorem State.setSq_inn (s : State) (n : Nat) (f : Sq → Sq) : (s.setSq n f).inn = s.inn := rfl
@[simp] theorem State.setSq_ord (s : State) (n : Nat) (f : Sq → Sq) : (s.setSq n f).ord = s.ord := rfl
@[simp] theorem State.setSq_dir (s : State) (n : Nat) (f : Sq → Sq) : (s.setSq n f).dir = s.dir := rfl
@[simp] theorem State.setSq_brk (s : State) (n : Nat) (f : Sq → Sq) : (s.setSq n f).brk = s.brk := rfl
@[simp] theorem State.setSq_fabric (s : State) (n : Nat) (f : Sq → Sq) : (s.setSq n f).fabric = s.fabric := rfl
@[simp] theorem State.setSq_porter (s : State) (n : Nat) (f : Sq → Sq) : (s.setSq n f).porter = s.porter := rfl
@[simp] theorem State.setSq_red (s : State) (n : Nat) (f : Sq → Sq) : (s.setSq n f).red = s.red := rfl
@[simp] theorem State.setSq_boll (s : State) (n : Nat) (f : Sq → Sq) : (s.setSq n f).boll = s.boll := rfl
@[simp] theorem State.setSq_tables (s : State) (n : Nat) (f : Sq → Sq) : (s.setSq n f).tables = s.tables := rfl
@[simp] theorem State.setSq_indices (s : State) (n : Nat) (f : Sq → Sq) : (s.setSq n f).indices = s.indices := rfl
@[simp] theorem State.setSq_kv (s : State) (n : Nat) (f : Sq → Sq) : (s.setSq n f).kv = s.kv := rfl
@[simp] theorem State.setSq_deep (s : State) (n : Nat) (f : Sq → Sq) : (s.setSq n f).deep = s.deep := rfl
@[simp] theorem State.setSq_host (s : State) (n : Nat) (f : Sq → Sq) : (s.setSq n f).host = s.host := rfl
@[simp] theorem State.setSq_obs (s : State) (n : Nat) (f : Sq → Sq) : (s.setSq n f).obs = s.obs := rfl
@[simp] theorem State.setSq_faults (s : State) (n : Nat) (f : Sq → Sq) : (s.setSq n f).faults = s.faults := rfl
@[simp] theorem State.setSq_trust (s : State) (n : Nat) (f : Sq → Sq) : (s.setSq n f).trust = s.trust := rfl
@[simp] theorem State.setSq_toll (s : State) (n : Nat) (f : Sq → Sq) : (s.setSq n f).toll = s.toll := rfl
@[simp] theorem State.setSq_mirror (s : State) (n : Nat) (f : Sq → Sq) : (s.setSq n f).mirror = s.mirror := rfl
@[simp] theorem State.setSq_regs (s : State) (n : Nat) (f : Sq → Sq) : (s.setSq n f).regs = s.regs := rfl

@[simp] theorem State.setCq_pending (s : State) (n : Nat) (f : Cq → Cq) : (s.setCq n f).pending = s.pending := rfl
@[simp] theorem State.setCq_out (s : State) (n : Nat) (f : Cq → Cq) : (s.setCq n f).out = s.out := rfl
@[simp] theorem State.setCq_free (s : State) (n : Nat) (f : Cq → Cq) : (s.setCq n f).free = s.free := rfl
@[simp] theorem State.setCq_clock (s : State) (n : Nat) (f : Cq → Cq) : (s.setCq n f).clock = s.clock := rfl
@[simp] theorem State.setCq_power (s : State) (n : Nat) (f : Cq → Cq) : (s.setCq n f).power = s.power := rfl
@[simp] theorem State.setCq_store (s : State) (n : Nat) (f : Cq → Cq) : (s.setCq n f).store = s.store := rfl
@[simp] theorem State.setCq_inn (s : State) (n : Nat) (f : Cq → Cq) : (s.setCq n f).inn = s.inn := rfl
@[simp] theorem State.setCq_ord (s : State) (n : Nat) (f : Cq → Cq) : (s.setCq n f).ord = s.ord := rfl
@[simp] theorem State.setCq_dir (s : State) (n : Nat) (f : Cq → Cq) : (s.setCq n f).dir = s.dir := rfl
@[simp] theorem State.setCq_brk (s : State) (n : Nat) (f : Cq → Cq) : (s.setCq n f).brk = s.brk := rfl
@[simp] theorem State.setCq_fabric (s : State) (n : Nat) (f : Cq → Cq) : (s.setCq n f).fabric = s.fabric := rfl
@[simp] theorem State.setCq_porter (s : State) (n : Nat) (f : Cq → Cq) : (s.setCq n f).porter = s.porter := rfl
@[simp] theorem State.setCq_red (s : State) (n : Nat) (f : Cq → Cq) : (s.setCq n f).red = s.red := rfl
@[simp] theorem State.setCq_boll (s : State) (n : Nat) (f : Cq → Cq) : (s.setCq n f).boll = s.boll := rfl
@[simp] theorem State.setCq_tables (s : State) (n : Nat) (f : Cq → Cq) : (s.setCq n f).tables = s.tables := rfl
@[simp] theorem State.setCq_indices (s : State) (n : Nat) (f : Cq → Cq) : (s.setCq n f).indices = s.indices := rfl
@[simp] theorem State.setCq_kv (s : State) (n : Nat) (f : Cq → Cq) : (s.setCq n f).kv = s.kv := rfl
@[simp] theorem State.setCq_deep (s : State) (n : Nat) (f : Cq → Cq) : (s.setCq n f).deep = s.deep := rfl
@[simp] theorem State.setCq_host (s : State) (n : Nat) (f : Cq → Cq) : (s.setCq n f).host = s.host := rfl
@[simp] theorem State.setCq_obs (s : State) (n : Nat) (f : Cq → Cq) : (s.setCq n f).obs = s.obs := rfl
@[simp] theorem State.setCq_faults (s : State) (n : Nat) (f : Cq → Cq) : (s.setCq n f).faults = s.faults := rfl
@[simp] theorem State.setCq_trust (s : State) (n : Nat) (f : Cq → Cq) : (s.setCq n f).trust = s.trust := rfl
@[simp] theorem State.setCq_toll (s : State) (n : Nat) (f : Cq → Cq) : (s.setCq n f).toll = s.toll := rfl
@[simp] theorem State.setCq_mirror (s : State) (n : Nat) (f : Cq → Cq) : (s.setCq n f).mirror = s.mirror := rfl
@[simp] theorem State.setCq_regs (s : State) (n : Nat) (f : Cq → Cq) : (s.setCq n f).regs = s.regs := rfl

@[simp] theorem State.setDesc_pending (s : State) (n : Nat) (f : Desc → Desc) : (s.setDesc n f).pending = s.pending := rfl
@[simp] theorem State.setDesc_out (s : State) (n : Nat) (f : Desc → Desc) : (s.setDesc n f).out = s.out := rfl
@[simp] theorem State.setDesc_free (s : State) (n : Nat) (f : Desc → Desc) : (s.setDesc n f).free = s.free := rfl
@[simp] theorem State.setDesc_clock (s : State) (n : Nat) (f : Desc → Desc) : (s.setDesc n f).clock = s.clock := rfl
@[simp] theorem State.setDesc_power (s : State) (n : Nat) (f : Desc → Desc) : (s.setDesc n f).power = s.power := rfl
@[simp] theorem State.setDesc_store (s : State) (n : Nat) (f : Desc → Desc) : (s.setDesc n f).store = s.store := rfl
@[simp] theorem State.setDesc_inn (s : State) (n : Nat) (f : Desc → Desc) : (s.setDesc n f).inn = s.inn := rfl
@[simp] theorem State.setDesc_ord (s : State) (n : Nat) (f : Desc → Desc) : (s.setDesc n f).ord = s.ord := rfl
@[simp] theorem State.setDesc_dir (s : State) (n : Nat) (f : Desc → Desc) : (s.setDesc n f).dir = s.dir := rfl
@[simp] theorem State.setDesc_brk (s : State) (n : Nat) (f : Desc → Desc) : (s.setDesc n f).brk = s.brk := rfl
@[simp] theorem State.setDesc_fabric (s : State) (n : Nat) (f : Desc → Desc) : (s.setDesc n f).fabric = s.fabric := rfl
@[simp] theorem State.setDesc_porter (s : State) (n : Nat) (f : Desc → Desc) : (s.setDesc n f).porter = s.porter := rfl
@[simp] theorem State.setDesc_red (s : State) (n : Nat) (f : Desc → Desc) : (s.setDesc n f).red = s.red := rfl
@[simp] theorem State.setDesc_boll (s : State) (n : Nat) (f : Desc → Desc) : (s.setDesc n f).boll = s.boll := rfl
@[simp] theorem State.setDesc_tables (s : State) (n : Nat) (f : Desc → Desc) : (s.setDesc n f).tables = s.tables := rfl
@[simp] theorem State.setDesc_indices (s : State) (n : Nat) (f : Desc → Desc) : (s.setDesc n f).indices = s.indices := rfl
@[simp] theorem State.setDesc_kv (s : State) (n : Nat) (f : Desc → Desc) : (s.setDesc n f).kv = s.kv := rfl
@[simp] theorem State.setDesc_deep (s : State) (n : Nat) (f : Desc → Desc) : (s.setDesc n f).deep = s.deep := rfl
@[simp] theorem State.setDesc_host (s : State) (n : Nat) (f : Desc → Desc) : (s.setDesc n f).host = s.host := rfl
@[simp] theorem State.setDesc_obs (s : State) (n : Nat) (f : Desc → Desc) : (s.setDesc n f).obs = s.obs := rfl
@[simp] theorem State.setDesc_faults (s : State) (n : Nat) (f : Desc → Desc) : (s.setDesc n f).faults = s.faults := rfl
@[simp] theorem State.setDesc_trust (s : State) (n : Nat) (f : Desc → Desc) : (s.setDesc n f).trust = s.trust := rfl
@[simp] theorem State.setDesc_toll (s : State) (n : Nat) (f : Desc → Desc) : (s.setDesc n f).toll = s.toll := rfl
@[simp] theorem State.setDesc_mirror (s : State) (n : Nat) (f : Desc → Desc) : (s.setDesc n f).mirror = s.mirror := rfl
@[simp] theorem State.setDesc_regs (s : State) (n : Nat) (f : Desc → Desc) : (s.setDesc n f).regs = s.regs := rfl

@[simp] theorem State.setLink_pending (s : State) (n : Nat) (f : Link → Link) : (s.setLink n f).pending = s.pending := rfl
@[simp] theorem State.setLink_out (s : State) (n : Nat) (f : Link → Link) : (s.setLink n f).out = s.out := rfl
@[simp] theorem State.setLink_free (s : State) (n : Nat) (f : Link → Link) : (s.setLink n f).free = s.free := rfl
@[simp] theorem State.setLink_clock (s : State) (n : Nat) (f : Link → Link) : (s.setLink n f).clock = s.clock := rfl
@[simp] theorem State.setLink_power (s : State) (n : Nat) (f : Link → Link) : (s.setLink n f).power = s.power := rfl
@[simp] theorem State.setLink_store (s : State) (n : Nat) (f : Link → Link) : (s.setLink n f).store = s.store := rfl
@[simp] theorem State.setLink_inn (s : State) (n : Nat) (f : Link → Link) : (s.setLink n f).inn = s.inn := rfl
@[simp] theorem State.setLink_ord (s : State) (n : Nat) (f : Link → Link) : (s.setLink n f).ord = s.ord := rfl
@[simp] theorem State.setLink_dir (s : State) (n : Nat) (f : Link → Link) : (s.setLink n f).dir = s.dir := rfl
@[simp] theorem State.setLink_queues (s : State) (n : Nat) (f : Link → Link) : (s.setLink n f).queues = s.queues := rfl
@[simp] theorem State.setLink_brk (s : State) (n : Nat) (f : Link → Link) : (s.setLink n f).brk = s.brk := rfl
@[simp] theorem State.setLink_porter (s : State) (n : Nat) (f : Link → Link) : (s.setLink n f).porter = s.porter := rfl
@[simp] theorem State.setLink_red (s : State) (n : Nat) (f : Link → Link) : (s.setLink n f).red = s.red := rfl
@[simp] theorem State.setLink_boll (s : State) (n : Nat) (f : Link → Link) : (s.setLink n f).boll = s.boll := rfl
@[simp] theorem State.setLink_tables (s : State) (n : Nat) (f : Link → Link) : (s.setLink n f).tables = s.tables := rfl
@[simp] theorem State.setLink_indices (s : State) (n : Nat) (f : Link → Link) : (s.setLink n f).indices = s.indices := rfl
@[simp] theorem State.setLink_kv (s : State) (n : Nat) (f : Link → Link) : (s.setLink n f).kv = s.kv := rfl
@[simp] theorem State.setLink_deep (s : State) (n : Nat) (f : Link → Link) : (s.setLink n f).deep = s.deep := rfl
@[simp] theorem State.setLink_host (s : State) (n : Nat) (f : Link → Link) : (s.setLink n f).host = s.host := rfl
@[simp] theorem State.setLink_obs (s : State) (n : Nat) (f : Link → Link) : (s.setLink n f).obs = s.obs := rfl
@[simp] theorem State.setLink_faults (s : State) (n : Nat) (f : Link → Link) : (s.setLink n f).faults = s.faults := rfl
@[simp] theorem State.setLink_trust (s : State) (n : Nat) (f : Link → Link) : (s.setLink n f).trust = s.trust := rfl
@[simp] theorem State.setLink_toll (s : State) (n : Nat) (f : Link → Link) : (s.setLink n f).toll = s.toll := rfl
@[simp] theorem State.setLink_mirror (s : State) (n : Nat) (f : Link → Link) : (s.setLink n f).mirror = s.mirror := rfl
@[simp] theorem State.setLink_regs (s : State) (n : Nat) (f : Link → Link) : (s.setLink n f).regs = s.regs := rfl

@[simp] theorem State.setBundle_pending (s : State) (n : Nat) (f : Bundle → Bundle) : (s.setBundle n f).pending = s.pending := rfl
@[simp] theorem State.setBundle_out (s : State) (n : Nat) (f : Bundle → Bundle) : (s.setBundle n f).out = s.out := rfl
@[simp] theorem State.setBundle_free (s : State) (n : Nat) (f : Bundle → Bundle) : (s.setBundle n f).free = s.free := rfl
@[simp] theorem State.setBundle_clock (s : State) (n : Nat) (f : Bundle → Bundle) : (s.setBundle n f).clock = s.clock := rfl
@[simp] theorem State.setBundle_power (s : State) (n : Nat) (f : Bundle → Bundle) : (s.setBundle n f).power = s.power := rfl
@[simp] theorem State.setBundle_store (s : State) (n : Nat) (f : Bundle → Bundle) : (s.setBundle n f).store = s.store := rfl
@[simp] theorem State.setBundle_inn (s : State) (n : Nat) (f : Bundle → Bundle) : (s.setBundle n f).inn = s.inn := rfl
@[simp] theorem State.setBundle_ord (s : State) (n : Nat) (f : Bundle → Bundle) : (s.setBundle n f).ord = s.ord := rfl
@[simp] theorem State.setBundle_dir (s : State) (n : Nat) (f : Bundle → Bundle) : (s.setBundle n f).dir = s.dir := rfl
@[simp] theorem State.setBundle_queues (s : State) (n : Nat) (f : Bundle → Bundle) : (s.setBundle n f).queues = s.queues := rfl
@[simp] theorem State.setBundle_brk (s : State) (n : Nat) (f : Bundle → Bundle) : (s.setBundle n f).brk = s.brk := rfl
@[simp] theorem State.setBundle_porter (s : State) (n : Nat) (f : Bundle → Bundle) : (s.setBundle n f).porter = s.porter := rfl
@[simp] theorem State.setBundle_red (s : State) (n : Nat) (f : Bundle → Bundle) : (s.setBundle n f).red = s.red := rfl
@[simp] theorem State.setBundle_boll (s : State) (n : Nat) (f : Bundle → Bundle) : (s.setBundle n f).boll = s.boll := rfl
@[simp] theorem State.setBundle_tables (s : State) (n : Nat) (f : Bundle → Bundle) : (s.setBundle n f).tables = s.tables := rfl
@[simp] theorem State.setBundle_indices (s : State) (n : Nat) (f : Bundle → Bundle) : (s.setBundle n f).indices = s.indices := rfl
@[simp] theorem State.setBundle_kv (s : State) (n : Nat) (f : Bundle → Bundle) : (s.setBundle n f).kv = s.kv := rfl
@[simp] theorem State.setBundle_deep (s : State) (n : Nat) (f : Bundle → Bundle) : (s.setBundle n f).deep = s.deep := rfl
@[simp] theorem State.setBundle_host (s : State) (n : Nat) (f : Bundle → Bundle) : (s.setBundle n f).host = s.host := rfl
@[simp] theorem State.setBundle_obs (s : State) (n : Nat) (f : Bundle → Bundle) : (s.setBundle n f).obs = s.obs := rfl
@[simp] theorem State.setBundle_faults (s : State) (n : Nat) (f : Bundle → Bundle) : (s.setBundle n f).faults = s.faults := rfl
@[simp] theorem State.setBundle_trust (s : State) (n : Nat) (f : Bundle → Bundle) : (s.setBundle n f).trust = s.trust := rfl
@[simp] theorem State.setBundle_toll (s : State) (n : Nat) (f : Bundle → Bundle) : (s.setBundle n f).toll = s.toll := rfl
@[simp] theorem State.setBundle_mirror (s : State) (n : Nat) (f : Bundle → Bundle) : (s.setBundle n f).mirror = s.mirror := rfl
@[simp] theorem State.setBundle_regs (s : State) (n : Nat) (f : Bundle → Bundle) : (s.setBundle n f).regs = s.regs := rfl

@[simp] theorem State.setGroup_pending (s : State) (n : Nat) (f : Group → Group) : (s.setGroup n f).pending = s.pending := rfl
@[simp] theorem State.setGroup_out (s : State) (n : Nat) (f : Group → Group) : (s.setGroup n f).out = s.out := rfl
@[simp] theorem State.setGroup_free (s : State) (n : Nat) (f : Group → Group) : (s.setGroup n f).free = s.free := rfl
@[simp] theorem State.setGroup_clock (s : State) (n : Nat) (f : Group → Group) : (s.setGroup n f).clock = s.clock := rfl
@[simp] theorem State.setGroup_power (s : State) (n : Nat) (f : Group → Group) : (s.setGroup n f).power = s.power := rfl
@[simp] theorem State.setGroup_store (s : State) (n : Nat) (f : Group → Group) : (s.setGroup n f).store = s.store := rfl
@[simp] theorem State.setGroup_inn (s : State) (n : Nat) (f : Group → Group) : (s.setGroup n f).inn = s.inn := rfl
@[simp] theorem State.setGroup_ord (s : State) (n : Nat) (f : Group → Group) : (s.setGroup n f).ord = s.ord := rfl
@[simp] theorem State.setGroup_dir (s : State) (n : Nat) (f : Group → Group) : (s.setGroup n f).dir = s.dir := rfl
@[simp] theorem State.setGroup_queues (s : State) (n : Nat) (f : Group → Group) : (s.setGroup n f).queues = s.queues := rfl
@[simp] theorem State.setGroup_brk (s : State) (n : Nat) (f : Group → Group) : (s.setGroup n f).brk = s.brk := rfl
@[simp] theorem State.setGroup_fabric (s : State) (n : Nat) (f : Group → Group) : (s.setGroup n f).fabric = s.fabric := rfl
@[simp] theorem State.setGroup_porter (s : State) (n : Nat) (f : Group → Group) : (s.setGroup n f).porter = s.porter := rfl
@[simp] theorem State.setGroup_boll (s : State) (n : Nat) (f : Group → Group) : (s.setGroup n f).boll = s.boll := rfl
@[simp] theorem State.setGroup_tables (s : State) (n : Nat) (f : Group → Group) : (s.setGroup n f).tables = s.tables := rfl
@[simp] theorem State.setGroup_indices (s : State) (n : Nat) (f : Group → Group) : (s.setGroup n f).indices = s.indices := rfl
@[simp] theorem State.setGroup_kv (s : State) (n : Nat) (f : Group → Group) : (s.setGroup n f).kv = s.kv := rfl
@[simp] theorem State.setGroup_deep (s : State) (n : Nat) (f : Group → Group) : (s.setGroup n f).deep = s.deep := rfl
@[simp] theorem State.setGroup_host (s : State) (n : Nat) (f : Group → Group) : (s.setGroup n f).host = s.host := rfl
@[simp] theorem State.setGroup_obs (s : State) (n : Nat) (f : Group → Group) : (s.setGroup n f).obs = s.obs := rfl
@[simp] theorem State.setGroup_faults (s : State) (n : Nat) (f : Group → Group) : (s.setGroup n f).faults = s.faults := rfl
@[simp] theorem State.setGroup_trust (s : State) (n : Nat) (f : Group → Group) : (s.setGroup n f).trust = s.trust := rfl
@[simp] theorem State.setGroup_toll (s : State) (n : Nat) (f : Group → Group) : (s.setGroup n f).toll = s.toll := rfl
@[simp] theorem State.setGroup_mirror (s : State) (n : Nat) (f : Group → Group) : (s.setGroup n f).mirror = s.mirror := rfl
@[simp] theorem State.setGroup_regs (s : State) (n : Nat) (f : Group → Group) : (s.setGroup n f).regs = s.regs := rfl

@[simp] theorem State.setView_pending (s : State) (x : ViewRegs) : (s.setView x).pending = s.pending := rfl
@[simp] theorem State.setView_out (s : State) (x : ViewRegs) : (s.setView x).out = s.out := rfl
@[simp] theorem State.setView_free (s : State) (x : ViewRegs) : (s.setView x).free = s.free := rfl
@[simp] theorem State.setView_clock (s : State) (x : ViewRegs) : (s.setView x).clock = s.clock := rfl
@[simp] theorem State.setView_power (s : State) (x : ViewRegs) : (s.setView x).power = s.power := rfl
@[simp] theorem State.setView_store (s : State) (x : ViewRegs) : (s.setView x).store = s.store := rfl
@[simp] theorem State.setView_inn (s : State) (x : ViewRegs) : (s.setView x).inn = s.inn := rfl
@[simp] theorem State.setView_ord (s : State) (x : ViewRegs) : (s.setView x).ord = s.ord := rfl
@[simp] theorem State.setView_dir (s : State) (x : ViewRegs) : (s.setView x).dir = s.dir := rfl
@[simp] theorem State.setView_queues (s : State) (x : ViewRegs) : (s.setView x).queues = s.queues := rfl
@[simp] theorem State.setView_brk (s : State) (x : ViewRegs) : (s.setView x).brk = s.brk := rfl
@[simp] theorem State.setView_fabric (s : State) (x : ViewRegs) : (s.setView x).fabric = s.fabric := rfl
@[simp] theorem State.setView_porter (s : State) (x : ViewRegs) : (s.setView x).porter = s.porter := rfl
@[simp] theorem State.setView_red (s : State) (x : ViewRegs) : (s.setView x).red = s.red := rfl
@[simp] theorem State.setView_boll (s : State) (x : ViewRegs) : (s.setView x).boll = s.boll := rfl
@[simp] theorem State.setView_tables (s : State) (x : ViewRegs) : (s.setView x).tables = s.tables := rfl
@[simp] theorem State.setView_indices (s : State) (x : ViewRegs) : (s.setView x).indices = s.indices := rfl
@[simp] theorem State.setView_kv (s : State) (x : ViewRegs) : (s.setView x).kv = s.kv := rfl
@[simp] theorem State.setView_deep (s : State) (x : ViewRegs) : (s.setView x).deep = s.deep := rfl
@[simp] theorem State.setView_host (s : State) (x : ViewRegs) : (s.setView x).host = s.host := rfl
@[simp] theorem State.setView_obs (s : State) (x : ViewRegs) : (s.setView x).obs = s.obs := rfl
@[simp] theorem State.setView_faults (s : State) (x : ViewRegs) : (s.setView x).faults = s.faults := rfl
@[simp] theorem State.setView_trust (s : State) (x : ViewRegs) : (s.setView x).trust = s.trust := rfl
@[simp] theorem State.setView_toll (s : State) (x : ViewRegs) : (s.setView x).toll = s.toll := rfl
@[simp] theorem State.setView_mirror (s : State) (x : ViewRegs) : (s.setView x).mirror = s.mirror := rfl

@[simp] theorem State.count_pending (s : State) (a b c k : Nat) : (s.count a b c k).pending = s.pending := rfl
@[simp] theorem State.count_out (s : State) (a b c k : Nat) : (s.count a b c k).out = s.out := rfl
@[simp] theorem State.count_free (s : State) (a b c k : Nat) : (s.count a b c k).free = s.free := rfl
@[simp] theorem State.count_clock (s : State) (a b c k : Nat) : (s.count a b c k).clock = s.clock := rfl
@[simp] theorem State.count_power (s : State) (a b c k : Nat) : (s.count a b c k).power = s.power := rfl
@[simp] theorem State.count_store (s : State) (a b c k : Nat) : (s.count a b c k).store = s.store := rfl
@[simp] theorem State.count_inn (s : State) (a b c k : Nat) : (s.count a b c k).inn = s.inn := rfl
@[simp] theorem State.count_ord (s : State) (a b c k : Nat) : (s.count a b c k).ord = s.ord := rfl
@[simp] theorem State.count_dir (s : State) (a b c k : Nat) : (s.count a b c k).dir = s.dir := rfl
@[simp] theorem State.count_queues (s : State) (a b c k : Nat) : (s.count a b c k).queues = s.queues := rfl
@[simp] theorem State.count_brk (s : State) (a b c k : Nat) : (s.count a b c k).brk = s.brk := rfl
@[simp] theorem State.count_fabric (s : State) (a b c k : Nat) : (s.count a b c k).fabric = s.fabric := rfl
@[simp] theorem State.count_porter (s : State) (a b c k : Nat) : (s.count a b c k).porter = s.porter := rfl
@[simp] theorem State.count_red (s : State) (a b c k : Nat) : (s.count a b c k).red = s.red := rfl
@[simp] theorem State.count_boll (s : State) (a b c k : Nat) : (s.count a b c k).boll = s.boll := rfl
@[simp] theorem State.count_tables (s : State) (a b c k : Nat) : (s.count a b c k).tables = s.tables := rfl
@[simp] theorem State.count_indices (s : State) (a b c k : Nat) : (s.count a b c k).indices = s.indices := rfl
@[simp] theorem State.count_kv (s : State) (a b c k : Nat) : (s.count a b c k).kv = s.kv := rfl
@[simp] theorem State.count_deep (s : State) (a b c k : Nat) : (s.count a b c k).deep = s.deep := rfl
@[simp] theorem State.count_host (s : State) (a b c k : Nat) : (s.count a b c k).host = s.host := rfl
@[simp] theorem State.count_faults (s : State) (a b c k : Nat) : (s.count a b c k).faults = s.faults := rfl
@[simp] theorem State.count_trust (s : State) (a b c k : Nat) : (s.count a b c k).trust = s.trust := rfl
@[simp] theorem State.count_toll (s : State) (a b c k : Nat) : (s.count a b c k).toll = s.toll := rfl
@[simp] theorem State.count_mirror (s : State) (a b c k : Nat) : (s.count a b c k).mirror = s.mirror := rfl
@[simp] theorem State.count_regs (s : State) (a b c k : Nat) : (s.count a b c k).regs = s.regs := rfl

@[simp] theorem State.emit_out (s : State) (o : Output) : (s.emit o).out = s.out ++ [o] := rfl
@[simp] theorem State.drew_free (s : State) : s.drew.free = s.free + 1 := rfl

theorem State.setPort_port (s : State) (n j : Nat) (f : HostPort → HostPort) (h : ∀ x, (f x).id = x.id) :
    (s.setPort n f).port j = if j = n then (s.port j).map f else s.port j :=
  find_mapIf HostPort.id n f h j _

theorem State.setCove_cove (s : State) (n j : Nat) (f : Cove → Cove) (h : ∀ x, (f x).id = x.id) :
    (s.setCove n f).cove j = if j = n then (s.cove j).map f else s.cove j :=
  find_mapIf Cove.id n f h j _

theorem State.setGuest_guestRec (s : State) (n j : Nat) (f : Guest → Guest) (h : ∀ x, (f x).id = x.id) :
    (s.setGuest n f).guestRec j = if j = n then (s.guestRec j).map f else s.guestRec j :=
  find_mapIf Guest.id n f h j _

theorem State.setSq_sq (s : State) (n j : Nat) (f : Sq → Sq) (h : ∀ x, (f x).id = x.id) :
    (s.setSq n f).sq j = if j = n then (s.sq j).map f else s.sq j :=
  find_mapIf Sq.id n f h j _

theorem State.setCq_cq (s : State) (n j : Nat) (f : Cq → Cq) (h : ∀ x, (f x).id = x.id) :
    (s.setCq n f).cq j = if j = n then (s.cq j).map f else s.cq j :=
  find_mapIf Cq.id n f h j _

theorem State.setDesc_desc (s : State) (n j : Nat) (f : Desc → Desc) (h : ∀ x, (f x).id = x.id) :
    (s.setDesc n f).desc j = if j = n then (s.desc j).map f else s.desc j :=
  find_mapIf Desc.id n f h j _

theorem State.setLink_link (s : State) (n j : Nat) (f : Link → Link) (h : ∀ x, (f x).id = x.id) :
    (s.setLink n f).link j = if j = n then (s.link j).map f else s.link j :=
  find_mapIf Link.id n f h j _

theorem State.setBundle_bundle (s : State) (n j : Nat) (f : Bundle → Bundle) (h : ∀ x, (f x).id = x.id) :
    (s.setBundle n f).bundle j = if j = n then (s.bundle j).map f else s.bundle j :=
  find_mapIf Bundle.id n f h j _

theorem State.setGroup_group (s : State) (n j : Nat) (f : Group → Group) (h : ∀ x, (f x).id = x.id) :
    (s.setGroup n f).group j = if j = n then (s.group j).map f else s.group j :=
  find_mapIf Group.id n f h j _

end Sys2Proof.Machine
end

