-- ==== Sys2Proof/Laws/Stores.lean ====
section
/-! SUPPORT. What a write of this shore's memory changes in memory, and that its side effects change no byte. -/

namespace Sys2Proof.Machine

/-- Memory and the bundles are the same in both states. -/
def Aside (s t : State) : Prop := t.store.mem = s.store.mem ∧ t.fabric.bundles = s.fabric.bundles

theorem Aside.refl (s : State) : Aside s s := ⟨rfl, rfl⟩
theorem Aside.trans {s t u : State} (h : Aside s t) (k : Aside t u) : Aside s u := ⟨k.1.trans h.1, k.2.trans h.2⟩
theorem Sent.aside {s t : State} (h : Sent s t) : Aside s t := ⟨congrArg _ h.store, h.bundles⟩

theorem foldl_aside {α : Type} (f : State → α → State) (h : ∀ s a, Aside s (f s a)) : ∀ (l : List α) (s : State), Aside s (l.foldl f s)
  | [], s => Aside.refl s
  | a :: l, s => (h s a).trans (foldl_aside f h l (f s a))

theorem foldl_fst_aside {α β : Type} (f : State × β → α → State × β) (h : ∀ x a, Aside x.1 (f x a).1) :
    ∀ (l : List α) (x : State × β), Aside x.1 (l.foldl f x).1
  | [], x => Aside.refl x.1
  | a :: l, x => (h x a).trans (foldl_fst_aside f h l (f x a))

theorem Aside.of_eq {s s' : State} {β : Type} {x : State × β} {b : β} (h : x = (s', b)) (k : Aside s x.1) : Aside s s' := by
  rw [h] at k
  exact k

theorem count_aside (s : State) (a b c n : Nat) : Aside s (s.count a b c n) := ⟨rfl, rfl⟩

theorem retain_mem (st : Store) (g : Nat) : (st.retain g).mem = st.mem := rfl

theorem foldl_retain_mem : ∀ (l : List Nat) (st : Store), (l.foldl Store.retain st).mem = st.mem
  | [], _ => rfl
  | g :: l, st => (foldl_retain_mem l (st.retain g)).trans (retain_mem st g)

theorem touchWrite_aside (s : State) (g : Nat) (l : List Nat) : Aside s (s.touchWrite g l) := ⟨rfl, rfl⟩

theorem touchRead_aside (s : State) (g : Nat) : Aside s (s.touchRead g) := by
  unfold State.touchRead
  dsimp only
  split <;> exact ⟨rfl, rfl⟩

theorem mirrorDirty_aside (s : State) (g : Nat) : Aside s (s.mirrorDirty g) := by
  unfold State.mirrorDirty
  split
  · split <;> exact ⟨rfl, rfl⟩
  · exact Aside.refl s

theorem owe_aside (s : State) (off : Nat) (bs : List Byte) : Aside s (s.owe off bs) := by
  unfold State.owe
  split
  · exact Aside.refl s
  · split <;> exact ⟨rfl, rfl⟩

theorem dropRows_aside (s : State) (off n : Nat) : Aside s (s.dropRows off n) := by
  unfold State.dropRows
  split <;> exact ⟨rfl, rfl⟩

theorem poisonSectors_aside (s : State) (l : List Nat) : Aside s (s.poisonSectors l) := ⟨foldl_retain_mem _ s.store, rfl⟩

theorem issueRead_aside (s : State) (g : Nat) : Aside s (s.issueRead g) := by
  unfold State.issueRead
  dsimp only
  split
  · exact count_aside s _ _ _ _
  · split <;> exact ⟨rfl, rfl⟩

theorem joinMiss_aside (s : State) (g : Nat) (w : Waiter) (a : Bool) : Aside s (s.joinMiss g w a) := by
  unfold State.joinMiss
  dsimp only
  split
  · exact ⟨rfl, rfl⟩
  · exact Aside.trans (s := s) ⟨rfl, rfl⟩ (issueRead_aside _ g)

theorem holdWrite_aside (s : State) (g : Nat) (l : List Nat) : Aside s (s.holdWrite g l) := by
  unfold State.holdWrite
  dsimp only
  split
  · exact ⟨rfl, rfl⟩
  · exact Aside.trans (s := s) ⟨rfl, rfl⟩ (issueRead_aside _ g)

theorem addOutstanding_aside (s : State) (o : Outstanding) : Aside s (s.addOutstanding o) := ⟨rfl, rfl⟩

theorem controlAs_aside (s : State) (op g a : Nat) (o : Bool) (gpa : Nat) (u : List Byte) : Aside s (s.controlAs op g a o gpa u).1 := by
  unfold State.controlAs
  split
  · exact Aside.refl s
  · dsimp only
    split
    · exact (forward_sent s _).aside.trans (addOutstanding_aside _ _)
    · exact (forward_sent s _).aside

theorem control_aside (s : State) (op g gpa : Nat) (u : List Byte) : Aside s (s.control op g gpa u).1 := controlAs_aside s op g 0 false gpa u

theorem takeover_aside (s : State) (d k sub w f p : Nat) : Aside s (s.takeover d k sub w f p).1 := control_aside s _ _ _ _

theorem sendDelta_aside (s : State) (m p sc o k : Nat) (d : List Byte) : Aside s (s.sendDelta m p sc o k d).1 := control_aside s _ _ _ _

theorem sendOwed_aside (s : State) (off : Nat) (x : List Byte) : Aside s (s.sendOwed off x).1 := by
  unfold State.sendOwed
  refine foldl_fst_aside _ (fun a sec => ?_) _ _
  refine foldl_fst_aside _ (fun a p => ?_) _ _
  split
  · exact Aside.of_eq ‹_› (sendDelta_aside _ _ _ _ _ _ _)
  · exact Aside.of_eq ‹_› (sendDelta_aside _ _ _ _ _ _ _)

theorem flushDeltas_aside (s : State) : Aside s s.flushDeltas.1 := by
  unfold State.flushDeltas
  refine Aside.trans (t := { s with faults := { s.faults with owed := [] } }) ⟨rfl, rfl⟩ ?_
  refine foldl_fst_aside _ (fun a x => ?_) _ ({ s with faults := { s.faults with owed := [] } }, [])
  exact sendOwed_aside a.1 x.1 x.2

theorem recordAtomic_aside (s : State) (off : Nat) (m : SxfMsg) (old : Nat) : Aside s (s.recordAtomic off m old) := by
  unfold State.recordAtomic
  split
  · exact foldl_aside _ (fun s p => takeover_aside s _ _ _ _ _ _) _ _
  · exact Aside.refl s

theorem replyAfter_aside (s : State) (l : List Nat) (via : Nat) (r : SxfMsg) : Aside s (s.replyAfter l via r) := by
  unfold State.replyAfter
  split
  · exact (sendBack_sent s via r).aside
  · exact ⟨rfl, rfl⟩

theorem writeAt_mem (s : State) (off : Nat) (bs : List Byte) : (s.writeAt off bs).store.mem = Mem.write s.store.mem off bs := by
  unfold State.writeAt
  dsimp only
  rw [(foldl_aside _ (fun s g => (touchWrite_aside s g _).trans (mirrorDirty_aside _ g)) _ _).1, foldl_retain_mem]

theorem writeAt_bundles (s : State) (off : Nat) (bs : List Byte) : (s.writeAt off bs).fabric.bundles = s.fabric.bundles := by
  unfold State.writeAt
  dsimp only
  rw [(foldl_aside _ (fun s g => (touchWrite_aside s g _).trans (mirrorDirty_aside _ g)) _ _).2]
  exact ((owe_aside s off bs).trans (dropRows_aside _ off _)).2

/-- A write at the home changes exactly the bytes written. -/
theorem applyWrite_mem (s : State) (off : Nat) (bs : List Byte) : (s.applyWrite off bs).store.mem = Mem.write s.store.mem off bs := by
  unfold State.applyWrite
  dsimp only
  split
  · rw [(holdWrite_aside _ _ _).1, retain_mem]
  · exact writeAt_mem s off bs

theorem applyWrite_bundles (s : State) (off : Nat) (bs : List Byte) : (s.applyWrite off bs).fabric.bundles = s.fabric.bundles := by
  unfold State.applyWrite
  dsimp only
  split
  · rw [(holdWrite_aside _ _ _).2]
    exact ((owe_aside s off bs).trans (dropRows_aside _ off _)).2
  · exact writeAt_bundles s off bs

end Sys2Proof.Machine
end

