-- ==== Sys2Proof/Tests/Slice0.lean ====
section
/-! SUPPORT. The model's own tests: for every statement of Certificates/Slice0/Obligations.lean states and operands that meet its hypotheses, an
ill-formed command for each check of WellFormed, and worked examples of the spec. -/

namespace Sys2Proof.Tests

set_option Elab.async false

open Sys2Proof Sys2Proof.Machine

/-- A device that runs, with nothing created: STRICT, Innkeeper up, the whole capacity free, two arrays' worth of rails. -/
def up : State := { State.reset with
  power := { State.reset.power with state := .strict }
  inn := { State.reset.inn with booted := true }
  store := { State.reset.store with capacity := 2 ^ 44 } }

/-- A command of the system guest on mailbox 0 of host port 0 (Table 03-3). -/
def cmd (op flags : Nat) (body : List Byte) : RelasCmd :=
  ⟨.mailbox 0 0, leBytes 2 op ++ leBytes 2 1 ++ leBytes 2 (16 + body.length) ++ leBytes 2 flags ++ zeros 8 ++ body⟩

/-- The command has been put into the mailbox and waits there. -/
def ask (s : State) (c : RelasCmd) : State :=
  { s with inn := { s.inn with
    chans := [⟨c.chan, some (0, 0), 0, [c.bytes], []⟩]
    boxes := [⟨0, 0, c.bytes, [], true, false, false, false, 0, false⟩] } }

/-- The command would be served. -/
def asked (s : State) (c : RelasCmd) : Bool := served c.opcode c (ask s c)


/-- A guest of host port 0. -/
def guest1 : Guest := { Guest.system with id := 1, epoch := 5, weight := 1, mode := .table, root := 0, queueQuota := 8, keyQuota := 8, pinQuota := 2 ^ 30 }

def cove1 : Cove := ⟨1, 0, 2 ^ 30, 0, .data, [⟨0, true, true, true⟩, ⟨1, true, true, true⟩], .prefer, .chart, .noncoherent, false, 0, .none, false, .active, [], [], none⟩
def cove2 : Cove := ⟨2, 2 ^ 30, 2 ^ 30, 0, .data, [⟨0, true, true, true⟩], .stream, .chart, .noncoherent, true, 0, .none, false, .active, [], [], some ⟨0, [(1, 0)], [], [], []⟩⟩
def sq0 : Sq := ⟨0, 0, 0, 64, 0, 3, 0x10000, 64, 16, 0x20000, false, false, 0, 0, 0, false, 0, true, 0, 0, none, false, 0, 0, []⟩
def cq0 : Cq := ⟨0, 0, 0x30000, 64, 1, 0, 3, 0, 0, true, 0, 0, 0, 0⟩
def boll0 : Bollard := ⟨7, 5, 2, 0, []⟩

/-- A small world: a guest, two coves, a queue pair and a bollard. -/
def world : State := { up with
  inn := { up.inn with guests := [Guest.system, guest1] }
  store := { up.store with coves := [cove1, cove2], harbour := { up.store.harbour with pinGib := 4 } }
  queues := { up.queues with sqs := [sq0], cqs := [cq0] }
  boll := { up.boll with list := [boll0] } }


def n1 (n : Nat) : List Byte := leBytes 1 n
def n2 (n : Nat) : List Byte := leBytes 2 n
def n4 (n : Nat) : List Byte := leBytes 4 n
def n8 (n : Nat) : List Byte := leBytes 8 n

def tableCmd : RelasCmd := cmd 0x0501 0 (n2 0 ++ n1 0 ++ n1 0xFF ++ n4 77 ++ n8 4 ++ n8 0 ++ n2 0 ++ n2 0 ++ n2 32 ++ n1 0 ++ n1 0 ++
  [0x00, 0xFF, 0xFF, 0xFF] ++ n4 0 ++ n8 0 ++ n8 (2 ^ 20) ++ n8 0 ++ n8 0 ++ n8 8 ++ n8 0 ++ n8 0 ++ n8 0 ++ n8 0)
def indexCmd : RelasCmd := cmd 0x0601 0 (n2 0 ++ n1 0 ++ n1 0 ++ n4 88 ++ n2 8 ++ n1 0 ++ n1 0 ++ n4 1 ++ n2 0 ++ n1 0 ++ n1 0 ++ n4 0 ++ n8 64 ++ n4 64 ++ n4 0 ++
  n8 64 ++ n8 (2 ^ 30) ++ n8 (2 ^ 24) ++ n2 1 ++ n2 0 ++ n2 1 ++ n2 0 ++ n4 0 ++ n4 0 ++ zeros 32 ++ zeros 8)
def kvCmd : RelasCmd := cmd 0x0701 0 (n2 0 ++ n1 1 ++ n1 0 ++ n1 4 ++ n1 0 ++ n2 1 ++ n2 1 ++ n2 32 ++ n4 2 ++ n4 8 ++ n4 4 ++ n8 (2 ^ 24) ++ n8 0 ++ n8 0)

/-- The world with a table, an index and a KV set in it. -/
def stocked : State := { world with
  tables := { world.tables with list := [tableOf tableCmd] }, indices := { world.indices with list := [indexOf indexCmd] }, kv := [kvOf kvCmd] }

/-- The state in which a command has its effect. -/
def took (s : State) (c : RelasCmd) : State := (ask s c).taken c
/-- A world with one set of a given state. -/
def sets (st : SetState) : State := { world with inn := { world.inn with sets := [⟨3, st, [], 10000000, 9, [], 0, none, false, none, 1⟩] } }
/-- A command staged into set 3. -/
def stagedCmd (op : Nat) (body : List Byte) : RelasCmd := cmd op 769 body
/-- The staged command would be taken into set 3. -/
def stages (c : RelasCmd) : Bool := staged c.opcode c (ask (sets .opened) c) && ((took (sets .opened) c).set c.setId).any fun x => x.takes c

/-- A shore of a torus with an open causeway to shore 2 over link 63, and an open jetty to agent 5 over link 62. -/
def linked : State := { world with fabric := { world.fabric with
  set := true
  shoreId := 1
  dimX := 8
  dimY := 8
  dimZ := 8
  bundles := [⟨3, .causeway, 0, 0, 2, [], [63], true, false, 0⟩, ⟨4, .jetty, 0, 0, 0, [(5, 1)], [62], true, false, 0⟩]
  links := world.fabric.links.map fun l => if l.id = 63 ∨ l.id = 62 then { l with state := .up, laneMap := [0, 1] } else l } }

/-- The same state at another tidetime. -/
def at' (t : Nat) (s : State) : State := { s with clock := { s.clock with tidetime := t } }
/-- A request from shore 2 over the causeway: opcode, tag, GPA and the bytes after unit 0. -/
def req (op tag gpa : Nat) (units : List Byte) : SxfMsg := ⟨3, 1, SxfMsg.reqUnit op false false 2 tag 0 0 gpa, units⟩
/-- The same request with ORDERED or a guest. -/
def greq (op : Nat) (ordered : Bool) (tag guest agent gpa : Nat) (units : List Byte) : SxfMsg :=
  ⟨3, 1, SxfMsg.reqUnit op ordered false 2 tag guest agent gpa, units⟩
/-- A request of agent 5 over the jetty. -/
def jreq (op tag gpa : Nat) (units : List Byte) : SxfMsg := ⟨4, 1, SxfMsg.reqUnit op false false 0 tag 1 5 gpa, units⟩
/-- A response of shore 2 over the causeway to this shore. -/
def rsp (op tag status cause value : Nat) (units : List Byte) : SxfMsg :=
  ⟨3, 2, SxfMsg.rspUnit op false false 2 tag status cause value 1, units⟩
/-- A descriptor of queue 0 that runs: its bytes and its translated ranges. -/
def job (bytes : List Byte) (ranges : List (List Extent)) : Desc :=
  { world.newDesc sq0 0 bytes ranges with id := 6, phase := .running }
/-- The header of a descriptor. -/
def head16 (op flags size : Nat) : List Byte := n1 op ++ n1 flags ++ n1 0 ++ n1 size ++ n4 1 ++ n8 0
/-- A state in which only this descriptor is at work. -/
def working (d : Desc) : State := { linked with queues := { linked.queues with descs := [d] } }

/-- A block of zeros with fields put in: offset, bytes, value. -/
def blank (n : Nat) (fs : List (Nat × Nat × Nat)) : List Byte :=
  fs.foldl (fun b f => b.take f.1 ++ leBytes f.2.1 f.2.2 ++ b.drop (f.1 + f.2.1)) (zeros n)
/-- A translated range of this shore's cove 1, 1 MiB apart from the next. -/
def rg (k len : Nat) : List Extent := [⟨gpaOf 1 (0x4000000 + 0x100000 * k), len, true, true, true⟩]
/-- A descriptor with its body fields. -/
def jobF (op n : Nat) (fs : List (Nat × Nat × Nat)) (ranges : List (List Extent)) : Desc := job (blank n ((0, 1, op) :: fs)) ranges
/-- The stocked world on the torus, with a reduction group of eight elements. -/
def group1 : Group := ⟨1, 0, 55, 2, 0, 0, true, 8, 0, 8, rg 20 4096, 4096, 80000, none, 0, 3, 2, 1, [], [], [], 0, 0⟩
def yard : State := { stocked with fabric := linked.fabric, red := { stocked.red with groups := [group1] } }
def toiling (d : Desc) : State := { yard with queues := { yard.queues with descs := [d] } }

theorem test_witness_GuestCommands :
    asked world (cmd 0x0101 0 (n2 2 ++ n2 5 ++ n2 1 ++ zeros 42)) = true ∧
    asked world (cmd 0x0102 0 (n2 1 ++ n2 5 ++ zeros 4)) = true ∧
    asked world (cmd 0x0103 0 (n2 1 ++ n2 5 ++ n2 7 ++ zeros 38 ++ n2 1 ++ zeros 2)) = true ∧
    asked world (cmd 0x0104 0 (n2 1 ++ n2 5 ++ zeros 4)) = true ∧
    asked world (cmd 0x0105 0 (n2 1 ++ n2 5 ++ zeros 4)) = true ∧
    (took world (cmd 0x0105 0 (n2 1 ++ n2 5 ++ zeros 4))).guestRec 1 = some guest1 := by decide +kernel

/-- A COVE_SET that makes cove 1 not pullable. -/
def unpull : RelasCmd := cmd 0x0203 0 (n2 1 ++ zeros 24 ++ n1 0 ++ n1 0 ++ zeros 2 ++ n2 32 ++ zeros 16)
def coveOps : State := { world with store := { world.store with coves := [{ cove1 with pullable := true, holders := [2] }, cove2] } }

theorem test_witness_CoveCommands :
    asked world (cmd 0x0201 0 (n2 3 ++ n2 1 ++ n8 (2 ^ 31) ++ n8 mib2 ++ zeros 28)) = true ∧
    asked world (cmd 0x0202 0 (n2 1 ++ zeros 6)) = true ∧
    (took world (cmd 0x0202 0 (n2 1 ++ zeros 6))).cove 1 = some cove1 ∧
    asked world (cmd 0x0203 0 (n2 1 ++ zeros 19 ++ n1 2 ++ zeros 8 ++ n2 1 ++ zeros 16)) = true ∧
    needsInval (cmd 0x0203 0 (n2 1 ++ zeros 19 ++ n1 2 ++ zeros 8 ++ n2 1 ++ zeros 16)) cove1 = false ∧
    (asked coveOps unpull && ((took coveOps unpull).cove 1).any (needsInval unpull)) = true ∧
    asked world (cmd 0x0204 0 (n2 1 ++ n2 1 ++ n1 1 ++ zeros 3)) = true ∧
    asked world (cmd 0x0205 0 (n2 2 ++ n2 1 ++ n1 1 ++ n1 0 ++ n2 0)) = true ∧
    asked world (cmd 0x0206 0 (n2 0xFFFF ++ zeros 6)) = true ∧
    asked world (cmd 0x0206 0 (n2 1 ++ zeros 6)) = true ∧
    world.stepDone cove1 ⟨1, 2, false, true, 1, [], 0, [], [], 1⟩ = true := by decide +kernel

/-- The shore's own channel of shore 2, for a pull of another shore. -/
def fromShore (c : RelasCmd) : RelasCmd := { c with chan := .shore 2 }

/-- A pull of a range of this shore's cove 2 by shore 2. -/
def pullBy2 : RelasCmd := fromShore (cmd 0x0303 0 (n8 (2 ^ 48 + 2 ^ 30) ++ n8 mib2))
def pulledCove : State := { linked with store := { linked.store with coves := [cove1, { cove2 with pullable := true, order := .chart, versioned := false, versions := none }] } }

theorem test_witness_PlacementCommands :
    asked world (cmd 0x0301 0 (n2 1 ++ zeros 6 ++ n8 0 ++ n8 mib2 ++ n1 2 ++ n1 0 ++ zeros 6)) = true ∧
    asked world (cmd 0x0301 0 (n2 1 ++ zeros 6 ++ n8 0 ++ n8 mib2 ++ n1 2 ++ n1 1 ++ zeros 6)) = true ∧
    asked world (cmd 0x0302 0 (n2 1 ++ zeros 6)) = true ∧
    asked world (cmd 0x0303 0 (n8 (2 ^ 48) ++ n8 mib2)) = true ∧
    asked pulledCove pullBy2 = true ∧
    ((took pulledCove pullBy2).coveAt (gpaOffset (pullBy2.f 16 8))).isSome = true ∧
    asked { world with store := { world.store with pulls := [⟨0, 2 ^ 48, mib2, true, 0⟩] } } (cmd 0x0304 0 (n2 0 ++ zeros 6)) = true ∧
    stages (stagedCmd 0x0305 (n2 1 ++ n2 1 ++ n2 0 ++ zeros 2)) = true := by decide +kernel

def sqCmd : RelasCmd :=
  cmd 0x0401 0 (n2 1 ++ n1 0 ++ n1 0 ++ n2 0 ++ n2 0 ++ n8 0x40000 ++ n4 64 ++ n2 0 ++ n1 3 ++ n1 0 ++ n8 0x50000 ++ n2 64 ++ n2 1 ++ n4 0 ++ n8 0x60000)
def cqCmd : RelasCmd :=
  cmd 0x0401 0 (n2 1 ++ n1 1 ++ n1 0 ++ n2 0 ++ n2 0 ++ n8 0x40000 ++ n4 65536 ++ n2 0 ++ n1 0 ++ n1 0 ++ n8 0 ++ n2 0 ++ n2 0 ++ n4 0 ++ n8 0)

theorem test_witness_QueueCommands :
    asked world sqCmd = true ∧
    asked world cqCmd = true ∧
    asked world (cmd 0x0402 0 (n2 0 ++ n1 0 ++ n1 1 ++ zeros 4)) = true ∧
    asked { world with queues := { world.queues with sqs := [] } } (cmd 0x0402 0 (n2 0 ++ n1 1 ++ n1 0 ++ zeros 4)) = true ∧
    stages (stagedCmd 0x0403 (n2 0xFFFF ++ zeros 6 ++ n2 5 ++ zeros 38)) = true ∧
    asked world (cmd 0x0403 0 (n2 0 ++ n1 0 ++ n1 3 ++ n2 0 ++ n2 1 ++ zeros 40)) = true ∧
    asked world (cmd 0x0403 0 (n2 0 ++ n1 1 ++ n1 0 ++ n2 0 ++ n2 8 ++ zeros 40)) = true ∧
    asked world (cmd 0x0404 0 (n2 0 ++ n1 0 ++ zeros 5)) = true ∧
    (took world (cmd 0x0404 0 (n2 0 ++ n1 0 ++ zeros 5))).sq 0 = some sq0 ∧
    asked world (cmd 0x0404 0 (n2 0 ++ n1 1 ++ zeros 5)) = true ∧
    (took world (cmd 0x0404 0 (n2 0 ++ n1 1 ++ zeros 5))).cq 0 = some cq0 := by decide +kernel

/-- A query of an object from shore 2 (R155). -/
def queryBy2 (op : Nat) : RelasCmd := fromShore (cmd op 0 (n2 0 ++ zeros 6))

theorem test_witness_ObjectCommands :
    asked world tableCmd = true ∧
    asked stocked (cmd 0x0502 0 (n2 0 ++ zeros 6)) = true ∧
    asked stocked (cmd 0x0503 0 (n2 0 ++ zeros 6)) = true ∧
    ((took stocked (cmd 0x0503 0 (n2 0 ++ zeros 6))).table 0).isSome = true ∧
    asked stocked (queryBy2 0x0503) = true ∧
    asked world indexCmd = true ∧
    asked stocked (cmd 0x0602 0 (n2 0 ++ zeros 6)) = true ∧
    asked stocked (cmd 0x0603 0 (n2 0 ++ zeros 6)) = true ∧
    ((took stocked (cmd 0x0603 0 (n2 0 ++ zeros 6))).index 0).isSome = true ∧
    asked stocked (queryBy2 0x0603) = true ∧
    asked world kvCmd = true ∧
    asked stocked (cmd 0x0702 0 (n2 0 ++ zeros 6)) = true ∧
    asked stocked (cmd 0x0703 0 (n2 0 ++ zeros 6)) = true ∧
    ((took stocked (cmd 0x0703 0 (n2 0 ++ zeros 6))).kvSet 0).isSome = true := by decide +kernel

theorem test_witness_BollardCommands :
    asked world (cmd 0x0801 0 (n2 0 ++ n2 1024 ++ n4 1 ++ n8 0 ++ n2 0xFFFF ++ zeros 14)) = true ∧
    asked world (cmd 0x0801 0 (n2 0 ++ n2 1 ++ n4 1 ++ n8 0 ++ n2 0 ++ zeros 14)) = true ∧
    asked world (cmd 0x0802 0 (n4 7 ++ n2 1 ++ n2 0)) = true ∧
    asked world (cmd 0x0803 0 (n8 7 ++ n1 2 ++ zeros 7 ++ n8 9)) = true ∧
    (took world (cmd 0x0803 0 (n8 7 ++ n1 2 ++ zeros 7 ++ n8 9))).bollardAt 7 = some boll0 ∧
    asked world (cmd 0x0804 0 (n8 7 ++ n1 0 ++ zeros 3 ++ n4 1 ++ n8 5)) = true ∧
    condHolds 0 5 5 = true ∧
    asked world (cmd 0x0804 0 (n8 7 ++ n1 0 ++ zeros 3 ++ n4 1 ++ n8 6)) = true ∧
    condHolds 0 5 6 = false ∧
    (took world (cmd 0x0804 0 (n8 7 ++ n1 0 ++ zeros 3 ++ n4 1 ++ n8 6))).waitRoom 0 = true ∧
    asked world (cmd 0x0805 0 (n8 7 ++ n1 0 ++ zeros 7 ++ n8 6)) = true := by decide +kernel

def closing3 : State := linked.setBundle 3 fun b => { b with closing := true }

theorem test_witness_FabricCommands :
    stages (stagedCmd 0x0901 (n1 3 ++ n1 1 ++ n1 0 ++ n1 0 ++ n2 0 ++ n2 0 ++ n8 (2 ^ 63) ++ zeros 8)) = true ∧
    linked.bundle 3 ≠ none ∧
    world.bundle 3 = none ∧
    asked linked (cmd 0x0902 0 (n1 3 ++ zeros 7)) = true ∧
    ((took linked (cmd 0x0902 0 (n1 3 ++ zeros 7))).bundle 3).isSome = true ∧
    (closing3.bundle 3).any (fun b => b.closing) = true ∧
    closing3.inUse 3 (fun _ => true) = false ∧
    closing3.ord.outstanding = [] ∧
    asked world (cmd 0x0903 0 (n1 63 ++ zeros 7)) = true ∧
    ((took world (cmd 0x0903 0 (n1 63 ++ zeros 7))).link 63).isSome = true ∧
    asked world (cmd 0x0904 0 (n1 63 ++ n1 0 ++ zeros 6)) = true ∧
    asked world (cmd 0x0904 0 (n1 63 ++ n1 1 ++ zeros 6)) = true ∧
    stages (stagedCmd 0x0905 (n2 3 ++ n1 8 ++ n1 8 ++ n1 8 ++ zeros 3)) = true := by decide +kernel

def quarantined1 : State := { world with inn := { world.inn with guests := [Guest.system, { guest1 with quarantined := true }] } }

theorem test_witness_FaultCommands :
    asked world (cmd 0x0A01 0 (n4 0 ++ n2 119 ++ n2 0)) = true ∧
    asked world (cmd 0x0A02 0 (n1 9 ++ n1 0 ++ n2 63 ++ n1 0 ++ zeros 3)) = true ∧
    asked world (cmd 0x0A02 0 (n1 9 ++ n1 0 ++ n2 63 ++ n1 1 ++ zeros 3)) = true ∧
    asked world (cmd 0x0A03 0 (n1 12 ++ n1 0 ++ n2 0 ++ zeros 4)) = true ∧
    asked world (cmd 0x0A04 0 (n4 0 ++ n2 79 ++ n2 0)) = true ∧
    asked quarantined1 (cmd 0x0A05 0 (n2 1 ++ n2 5 ++ n4 0)) = true := by decide +kernel

def ioPort : State := { world with host := { world.host with ports := [{ HostPort.fresh 0 with ioSecure := true }] } }
def keyed : State := { world with trust := { world.trust with slots := [⟨4095, 0, zeros 64, false⟩] } }
def granted : State := { world with trust := { world.trust with grants := [(7, 0)] } }

/-- A mode 1 DEBUG_UNLOCK that passes every check but those that need what the free values decide: the signature and the fuse. -/
def unlockCmd (scope : Nat) : RelasCmd := cmd 0x0B04 0 (n1 1 ++ n1 scope ++ zeros 6 ++ n8 (2 ^ 40) ++ zeros 96)
/-- A device that has given a nonce for a scope. -/
def nonced (scope : Nat) : State := { up with trust := { up.trust with nonce := some ⟨5, 0, scope⟩ } }

theorem test_witness_TrustCommands :
    asked world (cmd 0x0B01 0 (n1 0 ++ n1 3 ++ n2 15 ++ n1 0 ++ n1 0 ++ n2 1 ++ n2 5 ++ zeros 6)) = true ∧
    asked ioPort (cmd 0x0B02 0 (n2 4095 ++ n2 0 ++ n1 0 ++ zeros 3 ++ zeros 168)) = true ∧
    asked keyed (cmd 0x0B03 0 (n2 4095 ++ zeros 6)) = true ∧
    asked world (cmd 0x0B04 0 (n1 0 ++ n1 7 ++ zeros 6)) = true ∧
    (granted.trust.grants.filter fun g => decide (granted.now < g.2)) ≠ granted.trust.grants := by decide +kernel

def ticket1 (w : Work) (e : Option Ended) : Ticket := ⟨1, .mailbox 0 0, 0, 0, false, 0x0104, w, 0, e⟩
def ticketed (w : Work) (e : Option Ended) : State := { world with inn := { world.inn with tickets := [ticket1 w e], nextTicket := 2 } }
def debugged : State := { world with trust := { world.trust with grants := [(7, 2 ^ 63)] } }

/-- Ten seconds after the end of the ticket. -/
def late : State := { ticketed .none (some ⟨1, 0, 0⟩) with clock := { up.clock with tidetime := 80000000000 } }
def fromTls (c : RelasCmd) : RelasCmd := { c with chan := .tls 0 }

theorem test_witness_ObserveCommands :
    asked (ticketed .none none) (cmd 0x0C01 0 (n4 1 ++ n4 0)) = true ∧
    ((took (ticketed .none none) (cmd 0x0C01 0 (n4 1 ++ n4 0))).inn.tickets.find? fun t => t.id = 1) = some (ticket1 .none none) ∧
    ((ticketed (.pullRemove 0) none).running.find? fun t => t.id = 1).any
      (fun t => ((ticketed (.pullRemove 0) none).ticketWork t).isSome) = true ∧
    0 + 80000000000 ≤ late.now ∧
    late.inn.tickets = [ticket1 .none (some ⟨1, 0, 0⟩)] ∧
    asked world (cmd 0x0C02 0 (n2 1 ++ n2 0 ++ n1 0 ++ n1 1 ++ n2 0)) = true ∧
    asked world (fromTls (cmd 0x0C03 0 (n1 0 ++ n1 2 ++ n1 1 ++ n1 0 ++ n2 514 ++ n2 0 ++ zeros 56))) = true ∧
    asked world (cmd 0x0C03 0 (n1 1 ++ n1 0 ++ n2 59 ++ n4 0 ++ n8 0)) = true ∧
    asked debugged (cmd 0x0C04 0 (n1 0 ++ n1 3 ++ n1 2 ++ n1 1 ++ n4 0 ++ n8 5 ++ n8 9)) = true ∧
    asked debugged (cmd 0x0C04 0 (n1 1 ++ n1 0 ++ n2 3792 ++ n4 0)) = true ∧
    asked world (cmd 0x0C05 0 (n8 (2 ^ 64 - 1) ++ n2 29 ++ zeros 6)) = true ∧
    asked world (cmd 0x0C05 0 (n8 0 ++ n2 29 ++ zeros 6)) = true := by decide +kernel

/-- Set 3 with staged commands: a query of no kind, which no check accepts, and a TABLE_CREATE whose shards lie on shore 2. -/
def set3 (st : SetState) (cs : List RelasCmd) : ConfigSet := ⟨3, st, cs, 10000000, 9, [], 0, none, false, none, 1⟩
def withSet (x : ConfigSet) : State := { linked with inn := { linked.inn with sets := [x] } }
def checkCmd (scope : Nat) : RelasCmd := cmd 0x0D03 0 (n1 3 ++ n1 scope ++ n2 0 ++ n4 9)
def shardCmd : RelasCmd := cmd 0x0501 769 (n2 0 ++ n1 2 ++ n1 0xFF ++ n4 77 ++ n8 4 ++ n8 0 ++ n2 1 ++ n2 0xFFFF ++ n2 32 ++ n1 0 ++ n1 0 ++
  [0x00, 0xFF, 0xFF, 0xFF] ++ n4 0 ++ n8 0 ++ n8 0 ++ n8 0 ++ n8 0 ++ n8 8 ++ n8 0 ++ n8 0 ++ n8 0 ++ n8 0 ++ n2 2 ++ zeros 6)

theorem test_witness_ConfigCommands :
    stages (stagedCmd 0x0305 (n2 1 ++ n2 1 ++ n2 0 ++ zeros 2)) = true ∧
    asked world (cmd 0x0D01 0 (n1 255 ++ zeros 7)) = true ∧
    asked (sets .opened) (cmd 0x0D02 0 (n1 3 ++ zeros 7)) = true ∧
    asked (withSet (set3 .opened [])) (checkCmd 0) = true ∧
    checkCmds relasTable [] (took (withSet (set3 .opened [])) (checkCmd 0)) = none ∧
    asked (withSet (set3 .opened [cmd 0x0102 769 (n2 9 ++ n2 5 ++ zeros 4)])) (checkCmd 0) = true ∧
    checkCmds relasTable [cmd 0x0102 769 (n2 9 ++ n2 5 ++ zeros 4)] linked = some 0 ∧
    asked (withSet (set3 .opened [shardCmd])) (checkCmd 1) = true ∧
    checkCmds relasTable [shardCmd] linked = none ∧
    ((set3 .opened [shardCmd]).references 1).isEmpty = false ∧
    ((set3 .opened [shardCmd]).references 1).filter (fun r => linked.faults.dead.contains r.2.1) = [] ∧
    asked (sets .checked) (cmd 0x0D04 0 (n1 3 ++ zeros 3 ++ n4 9 ++ n8 (2 ^ 40) ++ zeros 64)) = true ∧
    asked (sets .scheduled) (cmd 0x0D05 0 (n1 3 ++ zeros 7)) = true ∧
    asked (sets .turned) (cmd 0x0D06 0 (n1 3 ++ zeros 7)) = true := by decide +kernel

/-- The free values let a DEBUG_UNLOCK through if the unit's debug fuse and its revocations do, and its signature verifies. -/
theorem unlock_allowed {c : RelasCmd} {u : State} {scope : Nat} (e : u.trust.nonce = some ⟨5, 0, scope⟩)
    (g : (u.inn.guests.any fun g => g.id ≠ 0) = false) (n : ∀ K, K = 480000000000 → decide (K < u.now) = false) (f : c.f 17 1 = scope)
    (h : debugDisabled = false) (hr : bit revoked 3 = false) (hv : ∀ b, Config.verifies b = true) : opDebugUnlock.denied c u = false := by
  have d : opDebugUnlock.denied c u = (decide (c.f 16 1 = 1) && (debugDisabled || (match u.trust.nonce with
      | none => true
      | some n => decide (n.time + 480000000000 < u.now) || n.scope != c.f 17 1 || bit revoked 3 ||
          !Config.verifies (leBytes 48 n.value ++ serial ++ slice c.bytes 17 1 ++ slice c.bytes 24 104)) ||
      (bit (c.f 17 1) 1 && u.inn.guests.any fun g => g.id ≠ 0))) := rfl
  obtain ⟨K, hK⟩ : ∃ K, K = 480000000000 := ⟨_, rfl⟩
  rw [← hK, e, h, g] at d
  rw [d]
  simp only [f, hr, hv, Nat.zero_add, n K hK]
  simp

theorem unlock_asked {s : State} {c : RelasCmd} (r : (relasOpOf c).getD opUnknown = opDebugUnlock)
    (k : catRow c.opcode = some ⟨0x0B04, false, .no, false, false⟩) (d : opDebugUnlock.denied c (took s c) = false)
    (rest : (!c.stage && (ask s c).delivered c && !(ask s c).serial c && opDebugUnlock.wellMade ⟨0x0B04, false, .no, false, false⟩ c (took s c) &&
      (took s c).inn.sets.isEmpty && (opDebugUnlock.effect c (ask s c).inn.nextTicket (took s c)).1.verifiedHold relasTable &&
      ((took s c).scheduledTouch relasTable (opDebugUnlock.objects c)).isNone && (opDebugUnlock.limits c (took s c)).isNone &&
      (opDebugUnlock.conflict c (took s c)).isNone) = true) : asked s c = true := by
  simp only [Bool.and_eq_true, Bool.not_eq_true', List.isEmpty_iff] at rest
  obtain ⟨⟨⟨⟨⟨⟨⟨⟨h1, h2⟩, h3⟩, h4⟩, h5⟩, h6⟩, h7⟩, h8⟩, h9⟩ := rest
  unfold took at d h4 h5 h6 h7 h8 h9
  have e : ((ask s c).taken c).inn.nextTicket = (ask s c).inn.nextTicket := by cases c with | mk ch b => cases ch <;> rfl
  simp [asked, served, k, r, RelasOp.accepts, d, h1, h2, h3, h4, h7, h8, h9, e, h6]

theorem test_witness_TrustCommands_grant (h : debugDisabled = false) (hr : bit revoked 3 = false) (hv : ∀ b, Config.verifies b = true) :
    asked (nonced 5) (unlockCmd 5) = true ∧ asked (nonced 7) (unlockCmd 7) = true :=
  ⟨unlock_asked (by rfl) (by decide +kernel) (unlock_allowed (scope := 5) (by decide +kernel) (by decide +kernel) (fun _ h => h ▸ by decide +kernel)
      (by decide +kernel) h hr hv) (by decide +kernel),
    unlock_asked (by rfl) (by decide +kernel) (unlock_allowed (scope := 7) (by decide +kernel) (by decide +kernel) (fun _ h => h ▸ by decide +kernel)
      (by decide +kernel) h hr hv) (by decide +kernel)⟩

def scheduled3 : ConfigSet := set3 .scheduled []
def vetoed3 : ConfigSet := { scheduled3 with vetoer := some 2 }
def verified3 : ConfigSet := { scheduled3 with verified := true }
def checking : State := at' 8000000 { linked with inn := { linked.inn with
  sets := [set3 .opened [shardCmd]], checks := [⟨checkCmd 1, [(2048, 2, 0)], [], 0⟩] } }
def pulling : State := { linked with store := { linked.store with pulls := [⟨0, gpaOf 2 0, mib2, false, 1⟩] } }
/-- A MAILBOX message of agent 5 over the jetty: channel 0 and a COVE_QUERY command. -/
def mboxMsg (via : Nat) (dest : Nat) : SxfMsg := ⟨via, 3, SxfMsg.reqUnit Sxf.mailbox false false 2 1 24 5 (gpaOf dest 0), n2 0x0206 ++ n2 1 ++ n2 24 ++ zeros 10 ++ n2 1 ++ zeros 6 ++ zeros 8⟩

theorem test_witness_SetEvents :
    (at' 9500000 (withSet scheduled3)).set 3 = some scheduled3 ∧
    scheduled3.turnTime ≤ (at' 9500000 (withSet scheduled3)).now + 800000 ∧
    scheduled3.turnTime ≤ (at' 10000000 (withSet vetoed3)).now ∧
    (at' 10000000 (withSet vetoed3)).set 3 = some vetoed3 ∧
    ((at' 10000000 (withSet vetoed3)).before 10000000 3).isEmpty = true ∧
    (at' 10000000 (withSet verified3)).set 3 = some verified3 ∧
    ((at' 10000000 (withSet verified3)).before 10000000 3).isEmpty = true ∧
    ((checking.inn.checks.find? fun k => k.waiting.any fun w => w.1 = 2048).any fun k => k.began + 8000000 ≤ checking.now) = true ∧
    (withSet scheduled3).portRefusal (req Sxf.veto 1 (gpaOf 1 9) []) = none ∧
    ((withSet scheduled3).scheduled.find? fun x => bits (req Sxf.veto 1 (gpaOf 1 9) []).unit0 102 71 ≠ 0 ∧
      x.tag = bits (req Sxf.veto 1 (gpaOf 1 9) []).unit0 102 71 ∧ (withSet scheduled3).now < x.turnTime) = some scheduled3 ∧
    linked.portRefusal (mboxMsg 4 1) = none ∧
    linked.inn.booted = true ∧
    (linked.chanRec (.sxf 4 0)).outstanding = [] ∧
    linked.portRefusal (mboxMsg 3 1) = none ∧
    (mboxMsg 3 1).dest = linked.self ∧
    pulling.portRefusal (rsp Sxf.mailboxRsp 1 0 0 0 (zeros 32)) = none ∧
    (rsp Sxf.mailboxRsp 1 0 0 0 (zeros 32)).tag = 1 ∧
    ((pulling.store.pulls.find? fun p => p.index + 1 = 1 ∧ !p.confirmed)).isSome = true ∧
    (rsp Sxf.mailboxRsp 2048 0 0 0 (zeros 32)).tag = 2048 := by decide +kernel

def firm : State := { world with inn := { world.inn with fw := { world.inn.fw with slotB := ⟨[], true⟩ } } }
def activating : State := { world with inn := { world.inn with fw := { world.inn.fw with activating := some 1, started := 0 } } }

theorem test_witness_FirmwareCommands :
    asked world (cmd 0x0F01 0 (n1 1 ++ zeros 3 ++ n4 8 ++ zeros 8)) = true ∧
    asked world (cmd 0x0F02 0 (n1 1 ++ zeros 7)) = true ∧
    asked firm (cmd 0x0F03 0 (n1 1 ++ n1 0 ++ zeros 6)) = true ∧
    asked world (cmd 0x0F04 0 (zeros 8)) = true ∧
    (at' 4000000000 activating).inn.fw.activating = some 1 ∧
    ¬ (at' 4000000000 activating).now < (at' 4000000000 activating).inn.fw.started + 4000000000 ∧
    world.inn.booted = true := by decide +kernel

def goal0 (st : DevState) : State := { world with power := { world.power with goal := some ⟨0, 1⟩, state := st } }
def offlining : State := { world with power := { world.power with state := .draining, offline := true } }
def cap (t : Nat) : State := at' t { world with power := { world.power with capNext := some (500, 80000000) } }
def held : State := { world with power := { world.power with resetHeld := true } }

theorem test_witness_PowerEvents :
    asked world (cmd 0x0E01 0 (n2 700 ++ zeros 6 ++ n8 0)) = true ∧
    asked world (cmd 0x0E02 0 (zeros 8)) = true ∧
    asked world (cmd 0x0E03 0 (n1 2 ++ n1 1 ++ zeros 6)) = true ∧
    (goal0 .service).power.goal = some ⟨0, 1⟩ ∧ (goal0 .service).guestWork = 0 ∧
    offlining.queues.descs = [] ∧
    offlining.plainWork = false ∧
    (cap 80000000).power.thermalNext = none ∧
    80000000 ≤ (cap 80000000).now ∧
    world.power.rails.contains 0 = true ∧
    world.power.resetHeld = false ∧
    held.power.resetHeld = true ∧
    held.railsGood = true ∧
    held.power.state ≠ .off := by decide +kernel

def waking (booted : Bool) : State := { world with power := { world.power with state := .waking }, inn := { world.inn with booted := booted } }
def port0 (up perst : Bool) (s : State) : State := { s with host := { s.host with ports := [{ HostPort.fresh 0 with up := up, perst := perst }] } }

theorem test_witness_StartEvents :
    world.power.rails.contains 10 = false ∧
    (waking false).power.state = .waking ∧
    (waking false).inn.booted = false ∧
    (waking false).inn.fw.next = 0 ∧
    (waking true).inn.booted = true ∧
    (waking true).power.resetHeld = false ∧
    anyAt (List.replicate 26 10000) 5 = true ∧
    anyAt (List.replicate 26 0) 5 = false ∧
    anyAt (List.replicate 26 0) 0 = false ∧
    (port0 true true world).port 0 = some { HostPort.fresh 0 with up := true, perst := true } := by decide +kernel

def ported : State := port0 true false world
/-- An access of host port 0: BAR, offset, width, write, data. -/
def acc (bar off width : Nat) (write : Bool) (data : Nat) : RegAccess := ⟨.host 0, 0, bar, off, width, write, data⟩

theorem test_witness_RegisterAccess :
    hostReaches (acc 0 0x1010 4 false 0) 0 ported = true ∧
    regAllowed (acc 0 0x1012 4 true 0) = false ∧
    regAllowed (acc 0 0x1010 4 false 0) = true ∧
    placeOf 0 0x1010 = .shore 0x1010 ∧
    regAllowed (acc 0 0x1014 4 false 0) = true ∧
    placeOf 0 0x1014 = .shore 0x1010 ∧
    regAllowed (acc 0 0x1118 8 false 0) = true ∧
    placeOf 0 0x1118 = .perView 0x1118 ∧
    regAllowed (acc 0 0x1120 8 false 0) = true ∧
    placeOf 0 0x1120 = .perView 0x1120 ∧
    regAllowed (acc 0 0x1100 8 true 1) = true ∧
    placeOf 0 0x1100 = .perView 0x1100 ∧
    regLow (acc 0 0x1108 8 true 1) = true ∧
    placeOf 0 0x1108 = .perView 0x1108 ∧
    placeOf 0 0x1110 = .perView 0x1110 ∧
    placeOf 0 0x10008 = .mbxRegister 0 8 ∧
    bit (regPlaced (acc 0 0x10008 8 true 4)) 2 = true ∧
    placeOf 0 0x2E010 = .mbxRegister 15 0x10 ∧
    placeOf 0 0x100FC = .reserved ∧
    placeOf 0 0x10100 = .mbxCmd 0 0 ∧
    placeOf 0 0x2F0F8 = .mbxCmd 15 0xFF8 := by decide +kernel

/-- A queue pair that another host port's guest owns, and a mailbox that is busy. -/
def ringing : State := { ported with
  inn := { ported.inn with
    guests := [Guest.system, { guest1 with ownerPort := 2 }], boxes := [⟨0, 0, zeros 4096, [], true, false, false, false, 0, false⟩] }
  queues := { ported.queues with sqs := [{ sq0 with stopped := true, errWrite := 3 }, { sq0 with id := 1, guest := 1 }], cqs := [{ cq0 with write := 5 }] } }
def regMsg (op : Nat) (bar0 wide : Bool) (off : Nat) (units : List Byte) : SxfMsg := ⟨4, 1, SxfMsg.reqUnit op bar0 wide 0 9 1 5 off, units⟩
def ringingJetty : State := { linked with queues := { linked.queues with sqs := [{ sq0 with guest := 1 }] } }

theorem test_witness_Doorbells :
    hostReaches (acc 1 0 8 true 63) 0 ringing = true ∧
    regAllowed (acc 1 0 8 true 63) = true ∧
    placeOf 1 0 = .doorbell 0 0 ∧
    (ringing.sq 0).any (fun x => ringing.mayUse (.host 0) 0 x.guest) = true ∧
    placeOf 1 0x1000 = .doorbell 1 0 ∧
    (ringing.sq 1).any (fun x => !ringing.mayUse (.host 0) 0 x.guest) = true ∧
    placeOf 1 8 = .doorbell 0 1 ∧
    headFits 64 0 5 5 = true ∧
    (ringing.cq 0).any (fun x => x.depth = 64 ∧ x.head = 0 ∧ x.write = 5) = true ∧
    placeOf 1 0x10 = .doorbell 0 2 ∧
    (ringing.sq 0).any (fun x => headFits x.errDepth x.errHead x.errWrite (regPlaced (acc 1 0x10 8 true 0x10003) % 2 ^ 16)) = true ∧
    bit (regPlaced (acc 1 0x10 8 true 0x10003)) 16 = true ∧
    bit (regPlaced (acc 1 0x10 8 true 3)) 16 = false ∧
    placeOf 0 0x10000 = .mbxRegister 0 0 ∧
    (ringing.box 0 0).busy = true ∧
    (ported.box 0 0).busy = false ∧
    linked.portRefusal (regMsg Sxf.regRead false true 0x1010 []) = none ∧
    linked.jettyReads (regAccessOf (regMsg Sxf.regRead false true 0x1010 []) false) = true ∧
    regAllowed (regAccessOf (regMsg Sxf.regRead false true 0x1010 []) false) = true ∧
    ringingJetty.portRefusal (regMsg Sxf.regWrite true true 0 (zeros 16)) = none ∧
    ringingJetty.jettyWrites (regAccessOf (regMsg Sxf.regWrite true true 0 (zeros 16)) true) = true ∧
    placeOf (regAccessOf (regMsg Sxf.regWrite true true 0 (zeros 16)) true).bar 0 = .doorbell 0 0 := by decide +kernel

def fillOf (len start : Nat) : Desc := { job (head16 0x11 0 1 ++ n8 0 ++ n8 len ++ n8 start ++ n8 7 ++ n1 3 ++ zeros 15)
  [[⟨gpaOf 1 0x100000, len, true, true, true⟩]] with scratch := [] }

def copyOf (src dst len : Nat) : Desc :=
  job (head16 0x10 0 0 ++ n8 0 ++ n8 0 ++ n8 len ++ zeros 24) [[⟨src, len, true, true, true⟩], [⟨dst, len, true, true, true⟩]]
def stageOf (op len : Nat) : Desc := job (head16 op 0 0 ++ n8 0 ++ n4 0 ++ n4 len ++ zeros 32) [[⟨gpaOf 1 0x100000, len, true, true, true⟩]]
def pacedOf (ph : DescPhase) : Desc := { job (head16 0x14 0 1 ++ n8 0 ++ n8 0 ++ n8 64 ++ zeros 24 ++ n8 0 ++ zeros 56)
  [[⟨gpaOf 1 0x100000, 64, true, true, true⟩], [⟨gpaOf 1 0x200000, 64, true, true, true⟩], [⟨gpaOf 1 0x300000, 8, true, true, true⟩]] with phase := ph }
def simple (op : Nat) : Desc := job (head16 op 0 0 ++ n8 0 ++ n8 64 ++ zeros 32) [[⟨gpaOf 1 0x100000, 64, true, true, true⟩]]
def prefetching : Desc := { simple 0x16 with progress := 1 }
def resident1 : State := { working prefetching with store := { (working prefetching).store with harbour := { (working prefetching).store.harbour with
  ways := [⟨0x100000 / granuleSize, .prefer, false, 0, false, [], false⟩] } } }
/-- The state in which the work of a descriptor stands when its access has failed with FAULT_MEDIA. -/
def failing (d : Desc) : Desc := { d with fail := some (0x25, 0) }
def pageReq1 : PageRequest := ⟨9, 0, 1, 0, zeros 64, 0, 1, 0, 0, .sxf, 4, 0, [], []⟩
def walking (t : Nat) : State := at' t { linked with queues := { linked.queues with pageReqs := [pageReq1] } }
def pageRsp : SxfMsg := ⟨4, 2, SxfMsg.rspUnit Sxf.pageResponse false false 0 9 0 0 0 1, []⟩
def stalled : Desc := pacedOf .waiting
/-- A queue pair whose slot 0 holds a NOP, or an unknown opcode. -/
def posted (op : Nat) : State := { linked with
  store := { linked.store with mem := Mem.write linked.store.mem 0 (head16 op 0 0) }
  queues := { linked.queues with sqs := [{ sq0 with tail := 1 }] } }

theorem test_witness_DescriptorLife :
    (posted 0x7F).sq 0 = some { sq0 with tail := 1 } ∧
    (posted 0x7F).fetchable { sq0 with tail := 1 } = true ∧
    headerCheck descTable (posted 0x7F) { sq0 with tail := 1 } ((posted 0x7F).slotBytes { sq0 with tail := 1 } 1) = none ∧
    (posted 0x0F).fetchable { sq0 with tail := 1 } = true ∧
    (headerCheck descTable (posted 0x0F) { sq0 with tail := 1 } ((posted 0x0F).slotBytes { sq0 with tail := 1 } 1)).isSome = true ∧
    (walking 0).pageReq pageRsp.tag .sxf = some pageReq1 ∧
    pageRsp.op = Sxf.pageResponse ∧
    (walking 0).now ≤ pageReq1.sent + (walking 0).pageTimeout pageReq1.guest ∧
    pageReq1.sent + (walking 80000000).pageTimeout pageReq1.guest < (walking 80000000).now ∧
    ((walking 80000000).queues.pageReqs.find? fun p => p.tag = 9 ∧ (p.kind = .sxf ∨ p.kind = .pri)) = some pageReq1 ∧
    (working { simple 0x7F with phase := .admitted }).desc 6 = some { simple 0x7F with phase := .admitted } ∧
    (working { simple 0x7F with phase := .admitted }).fencesAllow { simple 0x7F with phase := .admitted } = true ∧
    ({ working { simple 0x7F with phase := .admitted, bytes := head16 0x7F 1 0 } with
      queues := { linked.queues with descs := [{ simple 0x10 with id := 5 }, { simple 0x7F with phase := .admitted, bytes := head16 0x7F 1 0, seq := 1 }] } }).fencesAllow
      { simple 0x7F with phase := .admitted, bytes := head16 0x7F 1 0, seq := 1 } = false ∧
    (at' 800000 linked).brk.slot < slotOf (at' 800000 linked).now ∧
    (at' 800000 linked).brk.recomputed + 800000 ≤ (at' 800000 linked).now ∧
    (working stalled).desc 6 = some stalled ∧
    (working stalled).bookedEnd stalled ≤ (working stalled).now ∧
    stalled.opcode = 0x14 ∧
    atWork 0x7F 6 (working (simple 0x7F)) (simple 0x7F) = true ∧
    atWork 0x70 6 (working (simple 0x70)) (simple 0x70) = true ∧
    (simple 0x70).latched = false := by decide +kernel

def channelled (c : PorterChannel) : State := at' 40000 { working (simple 0x10) with
  porter := { linked.porter with channels := [c] }
  ord := { linked.ord with outstanding := [⟨7, 3, 0, 0, 2, req 0x26 7 0 [], false, false, some 6, 0⟩] } }

/-- The granule of an address is in the deep tier alone. -/
def sunk (a : Nat) (s : State) : State := { s with deep := { s.deep with map := [⟨a / granuleSize, 0, 0, 1, 0⟩] } }

theorem test_witness_PorterCommands :
    atWork 0x10 6 (working (copyOf (gpaOf 1 0x100000) (gpaOf 1 0x200000) 64)) (copyOf (gpaOf 1 0x100000) (gpaOf 1 0x200000) 64) = true ∧
    atWork 0x11 6 (working (fillOf 64 0)) (fillOf 64 0) = true ∧
    (fillOf 64 0).transfer.len = 64 ∧
    ((working (fillOf 64 0)).moveChunk 6 (fillOf 64 0).transfer 0 64).2 = true ∧
    (((working (fillOf 64 0)).moveChunk 6 (fillOf 64 0).transfer 0 64).1.desc 6).isSome = true ∧
    (fillOf 64 64).transfer.len ≤ (fillOf 64 64).transfer.start + 64 ∧
    ((sunk 0x100000 (working (copyOf (gpaOf 1 0x100000) (gpaOf 1 0x200000) 64))).moveChunk 6
      (copyOf (gpaOf 1 0x100000) (gpaOf 1 0x200000) 64).transfer 0 64).2 = false ∧
    atWork 0x12 6 (working (stageOf 0x12 64)) (stageOf 0x12 64) = true ∧
    atWork 0x13 6 (working (stageOf 0x13 64)) (stageOf 0x13 64) = true ∧
    failedAt 0x10 6 0x25 0 (working (failing (simple 0x10))) (failing (simple 0x10)) = true ∧
    atWork 0x14 6 (working (pacedOf .running)) (pacedOf .running) = true ∧
    atWork 0x14 6 (working stalled) stalled = true ∧
    stalled.wake ≤ (working stalled).now ∧
    atWork 0x15 6 (working (simple 0x15)) (simple 0x15) = true ∧
    bit ((simple 0x15).f 33 1) 0 = false ∧
    atWork 0x16 6 resident1 prefetching = true ∧
    ((resident1.localGranules prefetching 0).all fun g => resident1.store.harbour.resident g) = true ∧
    resident1.localGranules prefetching 0 ≠ [] ∧
    resident1.remoteGranules prefetching 0 = [] ∧
    atWork 0x24 6 (working (simple 0x24)) (simple 0x24) = true ∧
    failedAt 0x24 6 0x25 0 (working (failing (simple 0x24))) (failing (simple 0x24)) = true ∧
    ((channelled ⟨3, .running 6, [], [], none⟩).porter.channels.find? fun c => c.id = 3) = some ⟨3, .running 6, [], [], none⟩ ∧
    ((channelled ⟨3, .running 6, [], [], none⟩).transaction 7).any
      (fun o => decide (o.desc = some 6 ∧ o.sent + 40000 ≤ (channelled ⟨3, .running 6, [], [], none⟩).now)) = true ∧
    ((channelled ⟨3, .running 6, [], [], none⟩).desc 6).any Desc.porter = true ∧
    ((channelled ⟨3, .idle, [], [], some 40000⟩).porter.channels.find? fun c => c.id = 3) = some ⟨3, .idle, [], [], some 40000⟩ := by decide +kernel

def reduceF (kind grp fmt first count start : Nat) : Desc :=
  jobF 0x20 128 [(16, 2, grp), (18, 1, kind), (19, 1, fmt), (40, 8, first), (48, 8, count), (56, 8, start)] [rg 0 64]
def consume (op grp first count start : Nat) : Desc := jobF op 128 [(16, 2, grp), (40, 8, first), (48, 8, count), (56, 8, start)] [rg 0 64, rg 1 64, rg 2 64, rg 3 64]
def expired : State := at' 80000 { yard with red := { yard.red with groups := [{ group1 with insts := [⟨0, 0, .filling, 1, some 0, List.replicate 8 .zero⟩] }] } }
/-- A RED message of one FP32 element 0: group, format, count, then ROUND 0, participant 0 and the data. -/
def redMsg (grp fmt count : Nat) (data : List Byte) : SxfMsg :=
  ⟨3, 1, SxfMsg.reqUnit Sxf.red false false 2 1 0 0 (grp + fmt * 2 ^ 10 + count * 2 ^ 18 + 2 ^ 48), zeros 16 ++ data⟩
def completeG : State := { yard with red := { yard.red with groups := [{ group1 with insts := [⟨0, 0, .complete, 16, some 0, List.replicate 8 .zero⟩] }] } }

theorem test_witness_ReduceCommands :
    (toiling (reduceF 1 1 0 0 0 0)).group 1 = some group1 ∧
    ([0, 1, 2].all fun k => atWork 0x20 6 (toiling (reduceF k 1 0 0 8 0)) (reduceF k 1 0 0 8 0) && (reduceF k 1 0 0 8 0).f 18 1 == k) = true ∧
    (contribFmt ((reduceF 0 1 0 0 8 0).f 19 1)).isSome = true ∧
    (reduceF 0 1 0 0 8 8).elemEnd ≤ (reduceF 0 1 0 0 8 8).elemNow ∧
    (reduceF 0 1 0 0 8 0).elemNow < (reduceF 0 1 0 0 8 0).elemEnd ∧
    ((contribFmt 0).any fun f => (((toiling (reduceF 0 1 0 0 8 0)).contributePiece (reduceF 0 1 0 0 8 0) group1 f).desc 6).isSome) = true ∧
    yard.group 2 = none ∧
    ([0x21, 0x22, 0x23].all fun op => atWork op 6 (toiling (consume op 2 0 8 0)) (consume op 2 0 8 0) &&
      atWork op 6 (toiling (consume op 1 0 8 8)) (consume op 1 0 8 8) &&
      decide ((consume op 1 0 8 8).elemEnd ≤ (consume op 1 0 8 8).elemNow ∧ (consume op 1 0 8 0).elemNow < (consume op 1 0 8 0).elemEnd) &&
      (((toiling (consume op 1 0 8 0)).consumerInst (consume op 1 0 8 0) group1).desc 6).isSome &&
      failedAt op 6 0x25 0 (toiling (failing (consume op 1 0 8 0))) (failing (consume op 1 0 8 0))) = true ∧
    ((expired.group 1).any fun g => (g.inst 0 0).any (fun k => k.state = .filling) && decide (expired.instAt g 0 0 = .failed)) = true ∧
    (redMsg 1 0 1 (zeros 16)).op = Sxf.red ∧
    yard.portRefusal (redMsg 1 0 1 (zeros 16)) = none ∧
    redFrameBad (redMsg 1 0 1 (zeros 16)) = false ∧
    yard.fabric.hasShore (redMsg 1 0 1 (zeros 16)).dest = true ∧
    (redMsg 1 0 1 (zeros 16)).dest = yard.self ∧
    yard.redRefusal (redMsg 2 0 1 (zeros 16)) = some (Status.refusedNotReady, Cause.groupClosed, 0) ∧
    completeG.redRefusal (redMsg 1 0 1 (zeros 16)) = some (Status.refusedFormat, Cause.excess, 0) ∧
    yard.redRefusal (redMsg 1 0 1 (zeros 16)) = none ∧
    ((contribFmt 0).any fun f => (yard.addRecord 1 ⟨0, 0, 256, 0, 0, 1, zeros 4, false, []⟩
      ((decodeVec f 1 (zeros 4) []).map fun x => (x, false))).2 == 1) = true := by decide +kernel

/-- Table 0's gather of four rows, as far as `progress` and in a stage. -/
def gather (stage start : Nat) : Desc := { jobF 0x30 128 [(16, 2, 0), (19, 1, 0), (32, 4, 4), (112, 4, start)] [rg 0 16, [], [], rg 1 512, [], []] with
  aux := [stage], scratch := [0, 1, 2, 3] }
def row0 : RowRead := ⟨0, 0, 0, none, false, .primary, 0, true, zeros 128, []⟩
def scatter (stage n : Nat) : Desc := { jobF 0x31 128 [(16, 2, 0), (18, 1, 0), (24, 4, 4)] [rg 0 16, rg 1 512] with
  aux := [stage], rows := [row0, { row0 with row := 1 }], progress := n, scratch := [0, 1] }
def replace (tbl n : Nat) : Desc := { jobF 0x32 128 [(16, 2, tbl), (32, 4, 2)] [rg 0 16, rg 1 512] with progress := n }
def rowMsg (dest : Nat) : SxfMsg := ⟨3, 1, SxfMsg.rowUnit dest 0 1 0 0 1 2 false, []⟩

theorem test_witness_TableWork :
    ([0x30, 0x31, 0x32].all fun op => failedAt op 6 0x25 0 (toiling (failing (jobF op 128 [] []))) (failing (jobF op 128 [] []))) = true ∧
    atWork 0x30 6 (toiling (gather stageIndex 0)) (gather stageIndex 0) = true ∧
    ((toiling (gather stageIndex 0)).workTable (gather stageIndex 0)).isSome = true ∧
    (gather stageIndex 0).gFmt.isSome = true ∧
    (gather stageClassify 0).auxAt 0 = stageClassify ∧
    atWork 0x30 6 (toiling (gather 9 4)) (gather 9 4) = true ∧
    (gather 9 4).gOutputs ≤ (gather 9 4).f 112 4 ∧
    (gather 9 0).f 112 4 < (gather 9 0).gOutputs ∧
    ((gather 9 0).gFmt.any fun f => ((toiling (gather 9 0)).workTable (gather 9 0)).any fun t =>
      (((toiling (gather 9 0)).gatherChunk (gather 9 0) t f).desc 6).isSome) = true ∧
    atWork 0x31 6 (toiling (scatter stageIndex 0)) (scatter stageIndex 0) = true ∧
    (scatterFmt ((scatter stageIndex 0).f 18 1)).isSome = true ∧
    atWork 0x31 6 (toiling (scatter 1 2)) (scatter 1 2) = true ∧
    (scatter 1 2).rows.length ≤ (scatter 1 2).progress ∧
    (scatter 1 0).rows[(scatter 1 0).progress]? = some row0 ∧
    ((scatterFmt 0).any fun f => ((toiling (scatter 1 0)).workTable (scatter 1 0)).any fun t =>
      (((toiling (scatter 1 0)).scatterOne (scatter 1 0) t f row0).desc 6).any fun e => e.progress < e.rows.length) = true ∧
    atWork 0x32 6 (toiling (replace 0 2)) (replace 0 2) = true ∧
    (replace 0 2).f 32 4 ≤ (replace 0 2).progress ∧
    (replace 0 0).progress < (replace 0 0).f 32 4 ∧
    (((toiling (replace 0 0)).workTable (replace 0 0)).any fun t =>
      (((toiling (replace 0 0)).replaceOne (replace 0 0) t).desc 6).any fun e => e.progress < e.f 32 4) = true ∧
    ([0x30, 0x31, 0x32].all fun op => atWork op 6 (toiling (jobF op 128 [(16, 2, 5)] [])) (jobF op 128 [(16, 2, 5)] []) &&
      ((toiling (jobF op 128 [(16, 2, 5)] [])).workTable (jobF op 128 [(16, 2, 5)] [])).isNone) = true ∧
    (rowMsg 1).op = Sxf.rowRead ∧
    yard.portRefusal (rowMsg 1).norm = none ∧
    (yard.bundle (rowMsg 1).via).any (fun b => b.kind = .causeway) = true ∧
    (rowMsg 1).dest = yard.self ∧
    yard.portRefusal (rowMsg 2).norm = none ∧
    yard.fabric.hasShore (rowMsg 2).dest = true ∧
    (yard.forward (rowMsg 2)).2 = true ∧
    yard.fabric.hasShore (rowMsg 9).dest = true ∧
    (yard.forward (rowMsg 9)).2 = false := by decide +kernel

/-- A search of four queries in index 0. -/
def seek (stage n : Nat) : Desc := { jobF 0x40 128 [(16, 2, 0), (18, 1, 0), (24, 4, 4)] [rg 0 128, rg 1 1024] with
  aux := [stage], progress := n, bytesBuf := zeros 128 }
def vecOf (op idx n : Nat) : Desc :=
  { jobF op 128 [(16, 2, idx), (20, 4, if op = 0x41 then 4 else 0), (32, 4, if op = 0x41 then 0 else 4)] [rg 0 128, rg 1 32, rg 2 16, rg 3 16] with progress := n }
def mergeOf (n : Nat) : Desc := { jobF 0x43 64 [(16, 2, 0), (20, 4, 0), (24, 4, 2)] [] with progress := n }
def drifted (n : Nat) : Index := { indexOf indexCmd with content := [⟨0, (List.range n).map fun i => ⟨i, 0, 0, i, false, false, zeros 8, false, none⟩⟩] }
def adrift (n : Nat) : State := { yard with indices := { yard.indices with list := [drifted n] } }
def searchMsg (dest : Nat) : SxfMsg := ⟨3, 1, SxfMsg.reqUnit Sxf.search false false 2 1 0 0 (dest * 2 ^ 48), zeros 48⟩

theorem test_witness_IndexWork :
    atWork 0x40 6 (toiling (seek stageIndex 0)) (seek stageIndex 0) = true ∧
    (yard.index 0).isSome = true ∧
    (queryElem 0).isSome = true ∧
    atWork 0x40 6 (toiling (seek 1 4)) (seek 1 4) = true ∧
    (seek 1 4).f 24 4 ≤ (seek 1 4).f 80 4 + (seek 1 4).progress ∧
    (seek 1 0).f 80 4 + (seek 1 0).progress < (seek 1 0).f 24 4 ∧
    ((queryElem 0).any fun e => (yard.index 0).any fun x => ((toiling (seek 1 0)).searchQuery (seek 1 0) x e).desc 6 |>.any
      fun k => k.f 80 4 + k.progress < k.f 24 4) = true ∧
    failedAt 0x40 6 0x25 0 (toiling (failing (seek 1 0))) (failing (seek 1 0)) = true ∧
    ([0x41, 0x42].all fun op => atWork op 6 (toiling (vecOf op 0 4)) (vecOf op 0 4) && atWork op 6 (toiling (vecOf op 9 0)) (vecOf op 9 0) &&
      decide ((vecOf op 0 4).vecN ≤ (vecOf op 0 4).vecStart + (vecOf op 0 4).progress ∧
        (vecOf op 0 0).vecStart + (vecOf op 0 0).progress < (vecOf op 0 0).vecN) &&
      failedAt op 6 0x25 0 (toiling (failing (vecOf op 0 0))) (failing (vecOf op 0 0))) = true ∧
    ((yard.index 0).any fun x => (((toiling (vecOf 0x41 0 0)).insertOne (vecOf 0x41 0 0) x).desc 6).any fun e => e.vecStart + e.progress < e.vecN) = true ∧
    ((yard.index 0).any fun x => (((toiling (vecOf 0x42 0 0)).deleteOne (vecOf 0x42 0 0) x).desc 6).any fun e => e.vecStart + e.progress < e.vecN) = true ∧
    yard.index 9 = none ∧
    atWork 0x43 6 (toiling (mergeOf 2)) (mergeOf 2) = true ∧
    (mergeOf 2).f 24 4 ≤ (mergeOf 2).progress ∧
    (mergeOf 0).progress < (mergeOf 0).f 24 4 ∧
    (((toiling (mergeOf 0)).mergeList 0 0).1.desc 6).isSome = true ∧
    ((adrift 48).index 0).any (fun x => decide (3 * x.driftCap ≤ 4 * x.drift 0)) = true ∧
    ((adrift 1).index 0).any (fun x => decide (4 * x.drift 0 < 3 * x.driftCap ∧ 4 * x.driftAll < 3 * x.driftPool)) = true ∧
    yard.portRefusal (searchMsg 1) = none ∧
    (searchMsg 1).op = Sxf.search ∧
    yard.fabric.hasShore (searchMsg 1).dest = true ∧
    (searchMsg 1).dest = yard.self ∧
    yard.portRefusal (searchMsg 2) = none ∧
    (yard.forward (searchMsg 2)).2 = true := by decide +kernel

def append (set n : Nat) : Desc := jobF 0x50 64 [(16, 2, set), (20, 4, 0), (24, 4, n)] [[⟨gpaOf 1 0x4000000, 65536 * 64, true, true, true⟩]]
/-- The set with a page already, or a sequence of 16,777,216 tokens. -/
def kvSeq (q len dir : Nat) (s : State) : State := match s.kvSet 0 with
  | some k => { s with store := { s.store with mem := Mem.write s.store.mem (k.seqOff q) (leBytes 4 len ++ leBytes 4 dir ++ zeros 8) } }
  | none => s
def forkOf (set op src dst n : Nat) : Desc := jobF 0x52 64 [(16, 2, set), (18, 1, op), (20, 4, src), (24, 4, dst), (28, 4, n)] []
def kvGatherOf (set stage n : Nat) : Desc := { jobF 0x51 128 [(16, 2, set), (28, 4, 0), (32, 4, 40), (38, 2, 1)] [rg 0 65536, rg 1 65536, rg 2 64] with
  aux := [stage], progress := n, scratch := [noEntry, noEntry, noEntry] }
/-- Sequence 0 holds `len` tokens; its directory, its leaf and its pages are block 0 and pages 0–7, all with one reference and one token. -/
def paged (len : Nat) (s : State) : State := match (kvSeq 0 len 0 s).kvSet 0 with
  | some k => { kvSeq 0 len 0 s with store := { (kvSeq 0 len 0 s).store with
      mem := Mem.write (kvSeq 0 len 0 s).store.mem (k.infoOff 0) ((List.replicate 8 [1, 0, 1, 0]).flatten) } }
  | none => s
/-- The append of a descriptor stands with its reads at hand. -/
def readyK (s : State) (d : Desc) : State × Bool := match s.kvSet 0 with
  | some k => s.readyRead 6 (d.pieces 0 0 (d.f 24 4 * k.tb) ++
      s.tablePieces k none (d.f 20 4) ((s.seqEntry k none (d.f 20 4)).1 / k.p) (ceilDiv ((s.seqEntry k none (d.f 20 4)).1 % k.p + d.f 24 4) k.p))
  | none => (s, false)

theorem test_witness_KvWork :
    atWork 0x50 6 (toiling (append 0 2)) (append 0 2) = true ∧
    (yard.kvSet 0).isSome = true ∧
    (append 0 2).auxAt 0 = 0 ∧
    (readyK (sunk 0x4000000 (toiling (append 0 2))) (append 0 2)).2 = false ∧
    ((readyK (sunk 0x4000000 (toiling (append 0 2))) (append 0 2)).1.desc 6).isSome = true ∧
    (readyK (paged 1 (toiling (append 0 2))) (append 0 2)).2 = true ∧
    ((yard.kvSet 0).any fun k => ((paged 1 (toiling (append 0 2))).appendTokens (append 0 2) k).any fun g => (g.s.desc 6).any fun e => e.awaiting.isEmpty) = true ∧
    ((yard.kvSet 0).any fun k => ((paged 16 (toiling (append 0 2))).appendTokens (append 0 2) k).isNone) = true ∧
    (readyK (paged 16 (toiling (append 0 2))) (append 0 2)).2 = true ∧
    (readyK (kvSeq 0 16777216 0 (toiling (append 0 1))) (append 0 1)).2 = true ∧
    ((yard.kvSet 0).any fun k => 16777216 < ((kvSeq 0 16777216 0 (toiling (append 0 1))).seqEntry k none 0).1 + 1) = true ∧
    atWork 0x52 6 (toiling (forkOf 0 0 0 1 0)) (forkOf 0 0 0 1 0) = true ∧
    ((yard.kvSet 0).any fun k => match (toiling (forkOf 0 0 0 1 0)).forkSeq (forkOf 0 0 0 1 0) k with
      | .ok _ => true
      | .error _ => false) = true ∧
    ((yard.kvSet 0).any fun k => match (toiling (forkOf 0 0 0 1 7)).forkSeq (forkOf 0 0 0 1 7) k with
      | .ok _ => false
      | .error ca => ca == Cause.shortSource) = true ∧
    atWork 0x52 6 (toiling (forkOf 0 1 0 0 7)) (forkOf 0 1 0 0 7) = true ∧
    atWork 0x51 6 (toiling (kvGatherOf 0 stageIndex 0)) (kvGatherOf 0 stageIndex 0) = true ∧
    atWork 0x51 6 (toiling (kvGatherOf 0 1 3)) (kvGatherOf 0 1 3) = true ∧
    ((yard.kvSet 0).any fun k => (kvGatherOf 0 1 3).kPages k ≤ (kvGatherOf 0 1 3).kSkip k + (kvGatherOf 0 1 3).progress) = true ∧
    ((yard.kvSet 0).any fun k => (kvGatherOf 0 1 0).kSkip k + (kvGatherOf 0 1 0).progress < (kvGatherOf 0 1 0).kPages k) = true ∧
    ((yard.kvSet 0).any fun k => (((toiling (kvGatherOf 0 1 0)).kvNext (kvGatherOf 0 1 0) k).desc 6).any fun e => e.kSkip k + e.progress < e.kPages k) = true ∧
    yard.kvSet 9 = none ∧
    atWork 0x50 6 (toiling (append 9 1)) (append 9 1) = true ∧
    atWork 0x51 6 (toiling (kvGatherOf 9 0 0)) (kvGatherOf 9 0 0) = true ∧
    atWork 0x52 6 (toiling (forkOf 9 0 0 1 0)) (forkOf 9 0 0 1 0) = true ∧
    atWork 0x52 6 (toiling (forkOf 9 1 0 1 0)) (forkOf 9 1 0 1 0) = true ∧
    failedAt 0x50 6 0x25 0 (toiling (failing (append 0 1))) (failing (append 0 1)) = true ∧
    failedAt 0x51 6 0x25 0 (toiling (failing (kvGatherOf 0 0 0))) (failing (kvGatherOf 0 0 0)) = true := by decide +kernel

def bdesc (op fn opt value : Nat) : Desc := jobF op 64 [(16, 8, gpaOf 1 7), (24, 1, fn), (25, 1, opt), (32, 8, value)] []
def bollMsg (dest addr fn value timeout : Nat) : SxfMsg :=
  ⟨3, 1, SxfMsg.reqUnit Sxf.bollard false false 2 1 0 0 (gpaOf dest addr), leBytes 4 (fn + timeout * 16) ++ zeros 4 ++ leBytes 8 value⟩
def wait1 (t : Nat) : State := at' t { yard with boll := { yard.boll with waits := [⟨1, 7, 0, 0, 6, none, 800, .desc 6⟩] } }

theorem test_witness_BollardWork :
    ([0x60, 0x61, 0x62].all fun op => atWork op 6 (toiling (bdesc op 0 0 5)) (bdesc op 0 0 5)) = true ∧
    bollardAddr (bdesc 0x60 0 0 5).bollard = some (yard.self, 7) ∧
    yard.bollard 7 = some boll0 ∧
    condHolds 0 boll0.value.toNat 5 = true ∧
    condHolds 0 boll0.value.toNat 6 = false ∧
    atWork 0x61 6 (toiling (bdesc 0x61 0 1 6)) (bdesc 0x61 0 1 6) = true ∧
    ((wait1 800).boll.waits.find? fun k => k.id = 1).any (fun x => decide (x.expires ≤ (wait1 800).now)) = true ∧
    yard.portRefusal (bollMsg 1 9 0 5 0) = none ∧
    (bollMsg 1 9 0 5 0).op = Sxf.bollard ∧
    (bollMsg 1 9 0 5 0).dest = yard.self ∧
    (yard.bollardRefusal (bollMsg 1 9 0 5 0) 0 0).isSome = true ∧
    yard.portRefusal (bollMsg 1 7 0 9 0) = none ∧
    yard.bollardRefusal (bollMsg 1 7 0 9 0) ((bollMsg 1 7 0 9 0).f 0 1 % 16) (bits ((bollMsg 1 7 0 9 0).f 0 4) 27 4) = none ∧
    yard.bollardAt (bollMsg 1 7 0 9 0).gpa = some boll0 ∧
    (yard.bollardOp boll0 0 9 0 0 (.sxf (bollMsg 1 7 0 9 0))).2.1 = some (5, true) ∧
    yard.bollardRefusal (bollMsg 1 7 4 9 100) ((bollMsg 1 7 4 9 100).f 0 1 % 16) (bits ((bollMsg 1 7 4 9 100).f 0 4) 27 4) = none ∧
    (yard.bollardOp boll0 4 9 800000 0 (.sxf (bollMsg 1 7 4 9 100))).2.1 = none ∧
    yard.portRefusal (bollMsg 511 7 0 9 0) = none ∧
    { yard with fabric := { yard.fabric with dimZ := 4 } }.fabric.hasShore (bollMsg 511 7 0 9 0).dest = false ∧
    wellFramed (rsp Sxf.bollardValue 1 0 0 0 []) = true ∧
    wellFramed (rsp Sxf.bollardValue 1 0 0 0 (zeros 16)) = false := by decide +kernel

/-- A snapshot descriptor on a range: its first address, the tidemark or time fields and its binding. -/
def snapJob (op : Nat) (fs : List (Nat × Nat × Nat)) (gpa : Nat) (b : Option (Nat × Nat)) : Desc :=
  { jobF op 64 fs [[⟨gpa, 2 ^ 21, true, true, true⟩]] with binding := b }
def snap1 (st : SnapState) (holder : Option Nat) (remote : Option (Nat × Nat)) : Snapshot := ⟨3, 2, 0, 4, st, false, remote, holder, gpaOf 1 (2 ^ 30), 2 ^ 30⟩
def snapped (x : Snapshot) (d : Desc) : State := { toiling d with store := { (toiling d).store with snaps := [x] } }
def inCove2 : Nat := gpaOf 1 (2 ^ 30)
def holdMsg (op : Nat) (unit : List Byte) : SxfMsg := ⟨3, 1, SxfMsg.reqUnit op false false 2 1 0 0 (gpaOf 1 0), unit⟩
def published (t p : Nat) : State := at' t (let s := toiling (snapJob 0x6A [] inCove2 none)
  s.setCove 2 fun c => { c with versions := some ⟨0, [(1, p)], [], [], []⟩ })

theorem test_witness_SnapshotWork :
    atWork 0x68 6 (toiling (snapJob 0x68 [] inCove2 (some (2, 0)))) (snapJob 0x68 [] inCove2 (some (2, 0))) = true ∧
    atWork 0x68 6 (toiling (snapJob 0x68 [] (gpaOf 2 0) none)) (snapJob 0x68 [] (gpaOf 2 0) none) = true ∧
    yard.isHere (snapJob 0x68 [] (gpaOf 2 0) none).gpa0 = false ∧
    ((toiling (snapJob 0x68 [] (gpaOf 2 0) none)).sendWork (snapJob 0x68 [] (gpaOf 2 0) none) Sxf.remoteHold false (gpaOf 2 0)
      (holdUnit 0 (gpaOf 2 0) 0 false false)).2 = some 0 ∧
    atWork 0x69 6 (snapped (snap1 .opened none none) (snapJob 0x69 [(16, 2, 3)] inCove2 none)) (snapJob 0x69 [(16, 2, 3)] inCove2 none) = true ∧
    (snapped (snap1 .opened none none) (snapJob 0x69 [(16, 2, 3)] inCove2 none)).snapOf 3 0 = some (snap1 .opened none none) ∧
    atWork 0x6A 6 (published 8000 0) (snapJob 0x6A [] inCove2 none) = true ∧
    ((published 8000 0).coveAt (gpaOffset inCove2)).any (fun c => c.versions.any fun v => v.allPoints == [0]) = true ∧
    0 + 8000 ≤ (published 8000 0).now ∧
    (published 7999 0).now < 0 + 8000 ∧
    (at' 9000 (toiling (snapJob 0x6A [(24, 8, 9000)] inCove2 none))).desc 6 = some (snapJob 0x6A [(24, 8, 9000)] inCove2 none) ∧
    (snapJob 0x6A [(24, 8, 9000)] inCove2 none).f 24 8 ≤ (at' 9000 (toiling (snapJob 0x6A [(24, 8, 9000)] inCove2 none))).now ∧
    yard.portRefusal (holdMsg Sxf.remoteHold (holdUnit 0 0 3 false true)) = none ∧
    bit ((holdMsg Sxf.remoteHold (holdUnit 0 0 3 false true)).f 0 16) 117 = true ∧
    ((snapped (snap1 .opened (some 2) none) (simple 0x70)).store.snaps.find? fun x =>
      x.handle = bits ((holdMsg Sxf.remoteHold (holdUnit 0 0 3 false true)).f 0 16) 115 100 ∧ x.holder = some 2) = some (snap1 .opened (some 2) none) ∧
    bit ((holdMsg Sxf.remoteHold (holdUnit 0 inCove2 0 false false)).f 0 16) 117 = false ∧
    (yard.versionedAt (gpaOffset (bits ((holdMsg Sxf.remoteHold (holdUnit 0 inCove2 0 false false)).f 0 16) 99 64 * mib2))).any (fun y =>
      (yard.selectMark y.1 y.2 0 0 false).isSome && (y.1.grant 0).r && !yard.snapLimit y.1.id 0 && !yard.parityCovers y.1) = true ∧
    yard.portRefusal (holdMsg Sxf.holdBroken (holdUnit 0 0 3 false false)) = none ∧
    yard.cove 2 = some cove2 := by decide +kernel

/-- A read, a write, a masked write and an atomic of eight bytes at an offset of cove 1. -/
def rd (off : Nat) : SxfMsg := greq 0x23 false 1 0 0 (gpaOf 1 off) []
def wr (off : Nat) : SxfMsg := greq 0x2B false 1 0 0 (gpaOf 1 off) (zeros 16)
def wrm (off : Nat) : SxfMsg := greq Sxf.writeMasked false 1 0 0 (gpaOf 1 off) (zeros 80)
def atm (off : Nat) : SxfMsg := greq Sxf.atomic false 1 0 0 (gpaOf 1 off) (leBytes 16 0 ++ zeros 32)

theorem test_witness_PlainRequests :
    servesHere (rd 64) yard = true ∧
    (rd 64).isRead = true ∧
    atHand (gpaOffset (rd 64).gpa) (yard.count 1 0 11 1) = true ∧
    atHand (gpaOffset (rd 64).gpa) ((sunk 64 yard).count 1 0 11 1) = false ∧
    servesHere (rd 64) (sunk 64 yard) = true ∧
    servesHere (wr 64) yard = true ∧
    (wr 64).isWrite = true ∧
    servesHere (wrm 64) yard = true ∧
    (wrm 64).op = Sxf.writeMasked ∧
    servesHere (atm 64) yard = true ∧
    (atm 64).isAtomic = true ∧
    yard.portRefusal (jreq 0x23 9 (gpaOf 1 64) []) = none ∧
    (yard.heldBy 4 5).isEmpty = true ∧
    yard.blocked ((jreq 0x23 9 (gpaOf 1 64) []).retag yard.self 9) = false ∧
    ((jreq 0x23 9 (gpaOf 1 64) []).retag yard.self 9).agent = 5 ∧
    yard.portRefusal (jreq Sxf.atomic 9 (gpaOf 1 64) (zeros 48)) = none ∧
    (jreq Sxf.atomic 9 (gpaOf 1 64) (zeros 48)).isAtomic = true ∧
    { yard with fabric := { yard.fabric with dimZ := 4 } }.fabric.hasShore (greq 0x23 false 1 0 0 (gpaOf 511 64) []).dest = false ∧
    { yard with fabric := { yard.fabric with dimZ := 4 } }.portRefusal (greq 0x23 false 1 0 0 (gpaOf 511 64) []) = none ∧
    yard.target (rd 65) = yard.self ∧
    gpaOffset (rd 65).gpa % (rd 65).size ≠ 0 ∧
    yard.isDelta (rd 65) = false ∧
    yard.faults.selfFenced = false ∧
    yard.allowed 0 (2 ^ 40) 8 .read = false ∧
    yard.isDelta (rd (2 ^ 40)) = false := by decide +kernel

def respMsg (op : Nat) (dest : Nat) : SxfMsg := ⟨3, 2, SxfMsg.rspUnit op false false 2 7 0 0 0 dest, []⟩
/-- The units that a response of an opcode carries. -/
def framed (op : Nat) (dest : Nat) : SxfMsg := { respMsg op dest with units := (unitsLen (respMsg op dest)).elim [] zeros }
def owed (bundle : Nat) (desc : Option Nat) : State := { yard with ord := { yard.ord with outstanding := [⟨7, bundle, 5, 9, 2, rd 0, false, false, desc, 0⟩] } }
def writing : State := { yard with ord := { yard.ord with outstanding := [⟨7, 4, 5, 9, 2, { wr 0 with via := 4 }, true, true, none, 0⟩] } }
def fence (op : Nat) (via : Nat) : SxfMsg := ⟨via, 1, SxfMsg.reqUnit op false false 0 9 1 5 (gpaOf 1 0), []⟩
/-- A write of agent 5 of shore 2 waits here for a recall. -/
def homing : State := { yard with dir := { yard.dir with waiting := [.devWrite (greq 0x2B false 1 0 5 (gpaOf 1 64) (zeros 16))] } }

theorem test_witness_FencesAndResponses :
    ([Sxf.fenceRw, Sxf.fenceWw, Sxf.fenceRr].all fun op => (fence op 4).op == op && (yard.portRefusal (fence op 4)).isNone && (fence op 4).isFence) = true ∧
    (yard.bundle 3).any (fun b => b.kind = .causeway) = true ∧
    (yard.bundle 4).any (fun b => b.kind = .jetty) = true ∧
    (yard.portRefusal { fence Sxf.fenceRw 4 with units := zeros 16 }).isSome = true ∧
    yard.heldBy 4 5 = [] ∧
    yard.blocked (fence Sxf.fenceRw 4) = false ∧
    (greq Sxf.homeFence false 1 0 5 (gpaOf 1 0) []).op = Sxf.homeFence ∧
    yard.portRefusal (greq Sxf.homeFence false 1 0 5 (gpaOf 1 0) []) = none ∧
    yard.blocked (greq Sxf.homeFence false 1 0 5 (gpaOf 1 0) []) = false ∧
    ([Sxf.data, Sxf.done, Sxf.performed, Sxf.atomicOld, Sxf.ctlAck, Sxf.rowData, Sxf.searchResult].all fun op =>
      wellFramed (framed op 1) && wellFramed (framed op 2) && !wellFramed { framed op 1 with unit0 := (framed op 1).unit0 + 2 ^ 10 } &&
      decide ((framed op 1).dest = yard.self ∧ (framed op 2).dest ≠ yard.self)) = true ∧
    yard.transaction 7 = none ∧
    ((owed 4 none).transaction 7).any (fun o => o.bundle = 4) = true ∧
    ((owed noBundle (some 6)).transaction 7).any (fun o => o.bundle = noBundle ∧ o.desc = some 6) = true ∧
    ((owed noBundle none).transaction 7).any (fun o => o.bundle = noBundle ∧ o.desc = none) = true ∧
    yard.portRefusal (greq Sxf.invalidate false 1 0 0 (gpaOf 1 0) (zeros 16)) = none ∧
    yard.portRefusal (framed Sxf.invalidateAck 1) = none ∧
    (framed Sxf.invalidateAck 1).op = Sxf.invalidateAck ∧
    writing.blocked (fence Sxf.fenceRw 4) = true ∧
    homing.blocked (greq Sxf.homeFence false 1 0 5 (gpaOf 1 1) []) = true ∧
    yard.portRefusal (greq Sxf.spanState false 1 0 0 (gpaOf 1 0) []) = none := by decide +kernel

def timeMsg (kind seq body : Nat) : SxfMsg := ⟨3, 0, Sxf.time + kind * 2 ^ 8 + seq * 2 ^ 10 + body * 2 ^ 18 + 2 ^ 119, []⟩
def heard0 (t : Nat) : Heard := ⟨3, 0, 0, 0, true, 0, t⟩
/-- A shore that hears headland 0 over the causeway, at a tidetime. -/
def tided (t : Nat) : State := at' t { yard with clock := { yard.clock with heard := [heard0 0] } }
def asking (t : Nat) : State := at' t { (tided 0) with clock := { (tided 0).clock with syncs := [⟨4, 0, 3⟩] } }
def heading : State := at' 16000000000 { yard with clock := { yard.clock with headSince := some 0 } }
def holding (t : Nat) : State := at' t { yard with clock := { yard.clock with holdover := some 0 } }
def classed (c1 c0 : Bool) : State := { yard with clock := { yard.clock with classZero := c0, classOne := c1 } }

theorem test_witness_TimeMessages :
    (timeMsg 0 0 0).op = Sxf.time ∧
    yard.portRefusal (timeMsg 0 0 0) = none ∧
    (yard.bundle 3).any (fun b => b.kind = .causeway && b.opened) = true ∧
    timeKind (timeMsg 1 4 0) = 1 ∧
    timeKind (timeMsg 2 4 0) = 2 ∧
    ((asking 80000).clock.syncs.find? fun x => x.seq = timeSeq (timeMsg 2 4 0) ∧ x.bundle = 3) = some ⟨4, 0, 3⟩ ∧
    (asking 80000).upstream = some (heard0 0) ∧
    (asking 80000).stamp ≤ 0 + 80000 * 65536 ∧
    (asking 80001).stamp > 0 + 80000 * 65536 ∧
    (at' 8000000 yard).clock.announced + 8000000 ≤ (at' 8000000 yard).now ∧
    (at' 7999999 { yard with clock := { yard.clock with said := yard.saying } }).now < yard.clock.announced + 8000000 ∧
    (at' 7999999 { yard with clock := { yard.clock with said := yard.saying } }).saying = yard.saying ∧
    (tided 1000000).upstream = some (heard0 0) ∧
    (tided 1000000).clock.synced + 1000000 ≤ (tided 1000000).now ∧
    ((asking 80000).clock.syncs.any fun x => x.seq == 4 && decide (x.t1 + 80000 * 65536 ≤ (asking 80000).stamp)) = true ∧
    (tided 24000000).clock.heard = [heard0 0] ∧
    ¬ (tided 24000000).now < (heard0 0).time + 24000000 ∧
    (tided 23999999).now < (heard0 0).time + 24000000 ∧
    heading.clock.headSince = some 0 ∧
    heading.headland.2 = heading.self ∧
    0 + 16000000000 ≤ heading.now ∧
    0 + 800000000 ≤ (holding 800000000).now ∧
    (holding 799999999).now < 0 + 800000000 ∧
    (classed true false).headland.2 = (classed true false).self ∧
    (classed true false).clock.cls = 1 ∧
    (classed false true).headland.2 = (classed false true).self ∧
    (classed false true).clock.cls = 0 := by decide +kernel

def toMsg (kind subject word field payload : Nat) : SxfMsg :=
  ⟨3, 1, SxfMsg.reqUnit Sxf.takeover false false 2 1 0 0 (gpaOf 1 (kind + subject * 2 ^ 4 + word * 2 ^ 13 + field * 2 ^ 29)), leBytes 16 payload⟩
/-- The protection set of eight shores of profile M, whose capacities agree with this shore's; cove 1 takes part. -/
def guarding : State := { yard with
  fabric := { yard.fabric with profile := .m }
  store := { yard.store with coves := [{ cove1 with protection := .guarded }, cove2] }
  faults := { yard.faults with capacities := [(0, 2 ^ 44)] } }
def unguarding : State := { guarding with store := { guarding.store with coves := [cove1, cove2] }, faults := { guarding.faults with guarded := [0] } }
def mourning (built : Bool) : State := { guarding with faults := { guarding.faults with dead := [2], parityBits := if built then [] else [(0, 0)] } }
def replica1 : Replica := ⟨2, 9, 0, 0, 0, [], 0, 0, []⟩
def replicas : State := { guarding with faults := { guarding.faults with replicas := [replica1] } }
def silent (t : Nat) : State := at' t { yard with faults := { yard.faults with neighbourDown := [(2, 0)], causewaysDown := some 0 } }

theorem test_witness_DeathAndTakeover :
    (toMsg 0 1 0 0 0).op = Sxf.takeover ∧
    guarding.portRefusal (toMsg 0 1 0 0 0) = none ∧
    (toMsg 0 1 0 0 0).dest = guarding.self ∧
    SxfMsg.toKind (toMsg 1 1 0 0 0) = 1 ∧
    SxfMsg.toSubject (toMsg 0 1 0 0 0) = guarding.self ∧
    (mourning true).faults.dead.contains (SxfMsg.toSubject (toMsg 0 2 0 0 0)) = true ∧
    guarding.faults.dead.contains 2 = false ∧
    SxfMsg.toKind (toMsg 2 2 0 0 0) = 2 ∧
    SxfMsg.toKind (toMsg 3 2 0 0 (2 ^ 44)) = 3 ∧
    (guarding.fabric.members guarding.self).head? ≠ some (toMsg 3 2 0 0 (2 ^ 44)).src ∧
    yard.takesPart = false ∧
    yard.store.capacity = SxfMsg.toPayload (toMsg 3 2 0 0 (2 ^ 44)) ∧
    (guarding.fabric.members guarding.self).head? = some 0 ∧
    ({ toMsg 3 0 0 0 5 with unit0 := (toMsg 3 0 0 0 5).unit0 - 2 * 2 ^ 14 }).src = 0 ∧
    SxfMsg.toPayload { toMsg 3 0 0 0 5 with unit0 := (toMsg 3 0 0 0 5).unit0 - 2 * 2 ^ 14 } = 5 ∧
    { guarding with faults := { guarding.faults with capacities := [(0, 5)] } }.takesPart = false ∧
    bit (SxfMsg.toPayload (toMsg 4 2 0 0 (2 ^ 64))) 64 = true ∧
    bit (SxfMsg.toPayload (toMsg 4 2 0 0 5)) 64 = false ∧
    SxfMsg.toField (toMsg 5 2 9 7 0) = 7 ∧
    SxfMsg.toField (toMsg 5 2 9 4 0) = 4 ∧
    (replicas.faults.replicas.find? fun r => r.shore = SxfMsg.toSubject (toMsg 5 2 9 4 0) ∧ r.cove = SxfMsg.toWord (toMsg 5 2 9 4 0)) = some replica1 ∧
    (guarding.faults.replicas.find? fun r => r.shore = 2 ∧ r.cove = 9) = none ∧
    SxfMsg.toKind (toMsg 6 2 9 0 0) = 6 ∧
    (silent 64000).faults.neighbourDown = [(2, 0)] ∧
    0 + 64000 ≤ (silent 64000).now ∧
    (silent 63999).now < 0 + 64000 ∧
    (silent 31999).now < 0 + 32000 ∧
    yard.faults.causewaysDown = none ∧
    guarding.covered 0 = true ∧
    guarding.faults.guarded.contains 0 = false ∧
    unguarding.covered 0 = false ∧
    unguarding.faults.guarded.contains 0 = true ∧
    yard.covered 0 = yard.faults.guarded.contains 0 ∧
    (mourning false).unbuilt 2 ≠ [] ∧
    ((mourning false).unbuilt 2).all (fun g => gpaShore g == 2 && g / granuleSize * granuleSize == g) = true ∧
    ((mourning false).faults.rebuilds.any fun r => decide (r.gpa ≠ 0)) = false ∧
    (mourning true).unbuilt 2 = [] ∧
    (mourning true).faults.rebuilt.contains (2, (mourning true).self) = false := by decide +kernel

/-- Link 63 in a given condition. -/
def link63 (f : Link → Link) : State := yard.setLink 63 f
def the63 (f : Link → Link) : Link := ((link63 f).link 63).getD (Link.dark 63)
def nine : List Nat := [0, 1, 2, 3, 4, 5, 6, 7, 8]
def trailerOf (seq : Nat) : List Byte := leBytes 4 seq ++ leBytes 4 1 ++ leBytes 4 (crc32c []) ++ zeros 4

theorem test_witness_LinkRows :
    yard.link 64 = none ∧
    (yard.link 63).isSome = true ∧
    (the63 fun l => { l with state := .dark }).state = .dark ∧
    (the63 fun l => { l with state := .down }).state = .down ∧
    (the63 id).state = .up ∧
    bits (fld (zeros 16) 4 4) 17 0 = 0 ∧
    fld (trailerOf 0) 4 4 % 2 ^ 18 = 1 ∧
    fld (trailerOf 0) 0 2 % 4096 = (the63 id).recvSeq ∧
    crc32c ((([].find? fun (x : Nat × List Byte) => x.1 = 0).map (·.2)).getD []) = fld (trailerOf 0) 8 4 ∧
    (the63 fun l => { l with replay := [(0, ⟨0, 0, false, true, zeros 240⟩)] }).replay ≠ [] ∧
    (the63 id).ackedAt + 80000 ≤ (at' 80000 yard).now ∧
    (at' 79999 yard).now < (the63 id).ackedAt + 80000 ∧
    (the63 fun l => { l with laneMap := nine, spare := some 9 }).laneMap[8]? = some 8 ∧
    (the63 fun l => { l with laneMap := nine, spare := some 9 }).spare = some 9 ∧
    (the63 fun l => { l with laneMap := nine, spare := none }).laneMap.length = 9 ∧
    (the63 fun l => { l with laneMap := [0, 1], spare := none }).laneMap.length ≠ 9 ∧
    (the63 fun l => { l with effectFrame := some (3, 7), spare := some 9 }).effectFrame = some (3, 7) ∧
    (the63 id).effectFrame = none ∧
    (the63 fun l => { l with state := .training, step := 0 }).retryAt ≤ yard.now ∧
    (the63 fun l => { l with state := .training, step := 4 }).step < 5 ∧
    (the63 fun l => { l with state := .training, step := 5 }).state = .training ∧
    (the63 fun l => { l with state := .training, step := 1 }).heldIdent = false ∧
    (the63 fun l => { l with state := .training, step := 1 }).stepBegan + trainBound 1 ≤ (at' (trainBound 1) yard).now ∧
    yard.now < (the63 fun l => { l with state := .training, step := 1 }).stepBegan + trainBound 1 ∧
    2 ^ 30 ≤ (the63 fun l => { l with genFrames := 2 ^ 30 }).genFrames ∧
    (the63 id).genFrames < 2 ^ 30 ∧
    (the63 id).recalAt + 1600000000 ≤ (at' 1600000000 yard).now ∧
    yard.now < (the63 id).recalAt + 1600000000 ∧
    yard.inn.booted = true ∧
    yard.fabric.batch = 0 ∧
    { yard with fabric := { yard.fabric with batch := 8 } }.fabric.batch = 8 ∧
    { yard with fabric := { yard.fabric with batch := 1 } }.batchDone 0 = true := by decide +kernel

def debted : State := at' 800000000 { yard with brk := { yard.brk with
  calmSince := [(4, 0)], raises := [⟨4, 0, 9⟩] } }
def broken (fs : List (Nat × Nat)) (cs : List (Nat × Nat)) : State := { yard with faults := { yard.faults with retired := fs, channelsOut := cs } }
def told : State := { yard with faults := { yard.faults with announced := [(1, 0x8003, 0, 0)] } }
def lined (st : LineState) (busy : Bool) : State := { ported with dir := { ported.dir with
  entries := [⟨5, st, 0⟩], recalls := if busy then [⟨5, true, [0], 0, none⟩] else [] } }
def streaming (on : Bool) (n : Nat) : State := { yard with obs := { yard.obs with stream := { yard.obs.stream with
  on := on, waiting := List.replicate n ⟨0, 0, 0, 0, 0, 0, 0, 0, 0, 0, 0, 0, 0, 0, 0⟩ } } }
def logged : State := at' 4800000000000 { yard with obs := { yard.obs with log := [⟨1, 0, 0, 0, 0, 0, 0, 0, 0, 0, 0, 0⟩] } }

theorem test_witness_Reliability :
    yard.debtOver 1 4 = 0 ∧
    (((yard.brk.debts.filter fun (x : Nat × Nat × Nat) => !(x.1 == 1 && x.2.1 == 4)) ++ [(1, 4, 0 - 1)]).all fun (x : Nat × Nat × Nat) => x.2.2 == 0) = true ∧
    yard.brk.calmSince = [] ∧
    (debted.brk.calmSince.any fun x => x.1 == 4 && decide (x.2 + 800000000 ≤ debted.now)) = true ∧
    debted.brk.reservePct < debted.reservePct 4 debted.calendarEnd ∧
    ({ yard with faults := { yard.faults with stacksOut := [3] } }.faults.stacksOut) = [3] ∧
    (broken [] [(3, 9)]).faults.channelsOut = [(3, 9)] ∧
    yard.faults.stacksOut = [] ∧
    yard.faults.channelsOut = [] ∧
    told.faults.announced = [(1, 0x8003, 0, 0)] ∧
    yard.faults.announced = [] ∧
    (broken [(4, 9)] []).faults.retired = [(4, 9)] ∧
    yard.faults.retired = [] ∧
    yard.logicalOf 33 = none ∧
    yard.logicalOf 31 = some 31 ∧
    yard.spareFree 31 = true ∧
    { yard with faults := { yard.faults with sparesUsed := [(33, 16)] } }.spareFree 31 = false ∧
    (lined (.owned 0) false).dirEntry 5 ≠ none ∧
    (lined (.owned 0) false).lineBusy 5 = false ∧
    ported.dirEntry 5 = none ∧
    ((lined (.owned 0) false).host.ports.filter fun p => p.up && p.biEnabled && !p.fenced) = [] ∧
    (({ lined (.owned 0) false with host := { ported.host with ports := [{ HostPort.fresh 0 with up := true, biEnabled := true }] } }).host.ports.filter
      fun (p : HostPort) => p.up && p.biEnabled && !p.fenced) ≠ [] ∧
    yard.now < yard.obs.weighed + 80000000000 ∧
    yard.obs.weighed + 80000000000 ≤ (at' 80000000000 yard).now ∧
    (streaming false 1).obs.stream.on = false ∧
    (streaming true 0).obs.stream.waiting = [] ∧
    (streaming true 17).obs.stream.waiting ≠ [] ∧
    yard.obs.log = yard.obs.logWritten ∧
    logged.obs.log ≠ logged.obs.logWritten ∧
    logged.obs.logTime + 4800000000000 ≤ logged.now ∧
    logged.cove 16383 = none ∧
    yard.managementUp = true ∧
    ((List.range 32).find? fun n => !yard.inn.chans.any fun x => x.chan = .tls n) = some 0 := by decide +kernel

/-- A host port with a decoder of each region and an accepted extent of each: cove 1, cove 2 as shared, and an alias. -/
def hosted (x : HostPort) (es : List DirEntry) (rs : List Recall) : State := { yard with
  host := { yard.host with
    ports := [{ x with id := 0, decoders := [⟨0, 0, 2 ^ 30, 0, false⟩, ⟨1, 2 ^ 30, 2 ^ 30, 2 ^ 48, true⟩, ⟨2, 2 ^ 31, 2 ^ 30, 2 ^ 49, false⟩] }]
    extents := [⟨0, 1, 0, 0, 2 ^ 30, 1, 0, none, 0, 7, .accepted⟩, ⟨0, 2, 1, 2 ^ 48, 2 ^ 30, 2, 0, none, 0, 7, .accepted⟩,
      ⟨0, 3, 2, 2 ^ 49, 2 ^ 30, 2, 0, some 3, 4, 1, .accepted⟩] }
  dir := { yard.dir with entries := es, recalls := rs } }
def upPort : HostPort := { HostPort.fresh 0 with up := true }
def served0 : State := hosted upPort [] []
def lineAt (st : LineState) (rs : List Recall) : State := hosted upPort [⟨2 ^ 24, st, 0⟩] rs
def reached (s : State) (addr : Nat) (a : Access) : Option (HostExtent × Nat) := match s.hostReach 0 addr a with
  | .line x off => some (x, off)
  | _ => none

def aborted (s : State) (addr : Nat) (a : Access) : Bool := match s.hostReach 0 addr a with
  | .abort => true
  | _ => false

theorem test_witness_HostRequests :
    yard.port 9 = none ∧
    (hosted { HostPort.fresh 0 with up := true, memSecure := true } [] []).insecure 0 false = true ∧
    served0.insecure 0 false = false ∧
    served0.stopped 0 = false ∧
    { served0 with power := { served0.power with state := .waking } }.stopped 0 = true ∧
    { served0 with power := { served0.power with state := .waking } }.shut = false ∧
    { served0 with power := { served0.power with state := .halted } }.shut = true ∧
    aborted served0 (2 ^ 40) .read = true ∧
    (reached served0 64 .read).any (fun y => y.1.region = 0 ∧ y.1.snap = none ∧ y.2 = 64) = true ∧
    (reached served0 (2 ^ 30) .read).any (fun y => y.1.region = 1 ∧ y.2 = 2 ^ 30) = true ∧
    (reached served0 (2 ^ 31) .read).any (fun y => y.1.snap = some 3) = true ∧
    served0.homeFenced 64 = false ∧
    { served0 with faults := { served0.faults with selfFenced := true, guarded := [0] } }.homeFenced 64 = true ∧
    aborted served0 (2 ^ 31) .write = true ∧
    (reached served0 64 .write).any (fun y => y.1.region = 0) = true ∧
    (reached served0 (2 ^ 30) .write).any (fun y => y.1.region = 1) = true ∧
    served0.dir.recalls = [] ∧
    (lineAt (.owned 0) [⟨2 ^ 24, true, [0], 0, none⟩]).lineState (2 ^ 24) = some (.owned 0) ∧
    served0.lineState (2 ^ 24) = none ∧
    (lineAt (.shared [0, 1]) []).lineState (2 ^ 24) = some (.shared [0, 1]) ∧
    ((at' 400000 (lineAt (.owned 0) [⟨2 ^ 24, true, [0], 0, none⟩])).dir.recalls.find? fun r => r.line = 2 ^ 24 ∧ r.waiting.contains 0).any
      (fun r => decide (r.began + 400000 ≤ (at' 400000 yard).now ∧ r.began + 32000 < (at' 400000 yard).now)) = true ∧
    yard.now ≤ 0 + 32000 := by decide +kernel

def filledInv : HostPort := { upPort with invalidations := List.replicate 32 ⟨0, [], []⟩, msixPending := [2047] }
def ported' (x : HostPort) : State := { yard with host := { yard.host with ports := [x] } }
def releasing (t : Nat) : State := at' t { yard with host := { yard.host with extents := [⟨0, 1, 0, 0, 2 ^ 30, 1, 0, none, 0, 7, .releasing 0 true⟩] } }
def walked (k : PageKind) (t : Nat) : State := at' t { ported' upPort with queues := { yard.queues with pageReqs := [⟨9, 0, 1, 0, zeros 64, 0, 1, 0, 0, k, 0, 0, [], []⟩] } }
def wantsExtent : State := { ported' { upPort with biEnabled := true } with
  inn := { yard.inn with guests := [Guest.system, { guest1 with ownerPort := 0 }] } }

theorem test_witness_HostPortEvents :
    yard.port 9 = none ∧
    (ported' upPort).port 0 = some upPort ∧
    (ported' { upPort with perst := true }).port 0 = some { upPort with perst := true } ∧
    (ported' (HostPort.fresh 0)).port 0 = some (HostPort.fresh 0) ∧
    8 < { upPort with active := 16 }.active ∧
    decoderBad ⟨8, 0, 2 ^ 28, 0, false⟩ = true ∧
    decoderBad ⟨7, 0, 2 ^ 28, 0, false⟩ = false ∧
    32 ≤ filledInv.invalidations.length ∧
    upPort.invalidations.length < 32 ∧
    filledInv.msixPending.contains 2047 = true ∧
    upPort.msixPending.contains 2047 = false ∧
    (wantsExtent.extentsWanted 0).contains (1, 1) = true ∧
    wantsExtent.dataExtents 0 < 4096 ∧
    (yard.extentsWanted 3).contains (1, 1) = false ∧
    yard.cove 1 = some cove1 ∧
    yard.cove 9 = none ∧
    yard.host.extents = [] ∧
    ((releasing 8000000000).host.extents.find? fun x => x.port = 0 ∧ x.id = 1).any (fun x => x.st = .releasing 0 true) = true ∧
    0 + 8000000000 ≤ (releasing 8000000000).now ∧
    (releasing 7999999999).now < 0 + 8000000000 ∧
    ((walked .ats 0).pageReq 9 .ats).any (fun q => q.port = 0) = true ∧
    (walked .ats 0).now < 0 + upPort.completionTimeout ∧
    0 + upPort.completionTimeout ≤ (walked .ats 128000000).now ∧
    yard.pageReq 9 .ats = none ∧
    ((walked .pri 0).pageReq 9 .pri).any (fun q => q.port = 0) = true := by decide +kernel

def offered (s : Option Nat) (st : ExtentState) : State := { ported' upPort with
  host := { (ported' upPort).host with extents := [⟨0, 1, 0, 0, 2 ^ 30, 1, 0, s, 0, 7, st⟩] } }

theorem test_witness_CxlMailbox :
    (ported' upPort).port 0 = some upPort ∧
    upPort.timestamp = 0 ∧
    (ported' { upPort with timestamp := 5 }).port 0 = some { upPort with timestamp := 5 } ∧
    (ported' upPort).host.extents = [] ∧
    ((offered none .offered).host.extents.find? fun y => y.port = 0 ∧ y.id = 1 ∧ y.st = .offered).any (fun y => y.snap = none) = true ∧
    ((offered (some 3) .offered).host.extents.find? fun y => y.port = 0 ∧ y.id = 1 ∧ y.st = .offered).any (fun y => y.snap = some 3) = true ∧
    ((offered none .accepted).host.extents.find? fun y => y.port = 0 ∧ y.id = 1 ∧ y.st ≠ .held).any (fun y => y.region ≠ 1) = true := by decide +kernel

def mill : Deep := ⟨[0, 1], 4, 8, 100, 1000, 0, [], [], [], [], 0, [], [], []⟩
def milled (f : State → State) : State := f { yard with deep := mill }
def miss1 (filled : Bool) : Miss := ⟨9, 0, [], [], true, false, filled⟩
def read1 (hard ready : Bool) : DeepRead := ⟨9, 0, 5, 0, hard, false, ready⟩
def way1 (dirty : List Nat) (back : Bool) : Way := ⟨9, .prefer, false, 0, false, dirty, back⟩
def queued1 : WriteBack := ⟨9, 1, 0, 5, 0⟩
def entry1 : MapEntry := ⟨9, 0, 5, 1, 0⟩
def missing (f : Bool) (rs : List DeepRead) (t : Nat) : State := at' t (milled fun s => { s with
  deep := { s.deep with reads := rs }
  store := { s.store with harbour := { s.store.harbour with misses := [miss1 f] } } })
def seated (dirty : List Nat) (back : Bool) (t : Option Cls) : State := milled fun s => { s with store := { s.store with
  moving := t.elim [] fun t => [⟨9, t, 3⟩]
  harbour := { s.store.harbour with ways := [way1 dirty back], mirror := [9] } } }
def moving1 (t : Cls) : State := milled fun s => { s with store := { s.store with moving := [⟨9, t, 3⟩] } }
def mapped (rs : List DeepRead) (q : List WriteBack) (ds : List Die) : State := milled fun s => { s with deep := { s.deep with
  map := [entry1], reads := rs, queue := q, dies := ds, stripes := [⟨0, 0, true, [(0, 0)]⟩] } }
def die0 (suspended : Bool) (t : Option Nat) : Die := ⟨0, none, suspended, 0, [], [], t, [], []⟩

theorem test_witness_DeepTier :
    yard.store.harbour.misses = [] ∧
    ((missing false [] 0).store.harbour.misses.find? fun m => m.granule = 9) = some (miss1 false) ∧
    ((missing false [] 0).deep.reads.find? fun r => r.granule = 9) = none ∧
    ((missing false [read1 false true] 0).deep.reads.find? fun r => r.granule = 9) = some (read1 false true) ∧
    (read1 false false).ready = false ∧
    (miss1 false).began + 1200000 ≤ (missing false [read1 false false] 1200000).now ∧
    (missing false [read1 false false] 1199999).now < (miss1 false).began + 1200000 ∧
    ((missing true [] 0).store.harbour.misses.find? fun m => m.granule = 9 ∧ m.filled) = some (miss1 true) ∧
    (seated [9] true none).store.harbour.way 9 = some (way1 [9] true) ∧
    ((seated [9] true none).enqueueWrite 9 0 5).isSome = true ∧
    (seated [9] true none).enqueueWrite 9 32 5 = none ∧
    yard.store.harbour.way 9 = none ∧
    yard.store.harbour.mirror = [] ∧
    (seated [9] true none).store.harbour.mirror = [9] ∧
    3 * ((seated [9] true none).store.harbour.mirrorGib * 2 ^ 30) ≤ 4 * (seated [9] true none).mirrorBytes ∧
    4 * (seated [] true none).mirrorBytes < 3 * (1 * 2 ^ 30) ∧
    yard.store.moving = [] ∧
    ((moving1 .pin).store.moving.find? fun m => m.granule = 9) = some ⟨9, .pin, 3⟩ ∧
    (moving1 .pin).store.harbour.way 9 = none ∧
    (moving1 .pin).absent 9 = false ∧
    (moving1 .pin).missOpen 9 = false ∧
    ((moving1 .stream).store.moving.find? fun m => m.granule = 9) = some ⟨9, .stream, 3⟩ ∧
    ((seated [] false (some .cold)).store.moving.find? fun m => m.granule = 9) = some ⟨9, .cold, 3⟩ ∧
    ((seated [7] false (some .cold)).enqueueWrite 9 0 5).isSome = true ∧
    ((seated [7] false (some .stream)).store.harbour.way 9).any (fun w => !w.pinned) = true ∧
    yard.store.harbour.resident 9 = false ∧
    (seated [] false none).store.harbour.resident 9 = true ∧
    yard.deep.reads = [] ∧
    ((mapped [read1 false false] [] []).deep.reads.find? fun r => r.granule = 9) = some (read1 false false) ∧
    (mapped [read1 false false] [] []).dieFailed 0 = false ∧
    (read1 true false).hardFailed = true ∧
    (mapped [read1 false false] [queued1] []).dieBusy 0 = true ∧
    ((mapped [read1 false false] [queued1] []).die 0).suspended = false ∧
    (mapped [read1 false false] [queued1] []).dieReads 0 ≠ [] ∧
    ((mapped [read1 false false] [queued1] []).die 0).resumedAt = 0 ∧
    (mapped [] [] []).dieBusy 0 = false ∧
    ((mapped [] [queued1] [die0 true none]).die 0).suspended = true ∧
    (mapped [] [queued1] [die0 true none]).dieReads 0 = [] ∧
    (mapped [] [] []).dieThere 0 = true ∧
    (mapped [] [] []).dieThere 2047 = false ∧
    (mapped [] [] []).deep.groups.contains (31 / 16) = true ∧
    (mapped [] [] []).blockUnused 0 6 = true ∧
    ((mapped [] [] []).die 0).retired.contains 6 = false ∧
    ((mapped [] [] []).die 0).wearAt = none ∧
    ((mapped [] [] [die0 false (some 0)]).die 0).wearAt = some 0 ∧
    (mapped [] [] [die0 false (some 0)]).now < 0 + 4800000000000 ∧
    ((mapped [] [queued1] []).deep.queue.find? fun w => w.granule = 9 ∧ w.seq = 1) = some queued1 ∧
    ((mapped [] [queued1] []).place 0).isSome = true ∧
    yard.deep.queue = [] ∧
    yard.deep.map = [] ∧
    ((mapped [] [] []).deep.map.find? fun e => e.granule = 9) = some entry1 ∧
    ((mapped [] [] []).deep.map.all fun x => decide ((mapped [] [] []).validPages 0 5 ≤ (mapped [] [] []).validPages x.die x.block)) = true ∧
    (mapped [] [] []).restripes entry1 = true ∧
    { mapped [] [] [] with deep := { (mapped [] [] []).deep with stripes := [⟨0, 0, false, [(0, 0)]⟩] } }.restripes entry1 = false ∧
    (mapped [] [] []).deep.refresh.contains 9 = false := by decide +kernel

/-- A die whose block 6 has been erased a thousand times more often than its block 5 can have been. -/
def worn : State := mapped [] [] [{ die0 false none with erases := [(5, 0), (6, Config.unit (0x1000000 + 0 * 0x10000 + 5) + 1000)] }]

theorem test_witness_DeepTier_wear : worn.deep.rated < 20 * (worn.eraseMax entry1.die - (Config.unit (0x1000000 + entry1.die * 0x10000 + entry1.block) +
    (((worn.die entry1.die).erases.find? fun x => x.1 = entry1.block).map (·.2)).getD 0)) := by
  have r : worn.deep.rated = 1000 := rfl
  have e : (worn.die entry1.die).erases = [(5, 0), (6, Config.unit (0x1000000 + 0 * 0x10000 + 5) + 1000)] := rfl
  have d : entry1.die = 0 := rfl
  have b : entry1.block = 5 := rfl
  unfold State.eraseMax
  rw [r, e, d, b]
  generalize wearFact 0 2 = w
  simp [maxNat]
  omega

def tolling (f : Toll → Toll) : State := { yard with toll := f { yard.toll with powered := true } }
/-- A frame of the collector port: command and payload, with its CRC. -/
def portFrame (c : Nat) (p : List Byte) : List Byte :=
  let b := leBytes 1 c ++ leBytes 2 p.length ++ p
  leBytes 1 0xA5 ++ b ++ leBytes 2 (crc16 b)
/-- A signed record of kind 3 with SEQUENCE 4. -/
def record4 : List Byte := leBytes 8 3 ++ leBytes 8 4 ++ zeros 112

theorem test_witness_Tollhouse :
    yard.toll.powered = false ∧
    (tolling id).toll.powered = true ∧
    (tolling id).sendsFrames = true ∧
    (tolling id).toll.frame = none ∧
    (tolling fun t => { t with frame := some 7 }).toll.frame = some 7 ∧
    (tolling fun t => { t with ended := some 80000000 }).toll.ended = some 80000000 ∧
    (tolling fun t => { t with lost := true, periodTime := 60000000 }).toll.ended = none ∧
    (tolling fun t => { t with lost := true, periodTime := 60000000 }).toll.lost = true ∧
    60000000 ≤ (tolling fun t => { t with lost := true, periodTime := 60000000 }).toll.periodTime ∧
    (tolling id).toll.periodTime < 60000000 ∧
    (tolling fun t => { t with broken := true }).toll.broken = true ∧
    (tolling fun t => { t with broken := false }).toll.broken = false ∧
    (tolling id).inn.booted = true ∧
    (at' 24000000000 yard).mirror.late = false ∧
    (at' 24000000000 yard).mirror.statusAt + 24000000000 ≤ (at' 24000000000 yard).now ∧
    yard.now < yard.mirror.statusAt + 24000000000 ∧
    fld (portFrame 1 []) 0 1 = 0xA5 ∧
    portBad (leBytes 6 0xA5) = some 1 ∧
    fld (leBytes 6 0xA5) 0 1 = 0xA5 ∧
    ([(1, 0), (2, 9), (3, 104), (4, 1), (5, 0), (6, 32), (7, 96), (8, 1)].all fun (x : Nat × Nat) =>
      (portBad (portFrame x.1 (zeros x.2))).isNone && fld (portFrame x.1 (zeros x.2)) 1 1 == x.1 && fld (portFrame x.1 (zeros x.2)) 2 2 == x.2) = true ∧
    fld (slice (portFrame 2 (leBytes 9 (17 * 2 ^ 64))) 4 9) 8 1 = 17 ∧
    fld (slice (portFrame 2 (leBytes 9 (16 * 2 ^ 64))) 4 9) 8 1 = 16 ∧
    (tolling id).toll.nextSeq - (tolling id).toll.store.length ≤ fld (slice (portFrame 2 (leBytes 9 (16 * 2 ^ 64))) 4 9) 0 8 ∧
    (tolling fun t => { t with collector := none }).toll.collector = none ∧
    ([record4].any fun r => fld r 8 8 == fld (slice (portFrame 3 (leBytes 104 4)) 4 104) 0 8 && fld r 0 1 == 3) = true ∧
    (tolling fun t => { t with collector := some [], store := [record4], nextSeq := 5, acked := 4, stopped := true }).toll.collector = some [] ∧
    { (tolling fun t => { t with store := [record4], nextSeq := 5, acked := 4, stopped := true }).toll with acked := 5 }.room = true := by decide +kernel

def line (w : List Byte) (l : List Char) : List Byte := w ++ chars l
def debugging : State := { yard with trust := { yard.trust with grants := [(7, 2 ^ 63)] } }
def refusing : State := { debugging with inn := { debugging.inn with fw := { debugging.inn.fw with refusing := true } } }

theorem test_witness_Wayfarer :
    yard.wayfarerRuns = true ∧
    { yard with power := { yard.power with resetHeld := true } }.wayfarerRuns = false ∧
    lineWords [] = [] ∧
    lineWords (chars ['f', 'o', 'o']) = [chars ['F', 'O', 'O']] ∧
    wayfarerNames.contains (chars ['F', 'O', 'O']) = false ∧
    lineWords (List.replicate 129 0x41) = [List.replicate 129 0x41] ∧
    lineWords (line nameCount [' ', '1', ' ', '0']) = [nameCount, chars ['1'], chars ['0']] ∧
    numbersOf [chars ['1'], chars ['0']] = some [1, 0] ∧
    yard.debug &&& 1 ≠ 1 ∧
    debugging.debug &&& 5 = 5 ∧
    refusing.innRuns = false ∧
    debugging.innRuns = true ∧
    numbersOf [chars ['X']] = none ∧
    (wayfarerNames.all fun w => lineWords w == [w]) = true ∧
    debugging.power.state ≠ .off ∧
    { debugging with power := { debugging.power with state := .off } }.power.state = .off ∧
    { debugging with power := { debugging.power with state := .off } }.wayfarerRuns = true ∧
    baudRates.contains 115200 = true ∧
    baudRates.contains 1 = false ∧
    groupSize 1 65535 = some 12 ∧
    unitBad 0xC 0 = false ∧
    unitBad 1 0x8007 = false := by decide +kernel

def managed (n : Nat) : State := { yard with trust := { yard.trust with anchors := (List.range n).map fun i => leBytes 4 (i + 1), spdm := [] } }
def spdmPort (l : List (Nat × Nat)) : State := { ported' upPort with trust := { yard.trust with spdm := l } }

theorem test_witness_TrustServices :
    (spdmPort []).responds 0 = true ∧
    yard.responds 4 = true ∧
    { yard with inn := { yard.inn with booted := false } }.responds 4 = true ∧
    yard.responds 5 = false ∧
    ((spdmPort [(0, 3)]).trust.spdm.filter fun x => x.1 = 0).contains (0, 3) = true ∧
    4 ≤ ((spdmPort [(0, 0), (0, 1), (0, 2), (0, 3)]).trust.spdm.filter fun x => x.1 = 0).length ∧
    2 ≤ ([(4, 0), (4, 1)].filter fun (x : Nat × Nat) => x.1 = 4).length ∧
    ((List.range 6).find? fun i => !([(0, 0)] : List (Nat × Nat)).contains (0, i)) = some 1 ∧
    yard.managementUp = true ∧
    { yard with inn := { yard.inn with booted := false } }.managementUp = false ∧
    (managed 8).trust.anchors.contains [0x7F] = false ∧
    8 ≤ (managed 8).trust.anchors.length ∧
    (managed 7).trust.anchors.length < 8 ∧
    (managed 7).trust.anchors.contains (leBytes 4 7) = true ∧
    yard.power.rails.contains 9 = true ∧
    { yard with power := { yard.power with rails := [0] } }.power.rails.contains 9 = false ∧
    bit debugging.debug 1 = true ∧
    bit yard.debug 1 = false := by decide +kernel

/-- A command that is new and delivered and whose opcode the catalogue lists. -/
def ready (s : State) (c : RelasCmd) : Bool :=
  let u := (ask s c).taken c
  (ask s c).delivered c && !(ask s c).serial c && !c.stage && (catRow c.opcode).isSome && ((u.chanRec c.chan).kept.find? fun k => k.header = c.header).isNone
def wellSized (c : RelasCmd) : Bool := c.len % 8 = 0 && 16 ≤ c.len && c.len ≤ 4096 && c.bytes.length = c.len
def opOf (c : RelasCmd) : RelasOp := (relasOpOf c).getD opUnknown
def boundTo (s : State) (c : RelasCmd) : Bool :=
  let u := took s c
  (u.chanRec c.chan).bound = some (c.guest, c.epoch) && (c.guest = 0 || ((catRow c.opcode).any (·.guest) && (opOf c).owns c u))
/-- The command has passed every check up to the header's. -/
def reaches (s : State) (c : RelasCmd) : Bool :=
  let u := took s c
  ready s c && wellSized c && ((opOf c).len c).isNone && boundTo s c && stateAllows u c && !u.refusing && (u.chanRec c.chan).outstanding.length ≤ 8
def headed (s : State) (c : RelasCmd) : Bool := reaches s c && ((catRow c.opcode).bind fun r => headerBad r c).isNone
def fielded (s : State) (c : RelasCmd) : Bool := headed s c && ((opOf c).fields c (took s c)).isNone
def permitted (s : State) (c : RelasCmd) : Bool := fielded s c && !(opOf c).denied c (took s c)
def limited (s : State) (c : RelasCmd) : Bool := permitted s c && ((opOf c).limits c (took s c)).isNone
def guest2 (flags size : Nat) : RelasCmd := cmd 0x0101 flags (n2 2 ++ n2 5 ++ n2 1 ++ zeros size)
def sleeping : State := { world with power := { world.power with state := .waking } }

/-- A command of guest 1 on the system guest's mailbox. -/
def asGuest1 : RelasCmd := ⟨.mailbox 0 0, n2 0x0105 ++ n2 1 ++ n2 24 ++ n2 0 ++ n2 1 ++ n2 5 ++ zeros 4 ++ n2 1 ++ n2 5 ++ zeros 4⟩
def lightGuest : RelasCmd := cmd 0x0101 0 (n2 2 ++ n2 5 ++ n2 0 ++ zeros 42)
def sqNowhere : RelasCmd :=
  cmd 0x0401 0 (n2 1 ++ n1 0 ++ n1 0 ++ n2 0 ++ n2 0 ++ n8 (2 ^ 40) ++ n4 64 ++ n2 0 ++ n1 3 ++ n1 0 ++ n8 0x50000 ++ n2 64 ++ n2 1 ++ n4 0 ++ n8 0x60000)
def manyQueues : RelasCmd := cmd 0x0101 0 (n2 2 ++ n2 5 ++ n2 1 ++ zeros 34 ++ n2 1024 ++ zeros 6)
def secondGuest1 : RelasCmd := cmd 0x0101 0 (n2 1 ++ n2 5 ++ n2 1 ++ zeros 42)

theorem test_witness_RefusedCommands :
    ([0x0101, 0x0103, 0x0105, 0x0301, 0x0401, 0x0501, 0x0601, 0x0701, 0x0801, 0x0901, 0x0905, 0x0A02, 0x0B01, 0x0C02, 0x0D01, 0x0E01, 0x0F01].all fun op =>
      (cmd op 0 []).opcode == op && ready world (cmd op 0 [])) = true ∧
    wellSized (guest2 0 42) = true ∧
    wellSized (guest2 0 41) = false ∧
    wellSized (guest2 0 50) = true ∧
    (opOf (guest2 0 50)).len (guest2 0 50) = some 64 ∧
    boundTo world asGuest1 = false ∧
    stateAllows (took sleeping (guest2 0 42)) (guest2 0 42) = false ∧
    reaches world (guest2 8 42) = true ∧
    ((catRow 0x0101).bind fun r => headerBad r (guest2 8 42)).isSome = true ∧
    headed world lightGuest = true ∧
    ((opOf lightGuest).fields lightGuest (took world lightGuest)).isSome = true ∧
    fielded world sqNowhere = true ∧
    (opOf sqNowhere).denied sqNowhere (took world sqNowhere) = true ∧
    permitted world manyQueues = true ∧
    ((opOf manyQueues).limits manyQueues (took world manyQueues)).isSome = true ∧
    limited world secondGuest1 = true ∧
    (catRow 0x0101).any (fun r => !r.pending) = true ∧
    ((opOf secondGuest1).conflict secondGuest1 (took world secondGuest1)).isSome = true := by decide +kernel

theorem test_witness_IdleCycle :
    up.pending = [] ∧
    -(rateLimit : Int) ≤ up.clock.rate ∧
    up.clock.rate ≤ rateLimit ∧
    up.clock.fraction < 2 ^ 32 := by decide +kernel

theorem test_witness_MemoryStaysCanonical :
    yard.memWf = true ∧
    (posted 0x0F).memWf = true ∧
    { (posted 0x0F) with pending := [.read (rd 64), .guestCreate secondGuest1] }.queueWf = true ∧
    (tolling fun t => { t with store := [record4], nextSeq := 5, acked := 4 }).toll.nextSeq = 5 := by decide +kernel

theorem test_witness_TollOk : (tolling fun t => { t with store := [record4], nextSeq := 5, acked := 4 }).toll.Ok := by
  constructor <;> decide +kernel

theorem test_witness_TollhouseApart :
    tollRow (.read (rd 64)) = false ∧
    tollRow (.periodEnd) = true ∧
    ({ yard with pending := [.read (rd 64), .guestCreate secondGuest1] }.pending.all fun c => !tollRow c) = true := by decide +kernel

def heads (v : Nat) : RegAccess := acc 1 8 8 true v
def errs (v : Nat) : RegAccess := acc 1 0x10 8 true v

theorem test_witness_RingHeads :
    ([heads 0, heads 5, heads 6, heads 63, heads 64, heads (2 ^ 16), errs 3, errs 0x10003, errs 4, errs 0x10004].all fun a =>
      hostReaches a 0 ringing && regAllowed a && a.write) = true ∧
    (ringing.cq 0).any (fun x => headFits x.depth x.head x.write 5 && !headFits x.depth x.head x.write 6) = true ∧
    (ringing.sq 0).any (fun x => headFits x.errDepth x.errHead x.errWrite 3 && !headFits x.errDepth x.errHead x.errWrite 4 && x.stopped) = true ∧
    (ringing.cq 0).any (fun x => ringing.mayUse (.host 0) 0 x.guest) = true ∧
    regPlaced (errs 0x10004) < 2 ^ 17 := by decide +kernel

theorem test_witness_BadDoorbells :
    ([acc 1 0 8 true 64, acc 1 0 8 true (2 ^ 16), errs (2 ^ 17), errs (2 ^ 17 + 2 ^ 16), heads (2 ^ 16)].all fun a =>
      hostReaches a 0 ringing && regAllowed a && a.write) = true ∧
    regPlaced (acc 1 0 8 true 64) = 64 ∧
    bit (regPlaced (errs (2 ^ 17 + 2 ^ 16))) 16 = true ∧
    bit (regPlaced (errs (2 ^ 17))) 16 = false ∧
    (ringing.sq 0).any (fun x => x.depth ≤ 64 && ringing.mayUse (.host 0) 0 x.guest) = true := by decide +kernel

theorem test_witness_WayfarerWritesNothing :
    yard.wayfarerRuns = true ∧
    ([nameCount, nameEvents, nameWeather, nameLinks, nameReg, nameTrace].all fun w => w.length ≤ 128 && lineWords w == [w]) = true ∧
    bit yard.debug 0 = false ∧
    refusing.wayfarerRuns = true ∧
    bit refusing.debug 0 = true ∧
    bit refusing.debug 2 = true ∧
    refusing.innRuns = false := by decide +kernel

theorem test_witness_BitRanges : bits 0xA5 7 4 = 0xA ∧ bits 0xA5 3 3 = 0 ∧ bit 0xA5 0 = true := by decide +kernel

theorem test_witness_EnergyConserved :
    (tolling id).toll.powered = true ∧
    (tolling id).sendsFrames = true ∧
    ((tolling id).toll.frame.all fun n => n < 1) = true ∧
    (tolling fun t => { t with frame := some 7 }).sendsFrames = true ∧
    ((tolling fun t => { t with frame := some 7 }).toll.frame.all fun n => n < 8) = true := by decide +kernel

theorem test_witness_PlainFrame :
    ([rd 0, rd 64, wr 64, wrm 64, atm 64].all fun m => servesHere m yard) = true ∧
    yard.memWf = true ∧
    (rd 0).isRead = true ∧
    (wr 64).isWrite = true ∧
    (wrm 64).isWrite = true ∧
    (atm 64).isAtomic = true := by decide +kernel

/-- The frame of a TOLL_ACK of record 4. -/
def ackFrame : List Byte := portFrame 3 (leBytes 8 4 ++ zeros 96)
def collecting (stopped : Bool) : State :=
  tolling fun t => { t with collector := some [], store := [record4], nextSeq := 5, acked := 4, stopped := stopped }
theorem test_witness_Tollhouse_ack (h : ∀ b, Config.verifies b = true) :
    (portBad ackFrame).isNone = true ∧ fld ackFrame 1 1 = 3 ∧ fld ackFrame 2 2 = 104 ∧
    ((collecting true).toll.store.any fun r => fld r 8 8 == fld (slice ackFrame 4 104) 0 8 && fld r 0 1 == 3) = true ∧
    (collecting false).toll.stopped = false ∧ (collecting true).toll.collector = some [] ∧
    { (collecting true).toll with acked := max (collecting true).toll.acked 5 }.room = true ∧
    Config.verifies ([] ++ [0x41, 0x43, 0x4B] ++ serial ++ slice (slice ackFrame 4 104) 0 8 ++ slice (slice ackFrame 4 104) 8 96) = true :=
  ⟨by decide +kernel, by decide +kernel, by decide +kernel, by decide +kernel, by decide +kernel, by decide +kernel, by decide +kernel, h _⟩


/-! ### Ill-formed commands are refused by each check of WellFormed -/

theorem test_wf_accepts : wellFormed (.guestCreate secondGuest1) = true ∧ wellFormed (.read (rd 0)) = true ∧ wellFormed (.sqTail (heads 5)) = true := by
  decide +kernel
theorem test_wf_channel :
    ([.mailbox 4 0, .mailbox 0 16, .sxf 64 0, .sxf 0 16, .tls 32, .shore 512].all fun (x : Channel) =>
      !wellFormed (.guestCreate { secondGuest1 with chan := x })) = true := by decide +kernel
theorem test_wf_command_length : wellFormed (.guestCreate ⟨.tls 0, zeros 15⟩) = false ∧ wellFormed (.guestCreate ⟨.tls 0, zeros 4097⟩) = false := by
  decide +kernel
theorem test_wf_message :
    ([⟨64, 0, 0, []⟩, ⟨0, 4, 0, []⟩, ⟨0, 0, 2 ^ 128, []⟩, ⟨0, 0, 0, zeros 4097⟩].all fun (m : SxfMsg) => !wellFormed (.read m)) = true := by decide +kernel
theorem test_wf_hold : wellFormed (.remoteHold (rd 0)) = false ∧ wellFormed (.holdBroken (rd 0)) = false := by decide +kernel
theorem test_wf_access :
    ([⟨.host 4, 0, 0, 0, 4, false, 0⟩, ⟨.jetty 64, 0, 0, 0, 4, false, 0⟩, ⟨.host 0, 0, 2, 0, 4, false, 0⟩, ⟨.host 0, 0, 0, 2 ^ 22, 4, false, 0⟩,
      ⟨.host 0, 0, 0, 0, 4, true, 2 ^ 32⟩].all fun (a : RegAccess) => !wellFormed (.registerWrite a)) = true := by decide +kernel
theorem test_wf_frames : wellFormed (.tollAck (zeros 2055)) = false ∧ wellFormed (.wayfarerHelp (zeros 129)) = false := by decide +kernel
theorem test_wf_numbers :
    ([.turn 256, .descriptorFetch 1024, .bundleClose 64, .laneFail 64 0, .laneFail 0 9, .hostLinkDown 4, .nandSuspend 2048, .railGood 11,
      .lockstepMismatch 2 false, .hbmChannelFail 8 0, .hbmChannelFail 0 32, .arrayFail 34, .sealBreak 7, .spanDeadDetect 512, .porterRetry 64,
      .msixUnmask 0 2048, .directoryEntryError (2 ^ 57), .intervalTimeout [] false, .frame 0 [] [] [] 0 false].all fun (i : Instr) => !wellFormed i) = true := by
  decide +kernel

/-! ### No word spells a command -/

theorem test_decode_none : decodeTableWord 8 0 = none := rfl

/-! ### Worked examples of the spec and check values -/

/-- The example of little-endian fields beside R12 (spec 00): bytes 0x78, 0x56, 0x34, 0x12 at 4–7. -/
theorem test_little_endian : fld (zeros 4 ++ [0x78, 0x56, 0x34, 0x12]) 4 4 = 0x12345678 := by decide +kernel
/-- The example of the stack hash (spec 02): 0x0325_C040 is in stack 1, pseudo-channel 1. -/
theorem test_stack_hash : stackOf 0x0325C040 = 1 ∧ pseudoOf 0x0325C040 = 1 := by decide +kernel
/-- The examples of the conversions (spec 08). -/
theorem test_round_pi : (roundTo .bf16 (decodeElem .fp32 0x40490FDB) rmodeDefault 0).1 = 0x4049 ∧
    (roundTo .e4m3 (decodeElem .fp32 0x40490FDB) rmodeDefault 0).1 = 0x45 ∧ (roundTo .e4m3 (decodeElem .fp32 0x40490FDB) ⟨true, .rtz⟩ 0).1 = 0x44 := by
  decide +kernel
theorem test_round_500 : (roundTo .e4m3 (.fin false 500 1) rmodeDefault 0).1 = 0x7F ∧ (roundTo .e4m3 (.fin false 500 1) ⟨false, .rne⟩ 0).1 = 0x7E ∧
    (roundTo .e5m2 (.fin false 500 1) rmodeDefault 0).1 = 0x60 ∧ (roundTo .e4m3 (.fin false 1 1000) rmodeDefault 0).1 = 0x01 := by decide +kernel
/-- The example of the exact accumulator (spec 08). -/
theorem test_exact_sum : (roundTo .fp32 (((Accum.zero.add (.fin false (2 ^ 24) 1)).add (.fin false 1 1)).add (.fin true (2 ^ 24) 1) |>.value (.fin false 1 1))
    rmodeDefault 0).1 = 0x3F800000 := by decide +kernel
/-- The example of an MXFP4 block (spec 08). -/
theorem test_mx_block : encodeMx .e2m1 [.fin false 5 1, .fin false 3 10, .fin true 26 10] rmodeDefault (fun _ => 0) =
    (0x7F, [(0x6, false), (0x1, false), (0xD, false)]) := by decide +kernel
/-- The published check values of CRC-32C and CRC-16/CCITT-FALSE, of the text 123456789. -/
theorem test_crc : crc32c (chars ['1', '2', '3', '4', '5', '6', '7', '8', '9']) = 0xE3069283 ∧ crc16 (chars ['1', '2', '3', '4', '5', '6', '7', '8', '9']) = 0x29B1 := by
  decide +kernel

end Sys2Proof.Tests
end

section
/-! SUPPORT. Bit ranges (spec 00: R13): which bits of a value a range holds. -/

namespace Sys2Proof

theorem bits_lt {v hi lo : Nat} (h : lo ≤ hi) : bits v hi lo < 2 ^ (hi - lo + 1) := by
  rw [← Nat.sub_add_comm h]
  exact Nat.mod_lt _ (Nat.two_pow_pos _)

theorem bit_bits (v hi lo i : Nat) : bit (bits v hi lo) i = (decide (i < hi + 1 - lo) && bit v (lo + i)) := by
  unfold bit bits
  rw [Nat.testBit_mod_two_pow, Nat.testBit_div_two_pow, Nat.add_comm i]

theorem bit_zero_iff (v : Nat) : bit v 0 = true ↔ v % 2 = 1 := by
  unfold bit
  rw [Nat.testBit_zero, decide_eq_true_iff]

/-- Settles O51, by the bit of a quotient and of a remainder by a power of two. -/
theorem bitRanges : Obligations.BitRanges := by
  intro v hi lo h
  refine ⟨bit_zero_iff v, bits_lt h, fun i hi' => ?_, fun i hi' => ?_⟩
  · rw [bit_bits, decide_eq_true (by omega : i < hi + 1 - lo), Bool.true_and]
  · rw [bit_bits, decide_eq_false (by omega : ¬ i < hi + 1 - lo), Bool.false_and]

end Sys2Proof
end

section
/-! SUPPORT. What the registers and doorbells of a host port can change (spec 23: R21–R26, R795–R807; spec 20: R736). -/

namespace Sys2Proof.Machine

/-! ### Interrupts and the registers of a view -/

/-- An MSI-X message leaves the block, or stays pending at its port (R613). -/
theorem msix_form (s : State) (p v : Nat) : ∃ ports out, s.msix p v = { s with host := { s.host with ports := ports }, out := out } := by
  unfold State.msix
  split
  · exact ⟨s.host.ports, s.out, rfl⟩
  · split
    · exact ⟨s.host.ports, _, rfl⟩
    · exact ⟨_, s.out, rfl⟩

/-- The second state differs from the first in the registers of the views, the host ports and what has left the block, at most. -/
def Raised (s t : State) : Prop := t = { s with out := t.out, host := t.host, regs := t.regs }

theorem Raised.refl (s : State) : Raised s s := rfl

theorem Raised.trans {s t u : State} (h : Raised s t) (k : Raised t u) : Raised s u := by
  unfold Raised at h
  rw [h] at k
  exact k

theorem emit_raised (s : State) (o : Output) : Raised s (s.emit o) := rfl

theorem setView_raised (s : State) (x : ViewRegs) : Raised s (s.setView x) := rfl

theorem msix_raised (s : State) (p v : Nat) : Raised s (s.msix p v) := by
  obtain ⟨ports, out, h⟩ := msix_form s p v
  rw [h]
  rfl

theorem setInt_raised (s : State) (p status enable : Nat) : Raised s (s.setInt p status enable) := by
  unfold State.setInt
  dsimp only
  split
  · exact (setView_raised s _).trans (msix_raised _ _ _)
  · exact setView_raised s _

theorem interruptOn_raised (s : State) (p n : Nat) : Raised s (s.interruptOn p n) := setInt_raised s p _ _

theorem foldl_raised {α : Type} (f : State → α → State) (h : ∀ s a, Raised s (f s a)) : ∀ (l : List α) (s : State), Raised s (l.foldl f s)
  | [], s => Raised.refl s
  | a :: l, s => (h s a).trans (foldl_raised f h l (f s a))

theorem interrupt_raised (s : State) (n : Nat) : Raised s (s.interrupt n) := foldl_raised _ (fun s p => interruptOn_raised s p n) _ s

theorem countBad_raised (s : State) (a : RegAccess) : Raised s (s.countBad a) := by
  unfold State.countBad
  dsimp only
  split
  · exact (setView_raised s _).trans (interrupt_raised _ _)
  · exact setView_raised s _

theorem countDenied_raised (s : State) (a : RegAccess) (q kind : Nat) (missing : Bool) : Raised s (s.countDenied a q kind missing) := by
  unfold State.countDenied
  dsimp only
  split
  · exact (setView_raised s _).trans (interrupt_raised _ _)
  · exact setView_raised s _

theorem readCount_raised (s : State) (a : RegAccess) : Raised s (s.readCount a).1 := by
  unfold State.readCount
  dsimp only
  split
  · exact Raised.refl s
  · split <;> exact setView_raised s _

/-! ### Register reads -/

/-- The second state differs from the first in the latches of TIDETIME and what has left the block, at most. -/
def Latched (s t : State) : Prop := t = { s with out := t.out, clock := { s.clock with latches := t.clock.latches } }

theorem readTidetime_latched (s : State) (a : RegAccess) : Latched s (s.readTidetime a).1 := by
  unfold State.readTidetime
  dsimp only
  split <;> rfl

theorem regRead_tidetime {s : State} {a : RegAccess} (ha : regAllowed a = true) (hw : a.width = 4) (hp : placeOf a.bar a.off = .shore 0x1010) :
    s.regRead a = s.readTidetime a := by
  unfold State.regRead
  rw [ha, hp]
  exact if_pos hw

theorem regRead_badAccess {s : State} {a : RegAccess} (ha : regAllowed a = true) (hp : placeOf a.bar a.off = .perView 0x1118) :
    s.regRead a = s.readCount a := by
  unfold State.regRead
  rw [ha, hp]
  rfl

theorem regRead_doorbellDenied {s : State} {a : RegAccess} (ha : regAllowed a = true) (hp : placeOf a.bar a.off = .perView 0x1120) :
    s.regRead a = s.readCount a := by
  unfold State.regRead
  rw [ha, hp]
  rfl

/-- A read of a half of TIDETIME takes the latch of the low half, or frees it at the high half (R736). -/
theorem readTidetime_low {s : State} {a : RegAccess} (h : a.off % 8 = 0) : s.readTidetime a =
    ({ s with clock := { s.clock with
      latches := (s.clock.latches.filter fun x => !latchOf a x) ++ [(a.view, a.agent, u64 s.now / 2 ^ 32)] } }, u64 s.now % 2 ^ 32) := by
  unfold State.readTidetime
  exact if_pos h

theorem readTidetime_high {s : State} {a : RegAccess} (h : a.off % 8 ≠ 0) : s.readTidetime a =
    ({ s with clock := { s.clock with latches := s.clock.latches.filter fun x => !latchOf a x } },
      ((s.clock.latches.find? (latchOf a)).map fun (x : View × Nat × Nat) => x.2.2).getD (u64 s.now / 2 ^ 32)) := by
  unfold State.readTidetime
  exact if_neg h

/-- A read whose bytes hold COUNT clears the count of its register (R795). -/
theorem readCount_badAccess {s : State} {a : RegAccess} (hw : a.width ≠ 4 ∨ a.off % 8 ≠ 4) (hp : placeOf a.bar a.off = .perView 0x1118) :
    s.readCount a = (s.setView { s.view a.view with badCount := 0 }, halfOf a (s.regValue a.view a.agent a.bar a.off)) := by
  unfold State.readCount
  dsimp only
  rw [if_neg (by omega), if_pos hp]

theorem readCount_doorbellDenied {s : State} {a : RegAccess} (hw : a.width ≠ 4 ∨ a.off % 8 ≠ 4) (hp : placeOf a.bar a.off = .perView 0x1120) :
    s.readCount a = (s.setView { s.view a.view with deniedCount := 0 }, halfOf a (s.regValue a.view a.agent a.bar a.off)) := by
  unfold State.readCount
  dsimp only
  rw [if_neg (by omega), if_neg (by rw [hp]; decide)]

/-- A host's read of the place that its row names returns the value. -/
theorem hostRead'_eq {s : State} {a : RegAccess} {p : Nat} {place : RegPlace} (h : hostReaches a p s = true) (ha : regAllowed a = true)
    (hr : a.write = false) (hp : placeOf a.bar a.off = place) :
    s.hostRead' a place = .next ((s.regRead a).1.emit (.reg a.view (s.regRead a).2)) := by
  unfold State.hostRead'
  rw [State.hostAccess_eq h, if_neg (by simp [ha, hr, hp])]

/-! ### Accesses that reach nothing leave the state as it was -/

/-- A host's access has its effect at the port or none at all: a relation that covers both covers its outcome. -/
theorem hostAccess_endsIn {R : State → State → Prop} {s : State} {a : RegAccess} {f : Nat → State} (h0 : R s s) (h : ∀ p, R s (f p)) :
    EndsIn R s (s.hostAccess a f) := by
  refine ⟨_, rfl, ?_⟩
  split
  · split
    · exact h _
    · exact h0
  · exact h0

/-- As `hostAccess_endsIn`, for a read; only the read itself is in question. -/
theorem hostRead'_endsIn {R : State → State → Prop} {s : State} {a : RegAccess} {place : RegPlace} (h0 : R s s)
    (h : regAllowed a = true → placeOf a.bar a.off = place → R s ((s.regRead a).1.emit (.reg a.view (s.regRead a).2))) :
    EndsIn R s (s.hostRead' a place) := by
  refine hostAccess_endsIn h0 fun _ => ?_
  split
  · exact h0
  · rename_i hc
    simp only [Bool.or_eq_true, Bool.not_eq_true', bne_iff_ne, not_or, Bool.not_eq_false] at hc
    obtain ⟨⟨-, ha⟩, hp⟩ := hc
    exact h ha (Decidable.not_not.1 hp)

/-! ### Doorbells -/

/-- What CQ_HEAD cannot change of a completion queue. -/
def cqKept (q : Cq) : Nat × Nat × Nat × Nat × Nat := (q.id, q.guest, q.ring, q.depth, q.write)

/-- The second state differs from the first in the registers of the views, the host ports, the queues' own fields, the counters and what
has left the block, at most, and each completion queue has kept its ring, depth and write position. -/
def Rung (s t : State) : Prop :=
  t = { s with
    out := t.out, host := t.host, regs := t.regs, queues := { s.queues with sqs := t.queues.sqs, cqs := t.queues.cqs },
    obs := { s.obs with counters := t.obs.counters } } ∧
  t.queues.cqs.map cqKept = s.queues.cqs.map cqKept

theorem Rung.refl (s : State) : Rung s s := ⟨rfl, rfl⟩

theorem Rung.trans {s t u : State} (h : Rung s t) (k : Rung t u) : Rung s u := by
  obtain ⟨h1, h2⟩ := h
  obtain ⟨k1, k2⟩ := k
  refine ⟨?_, k2.trans h2⟩
  rw [h1] at k1
  exact k1

theorem Raised.rung {s t : State} (h : Raised s t) : Rung s t := by
  unfold Raised at h
  rw [h]
  exact Rung.refl _

theorem setSq_rung (s : State) (q : Nat) (f : Sq → Sq) : Rung s (s.setSq q f) := ⟨rfl, rfl⟩

theorem count_rung (s : State) (group index number n : Nat) : Rung s (s.count group index number n) := ⟨rfl, rfl⟩

theorem setCq_rung (s : State) (q : Nat) {f : Cq → Cq} (h : ∀ x, cqKept (f x) = cqKept x) : Rung s (s.setCq q f) := by
  refine ⟨rfl, ?_⟩
  unfold State.setCq mapIf
  rw [List.map_map]
  refine List.map_congr_left fun x _ => ?_
  rw [Function.comp_apply]
  split
  · exact h x
  · rfl

theorem doorbellError_rung (s : State) (q : Nat) : Rung s (s.doorbellError q) := (setSq_rung s q _).trans (count_rung _ _ _ _ _)

theorem doorbellErrors_rung : ∀ (l : List Nat) (s : State), Rung s (l.foldl State.doorbellError s)
  | [], s => Rung.refl s
  | q :: l, s => (doorbellError_rung s q).trans (doorbellErrors_rung l _)

theorem writeTail_rung (s : State) (q : Sq) (v : Nat) : Rung s (s.writeTail q v) := by
  unfold State.writeTail
  split
  · exact doorbellError_rung s q.id
  · exact setSq_rung s q.id _

theorem writeCqHead_rung (s : State) (q : Cq) (v : Nat) : Rung s (s.writeCqHead q v) := by
  unfold State.writeCqHead
  split
  · exact setCq_rung s q.id fun _ => rfl
  · refine Rung.trans ?_ (doorbellErrors_rung _ _)
    exact setCq_rung s q.id fun _ => rfl

theorem writeErrHead_rung (s : State) (q : Sq) (v : Nat) : Rung s (s.writeErrHead q v) := by
  unfold State.writeErrHead
  dsimp only
  split
  · exact doorbellError_rung s q.id
  · exact setSq_rung s q.id _

theorem doorbell_rung (s : State) (a : RegAccess) (q kind : Nat) : Rung s (s.doorbell a q kind) := by
  unfold State.doorbell
  dsimp only
  split
  · split
    · exact (countDenied_raised s a q kind true).rung
    · split
      · exact writeCqHead_rung s _ _
      · exact (countDenied_raised s a q kind false).rung
  · split
    · exact (countDenied_raised s a q kind true).rung
    · split
      · exact (countDenied_raised s a q kind false).rung
      · split
        · exact writeTail_rung s _ _
        · exact writeErrHead_rung s _ _

theorem hostDoorbell_rung (s : State) (a : RegAccess) (kind : Nat) (resume : Bool) : EndsIn Rung s (s.hostDoorbell a kind resume) := by
  refine hostAccess_endsIn (Rung.refl s) fun _ => ?_
  split
  · exact Rung.refl s
  · split
    · split
      · exact doorbell_rung s a _ _
      · exact Rung.refl s
    · exact Rung.refl s

/-! ### Mailboxes -/

/-- The second state differs from the first in the mailboxes, at most. -/
def Boxed (s t : State) : Prop := t = { s with inn := { s.inn with boxes := t.inn.boxes } }

theorem registerWrite_boxed (s : State) (a : RegAccess) : EndsIn Boxed s (execRegisterWrite a s) := by
  refine hostAccess_endsIn rfl fun p => ?_
  split
  · rfl
  · split
    · dsimp only
      split <;> rfl
    · split <;> rfl
    · rfl
    · rfl

/-- The second state differs from the first in the mailboxes, the channels and the counters, at most. -/
def Delivered (s t : State) : Prop :=
  t = { s with inn := { s.inn with boxes := t.inn.boxes, chans := t.inn.chans }, obs := { s.obs with counters := t.obs.counters } }

theorem mbxDoorbell_delivered (s : State) (a : RegAccess) : EndsIn Delivered s (execMbxDoorbell a s) := by
  refine hostAccess_endsIn rfl fun p => ?_
  split
  · rfl
  · split
    · dsimp only
      split <;> rfl
    · rfl

end Sys2Proof.Machine
end

section
/-! Register accesses: their outcomes and their frame (spec 23: R21, R26, R792–R799; spec 20: R736). -/

namespace Sys2Proof.Machine

/-! ### What each row does -/

section
variable {a : RegAccess} {p : Nat} {s : State} (h : hostReaches a p s = true)
include h

theorem execBadRegisterAccess_write (ha : regAllowed a = false) (hw : a.write = true) :
    execBadRegisterAccess a s = .next (s.countBad a) := by
  unfold execBadRegisterAccess
  rw [State.hostAccess_eq h, if_neg (by simp [ha]), if_pos hw]

theorem execBadRegisterAccess_read (ha : regAllowed a = false) (hw : a.write = false) :
    execBadRegisterAccess a s = .next ((s.countBad a).emit (.reg a.view (2 ^ (8 * a.width) - 1))) := by
  unfold execBadRegisterAccess
  rw [State.hostAccess_eq h, if_neg (by simp [ha]), if_neg (by simp [hw])]

theorem execTidetimeLowRead_eq (ha : regAllowed a = true) (hr : a.write = false) (hw : a.width = 4)
    (hp : placeOf a.bar a.off = .shore 0x1010) :
    execTidetimeLowRead a s = .next ((s.readTidetime a).1.emit (.reg a.view (s.readTidetime a).2)) := by
  unfold execTidetimeLowRead
  rw [if_pos hw, hostRead'_eq h ha hr hp, regRead_tidetime ha hw hp]

theorem execBadAccessRead_eq (ha : regAllowed a = true) (hr : a.write = false) (hp : placeOf a.bar a.off = .perView 0x1118) :
    execBadAccessRead a s = .next ((s.readCount a).1.emit (.reg a.view (s.readCount a).2)) := by
  unfold execBadAccessRead
  rw [hostRead'_eq h ha hr hp, regRead_badAccess ha hp]

theorem execDoorbellDeniedRead_eq (ha : regAllowed a = true) (hr : a.write = false) (hp : placeOf a.bar a.off = .perView 0x1120) :
    execDoorbellDeniedRead a s = .next ((s.readCount a).1.emit (.reg a.view (s.readCount a).2)) := by
  unfold execDoorbellDeniedRead
  rw [hostRead'_eq h ha hr hp, regRead_doorbellDenied ha hp]

theorem execIntStatusWrite_eq (ha : regAllowed a = true) (hw : a.write = true) (hp : placeOf a.bar a.off = .perView 0x1100) :
    execIntStatusWrite a s = .next
      (s.setInt p ((s.view (.host p)).status - ((s.view (.host p)).status &&& intBits a)) (s.view (.host p)).enable) := by
  unfold execIntStatusWrite
  rw [State.hostAccess_eq h, if_neg (by simp [ha, hw, hp])]

theorem execIntEnableWrite_eq (ha : regAllowed a = true) (hw : a.write = true) (hl : regLow a = true)
    (hp : placeOf a.bar a.off = .perView 0x1108) :
    execIntEnableWrite a s = .next (s.setInt p (s.view (.host p)).status (intBits a)) := by
  unfold execIntEnableWrite
  rw [State.hostAccess_eq h, if_neg (by simp [ha, hw, hl, hp])]

theorem execIntSetWrite_eq (ha : regAllowed a = true) (hw : a.write = true) (hp : placeOf a.bar a.off = .perView 0x1110) :
    execIntSetWrite a s = .next (s.setInt p ((s.view (.host p)).status ||| intBits a) (s.view (.host p)).enable) := by
  unfold execIntSetWrite
  rw [State.hostAccess_eq h, if_neg (by simp [ha, hw, hp])]

theorem execRegisterWrite_status {m : Nat} (ha : regAllowed a = true) (hw : a.write = true) (hp : placeOf a.bar a.off = .mbxRegister m 8)
    (hl : regLow a = true) (hb : bit (regPlaced a) 2 = true) :
    execRegisterWrite a s = .next (s.setBox { s.box p m with overrun := false }) := by
  unfold execRegisterWrite
  rw [State.hostAccess_eq h, if_neg (by simp [ha, hw]), hp]
  exact congrArg _ (if_pos (by simp [hl, hb]))

theorem execRegisterWrite_notify {m : Nat} (ha : regAllowed a = true) (hw : a.write = true) (hp : placeOf a.bar a.off = .mbxRegister m 0x10)
    (hl : regLow a = true) :
    execRegisterWrite a s = .next (s.setBox { s.box p m with vector := regPlaced a % 2048, notify := bit (regPlaced a) 16 }) := by
  unfold execRegisterWrite
  rw [State.hostAccess_eq h, if_neg (by simp [ha, hw]), hp]
  exact congrArg _ (if_pos hl)

theorem execRegisterWrite_command {m o : Nat} (ha : regAllowed a = true) (hw : a.write = true) (hp : placeOf a.bar a.off = .mbxCmd m o) :
    execRegisterWrite a s = .next (s.setBox { s.box p m with cmd := spliceCmd (s.box p m).cmd o (leBytes a.width a.data) }) := by
  unfold execRegisterWrite
  rw [State.hostAccess_eq h, if_neg (by simp [ha, hw]), hp]

end

/-- Settles O16, row by row: each row's own lemma, and what a read of TIDETIME or of a count returns and leaves. -/
theorem registerAccess : Obligations.RegisterAccess := by
  intro a p s h
  refine ⟨execBadRegisterAccess_write h, execBadRegisterAccess_read h, fun ha hr hw hp hlow => ?_, fun ha hr hw hp hhigh => ?_,
    fun ha hr hp hc => ?_, fun ha hr hp hc => ?_, execIntStatusWrite_eq h, execIntEnableWrite_eq h, execIntSetWrite_eq h,
    fun ha hw m => ⟨execRegisterWrite_status h ha hw, execRegisterWrite_notify h ha hw, fun o => execRegisterWrite_command h ha hw⟩⟩
  · exact (execTidetimeLowRead_eq h ha hr hw hp).trans (by rw [readTidetime_low hlow])
  · exact (execTidetimeLowRead_eq h ha hr hw hp).trans (by rw [readTidetime_high hhigh])
  · exact (execBadAccessRead_eq h ha hr hp).trans (by rw [readCount_badAccess hc hp])
  · exact (execDoorbellDeniedRead_eq h ha hr hp).trans (by rw [readCount_doorbellDenied hc hp])

/-! ### What each row leaves -/

theorem badRegisterAccess_raised (s : State) (a : RegAccess) : EndsIn Raised s (execBadRegisterAccess a s) := by
  refine hostAccess_endsIn (Raised.refl s) fun _ => ?_
  split
  · exact Raised.refl s
  · split
    · exact countBad_raised s a
    · exact (countBad_raised s a).trans (emit_raised _ _)

theorem badAccessRead_raised (s : State) (a : RegAccess) : EndsIn Raised s (execBadAccessRead a s) :=
  hostRead'_endsIn (Raised.refl s) fun ha hp => by
    rw [regRead_badAccess ha hp]
    exact (readCount_raised s a).trans (emit_raised _ _)

theorem doorbellDeniedRead_raised (s : State) (a : RegAccess) : EndsIn Raised s (execDoorbellDeniedRead a s) :=
  hostRead'_endsIn (Raised.refl s) fun ha hp => by
    rw [regRead_doorbellDenied ha hp]
    exact (readCount_raised s a).trans (emit_raised _ _)

/-- A write of an interrupt register gives INT_STATUS and INT_ENABLE new values, or is turned away by its row's condition. -/
theorem intWrite_raised (s : State) (a : RegAccess) (turnedAway : Bool) (status enable : Nat → Nat) :
    EndsIn Raised s (s.hostAccess a fun p => if turnedAway then s else s.setInt p (status p) (enable p)) := by
  refine hostAccess_endsIn (Raised.refl s) fun p => ?_
  split
  · exact Raised.refl s
  · exact setInt_raised s p _ _

theorem tidetimeLowRead_latched (s : State) (a : RegAccess) : EndsIn Latched s (execTidetimeLowRead a s) := by
  unfold execTidetimeLowRead
  split
  · rename_i hw
    refine hostRead'_endsIn rfl fun ha hp => ?_
    rw [regRead_tidetime ha hw hp]
    have h := readTidetime_latched s a
    unfold Latched at h
    rw [h]
    rfl
  · exact ⟨s, rfl, rfl⟩

/-- Settles O52: every row answers next, with the frame of its kind (`Raised`, `Latched`, `Rung`, `Boxed`, `Delivered`). -/
theorem registerFrame : Obligations.RegisterFrame := by
  intro a s
  refine ⟨?_, tidetimeLowRead_latched s a, ?_, registerWrite_boxed s a, mbxDoorbell_delivered s a⟩
  · simp only [List.forall_mem_cons, List.not_mem_nil, false_implies, implies_true, and_true]
    exact ⟨badRegisterAccess_raised s a, badAccessRead_raised s a, doorbellDeniedRead_raised s a, intWrite_raised s a _ _ _,
      intWrite_raised s a _ _ _, intWrite_raised s a _ _ _⟩
  · simp only [List.forall_mem_cons, List.not_mem_nil, false_implies, implies_true, and_true]
    exact ⟨hostDoorbell_rung s a 0 false, hostDoorbell_rung s a 1 false, hostDoorbell_rung s a 2 false, hostDoorbell_rung s a 2 true⟩

end Sys2Proof.Machine
end

section
/-! Relas commands that a check stops (spec 03: R128, R131, R132, R140): the answer of the first failing check, and what an answer
changes. -/

namespace Sys2Proof.Machine

/-! ### What an answer changes -/

/-- The second state differs from the first in the mailboxes, the links, the host ports and what has left the block, at most. -/
def Responded (s t : State) : Prop := ∃ boxes links ports out, t =
  { s with inn := { s.inn with boxes := boxes }, fabric := { s.fabric with links := links }, host := { s.host with ports := ports }, out := out }

theorem Sent.responded {s t : State} (h : Sent s t) : Responded s t := by
  obtain ⟨links, out, rfl⟩ := h
  exact ⟨s.inn.boxes, links, s.host.ports, out, rfl⟩

theorem setBox_responded (s : State) (b : Mailbox) : Responded s (s.setBox b) :=
  ⟨(s.setBox b).inn.boxes, s.fabric.links, s.host.ports, s.out, rfl⟩

theorem setBox_msix_responded (s : State) (b : Mailbox) (p v : Nat) : Responded s ((s.setBox b).msix p v) := by
  obtain ⟨ports, out, h⟩ := msix_form (s.setBox b) p v
  exact ⟨(s.setBox b).inn.boxes, s.fabric.links, ports, out, h⟩

theorem sendResponse_responded (s : State) (ch : Channel) (rsp : List Byte) : Responded s (s.sendResponse ch rsp) := by
  cases ch with
  | mailbox p m =>
    unfold State.sendResponse
    dsimp only
    split
    · exact setBox_msix_responded s _ p _
    · exact setBox_responded s _
  | sxf b k => exact (sendJetty_sent s b _).responded
  | shore n => exact (send_sent s _).responded
  | tls n => exact (emit_sent s _).responded

theorem answer_form (s : State) (c : RelasCmd) (rsp : List Byte) : ∃ chans boxes links ports out, s.answer c rsp =
    { s with
      inn := { s.inn with chans := chans, boxes := boxes }
      fabric := { s.fabric with links := links }, host := { s.host with ports := ports }, out := out } := by
  unfold State.answer
  dsimp only
  generalize hx : s.setChan _ = t
  obtain ⟨boxes, links, ports, out, h⟩ := sendResponse_responded t c.chan rsp
  subst hx
  exact ⟨_, boxes, links, ports, out, h⟩

/-! ### Which answer the first failing check gives -/

/-- A command that waits for no earlier one runs the engine in the row of its opcode, in the families other than the coves. -/
theorem serveAs_relas {s : State} {c : RelasCmd} {n : Nat} (hc : c.opcode = n) (hn : n / 256 ≠ 2) (hs : s.serial c = false) :
    s.serveAs n c = relas relasTable ((relasOpOf c).getD opUnknown) c s := by
  unfold State.serveAs State.serve
  rw [if_neg (by simp [hc]), if_neg (by simp [hs])]
  dsimp only
  rw [if_neg (by rw [hc]; exact hn)]

/-- The length of a command is allowed and is the one that it states (R131). -/
def RightSize (c : RelasCmd) : Prop := c.len % 8 = 0 ∧ 16 ≤ c.len ∧ c.len ≤ 4096 ∧ c.bytes.length = c.len

/-- The channel is bound to the command's guest, and a guest other than the system guest reaches what it names (R132). -/
def RelasOp.Entitled (op : RelasOp) (r : CatRow) (c : RelasCmd) (u : State) : Prop :=
  (u.chanRec c.chan).bound = some (c.guest, c.epoch) ∧ (c.guest = 0 ∨ (r.guest = true ∧ op.owns c u = true))

theorem RelasOp.entitled_iff {op : RelasOp} {r : CatRow} {c : RelasCmd} {u : State} : op.Entitled r c u ↔
    ¬ ((u.chanRec c.chan).bound ≠ some (c.guest, c.epoch) ∨ c.guest ≠ 0 ∧ ((!r.guest) = true ∨ (!op.owns c u) = true)) := by
  unfold RelasOp.Entitled
  rw [Decidable.or_iff_not_imp_left (a := c.guest = 0)]
  simp only [ne_eq, not_or, not_and, Decidable.not_not, Bool.not_eq_true', Bool.not_eq_false]

theorem rightSize_iff {c : RelasCmd} :
    RightSize c ↔ ¬ (c.len % 8 ≠ 0 ∨ c.len < 16 ∨ c.len > 4096 ∨ c.bytes.length ≠ c.len) := by
  unfold RightSize
  omega

/-- A new command meets the checks in the order of R128. Each check that lets it through leaves the rest of the engine, and the next one is
read off there; the first that does not is answered. -/
theorem relas_refuses {op : RelasOp} {r : CatRow} {c : RelasCmd} {s : State} (hd : s.delivered c = true) (hs : c.stage = false)
    (hr : catRow c.opcode = some r) (hk : (((s.taken c).chanRec c.chan).kept.find? fun k => k.header = c.header) = none) :
    let u := s.taken c
    let answered : Nat → Nat → Prop := fun result detail => relas relasTable op c s = u.fail c result detail
    (¬ RightSize c → answered Result.badLength ((op.len c).getD 4096)) ∧
    (RightSize c → (∀ n, op.len c = some n → answered Result.badLength n) ∧
      (op.len c = none → (¬ op.Entitled r c u → answered Result.denied 0) ∧
        (op.Entitled r c u → (stateAllows u c = false → answered Result.notReady u.devState) ∧
          (stateAllows u c = true → u.refusing = false → (u.chanRec c.chan).outstanding.length ≤ 8 →
            (∀ d, headerBad r c = some d → answered Result.badField d) ∧
            (headerBad r c = none → (∀ d, op.fields c u = some d → answered Result.badField d) ∧
              (op.fields c u = none → (op.denied c u = true → answered Result.denied 0) ∧
                (op.denied c u = false → (∀ d, op.limits c u = some d → answered Result.noResource d) ∧
                  (op.limits c u = none → r.pending = false →
                    ∀ d, op.conflict c u = some d → answered Result.conflict d)))))))) := by
  intro u answered
  -- `rest` is what the engine still has to do after the checks that have let the command through.
  have rest := relas.eq_1 relasTable op c s
  rw [if_neg (by simp [hd])] at rest
  dsimp only at rest
  rw [show s.countCommand c.chan = u from rfl, hk, hr] at rest
  dsimp only at rest
  refine ⟨fun hsize => ?_, fun hsize => ?_⟩
  · rwa [if_pos (decide_eq_true (Decidable.not_not.1 (mt rightSize_iff.2 hsize)))] at rest
  rw [if_neg (by rw [decide_eq_false (rightSize_iff.1 hsize)]; exact Bool.false_ne_true)] at rest
  refine ⟨fun n hlen => ?_, fun hlen => ?_⟩
  · rwa [hlen] at rest
  rw [hlen] at rest
  dsimp only at rest
  refine ⟨fun hent => ?_, fun hent => ?_⟩
  · rwa [if_pos (Decidable.not_not.1 (mt RelasOp.entitled_iff.2 hent))] at rest
  rw [if_neg (RelasOp.entitled_iff.1 hent)] at rest
  refine ⟨fun hstate => ?_, fun hstate hrefusing hout => ?_⟩
  · rwa [if_pos (by simp [hstate])] at rest
  rw [if_neg (by simp [hstate]), if_neg (by simp [hrefusing, hout])] at rest
  refine ⟨fun d hheader => ?_, fun hheader => ?_⟩
  · rwa [hheader] at rest
  rw [hheader] at rest
  dsimp only at rest
  refine ⟨fun d hfields => ?_, fun hfields => ?_⟩
  · rwa [hfields] at rest
  rw [hfields] at rest
  dsimp only at rest
  rw [if_neg (by simp [hs])] at rest
  refine ⟨fun hdenied => ?_, fun hdenied => ?_⟩
  · rwa [if_pos hdenied] at rest
  rw [if_neg (by simp [hdenied])] at rest
  refine ⟨fun d hlimits => ?_, fun hlimits hpending d hconflict => ?_⟩
  · rwa [hlimits] at rest
  rw [hlimits, hpending] at rest
  dsimp only at rest
  rwa [if_neg Bool.false_ne_true, hconflict] at rest

/-- Settles O43: every row named serves its own opcode, none of a cove, so the checks are the engine's (`relas_refuses`). -/
theorem refusedCommands : Obligations.RefusedCommands := by
  refine ⟨?_, fun c s rsp => answer_form s c rsp⟩
  intro c s r hd hser hst hr u op hk x hx hop _ _ answered
  have row : exec x.1 s = .next (s.serveAs x.2 c) ∧ x.2 / 256 ≠ 2 := by
    simp only [List.mem_cons, List.not_mem_nil, or_false] at hx
    rcases hx with rfl | rfl | rfl | rfl | rfl | rfl | rfl | rfl | rfl | rfl | rfl | rfl | rfl | rfl | rfl | rfl | rfl <;>
      exact ⟨rfl, by dsimp only; decide⟩
  have engine : answered = fun result detail => relas relasTable op c s = u.fail c result detail := by
    funext result detail
    unfold answered
    rw [row.1, serveAs_relas hop row.2 hser, Host.Outcome.next.injEq]
  rw [engine]
  exact relas_refuses hd hst hr hk

end Sys2Proof.Machine
end

section
/-! SUPPORT. When some element of a list, or none, meets a condition. -/

namespace Sys2Proof.Machine

theorem any_iff_exists {α : Type} {p : α → Prop} [DecidablePred p] {l : List α} : (l.any fun x => p x) = true ↔ ∃ x ∈ l, p x := by
  simp only [List.any_eq_true, decide_eq_true_eq]

theorem not_any_of_forall_not {α : Type} {p : α → Prop} [DecidablePred p] {l : List α} (h : ∀ x ∈ l, ¬ p x) :
    ¬ (l.any fun x => p x) = true := by
  rw [any_iff_exists]
  rintro ⟨x, hx, hp⟩
  exact h x hx hp

end Sys2Proof.Machine
end

section
/-! What the CXL.mem requests of a host port come to (spec 04: R196–R202; spec 15: R601–R610; spec 17: R648). -/

namespace Sys2Proof.Machine

/-! ### A port that is absent or down -/

section
variable {s : State} {p : Nat} (h : ∀ x, s.port p = some x → x.up = false ∧ x.memSecure = false)
include h

theorem hostReach_down (addr : Nat) (a : Access) : s.hostReach p addr a = .nothing := by
  unfold State.hostReach
  cases hp : s.port p with
  | none => rfl
  | some x => simp [(h x hp).1]

theorem insecure_down (secure : Bool) : s.insecure p secure = false := by
  unfold State.insecure
  cases hp : s.port p with
  | none => simp
  | some x => simp [(h x hp).2]

theorem stopped_down : s.stopped p = false := by
  unfold State.stopped
  cases hp : s.port p with
  | none => simp
  | some x => simp [(h x hp).1]

end

/-! ### Requests that the decode does not see -/

section
variable {s : State} {p : Nat} {secure : Bool} (tag addr : Nat) (own : Bool) (data : List Byte) (mask : Nat) (bad kept : Bool)

theorem hostRead_insecure (hi : s.insecure p secure = true) :
    s.hostRead p tag addr own secure = (s.count 7 p 2 1).fencePort p 2 := by
  unfold State.hostRead
  exact if_pos hi

theorem hostWriteAt_insecure (hi : s.insecure p secure = true) :
    s.hostWriteAt p tag addr data mask bad kept secure = (s.count 7 p 2 1).fencePort p 2 := by
  unfold State.hostWriteAt
  exact if_pos hi

variable (hi : s.insecure p secure = false) (hs : s.stopped p = true)
include hi hs

theorem hostRead_stopped : s.hostRead p tag addr own secure =
    if s.shut then s.emit (.cxlData p tag (zeros 64) true) else s.abortHost p tag := by
  unfold State.hostRead
  rw [if_neg (ne_true_of_eq_false hi), if_pos hs]

theorem hostWriteAt_stopped : s.hostWriteAt p tag addr data mask bad kept secure =
    if s.shut then s.emit (.cxlDone p tag) else s.abortHost p tag := by
  unfold State.hostWriteAt
  rw [if_neg (ne_true_of_eq_false hi), if_pos hs]

end

/-! ### Requests by what they reach -/

/-- A recall of the line waits for the port, which holds the line in E (R200). -/
def State.recalledFrom (s : State) (p line : Nat) : Bool :=
  (s.dir.recalls.any fun r => r.line = line ∧ r.waiting.contains p) && s.lineState line = some (.owned p)

theorem recalledFrom_true {s : State} {p line : Nat} (h : ∃ r ∈ s.dir.recalls, r.line = line ∧ r.waiting.contains p = true)
    (ho : s.lineState line = some (.owned p)) : s.recalledFrom p line = true := by
  unfold State.recalledFrom
  rw [ho]
  simpa using h

theorem recalledFrom_false {s : State} {p line : Nat} (h : ∀ r ∈ s.dir.recalls, r.line ≠ line) : s.recalledFrom p line = false := by
  unfold State.recalledFrom
  rw [List.any_eq_false.2 fun r hr => by simp [h r hr], Bool.false_and]

section
variable {s : State} {p addr : Nat} {secure : Bool} {x : HostExtent} {off : Nat} (tag : Nat) (own : Bool)
  (data : List Byte) (mask : Nat) (bad kept : Bool) (hi : s.insecure p secure = false) (hs : s.stopped p = false)
include hi hs

theorem hostRead_nothing (hr : s.hostReach p addr .read = .nothing) : s.hostRead p tag addr own secure = s := by
  unfold State.hostRead
  rw [if_neg (ne_true_of_eq_false hi), if_neg (ne_true_of_eq_false hs), hr]

theorem hostRead_abort (hr : s.hostReach p addr .read = .abort) : s.hostRead p tag addr own secure = s.abortHost p tag := by
  unfold State.hostRead
  rw [if_neg (ne_true_of_eq_false hi), if_neg (ne_true_of_eq_false hs), hr]

/-- A read of a snapshot's extent sees the cove under the tidemark of its extent (R604). -/
theorem hostRead_snapshot {h : Nat} (hr : s.hostReach p addr .read = .line x off) (hx : x.snap = some h) :
    s.hostRead p tag addr own secure = s.hostAnswer p tag x.guest off (s.bytesBound (some (x.cove, x.tidemark)) off 64)
      (s.poisonedBound (some (x.cove, x.tidemark)) (off / 64)) := by
  unfold State.hostRead
  rw [if_neg (ne_true_of_eq_false hi), if_neg (ne_true_of_eq_false hs), hr]
  dsimp only
  rw [hx]

/-- Any other read: poison from a fenced home, else the directory answers in region 1 and the Harbour elsewhere (R196, R604, R664). -/
theorem hostRead_line (hr : s.hostReach p addr .read = .line x off) (hx : x.snap = none) : s.hostRead p tag addr own secure =
    if s.homeFenced off then s.hostAnswer p tag x.guest off (s.bytesAt off 64) true
    else if x.region = 1 then s.dirEvent (if own then .ownRead p tag x.guest (off / 64) else .sharedRead p tag x.guest (off / 64))
    else s.hostData p tag x.guest (off / 64) := by
  unfold State.hostRead
  rw [if_neg (ne_true_of_eq_false hi), if_neg (ne_true_of_eq_false hs), hr]
  dsimp only
  rw [hx]

theorem hostWriteAt_nothing (hr : s.hostReach p addr .write = .nothing) : s.hostWriteAt p tag addr data mask bad kept secure = s := by
  unfold State.hostWriteAt
  rw [if_neg (ne_true_of_eq_false hi), if_neg (ne_true_of_eq_false hs), hr]

theorem hostWriteAt_abort (hr : s.hostReach p addr .write = .abort) :
    s.hostWriteAt p tag addr data mask bad kept secure = s.abortHost p tag := by
  unfold State.hostWriteAt
  rw [if_neg (ne_true_of_eq_false hi), if_neg (ne_true_of_eq_false hs), hr]

/-- A write of a sector: none at a fenced home; in region 1 the data of a recall that waits for the port, else an event of the
directory; in the other regions a store (R200, R604, R664). -/
theorem hostWriteAt_line (hr : s.hostReach p addr .write = .line x off) : s.hostWriteAt p tag addr data mask bad kept secure =
    if s.homeFenced off then s.abortHost p tag
    else if x.region = 1 then
      if s.recalledFrom p (off / 64) then
        (s.setLine (off / 64) (if kept then some (.shared [p]) else none)).hostStore p tag (off / 64) data mask bad
      else s.dirEvent (.hostWrite p tag x.guest (off / 64) data mask bad kept)
    else s.hostStore p tag (off / 64) data mask bad := by
  unfold State.hostWriteAt
  rw [if_neg (ne_true_of_eq_false hi), if_neg (ne_true_of_eq_false hs), hr]
  rfl

end

/-! ### Evictions -/

section
variable {s : State} {p addr : Nat} {x : HostExtent} {off : Nat}

theorem execHostCleanEviction_nothing (hr : s.hostReach p addr .read = .nothing) : execHostCleanEviction p addr s = .next s := by
  unfold execHostCleanEviction
  rw [hr]

variable (hr : s.hostReach p addr .read = .line x off)
include hr

theorem execHostCleanEviction_untracked (h : x.region ≠ 1 ∨ s.lineState (off / 64) = none) : execHostCleanEviction p addr s = .next s := by
  unfold execHostCleanEviction
  rw [hr]
  dsimp only
  split
  · rfl
  · rw [h.resolve_left ‹_›]

theorem execHostCleanEviction_owned (hx : x.region = 1) (ho : s.lineState (off / 64) = some (.owned p)) :
    execHostCleanEviction p addr s = .next (s.setLine (off / 64) none) := by
  unfold execHostCleanEviction
  rw [hr]
  dsimp only
  rw [if_neg (Decidable.not_not.2 hx), ho]
  simp only [if_true]

theorem execHostCleanEviction_shared (hx : x.region = 1) {ps : List Nat} (ho : s.lineState (off / 64) = some (.shared ps)) :
    execHostCleanEviction p addr s = .next (s.setLine (off / 64) (some (.shared (ps.filter (· ≠ p))))) := by
  unfold execHostCleanEviction
  rw [hr]
  dsimp only
  rw [if_neg (Decidable.not_not.2 hx), ho]

end

/-! ### Answers to recalls -/

section
variable {s : State} {p line : Nat}

/-- The recall that a lookup finds waits for the port at the line. -/
theorem recall_of_find {r : Recall} (h : (s.dir.recalls.find? fun r => r.line = line ∧ r.waiting.contains p) = some r) :
    r ∈ s.dir.recalls ∧ r.line = line ∧ r.waiting.contains p = true :=
  ⟨List.mem_of_find?_eq_some h, by simpa using List.find?_some h⟩

theorem execBiResponse_late {r : Recall} (hf : (s.dir.recalls.find? fun r => r.line = line ∧ r.waiting.contains p) = some r)
    (hl : r.began + 32000 < s.now) (kept : Bool) (data : List Byte) : execBiResponse p line kept data s =
      .next ((s.count 7 p 1 1).snoopAnswer p line kept (if data = [] then none else some data)) := by
  obtain ⟨hr, hline, hp⟩ := recall_of_find hf
  unfold execBiResponse
  dsimp only
  rw [if_pos (List.any_eq_true.2 ⟨r, hr, decide_eq_true ⟨hline, hp, decide_eq_true hl⟩⟩)]
  simp only [List.isEmpty_iff]

theorem execBiResponse_timely (h : ∀ r ∈ s.dir.recalls, r.line = line → r.waiting.contains p = true → s.now ≤ r.began + 32000)
    (kept : Bool) (data : List Byte) : execBiResponse p line kept data s =
      .next (s.snoopAnswer p line kept (if data = [] then none else some data)) := by
  have untimely : ∀ r ∈ s.dir.recalls, ¬ (r.line = line ∧ r.waiting.contains p = true ∧ decide (r.began + 32000 < s.now) = true) :=
    fun r hr ⟨hline, hp, hl⟩ => Nat.not_lt.2 (h r hr hline hp) (of_decide_eq_true hl)
  unfold execBiResponse
  dsimp only
  rw [if_neg (not_any_of_forall_not untimely)]
  simp only [List.isEmpty_iff]

theorem snoopAnswer_unasked (h : ∀ r ∈ s.dir.recalls, ¬ (r.line = line ∧ r.waiting.contains p = true)) (kept : Bool)
    (data : Option (List Byte)) : s.snoopAnswer p line kept data = s := by
  unfold State.snoopAnswer
  rw [List.find?_eq_none.2 fun r hr hd => h r hr (of_decide_eq_true hd)]

theorem execSnoopTimeout_due {r : Recall} (hf : (s.dir.recalls.find? fun r => r.line = line ∧ r.waiting.contains p) = some r)
    (hd : r.began + 400000 ≤ s.now) : execSnoopTimeout p line s =
      .next (((s.count 7 p 1 1).report (portReport evFault sevUncorrected p 7 1)).fencePort p 1) := by
  obtain ⟨hr, hline, hp⟩ := recall_of_find hf
  unfold execSnoopTimeout
  exact if_pos (List.any_eq_true.2 ⟨r, hr, decide_eq_true ⟨hline, hp, decide_eq_true hd⟩⟩)

theorem execSnoopTimeout_early (h : ∀ r ∈ s.dir.recalls, r.line = line → s.now < r.began + 400000) : execSnoopTimeout p line s = .next s := by
  unfold execSnoopTimeout
  exact if_neg (not_any_of_forall_not fun r hr ⟨hline, _, hdue⟩ => Nat.not_le.2 (h r hr hline) (of_decide_eq_true hdue))

end

/-! ### The requests together -/

/-- What holds of a read for either intent, the three read requests answer. -/
theorem exec_hostReads {s t : State} {p tag addr : Nat} {secure : Bool} (h : ∀ own, s.hostRead p tag addr own secure = t) :
    ∀ y ∈ [Instr.hostMemRead p tag addr secure, .hostSharedRead p tag addr secure, .hostOwnershipRead p tag addr secure],
      exec y s = .next t := by
  simp only [List.forall_mem_cons, List.not_mem_nil, false_implies, implies_true, and_true]
  exact ⟨congrArg _ (h false), congrArg _ (h false), congrArg _ (h true)⟩

/-- Settles O32: a request is stopped before the decode, or goes by what it reaches; the responses to recalls go by their age. -/
theorem hostRequests : Obligations.HostRequests := by
  intro p tag addr secure s
  refine ⟨fun hdown => ?_, fun hi => ?_, fun hi hs => ?_, fun hi hs => ⟨fun hr => ?_, fun x off hr => ?_, fun data mask bad kept => ?_⟩,
    fun x off hr => ?_, fun line kept data => ?_⟩
  · have hi := insecure_down hdown secure
    have hs := stopped_down hdown
    have hr := hostReach_down hdown addr
    have hread := exec_hostReads fun own => hostRead_nothing tag own hi hs (hr .read)
    refine ⟨?_, fun data mask bad kept => ⟨congrArg _ (hostWriteAt_nothing tag data mask bad false hi hs (hr .write)),
      congrArg _ (hostWriteAt_nothing tag data _ bad kept hi hs (hr .write))⟩⟩
    simp only [List.forall_mem_cons, List.not_mem_nil, false_implies, implies_true, and_true] at hread ⊢
    obtain ⟨h1, h2, h3⟩ := hread
    exact ⟨h1, h2, h3, execHostCleanEviction_nothing (hr .read)⟩
  · exact ⟨exec_hostReads fun own => hostRead_insecure tag addr own hi, fun data mask bad kept =>
      ⟨congrArg _ (hostWriteAt_insecure tag addr data mask bad false hi), congrArg _ (hostWriteAt_insecure tag addr data _ bad kept hi)⟩⟩
  · have hread := hostRead_stopped tag addr false hi hs
    have hwrite := fun data mask bad => hostWriteAt_stopped tag addr data mask bad false hi hs
    exact ⟨fun h => ⟨congrArg _ (hread.trans (if_pos h)), fun data mask bad => congrArg _ ((hwrite data mask bad).trans (if_pos h))⟩,
      fun h => ⟨congrArg _ (hread.trans (if_neg (ne_true_of_eq_false h))),
        fun data mask bad => congrArg _ ((hwrite data mask bad).trans (if_neg (ne_true_of_eq_false h)))⟩⟩
  · exact exec_hostReads fun own => hostRead_abort tag own hi hs hr
  · refine ⟨fun h hx => congrArg _ (hostRead_snapshot tag false hi hs hr hx), fun hx hf => ?_, fun hx hf => ?_⟩
    · exact congrArg _ ((hostRead_line tag false hi hs hr hx).trans (if_pos hf))
    · have served := fun own => (hostRead_line tag own hi hs hr hx).trans (if_neg (ne_true_of_eq_false hf))
      exact ⟨fun h0 => congrArg _ ((served false).trans (if_neg h0)), fun h1 => ⟨congrArg _ ((served false).trans (if_pos h1)),
        congrArg _ ((served false).trans (if_pos h1)), congrArg _ ((served true).trans (if_pos h1))⟩⟩
  · refine ⟨fun hr => ⟨congrArg _ (hostWriteAt_abort tag data mask bad false hi hs hr),
      congrArg _ (hostWriteAt_abort tag data _ bad kept hi hs hr)⟩, fun x off hr => ?_⟩
    have line := fun mask kept => hostWriteAt_line tag data mask bad kept hi hs hr
    refine ⟨fun hf => congrArg _ ((line mask false).trans (if_pos hf)), fun hf h0 => ?_, fun hf h1 hn => ?_, fun hf h1 ho hw => ?_⟩
    · have stored := fun mask kept => ((line mask kept).trans (if_neg (ne_true_of_eq_false hf))).trans (if_neg h0)
      exact ⟨congrArg _ (stored mask false), congrArg _ (stored _ kept)⟩
    · have event := fun mask kept => (((line mask kept).trans (if_neg (ne_true_of_eq_false hf))).trans (if_pos h1)).trans
        (if_neg (ne_true_of_eq_false (recalledFrom_false hn)))
      exact ⟨congrArg _ (event mask false), congrArg _ (event _ kept)⟩
    · exact congrArg _ ((((line _ kept).trans (if_neg (ne_true_of_eq_false hf))).trans (if_pos h1)).trans (if_pos (recalledFrom_true hw ho)))
  · exact ⟨execHostCleanEviction_untracked hr, execHostCleanEviction_owned hr, fun hx ps => execHostCleanEviction_shared hr hx⟩
  · refine ⟨fun h => ?_, fun r hf => ⟨fun hl => execBiResponse_late hf hl kept data, execSnoopTimeout_due hf⟩, execSnoopTimeout_early,
      fun h => execBiResponse_timely (fun r hr hline _ => h r hr hline) kept data⟩
    refine (execBiResponse_timely (fun r hr hline hp => absurd ⟨hline, hp⟩ (h r hr)) kept data).trans ?_
    rw [snoopAnswer_unasked h]

end Sys2Proof.Machine
end

section
/-! What reserves, retirements, failed units, weathering, datagrams, the Logbook and TLS sessions come to (spec 02: R36; spec 06: R302, R303;
spec 17: R643–R647, R671–R675; spec 18: R694). -/

namespace Sys2Proof.Machine

/-! ### Reserves (R302) -/

/-- The debts once the excess of a task's debt on a resource has been read. -/
def State.debtsRead (s : State) (task res excess : Nat) : List (Nat × Nat × Nat) :=
  (s.brk.debts.filter fun x => !(x.1 == task && x.2.1 == res)) ++ [(task, res, excess)]

section
variable {s : State} {task res debt limit : Nat}

/-- A debt that newly exceeds its limit ends the calm and raises the reserve from the calendar's end. -/
theorem execReserveRaise_exceeded (hd : limit < debt) (h0 : s.debtOver task res = 0) : execReserveRaise task res debt limit s =
    .next (({ s with brk := { s.brk with
      debts := s.debtsRead task res (debt - limit)
      calmSince := s.brk.calmSince.filter fun x => x.1 ≠ res
      raises := s.brk.raises ++ [Raise.mk res s.calendarEnd (min 12 (s.reservePct res s.calendarEnd + 2))] } } : State).count 3 res 3 1) := by
  have beyond : (s.debtsRead task res (debt - limit)).any (fun x => x.2.1 = res ∧ x.2.2 > 0) = true :=
    any_iff_exists.2 ⟨_, List.mem_append_right _ (List.mem_singleton_self _), rfl, Nat.sub_pos_of_lt hd⟩
  unfold execReserveRaise
  unfold State.debtsRead at beyond
  dsimp only
  rw [if_pos ⟨hd, h0⟩, if_pos beyond]
  rfl

/-- When the last debt on a resource is within its limit again, the calm begins. -/
theorem execReserveRaise_calmed (hd : debt ≤ limit) (hz : ∀ x ∈ s.debtsRead task res (debt - limit), x.2.1 = res → x.2.2 = 0)
    (hc : ∀ x ∈ s.brk.calmSince, x.1 ≠ res) : execReserveRaise task res debt limit s =
    .next { s with brk := { s.brk with
      debts := s.debtsRead task res (debt - limit), calmSince := s.brk.calmSince ++ [(res, s.now)] } } := by
  have within : ¬ (s.debtsRead task res (debt - limit)).any (fun x => x.2.1 = res ∧ x.2.2 > 0) = true :=
    not_any_of_forall_not fun x hx ⟨hr, hp⟩ => Nat.ne_of_gt hp (hz x hx hr)
  unfold execReserveRaise
  unfold State.debtsRead at within
  dsimp only
  rw [if_neg (by omega), if_neg within, if_neg (not_any_of_forall_not hc), List.filter_eq_self.2 fun x hx => decide_eq_true (hc x hx)]
  rfl

end

section
variable {s : State} {res : Nat}

theorem execReserveLower_calm (hc : ∃ x ∈ s.brk.calmSince, x.1 = res ∧ x.2 + 800000000 ≤ s.now)
    (hp : s.brk.reservePct < s.reservePct res s.calendarEnd) : execReserveLower res s =
    .next { s with brk := { s.brk with
      raises := s.brk.raises ++ [Raise.mk res s.calendarEnd (s.reservePct res s.calendarEnd - 1)]
      calmSince := (s.brk.calmSince.filter fun x => x.1 ≠ res) ++ [(res, s.now)] } } := by
  unfold execReserveLower
  dsimp only
  rw [if_pos ⟨any_iff_exists.2 hc, hp⟩]

theorem execReserveLower_early (hc : ∀ x ∈ s.brk.calmSince, x.1 = res → s.now < x.2 + 800000000) : execReserveLower res s = .next s := by
  unfold execReserveLower
  dsimp only
  rw [if_neg fun hd => not_any_of_forall_not (fun x hx ⟨hr, ht⟩ => Nat.not_le.2 (hc x hx hr) ht) hd.1]

end

/-! ### HBM (R643, R644) -/

section
variable {s : State} {k c : Nat}

theorem retireChannel_out (h : k ∈ s.faults.stacksOut ∨ (k, c) ∈ s.faults.channelsOut) (told : Bool) : s.retireChannel k c told = s := by
  unfold State.retireChannel
  rw [if_pos (by simpa only [List.contains_iff_mem] using h)]

variable (hk : k ∉ s.faults.stacksOut) (hc : (k, c) ∉ s.faults.channelsOut)
include hk hc

theorem retireChannel_second (h : ∃ x ∈ s.faults.channelsOut, x.1 = k) (told : Bool) : s.retireChannel k c told = s.retireStack k told := by
  unfold State.retireChannel
  rw [if_neg (by simp only [List.contains_iff_mem, hk, hc, or_self, not_false_eq_true]), if_pos (any_iff_exists.2 h)]

/-- The first channel of a stack that fails leaves service, and its dirty sectors without a mirror copy are lost. -/
theorem retireChannel_first (h : ∀ x ∈ s.faults.channelsOut, x.1 ≠ k) : s.retireChannel k c false =
    (let t := s.loseHbm k (some c)
    (({ t with faults := { t.faults with
      channelsOut := t.faults.channelsOut ++ [(k, c)]
      retired := uniq (t.faults.retired ++ [(0x1, k * 64 + 2 * c), (0x1, k * 64 + 2 * c + 1)]) } } : State).singleFault 0x1).report
        ⟨evRetired, sevFailed, 0x1, k * 64 + 2 * c, 4, 0, 0, 0, 6⟩) := by
  unfold State.retireChannel
  rw [if_neg (by simp only [List.contains_iff_mem, hk, hc, or_self, not_false_eq_true]), if_neg (not_any_of_forall_not h)]
  rfl

end

section
variable {s : State} {k : Nat}

theorem execHbmStackRetire_due (h : ∃ x ∈ s.faults.announced, x.1 = 0x1 ∧ x.2.1 = 0x8000 + k ∧ x.2.2.1 ≤ s.now) :
    execHbmStackRetire k s = .next (s.retireStack k true) := by
  unfold execHbmStackRetire
  dsimp only
  rw [if_pos (any_iff_exists.2 h)]

/-- A stack that is not announced is retired where one of its channels is out. -/
theorem execHbmStackRetire_unannounced (h : ∀ x ∈ s.faults.announced, ¬ (x.1 = 0x1 ∧ x.2.1 = 0x8000 + k)) : execHbmStackRetire k s =
    .next (if s.faults.channelsOut.any fun x => x.1 = k then s.retireStack k false else s) := by
  unfold execHbmStackRetire
  dsimp only
  rw [if_neg (not_any_of_forall_not fun x hx ⟨hcls, hunit, _⟩ => h x hx ⟨hcls, hunit⟩)]

end

/-! ### Shoal arrays (R36, R645, R646) -/

/-- A physical array is out of service, and that is reported. -/
def State.arrayOut (s : State) (a : Nat) : State :=
  ({ s with faults := { s.faults with retired := setAdd (0x4, a) s.faults.retired } } : State).report ⟨evRetired, sevFailed, 0x4, a, 4, 0, 0, 0, 0⟩

section
variable {s : State} {a n : Nat}

theorem failArray_gone (h : (0x4, a) ∈ s.faults.retired ∨ 33 < a) : s.failArray a = s := by
  unfold State.failArray
  rw [if_pos (by simpa only [List.contains_iff_mem] using h)]

variable (hr : (0x4, a) ∉ s.faults.retired) (ha : a ≤ 33)
include hr ha

theorem failArray_idle (hl : s.logicalOf a = none) : s.failArray a = s.arrayOut a := by
  unfold State.failArray
  rw [if_neg (by simp [hr, ha]), hl]
  rfl

theorem failArray_spare (hl : s.logicalOf a = some n) (hf : (s.arrayOut a).spareFree n = true) : s.failArray a =
    ((((({ s.arrayOut a with faults := { (s.arrayOut a).faults with
      sparesUsed := (s.arrayOut a).faults.sparesUsed ++ [(32 + n / 16, n)] } } : State).singleFault 0x4).report
        ⟨evSpareSwitch, sevRecovered, 0x4, a, 3, 0, 0, 32 + n / 16, 0⟩).restage n).rebuildArray n) := by
  unfold State.failArray
  rw [if_neg (by simp [hr, ha]), hl]
  exact if_pos hf

theorem failArray_lost (hl : s.logicalOf a = some n) (hf : (s.arrayOut a).spareFree n = false) : s.failArray a =
    ((s.arrayOut a).loseArray n).report ⟨evCapacityReduced, sevFailed, 0x4, a, 9, 0, 0, 0, 0⟩ := by
  unfold State.failArray
  rw [if_neg (by simp [hr, ha]), hl]
  exact if_neg (ne_true_of_eq_false hf)

end

/-! ### Directory entries (R647) -/

theorem execDirectoryEntryError_absent {s : State} {x : Nat} (h : s.dirEntry x = none) : execDirectoryEntryError x s = .next s := by
  unfold execDirectoryEntryError
  rw [if_pos (.inl (Option.isNone_iff_eq_none.2 h))]

/-- The host ports that a bad entry's line is asked of: those that answer back-invalidations. -/
def State.snooped (s : State) : List Nat := (s.host.ports.filter fun p => p.up && p.biEnabled && !p.fenced).map (·.id)

theorem execDirectoryEntryError_held {s : State} {x : Nat} (he : s.dirEntry x ≠ none) (hb : s.lineBusy x = false) :
    execDirectoryEntryError x s = .next
      (let u := s.report ⟨evFault, sevRecovered, 0x8, dirSlice x, 2, 0, gpaOf s.self (x * 64), 0, 0⟩
      if s.snooped.isEmpty then u.setLine x none
      else ({ u with faults := { u.faults with directoryBad := setAdd x u.faults.directoryBad } } : State).recall x true s.snooped none) := by
  unfold execDirectoryEntryError
  rw [if_neg (by simp [he, hb])]
  rfl

/-! ### Datagrams, the Logbook and TLS sessions (R674, R675, R694) -/

theorem execEventDatagram_idle {s : State} (h : s.obs.stream.on = false ∨ s.obs.stream.waiting = []) : execEventDatagram s = .next s := by
  unfold execEventDatagram
  dsimp only
  rw [if_pos (by simpa using h)]

theorem execEventDatagram_waiting {s : State} (ho : s.obs.stream.on = true) (hw : s.obs.stream.waiting ≠ []) : execEventDatagram s =
    .next (let u := (s.emit (.datagram (s.datagram (s.obs.stream.waiting.take 16)))).count 0x0D 0 2 1
      { u with obs := { u.obs with stream := { s.obs.stream with waiting := s.obs.stream.waiting.drop 16, since := u.now } } }) := by
  unfold execEventDatagram
  dsimp only
  rw [if_neg (by simp [ho, hw])]

theorem writeLog_unmirrored {s : State} (h : ∀ c, s.cove 16383 ≠ some c) : s.writeLog =
    ({ s with obs := { s.obs with logWritten := s.obs.log, logTime := s.now } } : State).emit (.nor (s.obs.log.map LogEntry.bytes).flatten) := by
  have hc : s.cove 16383 = none := Option.eq_none_iff_forall_ne_some.2 h
  unfold State.writeLog
  dsimp only
  change (match s.cove 16383 with | some c => _ | none => _) = _
  rw [hc]

theorem execTlsSessionOpen_free {s : State} {n : Nat} (hm : s.managementUp = true)
    (hn : ((List.range 32).find? fun n => !s.inn.chans.any fun x => x.chan = .tls n) = some n) (manager : Bool) :
    execTlsSessionOpen true manager s = .next
      (let u := s.setChan ⟨.tls n, if manager then some (0, 0) else none, 0, [], []⟩
      if manager then { u with trust := { u.trust with managers := setAdd n u.trust.managers } } else u) := by
  unfold execTlsSessionOpen
  rw [if_neg (by simp [hm]), hn]

/-! ### The reliability commands together -/

/-- Settles O31: every clause is a case of its command, named by the lemma that states it or read off the command's own test. -/
theorem reliability : Obligations.Reliability := by
  intro s
  refine ⟨fun task res debt limit => ⟨execReserveRaise_exceeded, execReserveRaise_calmed⟩,
    fun res => ⟨execReserveLower_calm, execReserveLower_early⟩, rfl, fun k c hk hc => ?_, fun k => ⟨execHbmStackRetire_due, fun h => ?_⟩,
    fun a => ⟨fun h => congrArg _ (failArray_gone h), fun hr ha => ?_⟩, fun x => ⟨execDirectoryEntryError_absent, fun he hb => ?_⟩,
    fun ms early => congrArg _ (if_pos early), fun ms due => congrArg _ (if_neg (Nat.not_lt.2 due)),
    execEventDatagram_idle, execEventDatagram_waiting,
    fun same => congrArg _ (if_neg fun due => due.1 same), fun changed due hc => ?_,
    fun hm n hn => ⟨execTlsSessionOpen_free hm hn false, execTlsSessionOpen_free hm hn true⟩,
    fun man => congrArg _ (if_pos (by simp)), fun n => rfl⟩
  · have channel : exec (.hbmChannelFail k c) s = .next (s.retireChannel k c false) := congrArg _ (if_pos ⟨hk, hc⟩)
    rw [channel]
    exact ⟨fun h => congrArg _ (retireChannel_out h false), fun hk hc =>
      ⟨fun h => congrArg _ (retireChannel_second hk hc h false), fun h => congrArg _ (retireChannel_first hk hc h)⟩⟩
  · have stack := execHbmStackRetire_unannounced h
    exact ⟨fun h => stack.trans (congrArg _ (if_pos (any_iff_exists.2 h))),
      fun h => stack.trans (congrArg _ (if_neg (not_any_of_forall_not h)))⟩
  · exact ⟨fun hl => congrArg _ (failArray_idle hr ha hl), fun n hl =>
      ⟨fun hf => congrArg _ (failArray_spare hr ha hl hf), fun hf => congrArg _ (failArray_lost hr ha hl hf)⟩⟩
  · have held := execDirectoryEntryError_held he hb
    exact ⟨fun h => held.trans (congrArg _ (if_pos (List.isEmpty_iff.2 h))),
      fun h => held.trans (congrArg _ (if_neg (mt List.isEmpty_iff.1 h)))⟩
  · exact congrArg _ ((if_pos ⟨changed, due⟩).trans (writeLog_unmirrored hc))

end Sys2Proof.Machine
end

section
/-! What the Harbour's background work and the NAND come to (spec 02: R45, R46, R90–R101; spec 16: R621–R637). -/

namespace Sys2Proof.Machine

/-! ### Fills and ways (R45, R90, R93, R632) -/

/-- The reads of a granule are no longer under way. -/
def State.readDropped (s : State) (g : Nat) : State :=
  { s with deep := { s.deep with reads := s.deep.reads.filter fun r => r.granule ≠ g } }

section
variable {s : State} {g : Nat} {m : Miss} {r : DeepRead}

theorem fill_unmissed (h : ∀ m ∈ s.store.harbour.misses, m.granule ≠ g) :
    execHarbourFill g s = .next s ∧ execWayAvailable g s = .next s ∧ execGranuleLost g s = .next s := by
  have hm : (s.store.harbour.misses.find? fun m => m.granule = g) = none :=
    List.find?_eq_none.2 (by simpa using h)
  have hf : (s.store.harbour.misses.find? fun m => m.granule = g ∧ m.filled) = none :=
    List.find?_eq_none.2 fun m hx ha => h m hx (of_decide_eq_true ha).1
  unfold execHarbourFill execWayAvailable execGranuleLost
  rw [hm, hf]
  exact ⟨rfl, rfl, rfl⟩

theorem execWayAvailable_filled (hm : (s.store.harbour.misses.find? fun m => m.granule = g ∧ m.filled) = some m) :
    execWayAvailable g s = .next (s.seatGranule m) := by
  unfold execWayAvailable
  rw [hm]

variable (hm : (s.store.harbour.misses.find? fun m => m.granule = g) = some m)
include hm

theorem execHarbourFill_filled (hf : m.filled = true) : execHarbourFill g s = .next s := by
  unfold execHarbourFill
  rw [hm]
  exact congrArg _ (if_pos (.inl hf))

/-- The data of a granule that no NAND read brings is at hand. -/
theorem execHarbourFill_unread (hf : m.filled = false) (hr : (s.deep.reads.find? fun r => r.granule = g) = none) :
    execHarbourFill g s = .next (m.waiters.foldl State.answerWaiter ((s.readDropped g).seatGranule m)) := by
  unfold execHarbourFill
  rw [hm]
  dsimp only
  rw [hr, if_neg (by simp [hf])]
  rfl

section
variable (hr : (s.deep.reads.find? fun r => r.granule = g) = some r)
include hr

theorem execHarbourFill_read (hf : m.filled = false) (ho : r.ready = true) : execHarbourFill g s =
    .next (m.waiters.foldl State.answerWaiter (((s.readDropped g).releasePage r.die r.block).seatGranule m)) := by
  unfold execHarbourFill
  rw [hm]
  dsimp only
  rw [hr, if_neg (by simp [hf, ho])]
  rfl

theorem execHarbourFill_unready (ho : r.ready = false) : execHarbourFill g s = .next s := by
  unfold execHarbourFill
  rw [hm]
  dsimp only
  rw [hr, if_pos (by simp [ho])]

theorem execGranuleLost_read : execGranuleLost g s = .next
    (if m.filled ∨ r.ready ∨ s.now < m.began + 1200000 then s
    else
      let u := s.readDropped g
      let v : State := { u with store := { u.store with
        poison := uniq (u.store.poison ++ (span (g * 256) 256).filter fun p => !m.held.contains p) } }
      let w := m.waiters.foldl (fun s w => s.failWaiter g w) ((v.releasePage r.die r.block).seatGranule m)
      (w.count 5 r.die 10 1).report ⟨evFault, sevUncorrected, 0x2, r.die, 5, 0, gpaOf w.self (g * granuleSize), 0, 0⟩) := by
  unfold execGranuleLost
  rw [hm, hr]
  rfl

end
end

/-! ### Write-backs (R46, R92–R94) -/

section
variable {s : State} {g sub block : Nat}

theorem execWriteBack_absent (h : s.store.harbour.way g = none) : execWriteBack g sub block s = .next s := by
  unfold execWriteBack
  rw [h]

theorem execWriteBack_clean {w : Way} (h : s.store.harbour.way g = some w) (hw : w.writeBack = false) : execWriteBack g sub block s = .next s := by
  unfold execWriteBack
  rw [h]
  exact congrArg _ (if_pos (by simp [hw]))

/-- A victim waits where its page finds no place. -/
theorem execWriteBack_victim {w : Way} (h : s.store.harbour.way g = some w) (hw : w.writeBack = true) : execWriteBack g sub block s =
    .next (((s.enqueueWrite g sub block).map fun t => t.dropWay g).getD s) := by
  unfold execWriteBack
  rw [h]
  dsimp only
  rw [if_neg (by simp [hw])]
  cases s.enqueueWrite g sub block <;> rfl

theorem execMirrorWriteBack_empty (h : s.store.harbour.mirror = []) : execMirrorWriteBack sub block s = .next s := by
  unfold execMirrorWriteBack
  rw [h]

variable {k : Nat} {l : List Nat} (h : s.store.harbour.mirror = k :: l)
include h

theorem execMirrorWriteBack_below (hb : 4 * s.mirrorBytes < 3 * (s.store.harbour.mirrorGib * 2 ^ 30)) :
    execMirrorWriteBack sub block s = .next s := by
  unfold execMirrorWriteBack
  rw [h]
  exact congrArg _ (if_pos hb)

theorem execMirrorWriteBack_oldest (hb : 3 * (s.store.harbour.mirrorGib * 2 ^ 30) ≤ 4 * s.mirrorBytes) {t : State}
    (ht : s.enqueueWrite k sub block = some t) : execMirrorWriteBack sub block s = .next (t.cleanWay k) := by
  unfold execMirrorWriteBack
  rw [h]
  dsimp only
  rw [if_neg (Nat.not_lt.2 hb), ht]

end

/-! ### Migrations (R98–R101) -/

/-- The class change of a granule is complete. -/
def State.migrated (s : State) (g : Nat) : State :=
  { s with store := { s.store with moving := s.store.moving.filter fun m => m.granule ≠ g } }

section
variable {s : State} {g sub block : Nat}

theorem execMigrationGranule_unasked (h : ∀ m ∈ s.store.moving, m.granule ≠ g) (o : Bool) : execMigrationGranule g o sub block s = .next s := by
  unfold execMigrationGranule
  rw [List.find?_eq_none.2 (by simpa using h)]

variable {m : Moving} (hm : (s.store.moving.find? fun m => m.granule = g) = some m)
include hm

theorem execMigrationGranule_overtaken (hc : m.copies < 4) : execMigrationGranule g true sub block s =
    .next { s with store := { s.store with
      moving := mapIf (fun m => m.granule = g) (fun m => { m with copies := m.copies + 1 }) s.store.moving } } := by
  unfold execMigrationGranule
  rw [hm]
  exact congrArg _ (if_pos ⟨rfl, hc⟩)

theorem execMigrationGranule_absent (hw : s.store.harbour.way g = none) (ht : m.target ≠ .pin) :
    execMigrationGranule g false sub block s = .next (s.migrated g) := by
  unfold execMigrationGranule
  rw [hm]
  dsimp only
  rw [if_neg (by simp), hw]
  cases hc : m.target with
  | pin => exact absurd hc ht
  | prefer | stream | cold => rfl

theorem execMigrationGranule_pinned (hw : s.store.harbour.way g = none) (ht : m.target = .pin) (ha : s.absent g = false)
    (ho : s.missOpen g = false) : execMigrationGranule g false sub block s =
    .next (State.migrated { s with store := { s.store with harbour := s.store.harbour.fill s.now g .pin false [] } } g) := by
  unfold execMigrationGranule
  rw [hm]
  dsimp only
  rw [if_neg (by simp), hw, ht]
  dsimp only
  rw [if_neg (by simp [ha, ho])]
  rfl

section
variable {w : Way} (hw : s.store.harbour.way g = some w)
include hw

/-- A granule that becomes COLD leaves the Harbour, its dirty sectors through the write queue (R98). -/
theorem execMigrationGranule_cold (ht : m.target = .cold) : execMigrationGranule g false sub block s =
    .next (if w.dirty.isEmpty then (s.dropWay g).migrated g
      else ((s.enqueueWrite g sub block).map fun t => (t.dropWay g).migrated g).getD s) := by
  unfold execMigrationGranule
  rw [hm]
  dsimp only
  rw [if_neg (by simp), hw]
  dsimp only
  rw [if_pos (.inl ht)]
  split
  · rfl
  · cases s.enqueueWrite g sub block <;> rfl

theorem execMigrationGranule_reclassed (ht : m.target ≠ .cold) (hp : w.pinned = false ∨ m.target = .pin) :
    execMigrationGranule g false sub block s = .next (State.migrated { s with store := { s.store with harbour := { s.store.harbour with
      ways := mapIf (fun (x : Way) => x.gpa = g) (fun x => { x with cls := m.target, pinned := m.target == .pin }) s.store.harbour.ways } } } g) := by
  have stays : ¬ (m.target = .cold ∨ (w.pinned = true ∧ m.target ≠ .pin)) := by
    rintro (h | ⟨h1, h2⟩)
    · exact ht h
    · exact hp.elim (ne_true_of_eq_false · h1) h2
  unfold execMigrationGranule
  rw [hm]
  dsimp only
  rw [if_neg (by simp), hw]
  exact congrArg _ (if_neg stays)

end
end

/-! ### Scrub (R301) -/

section
variable {s : State} {g : Nat}

theorem execHarbourScrub_absent (h : s.store.harbour.resident g = false) (c : Nat) (l : List Nat) : execHarbourScrub g c l s = .next s := by
  unfold execHarbourScrub
  rw [if_pos (by simp [h])]

theorem execHarbourScrub_sound (h : s.store.harbour.resident g = true) :
    execHarbourScrub g 0 [] s = .next (s.count 4 (s.stackFor (g * granuleSize)) 5 1) := by
  unfold execHarbourScrub
  rw [if_neg (by simp [h])]
  rfl

end

/-! ### NAND reads (R628–R631) -/

section
variable {s : State} {g : Nat}

theorem execNandReadDone_unread (h : ∀ r ∈ s.deep.reads, r.granule ≠ g) (k : Nat) (v : Bool) : execNandReadDone g k v s = .next s := by
  unfold execNandReadDone
  rw [List.find?_eq_none.2 (by simpa using h)]

variable {r : DeepRead} (hr : (s.deep.reads.find? fun r => r.granule = g) = some r) (hd : s.dieFailed r.die = false) (ho : r.ready = false)
include hr hd ho

theorem execNandReadDone_page (hh : r.hardFailed = false) (hs : r.softFailed = false) :
    execNandReadDone g 0 true s = .next (s.setRead g fun r => { r with ready := true }) := by
  unfold execNandReadDone
  rw [hr]
  simp [hd, ho, hh, hs]

/-- A hard decode that fails is counted, and the page is put up for a refresh (R629, R633). -/
theorem execNandReadDone_hardFailed (hh : r.hardFailed = false) : execNandReadDone g 0 false s =
    .next (let u := (s.setRead g fun r => { r with hardFailed := true }).count 5 r.die 8 1
      { u with deep := { u.deep with refresh := setAdd g u.deep.refresh } }) := by
  unfold execNandReadDone
  rw [hr]
  simp [hd, ho, hh]

theorem execNandReadDone_softFailed (hh : r.hardFailed = true) (hs : r.softFailed = false) : execNandReadDone g 1 false s =
    .next (((s.setRead g fun r => { r with softFailed := true }).lateWaiters g).count 5 r.die 9 1) := by
  unfold execNandReadDone
  rw [hr]
  simp [hd, ho, hh, hs]

end

/-! ### Dies (R622, R624, R628, R634, R637) -/

section
variable {s : State} {die : Nat}

theorem execNandSuspend_reads (hb : s.dieBusy die = true) (hs : (s.die die).suspended = false) (hr : s.dieReads die ≠ [])
    (ht : (s.die die).resumedAt = 0 ∨ (s.die die).resumedAt + 32000 ≤ s.now) :
    execNandSuspend die s = .next (s.setDie die fun d => { d with suspended := true }) := by
  unfold execNandSuspend
  dsimp only
  rw [if_pos (by simp [hb, hs, hr, ht])]

theorem execNandSuspend_idle (hb : s.dieBusy die = false) : execNandSuspend die s = .next s := by
  unfold execNandSuspend
  dsimp only
  rw [if_neg (by simp [hb])]

theorem execNandResume_drained (hs : (s.die die).suspended = true) (hr : s.dieReads die = []) : execNandResume die s =
    .next (s.setDie die fun d => { d with suspended := false, resumedAt := s.now }) := by
  unfold execNandResume
  rw [if_pos (by simp [hs, hr])]

theorem execNandResume_reads (hr : s.dieReads die ≠ []) : execNandResume die s = .next s := by
  unfold execNandResume
  rw [if_neg (by simp [hr])]

theorem execNandUnitFail_die (hd : die < 0x8000) : execNandUnitFail die s =
    .next (if s.dieThere die then (s.failNand die).singleFault 0x2 else s) := by
  unfold execNandUnitFail
  rw [if_neg (Nat.not_le.2 hd)]

theorem execNandUnitFail_channel {unit : Nat} (hu : 0x8000 ≤ unit) (h : s.deep.groups.contains ((unit - 0x8000) / 16) = true) :
    execNandUnitFail unit s = .next ((s.failNand unit).singleFault 0x2) := by
  unfold execNandUnitFail
  rw [if_pos hu, if_pos h]

/-- An erase of a block that nothing uses ends: its count rises, or the block is retired. -/
theorem execNandEraseDone_unused {block : Nat} (hd : s.dieThere die = true) (hb : s.blockUnused die block = true)
    (hs : (s.die die).suspended = false) (hr : (s.die die).retired.contains block = false) (ok : Bool) :
    execNandEraseDone die block ok s =
    .next (let u := s.setDie die fun d => { d with erasing := if d.erasing == some block then none else d.erasing }
      if !ok then u.retireBlock die block
      else u.setDie die fun d =>
        { d with erases := upsert (fun x => x.1) (block, ((d.erases.find? fun x => x.1 = block).map (·.2)).getD 0 + 1) d.erases }) := by
  unfold execNandEraseDone
  rw [if_neg (by simp only [hd, hb, hs, hr, Bool.not_true, Bool.false_eq_true, or_self, not_false_eq_true])]

theorem execWearRecordWrite_first (hd : s.dieThere die = true) (hw : (s.die die).wearAt = none) :
    execWearRecordWrite die s = .next ((s.saveWear die).programmed 1) := by
  unfold execWearRecordWrite
  rw [hw, hd]
  rfl

theorem execWearRecordWrite_recent {t : Nat} (hw : (s.die die).wearAt = some t) (ht : s.now < t + 4800000000000)
    (hp : s.power.state ≠ .draining) : execWearRecordWrite die s = .next s := by
  unfold execWearRecordWrite
  rw [hw]
  dsimp only
  rw [if_neg (by simp [ht, hp])]

end

/-! ### Programs (R621, R637) -/

section
variable {s : State} {g seq sub block : Nat}

theorem execNandProgramDone_unqueued (h : ∀ w ∈ s.deep.queue, ¬ (w.granule = g ∧ w.seq = seq)) (ok : Bool) :
    execNandProgramDone g seq ok sub block s = .next s := by
  unfold execNandProgramDone
  rw [List.find?_eq_none.2 (by simpa using h)]

/-- The write queue without an entry. -/
def State.queueLess (s : State) (g seq : Nat) : List WriteBack := s.deep.queue.filter fun x => !(x.granule == g && x.seq == seq)

variable {w : WriteBack} (hw : (s.deep.queue.find? fun w => w.granule = g ∧ w.seq = seq) = some w) (hs : (s.die w.die).suspended = false)
include hw hs

theorem execNandProgramDone_written : execNandProgramDone g seq true sub block s =
    .next ((State.programmed { s with deep := { s.deep with queue := s.queueLess g seq } } 1).moveMap w) := by
  unfold execNandProgramDone
  rw [hw]
  dsimp only
  rw [if_neg (ne_true_of_eq_false hs)]
  rfl

/-- A program that fails retires its block, and the granule waits to be programmed elsewhere. -/
theorem execNandProgramDone_failed {t : State} {die stripe : Nat} (hp : s.place sub = some (t, die, stripe)) :
    execNandProgramDone g seq false sub block s = .next (State.retireBlock { t with deep := { t.deep with
      queue := s.queueLess g seq ++ [{ w with die := die, block := block, stripe := stripe }] } } w.die w.block) := by
  unfold execNandProgramDone
  rw [hw]
  dsimp only
  rw [if_neg (ne_true_of_eq_false hs), if_neg (by simp), hp]
  rfl

end

/-! ### Background tasks (R627, R633, R636) -/

section
variable {s : State} {g sub block : Nat}

theorem background_unmapped (h : ∀ e ∈ s.deep.map, e.granule ≠ g) :
    ∀ y ∈ [Instr.reclaim g sub block, .wearLevelling g sub block, .restriping g sub block], exec y s = .next s := by
  have hn : (s.deep.map.find? fun e => e.granule = g) = none := List.find?_eq_none.2 (by simpa using h)
  simp only [List.forall_mem_cons, List.not_mem_nil, false_implies, implies_true, and_true]
  change execReclaim g sub block s = _ ∧ execWearLevelling g sub block s = _ ∧ execRestriping g sub block s = _
  unfold execReclaim execWearLevelling execRestriping
  rw [hn]
  exact ⟨rfl, rfl, rfl⟩

variable {e : MapEntry} (he : (s.deep.map.find? fun e => e.granule = g) = some e)
include he

theorem execReclaim_fewest (h : ∀ x ∈ s.deep.map, s.validPages e.die e.block ≤ s.validPages x.die x.block) :
    execReclaim g sub block s = .next (s.movePage g sub block) := by
  unfold execReclaim
  rw [he]
  exact congrArg _ (if_neg (not_any_of_forall_not fun x hx => Nat.not_lt.2 (h x hx)))

theorem execWearLevelling_spread (h : s.deep.rated < 20 * (s.eraseMax e.die - (Config.unit (0x1000000 + e.die * 0x10000 + e.block) +
    (((s.die e.die).erases.find? fun x => x.1 = e.block).map (·.2)).getD 0))) :
    execWearLevelling g sub block s = .next (s.movePage g sub block) := by
  unfold execWearLevelling
  rw [he]
  exact congrArg _ (if_pos h)

theorem execRestriping_entry : execRestriping g sub block s = .next (if s.restripes e then s.movePage g sub block else s) := by
  unfold execRestriping
  rw [he]

theorem execRetentionRefresh_weak (still : Bool) : execRetentionRefresh g true still sub block s =
    .next (if still then (s.movePage g sub block).retireBlock e.die e.block else s.movePage g sub block) := by
  unfold execRetentionRefresh
  rw [he]
  exact congrArg _ (if_neg (by simp))

theorem execRetentionRefresh_sound (h : s.deep.refresh.contains g = false) : execRetentionRefresh g false false sub block s = .next s := by
  unfold execRetentionRefresh
  rw [he]
  exact congrArg _ (if_pos ⟨rfl, by rw [h]; rfl⟩)

end

/-! ### The commands together -/

/-- Settles O35: every clause is a case of its command, named by the lemma that states it. -/
theorem deepTier : Obligations.DeepTier := by
  intro g s
  refine ⟨fill_unmissed, fun m hm => ⟨execHarbourFill_unread hm, fun r hr => ?_, execHarbourFill_filled hm⟩, fun m => execWayAvailable_filled,
    fun sub block => ⟨fun w hw => ?_, execWriteBack_absent, execMirrorWriteBack_empty, fun k l hk => ?_⟩,
    fun sub block => ⟨execMigrationGranule_unasked, fun m hm => ?_⟩, execHarbourScrub_absent, execHarbourScrub_sound,
    execNandReadDone_unread, fun r hr hd ho => ?_, fun die => ?_,
    fun seq sub block => ⟨execNandProgramDone_unqueued, fun w hw hs => ?_⟩, fun sub block => ⟨background_unmapped, fun e he => ?_⟩⟩
  · have lost := execGranuleLost_read hm hr
    exact ⟨execHarbourFill_read hm hr, execHarbourFill_unready hm hr, fun hf ho ht => lost.trans (congrArg _ (if_neg (by simp [hf, ho, ht]))),
      fun ht => lost.trans (congrArg _ (if_pos (.inr (.inr ht))))⟩
  · exact ⟨fun hb t ht => (execWriteBack_victim hw hb).trans (by rw [ht]; rfl),
      fun hb ht => (execWriteBack_victim hw hb).trans (by rw [ht]; rfl), execWriteBack_clean hw⟩
  · exact ⟨execMirrorWriteBack_below hk, fun hb t => execMirrorWriteBack_oldest hk hb⟩
  · refine ⟨execMigrationGranule_overtaken hm, execMigrationGranule_absent hm, execMigrationGranule_pinned hm, fun w hw hc ht => ?_,
      fun w t hw hc ht hq => ?_, fun w hw => execMigrationGranule_reclassed hm hw⟩
    · exact (execMigrationGranule_cold hm hw ht).trans (congrArg _ (if_pos (List.isEmpty_iff.2 hc)))
    · refine (execMigrationGranule_cold hm hw ht).trans (congrArg _ ((if_neg (mt List.isEmpty_iff.1 hc)).trans ?_))
      rw [hq]
      rfl
  · exact ⟨fun hh => ⟨execNandReadDone_page hr hd ho hh, execNandReadDone_hardFailed hr hd ho hh⟩, execNandReadDone_softFailed hr hd ho⟩
  · exact ⟨execNandSuspend_reads, execNandSuspend_idle, execNandResume_drained, execNandResume_reads,
      fun hd ht => (execNandUnitFail_die hd).trans (congrArg _ (if_pos ht)),
      fun hd ht => (execNandUnitFail_die hd).trans (congrArg _ (if_neg (ne_true_of_eq_false ht))),
      fun c hc => execNandUnitFail_channel (Nat.le_add_right _ _) (by rwa [Nat.add_sub_cancel_left]),
      fun block hd hb hs hr => ⟨(execNandEraseDone_unused hd hb hs hr false).trans (congrArg _ (if_pos rfl)),
        (execNandEraseDone_unused hd hb hs hr true).trans (congrArg _ (if_neg Bool.false_ne_true))⟩,
      execWearRecordWrite_first, fun t => execWearRecordWrite_recent⟩
  · exact ⟨execNandProgramDone_written hw hs, fun t die stripe => execNandProgramDone_failed hw hs⟩
  · exact ⟨execReclaim_fewest he, execWearLevelling_spread he,
      fun h => (execRestriping_entry he).trans (congrArg _ (if_pos h)),
      fun h => (execRestriping_entry he).trans (congrArg _ (if_neg (ne_true_of_eq_false h))),
      (execRetentionRefresh_weak he false).trans (congrArg _ (if_neg Bool.false_ne_true)),
      (execRetentionRefresh_weak he true).trans (congrArg _ (if_pos rfl)), execRetentionRefresh_sound he⟩

end Sys2Proof.Machine
end

section
/-! SUPPORT. The invariant of the whole block, step by step (spec 02: R59; spec 19: R721, R724): canonical memory, well-formed waiting
commands and a whole store of the Tollhouse. -/

namespace Sys2Proof.Machine

/-- A step answers next, and from the state without the command that it takes up it leaves in force what every command does; an idle cycle
moves only the clock. -/
theorem step_keepsAll (s : State) : EndsIn KeepsAll { s with pending := s.pending.tail } (step s) := by
  unfold step
  split
  next hp => exact ⟨s.idle, rfl, hp.trans (by rw [hp]; rfl), id, Nat.le_refl _, id, id⟩
  next c rest hp => simpa [hp] using exec_keepsAll c { s with pending := rest }

theorem queueWf_iff {s : State} : s.queueWf = true ↔ ∀ i ∈ s.pending, Sys2Proof.wellFormed i = true := List.all_eq_true

/-- The commands that wait behind the first are well formed with it. -/
theorem queueWf_tail {s : State} (h : s.queueWf = true) : { s with pending := s.pending.tail }.queueWf = true :=
  queueWf_iff.2 fun i hi => queueWf_iff.1 h i (List.mem_of_mem_tail hi)

theorem KeepsAll.queueWf {s t : State} (k : KeepsAll s t) (h : s.queueWf = true) : t.queueWf = true := by
  unfold State.queueWf
  rw [k.pending]
  exact h

/-- Settles O45: the step takes one command off the queue, and no command adds one or breaks memory or the store (`step_keepsAll`). -/
theorem memoryStaysCanonical : Obligations.MemoryStaysCanonical := by
  intro s hmem hqueue htoll
  obtain ⟨t, hstep, k⟩ := step_keepsAll s
  exact ⟨t, hstep, k.mem hmem, k.queueWf (queueWf_tail hqueue), k.ok htoll⟩

end Sys2Proof.Machine
end

section
/-! SUPPORT. Plain requests at their home (spec 02: R64–R67; spec 04: R185; spec 14: R569, R577): the bytes of shore memory after each. -/

namespace Sys2Proof.Machine

/-! ### How a message is classed -/

theorem access_of_isRead {m : SxfMsg} (h : m.isRead = true) : m.access = .read := by
  unfold SxfMsg.isRead at h
  simp only [Bool.and_eq_true, decide_eq_true_eq] at h
  unfold SxfMsg.access
  rw [if_neg (by unfold Sxf.atomic; omega), if_pos h]

theorem op_ne_atomic_of_isWrite {m : SxfMsg} (h : m.isWrite = true) : m.op ≠ Sxf.atomic := by
  unfold SxfMsg.isWrite at h
  simp only [Bool.and_eq_true, decide_eq_true_eq] at h
  unfold Sxf.atomic
  omega

theorem access_of_isWrite {m : SxfMsg} (h : m.isWrite = true) : m.access = .write := by
  have hop := op_ne_atomic_of_isWrite h
  unfold SxfMsg.isWrite at h
  simp only [Bool.and_eq_true, decide_eq_true_eq] at h
  unfold SxfMsg.access
  rw [if_neg hop, if_neg (by omega)]

theorem isAtomic_iff {m : SxfMsg} : m.isAtomic = true ↔ m.op = Sxf.atomic := beq_iff_eq

theorem access_of_isAtomic {m : SxfMsg} (h : m.isAtomic = true) : m.access = .atomic := by
  unfold SxfMsg.access
  rw [if_pos (isAtomic_iff.1 h)]

/-! ### Requests of another shore -/

/-- The message came over no jetty, so its answer hands poison to no guest here (R653). -/
def NotFromJetty (m : SxfMsg) (s : State) : Prop := ((s.bundle m.via).any fun b => decide (b.kind = .jetty)) = false

theorem servesHere_notFromJetty {m : SxfMsg} {s : State} (h : servesHere m s = true) : NotFromJetty m s := by
  unfold servesHere at h
  simp only [Bool.and_eq_true] at h
  obtain ⟨⟨⟨⟨⟨⟨⟨⟨⟨⟨⟨⟨-, hvia⟩, -⟩, -⟩, -⟩, -⟩, -⟩, -⟩, -⟩, -⟩, -⟩, -⟩, -⟩ := h
  unfold NotFromJetty
  cases hb : s.bundle m.via with
  | none => rfl
  | some b =>
    rw [hb, Option.any_some, beq_iff_eq] at hvia
    rw [Option.any_some, hvia]
    rfl

theorem NotFromJetty.of_bundles {m : SxfMsg} {s t : State} (h : NotFromJetty m s) (hb : t.fabric.bundles = s.fabric.bundles) :
    NotFromJetty m t := by
  unfold NotFromJetty State.bundle at *
  rw [hb]
  exact h

/-- When the answer of such a request has gone out, no poison is consumed, and memory is as it was before the answer. -/
theorem NotFromJetty.answered_mem {m : SxfMsg} {s t : State} (h : NotFromJetty m s) (k : Aside s t) (bad : Bool) :
    (if bad = true ∧ ((t.bundle m.via).any fun b => decide (b.kind = .jetty)) = true then t.consume m.guest m.gpa else t).store.mem =
      s.store.mem := by
  rw [if_neg fun hc => ne_true_of_eq_false (h.of_bundles k.2) hc.2]
  exact k.1

theorem plainRequest_read {m : SxfMsg} {s : State} (h : servesHere m s = true) (hr : m.isRead = true) :
    s.plainRequest m = (s.count 1 m.guest 11 1).serveRead m := by
  rw [servesHere_home h, access_of_isRead hr]

theorem plainRequest_write {m : SxfMsg} {s : State} (h : servesHere m s = true) (hw : m.access ≠ .read) :
    s.plainRequest m = (s.count 1 m.guest 11 1).serveWrite m := by
  rw [servesHere_home h]
  cases ha : m.access
  case read => exact absurd ha hw
  all_goals rfl

/-! ### What serving a request does to memory -/

theorem answerRead_mem {m : SxfMsg} {s : State} (h : NotFromJetty m s) (data : List Byte) :
    (s.answerRead m data).store.mem = s.store.mem := by
  unfold State.answerRead
  exact h.answered_mem (reply_sent s m _ _ _ _ _ _ _).aside _

/-- A read changes no byte, whether it is answered or waits for its granule. -/
theorem serveRead_mem {m : SxfMsg} {s : State} (h : NotFromJetty m s) : (s.serveRead m).store.mem = s.store.mem := by
  unfold State.serveRead
  dsimp only
  split
  · exact (joinMiss_aside s _ _ _).1
  · have touched := touchRead_aside s (gpaOffset m.gpa / granuleSize)
    exact (answerRead_mem (h.of_bundles touched.2) _).trans touched.1

theorem poisonIf_aside (s : State) (b : Bool) (l : List Nat) : Aside s (if b = true then s.poisonSectors l else s) := by
  cases b
  · exact Aside.refl s
  · exact poisonSectors_aside s l

/-- The deltas of the parity go out, and the answer after them (R660); neither changes a byte. -/
theorem Aside.settled {s t : State} (h : Aside s t) (via : Nat) (r : SxfMsg) :
    Aside s (t.flushDeltas.1.replyAfter t.flushDeltas.2 via r) :=
  h.trans ((flushDeltas_aside t).trans (replyAfter_aside _ _ via r))

/-- A write stores its data and nothing else: poison, the parity deltas and the answer change no byte. -/
theorem serveWrite_mem {m : SxfMsg} {s : State} (hop : m.op ≠ Sxf.atomic) : (s.serveWrite m).store.mem =
    Mem.write s.store.mem (gpaOffset m.gpa) (m.writeData (s.bytesAt (gpaOffset m.gpa) m.size)) := by
  unfold State.serveWrite
  dsimp only
  rw [if_neg hop]
  refine Eq.trans (Aside.settled ?_ _ _).1 (applyWrite_mem _ _ _)
  exact poisonIf_aside _ _ _

/-- An atomic stores its new value and nothing else: its record at the parity members changes no byte either. -/
theorem serveWrite_atomic_mem {m : SxfMsg} {s : State} (h : NotFromJetty m s) (hop : m.op = Sxf.atomic) : (s.serveWrite m).store.mem =
    Mem.write s.store.mem (gpaOffset m.gpa)
      (leBytes m.atWidth (atomicNew m.atOp m.atType m.atWidth (s.word (gpaOffset m.gpa) m.atWidth) (m.f 16 16) (m.f 32 16))) := by
  unfold State.serveWrite
  dsimp only
  rw [if_pos hop]
  refine ((h.of_bundles (applyWrite_bundles _ _ _)).answered_mem (Aside.settled ?_ _ _) _).trans (applyWrite_mem _ _ _)
  exact (poisonIf_aside _ _ _).trans (recordAtomic_aside _ _ _ _)

/-- What a write leaves to be read, from memory in its canonical form. -/
theorem write_stores {mem mem' : Memory} {off : Nat} {d : List Byte} (h : Mem.wf mem = true) (hw : mem' = Mem.write mem off d) :
    (∀ i (hi : i < d.length), Mem.get mem' (off + i) = d[i]) ∧
      ∀ a, a < off ∨ off + d.length ≤ a → Mem.get mem' a = Mem.get mem a := by
  subst hw
  exact ⟨fun i hi => Mem.get_write_eq h hi, fun a ha => Mem.get_write_ne h ha⟩

/-- The command of a write, plain or masked, is the one that its opcode names. -/
theorem exec_write {m : SxfMsg} {s : State} {x : Instr} (hw : m.isWrite = true) (hx : x ∈ [Instr.write m, Instr.writeMasked m])
    (hmask : x = .write m ↔ m.op ≠ Sxf.writeMasked) : exec x s = .next (s.plainRequest m) := by
  simp only [List.mem_cons, List.not_mem_nil, or_false] at hx
  rcases hx with rfl | rfl
  · change execWrite m s = _
    exact State.arrival_eq (by simpa [hw] using hmask)
  · change execWriteMasked m s = _
    exact State.arrival_eq (by simpa using hmask)

/-- Settles O54: each request comes to its service at the home (`servesHere_home`), and the service writes what it stores, or nothing. -/
theorem plainFrame : Obligations.PlainFrame := by
  intro m s h hmem off stored
  have hvia : NotFromJetty m (s.count 1 m.guest 11 1) := servesHere_notFromJetty h
  refine ⟨fun hr => ?_, fun hw x hx hmask => ?_, fun ha => ?_⟩
  · refine ⟨s.plainRequest m, State.arrival_eq (f := (·.plainRequest m)) hr, fun a => ?_⟩
    rw [plainRequest_read h hr, serveRead_mem hvia]
    rfl
  · refine ⟨s.plainRequest m, exec_write hw hx hmask, write_stores hmem ?_⟩
    rw [plainRequest_write h (by simp [access_of_isWrite hw]), serveWrite_mem (op_ne_atomic_of_isWrite hw)]
    rfl
  · refine ⟨s.plainRequest m, State.arrival_eq (f := (·.plainRequest m)) ha, write_stores hmem ?_⟩
    rw [plainRequest_write h (by simp [access_of_isAtomic ha]), serveWrite_atomic_mem hvia (isAtomic_iff.1 ha)]
    rfl

end Sys2Proof.Machine
end

section
/-! SUPPORT. The placement and pull commands (spec 02: R87, R95, R101, R104, R113, R114): what each does once every check lets it through. -/

namespace Sys2Proof.Machine

/-! ### Classes -/

/-- The cove's record with the class of a PLACE_SET over its range (R95). -/
def State.placed (s : State) (c : RelasCmd) : State :=
  s.setCove (c.f 16 2) fun k => k.withClass (c.f 24 8) (c.f 32 8) (adviseCls (c.f 40 1))

theorem opPlaceSet_records {c : RelasCmd} (hq : bit (c.f 41 1) 0 = false) (n : Nat) (s : State) :
    opPlaceSet.effect c n s = (s.placed c, .done) := by
  unfold opPlaceSet
  dsimp only
  rw [if_neg (ne_true_of_eq_false hq)]
  rfl

/-- With its flag, PLACE_SET queues the moves to the class, a RESET to the cove's own (R104). -/
theorem opPlaceSet_queues {c : RelasCmd} {s : State} {k : Cove} (hq : bit (c.f 41 1) 0 = true) (hk : (s.placed c).cove (c.f 16 2) = some k)
    (n : Nat) : opPlaceSet.effect c n s =
      ((s.placed c).queueMoves (c.f 24 8) (c.f 32 8) ((adviseCls (c.f 40 1)).getD k.cls), .done) := by
  unfold State.placed at hk
  unfold opPlaceSet
  dsimp only
  rw [if_pos hq, hk]
  rfl

theorem opPlaceQuery_answers {c : RelasCmd} {s : State} {k : Cove} (hk : s.cove (c.f 16 2) = some k) (n : Nat) :
    opPlaceQuery.effect c n s = (s, .read
      (leBytes 8 (s.store.moving.filter fun m => inside (m.granule * granuleSize) granuleSize k.base k.size).length ++
        leBytes 2 k.overrides.length ++ zeros 6 ++
        (k.overrides.map fun o => leBytes 8 o.base ++ leBytes 8 o.size ++ leBytes 1 o.cls.code ++ zeros 7).flatten)) := by
  unfold opPlaceQuery
  dsimp only
  rw [hk]

/-! ### Pull ranges -/

/-- A PULL_ADD of a client of this shore is the reader's side of R114. -/
theorem relasOpOf_pullAdd {c : RelasCmd} (h : c.opcode = 0x0303) (hc : ∀ n, c.chan ≠ .shore n) : relasOpOf c = some opPullAdd :=
  relasOpOf_local h hc

/-- A PULL_ADD of another shore is the home's side. -/
theorem relasOpOf_pullHold {c : RelasCmd} {n : Nat} (h : c.opcode = 0x0303) (hc : c.chan = .shore n) : relasOpOf c = some opPullHold := by
  unfold relasOpOf
  rw [hc, h]
  rfl

theorem opPullHold_holds {c : RelasCmd} {s : State} {n : Nat} {k : Cove} (hc : c.chan = .shore n)
    (hk : s.coveAt (gpaOffset (c.f 16 8)) = some k) (t : Nat) :
    opPullHold.effect c t s = (s.setCove k.id fun k => { k with holders := setAdd n k.holders }, .done) := by
  unfold opPullHold
  dsimp only
  rw [hk, hc]

/-- Settles O3: each command has the effect of its operation, and DONE, the body or the ticket that the engine adds (`served_done`,
`served_read`, `served_pending`); a staged one joins its set (`staged_stages`). -/
theorem placementCommands : Obligations.PlacementCommands := by
  intro c s u placed
  refine ⟨fun h hq => ?_, fun h hq k hk => ?_, fun h k hk => ?_, fun h hc => ?_, fun h n k hc hk => ?_, fun h => ?_, fun h x hx ht => ?_,
    fun _ _ => rfl⟩
  · exact congrArg _ (served_done h (served_plain h (by decide) rfl) (by decide) (opPlaceSet_records hq _ _))
  · exact congrArg _ (served_done h (served_plain h (by decide) rfl) (by decide) (opPlaceSet_queues hq hk _))
  · exact congrArg _ (served_read h (served_plain h (by decide) rfl) (by decide) (opPlaceQuery_answers hk _))
  · exact congrArg _ (served_pending h (relasOpOf_pullAdd (served_opcode h) hc) (by decide) rfl)
  · exact congrArg _ (served_done h (relasOpOf_pullHold (served_opcode h) hc) (by decide) (opPullHold_holds hc hk _))
  · exact congrArg _ (served_pending h (served_plain h (by decide) rfl) (by decide) rfl)
  · exact congrArg _ (staged_stages h (by decide) hx ht)

end Sys2Proof.Machine
end

section
/-! SUPPORT. The guest commands (spec 03: R141–R143, R76, R150): what each does once every check lets it through. -/

namespace Sys2Proof.Machine

theorem opGuestQuery_answers {c : RelasCmd} {s : State} {g : Guest} (hg : s.guestRec (c.f 16 2) = some g) (n : Nat) :
    opGuestQuery.effect c n s = (s, .read (guestLayout g)) := by
  unfold opGuestQuery
  dsimp only
  rw [hg]

/-- Settles O1: each command has the effect of its operation, and DONE, the body or the ticket that the engine adds (`served_done`,
`served_read`, `served_pending`). -/
theorem guestCommands : Obligations.GuestCommands := by
  intro c s u
  refine ⟨fun h => ?_, fun h => ?_, fun h => ?_, fun h => ?_, fun h g hg => ?_⟩
  · exact congrArg _ (served_done h (served_plain h (by decide) rfl) (by decide) rfl)
  · exact congrArg _ (served_done h (served_plain h (by decide) rfl) (by decide) rfl)
  · exact congrArg _ (served_done h (served_plain h (by decide) rfl) (by decide) rfl)
  · exact congrArg _ (served_pending h (served_plain h (by decide) rfl) (by decide) rfl)
  · exact congrArg _ (served_read h (served_plain h (by decide) rfl) (by decide) (opGuestQuery_answers hg _))

end Sys2Proof.Machine
end

section
/-! SUPPORT. The cove commands and the steps of a hand-over (spec 03: R144–R149; spec 02: R111, R117): what each does once every check lets
it through. -/

namespace Sys2Proof.Machine

/-- A served cove command that answers later; what it changed already reaches the protection set (R662). -/
theorem served_cove_later {n : Nat} {op : RelasOp} {c : RelasCmd} {s u : State} {r : Reply} (h : served n c s = true)
    (ho : relasOpOf c = some op) (hn : n / 256 = 2)
    (he : op.effect c (s.taken c).inn.nextTicket (s.taken c) = (u, { r with later := true })) : s.serveAs n c = s.replicateChanges u := by
  rw [serve_served h ho, if_pos hn]
  unfold RelasOp.completes
  rw [he]
  rfl

section
variable {c : RelasCmd} {s : State} {k : Cove} (hk : s.cove (c.f 16 2) = some k)
include hk

theorem opCoveDestroy_begins (t : Nat) :
    opCoveDestroy.effect c t s = (s.beginHandover k true false k.owner [] t, .pending (.handover k.id)) := by
  unfold opCoveDestroy
  dsimp only
  rw [hk]

theorem opCoveHandover_begins (t : Nat) : opCoveHandover.effect c t s =
    (s.beginHandover k false (c.f 20 1 = 1) (c.f 18 2) (handoverCove c k).grants t, .pending (.handover k.id)) := by
  unfold opCoveHandover
  dsimp only
  rw [hk]

theorem opCoveSet_applies (hi : needsInval c k = false) (n : Nat) : opCoveSet.effect c n s = (s.applyCoveSet c, .done) := by
  unfold opCoveSet
  dsimp only
  rw [hk]
  exact if_neg (ne_true_of_eq_false hi)

/-- A COVE_SET that ends PULLABLE waits for the pulled copies to be invalidated (R117, R146). -/
theorem opCoveSet_invalidates (hi : needsInval c k = true) (n : Nat) : opCoveSet.effect c n s =
    ({ s.sendInvalidates k with store := { (s.sendInvalidates k).store with
        invals := (s.sendInvalidates k).store.invals ++ [⟨k.id, k.holders, c⟩] } }, { Reply.done with later := true }) := by
  unfold opCoveSet
  dsimp only
  rw [hk]
  exact if_pos hi

theorem opCoveQuery_answers (hn : c.f 16 2 ≠ 0xFFFF) (n : Nat) :
    opCoveQuery.effect c n s = (s, .read (coveLayout k ++ leBytes 1 k.state.code ++ leBytes 2 k.grants.length)) := by
  unfold opCoveQuery
  dsimp only
  rw [if_neg hn, hk]

end

/-- A COVE_QUERY of no one cove answers the shore's totals (R149). -/
theorem opCoveQuery_totals {c : RelasCmd} (ha : c.f 16 2 = 0xFFFF) (n : Nat) (s : State) :
    opCoveQuery.effect c n s = (s, .read (leBytes 8 s.store.capacity ++ leBytes 8 s.coveBytes ++ leBytes 8 s.store.coves.length)) := by
  unfold opCoveQuery
  exact if_pos ha

theorem execHandoverStep_next {n : Nat} {s : State} {h : Handover} {k : Cove} (hh : (s.store.handovers.find? fun x => x.cove = n) = some h)
    (hk : s.cove n = some k) (hd : s.stepDone k h = true) :
    execHandoverStep n s = .next (s.replicateChanges (s.nextStep k h)) := by
  unfold execHandoverStep
  rw [hh]
  dsimp only
  rw [hk]
  dsimp only
  rw [if_pos hd]

/-- Settles O2: each command has the effect of its operation with the answer that the engine adds, passed to the protection set
(`served_cove_done`, `served_cove_read`, `served_cove_pending`, `served_cove_later`). -/
theorem coveCommands : Obligations.CoveCommands := by
  intro c s u
  refine ⟨fun h => ?_, fun h k hk => ?_, fun h k hk hi => ?_, fun h k hk hi => ?_, fun h => ?_, fun h k hk => ?_, fun h ha => ?_,
    fun h hn k hk => ?_, fun n h k hh hk hd => execHandoverStep_next hh hk hd⟩
  · exact congrArg _ (served_cove_done h (served_plain h (by decide) rfl) (by decide) rfl)
  · exact congrArg _ (served_cove_pending h (served_plain h (by decide) rfl) (by decide) (opCoveDestroy_begins hk _))
  · exact congrArg _ (served_cove_done h (served_plain h (by decide) rfl) (by decide) (opCoveSet_applies hk hi _))
  · exact congrArg _ (served_cove_later h (served_plain h (by decide) rfl) (by decide) (opCoveSet_invalidates hk hi _))
  · exact congrArg _ (served_cove_done h (served_plain h (by decide) rfl) (by decide) rfl)
  · exact congrArg _ (served_cove_pending h (served_plain h (by decide) rfl) (by decide) (opCoveHandover_begins hk _))
  · exact congrArg _ (served_cove_read h (served_plain h (by decide) rfl) (by decide) (opCoveQuery_totals ha _ _))
  · exact congrArg _ (served_cove_read h (served_plain h (by decide) rfl) (by decide) (opCoveQuery_answers hk hn _))

end Sys2Proof.Machine
end

section
/-! SUPPORT. The commands on tickets, counters, events, the trace and records, and the end and expiry of tickets (spec 03: R138; spec 19: R732;
spec 20: R749, R753, R756). -/

namespace Sys2Proof.Machine

/-! ### Tickets -/

section
variable {c : RelasCmd} {s : State} {t : Ticket} (ht : (s.inn.tickets.find? fun t => t.id = c.f 16 4) = some t)
include ht

theorem opTicketStatus_running (hr : t.ended = none) (n : Nat) : opTicketStatus.effect c n s =
    (s, .read (leBytes 2 0 ++ leBytes 2 0 ++ leBytes 4 0 ++ leBytes 8 0 ++ leBytes 8 (s.progressOf t))) := by
  unfold opTicketStatus
  dsimp only
  rw [ht]
  dsimp only
  rw [hr]

theorem opTicketStatus_ended {e : Ended} (he : t.ended = some e) (n : Nat) : opTicketStatus.effect c n s =
    (s, .read (leBytes 2 1 ++ leBytes 2 e.result ++ leBytes 4 e.detail ++ leBytes 8 e.time ++ leBytes 8 t.progress)) := by
  unfold opTicketStatus
  dsimp only
  rw [ht]
  dsimp only
  rw [he]

end

theorem execTicketEnd_ends_work {n : Nat} {s v : State} {t : Ticket} {r d p : Nat} (hn : n ≠ 0)
    (ht : (s.running.find? fun t => t.id = n) = some t) (hw : s.ticketWork t = some (v, r, d, p)) :
    execTicketEnd n s = .next (v.endTicket n r d p) := by
  unfold execTicketEnd
  rw [if_neg hn, ht]
  dsimp only
  rw [hw]

/-- A ticket that ended 10 s ago is forgotten (R138). -/
theorem execTicketExpiry_forgets {n : Nat} {s : State} {t : Ticket} {e : Ended} (ht : t ∈ s.inn.tickets) (hn : t.id = n)
    (he : t.ended = some e) (hold : e.time + 80000000000 ≤ s.now) : execTicketExpiry n s =
      .next { s with inn := { s.inn with tickets := s.inn.tickets.filter fun t => decide (t.id ≠ n) } } := by
  have hended : t ∈ s.inn.tickets.filter (·.ended.isSome) := List.mem_filter.2 ⟨ht, by rw [he]; rfl⟩
  have hover : t.ended.any (fun e => e.time + 80000000000 ≤ s.now) = true := by
    rw [he, Option.any_some]
    exact decide_eq_true hold
  unfold execTicketExpiry
  dsimp only
  refine congrArg Host.Outcome.next (if_pos ?_)
  rw [List.any_eq_true]
  exact ⟨t, hended, decide_eq_true ⟨hn, Or.inr hover⟩⟩

/-! ### The event ring and the trace -/

/-- EVENT_RING_SET with byte 16 at 0 configures the stream (R753). -/
theorem opEventRing_configures {c : RelasCmd} (hk : c.f 16 1 = 0) (n : Nat) (s : State) : opEventRing.effect c n s =
    ({ s with obs := { s.obs with stream := { s.obs.stream with
        on := decide (c.f 18 1 = 1), minSeverity := c.f 17 1, udpPort := c.f 20 2, collector := slice c.bytes 24 16
        key := some (slice c.bytes 40 32), waiting := if c.f 18 1 = 1 then s.obs.stream.waiting else [] } } }, .done) := by
  unfold opEventRing
  exact if_pos hk

/-- The oldest event that the ring still holds. -/
def State.oldestEvent (s : State) : Nat := s.obs.nextSeq - s.obs.events.length

/-- The events that a READ of the ring answers. -/
def State.foundEvents (s : State) (c : RelasCmd) : List Event :=
  (s.obs.events.drop (max (c.f 24 8) s.oldestEvent - s.oldestEvent)).take (c.f 18 2)

/-- EVENT_RING_SET with byte 16 at 1 reads the ring. -/
theorem opEventRing_reads {c : RelasCmd} (hk : c.f 16 1 = 1) (n : Nat) (s : State) : opEventRing.effect c n s =
    (s, .read (leBytes 8 (if (s.foundEvents c).isEmpty then s.obs.nextSeq else max (c.f 24 8) s.oldestEvent + (s.foundEvents c).length) ++
      leBytes 8 s.oldestEvent ++ leBytes 8 s.obs.overwritten ++ ((s.foundEvents c).map Event.bytes).flatten)) := by
  unfold opEventRing
  exact if_neg (by omega)

/-- TRACE_SET with byte 16 at 0 configures the trace (R756). -/
theorem opTraceSet_configures {c : RelasCmd} (hk : c.f 16 1 = 0) (n : Nat) (s : State) : opTraceSet.effect c n s =
    ({ s with obs := { s.obs with trace := ⟨c.f 17 1, c.f 18 1, c.f 19 1, c.f 24 8, c.f 32 8,
        s.obs.trace.dirty || (Trace.mk (c.f 17 1) (c.f 18 1) (c.f 19 1) (c.f 24 8) (c.f 32 8) s.obs.trace.dirty).runs⟩ } }, .done) := by
  unfold opTraceSet
  exact if_pos hk

/-- What a READ of the trace leaves: draws for what it returns, and for what a running trace has lost since (log entry 48). -/
def State.traceRead (s : State) (n : Nat) : State :=
  let t := (s.traceBytes n).1
  if t.obs.trace.runs then (t.count 0x0D 0 3 (t.nextFree % 2 ^ 32)).drew else t

/-- TRACE_SET with byte 16 at 1 reads the trace. -/
theorem opTraceSet_reads {c : RelasCmd} (hk : c.f 16 1 = 1) (n : Nat) (s : State) : opTraceSet.effect c n s =
    (s.traceRead (c.f 18 2), .read (leBytes 8 (s.traceBytes (c.f 18 2)).2.1 ++ (s.traceBytes (c.f 18 2)).2.2)) := by
  unfold opTraceSet
  exact if_neg (by omega)

/-! ### Records -/

/-- TOLL_READ of the number that no record has answers the mirror's status (R732). -/
theorem opTollRead_status {c : RelasCmd} (hk : c.f 16 8 = 2 ^ 64 - 1) (n : Nat) (s : State) : opTollRead.effect c n s =
    (s, .read (leBytes 8 (s.mirror.expected.getD 0) ++ leBytes 8 s.mirror.first ++ s.mirror.status)) := by
  unfold opTollRead
  exact if_pos hk

/-- The records that a TOLL_READ answers: those from its SEQUENCE on, as many as it asks for. -/
def TollMirror.asked (m : TollMirror) (c : RelasCmd) : List (List Byte) :=
  (m.ring.filter fun r => decide (c.f 16 8 ≤ fld r 8 8)).take (c.f 24 2)

/-- The SEQUENCE after the last of some records; the one asked for where there is none. -/
def afterLast (start : Nat) (records : List (List Byte)) : Nat :=
  match records.getLast? with
  | some r => fld r 8 8 + 1
  | none => start

theorem opTollRead_records {c : RelasCmd} (hk : c.f 16 8 ≠ 2 ^ 64 - 1) (n : Nat) (s : State) : opTollRead.effect c n s =
    (s, .read (leBytes 8 (afterLast (c.f 16 8) (s.mirror.asked c)) ++ leBytes 8 s.mirror.first ++ (s.mirror.asked c).flatten)) := by
  unfold opTollRead
  exact if_neg hk

/-- Settles O10: each command has the effect of its operation with the answer that the engine adds (`served_done`, `served_read`); the two
rows of EVENT_RING_SET and of TRACE_SET are told apart by byte 16 (`servePart_eq`). -/
theorem observeCommands : Obligations.ObserveCommands := by
  intro c s u oldest found records traced
  refine ⟨fun h t ht => ?_, fun n t v r d p hn ht hw => execTicketEnd_ends_work hn ht hw, rfl,
    fun n t e ht hn he hold => execTicketExpiry_forgets ht hn he hold, fun h => ?_, fun h hk => ?_, fun h hk => ?_, fun h hk => ?_,
    fun h hk => ?_, fun h hk => ?_, fun h hk => ?_⟩
  · cases he : t.ended with
    | none => exact congrArg _ (served_read h (served_plain h (by decide) rfl) (by decide) (opTicketStatus_running ht he _))
    | some e => exact congrArg _ (served_read h (served_plain h (by decide) rfl) (by decide) (opTicketStatus_ended ht he _))
  · exact congrArg _ (served_read h (served_plain h (by decide) rfl) (by decide) rfl)
  · exact congrArg _ ((servePart_eq (by rw [hk]; rfl)).trans
      (served_done h (served_plain h (by decide) rfl) (by decide) (opEventRing_configures hk _ _)))
  · exact congrArg _ ((servePart_eq (by rw [hk]; rfl)).trans
      (served_read h (served_plain h (by decide) rfl) (by decide) (opEventRing_reads hk _ _)))
  · exact congrArg _ ((servePart_eq (by rw [hk]; rfl)).trans
      (served_done h (served_plain h (by decide) rfl) (by decide) (opTraceSet_configures hk _ _)))
  · exact congrArg _ ((servePart_eq (by rw [hk]; rfl)).trans
      (served_read h (served_plain h (by decide) rfl) (by decide) (opTraceSet_reads hk _ _)))
  · exact congrArg _ (served_read h (served_plain h (by decide) rfl) (by decide) (opTollRead_status hk _ _))
  · exact congrArg _ (served_read h (served_plain h (by decide) rfl) (by decide) (opTollRead_records hk _ _))

end Sys2Proof.Machine
end

section
/-! SUPPORT. The staging commands (spec 03: R151–R156, R159, R820): what each does to a configuration set once every check lets it through. -/

namespace Sys2Proof.Machine

/-- The operation of a served staging command that did not come from another shore. -/
theorem served_config {n : Nat} {op : RelasOp} {c : RelasCmd} {s : State} (h : served n c s = true) (hc : ∀ k, c.chan ≠ .shore k)
    (hn : n / 256 = 0x0D) (hr : relasConfig (n % 256) = some op) : relasOpOf c = some op := by
  rw [relasOpOf_local (served_opcode h) hc, if_pos hn, hr]

section
variable {c : RelasCmd} {s : State} {x : ConfigSet} (hx : s.set (c.f 16 1) = some x)
include hx

theorem opConfigDiscard_discards (n : Nat) :
    opConfigDiscard.effect c n s = (s.setSet { x with state := .discarded, verified := false }, .done) := by
  unfold opConfigDiscard
  dsimp only
  rw [hx]

theorem opConfigTurn_schedules (table : Nat → Option RelasOp) (t : Nat) : (opConfigTurn table).effect c t s =
    (s.setSet { x with
      state := .scheduled, turnTime := c.f 24 8, parts := (List.range 512).filter fun n => bit (c.f 32 64) n, verified := false
      vetoer := none, ticket := t }, .pending (.turn x.id (c.f 24 8))) := by
  unfold opConfigTurn
  dsimp only
  rw [hx]

theorem opConfigCancel_vetoes (n : Nat) : opConfigCancel.effect c n s =
    ((s.sendVeto x).setSet { x with state := .vetoed, vetoer := some s.self }, .done) := by
  unfold opConfigCancel
  dsimp only
  rw [hx]

theorem opConfigQuery_answers (n : Nat) : opConfigQuery.effect c n s =
    (s, .read (leBytes 1 x.state.code ++ zeros 7 ++ leBytes 8 x.turnTime ++ leBytes 4 x.staged.length ++
      leBytes 4 (failingIndex x.failing))) := by
  unfold opConfigQuery
  dsimp only
  rw [hx]

/-! ### The check -/

variable {table : Nat → Option RelasOp}

theorem opConfigCheck_fails {i : Nat} (hi : checkCmds table x.staged (copyAfter table s.scheduled s) = some i) (n : Nat) :
    (opConfigCheck table).effect c n s = s.checked c x (some i) := by
  unfold opConfigCheck
  dsimp only
  rw [hx]
  dsimp only
  rw [hi]

variable (hi : checkCmds table x.staged (copyAfter table s.scheduled s) = none)
include hi

/-- With SCOPE = LOCAL, or nothing held on other shores, the check ends with the copy (R154). -/
theorem opConfigCheck_passes (hl : c.f 17 1 = 0 ∨ (x.references s.self).isEmpty) (n : Nat) :
    (opConfigCheck table).effect c n s = s.checked c x none := by
  unfold opConfigCheck
  dsimp only
  rw [hx]
  dsimp only
  rw [hi]
  exact if_pos hl

/-- With SCOPE = FABRIC the shores that hold what the set refers to are asked, and the answer waits for theirs (R155). -/
theorem opConfigCheck_asks (hf : c.f 17 1 ≠ 0) (hr : (x.references s.self).isEmpty = false)
    (hd : (x.references s.self).filter (fun r => s.faults.dead.contains r.2.1) = []) (n : Nat) : (opConfigCheck table).effect c n s =
      ((tagged s.askTag (x.references s.self)).foldl (fun s q => s.ask q.1 q.2.2.1 q.2.2.2.1 q.2.2.2.2 (c.f 20 4))
        { s with inn := { s.inn with checks := s.inn.checks ++
          [⟨c, (tagged s.askTag (x.references s.self)).map fun q => (q.1, q.2.2.1, q.2.1), [], s.now⟩] } },
        { Reply.done with later := true }) := by
  have hask : ¬ (c.f 17 1 = 0 ∨ (x.references s.self).isEmpty = true) := by
    rintro (h0 | he)
    · exact hf h0
    · exact ne_true_of_eq_false hr he
  unfold opConfigCheck
  dsimp only
  rw [hx]
  dsimp only
  rw [hi]
  dsimp only
  rw [if_neg hask, hd]
  rfl

end

/-- The row of staged commands serves a command that is staged. -/
theorem execStageCommand_eq {c : RelasCmd} {s : State} (h : c.stage = true) : execStageCommand c s = .next (s.serve c) := by
  unfold execStageCommand
  rw [if_pos h]

/-- Settles O11: a staged command joins its set (`staged_serve`); each staging command has the effect of its operation with the answer that
the engine adds (`served_done`, `served_read`, `served_reply`, `served_pending`, or none yet: `served_later`). -/
theorem configCommands : Obligations.ConfigCommands := by
  intro c s u
  refine ⟨fun n x h hx ht => ?_, fun hc => ⟨fun h => ?_, fun x hx => ⟨fun h => ?_, fun h i hi => ?_, fun h hi hl => ?_,
    fun h hi hf hr hd => ?_, fun h => ?_, fun h => ?_, fun h => ?_⟩⟩⟩
  · exact (execStageCommand_eq (staged_stage h)).trans (congrArg _ (staged_serve h hx ht))
  · exact congrArg _ (served_done h (served_config h hc (by decide) rfl) (by decide) rfl)
  · exact congrArg _ (served_done h (served_config h hc (by decide) rfl) (by decide) (opConfigDiscard_discards hx _))
  · exact congrArg _ (served_reply h (served_config h hc (by decide) rfl) (by decide) (opConfigCheck_fails hx hi _))
  · exact congrArg _ (served_done h (served_config h hc (by decide) rfl) (by decide) (opConfigCheck_passes hx hi hl _))
  · exact congrArg _ (served_later h (served_config h hc (by decide) rfl) (by decide) (opConfigCheck_asks hx hi hf hr hd _))
  · exact congrArg _ (served_pending h (served_config h hc (by decide) rfl) (by decide) (opConfigTurn_schedules hx _ _))
  · exact congrArg _ (served_done h (served_config h hc (by decide) rfl) (by decide) (opConfigCancel_vetoes hx _))
  · exact congrArg _ (served_read h (served_config h hc (by decide) rfl) (by decide) (opConfigQuery_answers hx _))

end Sys2Proof.Machine
end

section
/-! SUPPORT. Verification, turn, veto and fabric check of configuration sets (spec 03: R155–R160), and the messages of the MAILBOX channels
(spec 14: R572; spec 02: R114). -/

namespace Sys2Proof.Machine

/-! ### Verification and turn -/

/-- Nothing holds the turn back: the set is scheduled, its time has come, and no set turns before it (R160). -/
theorem turn_is_due {s : State} {x : ConfigSet} (hs : x.state = .scheduled) (ht : x.turnTime ≤ s.now)
    (hb : (s.before x.turnTime x.id).isEmpty = true) :
    ¬ (x.state ≠ .scheduled ∨ s.now < x.turnTime ∨ (!(s.before x.turnTime x.id).isEmpty) = true) := by
  rintro (h | h | h)
  · exact h hs
  · exact absurd ht (Nat.not_le.2 h)
  · rw [hb] at h
    cases h

section
variable {n : Nat} {s : State} {x : ConfigSet} (hx : s.set n = some x) (hs : x.state = .scheduled)
include hx hs

theorem turnVerify_due (table : Nat → Option RelasOp) (hv : x.verified = false) (ht : x.turnTime ≤ s.now + 800000) :
    State.turnVerify table n s = if (checkCmds table x.staged s).isNone then s.setSet { x with verified := true }
      else (s.sendVeto x).setSet { x with state := .failed, verified := false } := by
  have hdue : ¬ (x.state ≠ .scheduled ∨ x.verified = true ∨ s.now + 800000 < x.turnTime) := by
    rintro (h | h | h)
    · exact h hs
    · exact ne_true_of_eq_false hv h
    · exact absurd ht (Nat.not_le.2 h)
  unfold State.turnVerify
  rw [hx]
  dsimp only
  rw [if_neg hdue]

variable (ht : x.turnTime ≤ s.now) (hb : (s.before x.turnTime x.id).isEmpty = true)
include ht hb

theorem turn_vetoed (table : Nat → Option RelasOp) {v : Nat} (hv : x.vetoer = some v) : State.turn table n s =
    s.asOf x.turnTime fun s => (s.setSet { x with state := .vetoed }).endTicket x.ticket Result.conflict v 0 := by
  unfold State.turn
  rw [hx]
  dsimp only
  rw [if_neg (turn_is_due hs ht hb), hv]

theorem turn_takes_hold (table : Nat → Option RelasOp) (hv : x.vetoer = none) (hk : x.verified = true) : State.turn table n s =
    s.asOf x.turnTime fun s => ((State.replicateChanges s (State.resized s (applySet table x.staged s)).sweepDying).setSet
      { x with state := .turned, verified := false }).endTicket x.ticket Result.done 0 0 := by
  unfold State.turn
  rw [hx]
  dsimp only
  rw [if_neg (turn_is_due hs ht hb), hv]
  dsimp only
  rw [hk]
  rfl

end

/-! ### Veto and fabric check -/

/-- A veto in time marks the set of its tag with the first vetoer, and is acknowledged (R157, R158). -/
theorem execVeto_marks {s : State} {m : SxfMsg} {x : ConfigSet} (hp : s.portRefusal m = none) (hm : m.op = Sxf.veto) (hd : m.dest = s.self)
    (hx : (s.scheduled.find? fun x => bits m.unit0 102 71 ≠ 0 ∧ x.tag = bits m.unit0 102 71 ∧ s.now < x.turnTime) = some x) :
    execVeto m s =
      .next ((s.setSet { x with vetoer := some (x.vetoer.getD m.src) }).reply m Sxf.ctlAck Status.ok 0 0 false false []) := by
  unfold execVeto
  rw [State.arrival_eq (beq_iff_eq.2 hm), State.forSelf_eq hp hd]
  dsimp only
  rw [hx]

/-- A query without an answer for 1 ms counts as failed, for the first command that refers to its shore (R155). -/
theorem execFabricCheckTimeout_late {n : Nat} {s : State} {k : FabricCheck}
    (hk : (s.inn.checks.find? fun k => k.waiting.any fun w => w.1 = n) = some k) (hl : k.began + 8000000 ≤ s.now) :
    execFabricCheckTimeout n s = .next (s.fabricAnswer n (some (firstReference
      (((s.set (k.cmd.f 16 1)).map fun x => x.references s.self).getD [])
      (((k.waiting.find? fun w => w.1 = n).map (·.2.1)).getD 0)))) := by
  unfold execFabricCheckTimeout
  rw [hk]
  dsimp only
  rw [if_neg (Nat.not_lt.2 hl)]

/-! ### MAILBOX messages -/

section
variable {s : State} {m : SxfMsg} (hp : s.portRefusal m = none)
include hp

section
variable (hm : m.op = Sxf.mailbox) (hb : s.inn.booted = true)
include hm hb

/-- On a jetty the message brings the command of a control channel that waits for none (R124). -/
theorem execMailbox_jetty (hj : (s.bundle m.via).any (fun b => b.kind = .jetty) = true)
    (ho : (s.chanRec (.sxf m.via (bits m.unit0 11 8))).outstanding = []) : execMailbox m s =
      .next (s.setChan { s.chanRec (.sxf m.via (bits m.unit0 11 8)) with outstanding := [commandOf m], tag := m.tag }) := by
  unfold execMailbox
  rw [State.arrival_eq (beq_iff_eq.2 hm), hp]
  dsimp only
  rw [if_pos hj, hb, if_neg (by decide), ho]

/-- Between shores the message brings a command under the system credential. -/
theorem execMailbox_shore (hj : (s.bundle m.via).any (fun b => b.kind = .jetty) = false) (hd : m.dest = s.self) : execMailbox m s =
    .next (s.setChan { s.chanRec (.shore m.src) with
      bound := some (0, 0), outstanding := (s.chanRec (.shore m.src)).outstanding ++ [commandOf m], kept := [] }) := by
  unfold execMailbox
  rw [State.arrival_eq (beq_iff_eq.2 hm), hp]
  dsimp only
  rw [if_neg (ne_true_of_eq_false hj), if_neg (not_not_intro hd), hb, if_neg (by decide)]

end

variable (hm : m.op = Sxf.mailboxRsp) (hd : m.dest = s.self)
include hm hd

/-- Another shore's answer ends the pull request with the message's tag (R114). -/
theorem execMailboxRsp_pull (ht : m.tag < 2048) {p : PullRange}
    (hf : (s.store.pulls.find? fun p => p.index + 1 = m.tag ∧ !p.confirmed) = some p) : execMailboxRsp m s =
      .next (if m.f 6 2 = Result.done then
          ({ s with store := { s.store with
            pulls := mapIf (fun x => x.index = p.index) (fun x => { x with confirmed := true }) s.store.pulls } }).endTicket p.ticket
              Result.done 0 0
        else (s.dropPull p.index).endTicket p.ticket Result.conflict 16 0) := by
  unfold execMailboxRsp
  rw [State.arrival_eq (beq_iff_eq.2 hm), State.forSelf_eq hp hd]
  dsimp only
  rw [if_neg (Nat.not_le.2 ht), hf]
  simp only [decide_eq_true_eq]

/-- Another shore's answer to a query of a check (R155). -/
theorem execMailboxRsp_query (ht : 2048 ≤ m.tag) : execMailboxRsp m s =
    .next (s.fabricAnswer m.tag (if m.f 6 2 = Result.done then none
      else ((s.inn.checks.map (·.waiting)).flatten.find? fun w => w.1 = m.tag).map (·.2.2))) := by
  unfold execMailboxRsp
  rw [State.arrival_eq (beq_iff_eq.2 hm), State.forSelf_eq hp hd]
  dsimp only
  rw [if_pos ht]
  simp only [decide_eq_true_eq]

end

/-- Settles O12: each event and message does what its lemma says once its condition holds; a turn splits by whether the set was vetoed. -/
theorem setEvents : Obligations.SetEvents := by
  intro s
  refine ⟨fun n x hx hs hv ht => congrArg _ (turnVerify_due hx hs relasTable hv ht), fun n x hx hs ht hb => ⟨fun v hv => ?_, fun hv hk => ?_⟩,
    fun n k hk hl => execFabricCheckTimeout_late hk hl, fun m hp => ⟨fun hm hd x hx => execVeto_marks hp hm hd hx,
      fun hm hb hj ho => execMailbox_jetty hp hm hb hj ho, fun hm hb hj hd => execMailbox_shore hp hm hb hj hd,
      fun hm hd ht p hf => execMailboxRsp_pull hp hm hd ht hf, fun hm hd ht => execMailboxRsp_query hp hm hd ht⟩⟩
  · exact congrArg _ (turn_vetoed hx hs ht hb relasTable hv)
  · exact congrArg _ (turn_takes_hold hx hs ht hb relasTable hv hk)

end Sys2Proof.Machine
end

section
/-! SUPPORT. The firmware commands, the end of a live activation (spec 03: R161–R165), and a lockstep mismatch (spec 17: R649). -/

namespace Sys2Proof.Machine

/-! ### FW_ACTIVATE -/

/-- The slots after an FW_ACTIVATE: at the next reset it only marks its slot; a live one starts the image (R163, R164). -/
def Firmware.activate (f : Firmware) (c : RelasCmd) (now ticket : Nat) : Firmware :=
  if c.f 17 1 = 1 then { f with next := c.f 16 1 }
  else { f with activating := some (c.f 16 1), started := now, actTicket := ticket, refusing := true }

theorem opFwActivate_activates (c : RelasCmd) (t : Nat) (s : State) :
    opFwActivate.effect c t s = (s.setFw (s.inn.fw.activate c s.now t), .pending (.fwActivate (c.f 16 1))) := by
  unfold opFwActivate Firmware.activate
  dsimp only
  by_cases hk : c.f 17 1 = 1
  · rw [if_pos hk, if_pos hk]
  · rw [if_neg hk, if_neg hk]

/-! ### The end of an activation -/

/-- The image of slot `k` is the running one, and the one of the next reset; sessions with the one before are closed (R164, R165). -/
def State.imageTaken (s : State) (k : Nat) : State :=
  (s.setFw { s.inn.fw with running := k, next := k, activating := none, refusing := false }).closeAllTls

section
variable {s : State} {k : Nat} (hk : s.inn.fw.activating = some k)
include hk

theorem execFwSelfCheckPass_serves : execFwSelfCheckPass s =
    .next (({ s.imageTaken k with trust := { (s.imageTaken k).trust with
      svnRaised := if (s.inn.fw.slot k).commits then max (s.imageTaken k).trust.svnRaised (s.inn.fw.slot k).svn
        else (s.imageTaken k).trust.svnRaised
      spdm := [], liveActivations := u32 ((s.imageTaken k).trust.liveActivations + 1) } }.count 0x0C 0 5 1).endTicket
      s.inn.fw.actTicket Result.done 0 0) := by
  unfold execFwSelfCheckPass
  dsimp only
  rw [hk]
  rfl

/-- 500 ms without a pass give the old image back (R165). -/
theorem execFwSelfCheckTimeout_late (hl : ¬ s.now < s.inn.fw.started + 4000000000) : execFwSelfCheckTimeout s =
    .next (((s.setFw { s.inn.fw with activating := none, refusing := false }).closeAllTls).endTicket s.inn.fw.actTicket Result.internal 1 0) := by
  unfold execFwSelfCheckTimeout
  dsimp only
  rw [hk]
  dsimp only
  rw [if_neg hl]

end

/-! ### Lockstep pairs -/

/-- A lockstep mismatch after which the pair starts again: counted, reported, and every session closed (R649). -/
def State.pairRestarted (s : State) (pair : Nat) : State :=
  (({ s with trust := { s.trust with pairRestarts := u32 (s.trust.pairRestarts + 1) } }).report
    ⟨evFault, sevRecovered, 0x7, pair, 2, 0, 0, 0, 0⟩).closeAllTls

theorem execLockstepMismatch_restarts {s : State} {pair : Nat} (hp : pair ≤ 1) (hb : s.inn.booted = true) :
    execLockstepMismatch pair true s = .next ((s.pairRestarted pair).setFw { (s.pairRestarted pair).inn.fw with
      refusing := (s.pairRestarted pair).inn.fw.activating.isSome }) := by
  have hserves : ¬ (pair > 1 ∨ (!s.inn.booted) = true) := by
    rw [hb]
    rintro (h | h)
    · exact absurd hp (Nat.not_le.2 h)
    · cases h
  unfold execLockstepMismatch
  rw [if_neg hserves]
  rfl

/-- Settles O13: each command has the effect of its operation with the answer that the engine adds (`served_done`, `served_read`,
`served_pending`); each event does what its lemma says. -/
theorem firmwareCommands : Obligations.FirmwareCommands := by
  intro c s u f
  refine ⟨fun h => ?_, fun h => ?_, fun h => ?_, fun h => ?_, fun k hk => execFwSelfCheckPass_serves hk,
    fun k hk hl => execFwSelfCheckTimeout_late hk hl, fun pair hp hb => execLockstepMismatch_restarts hp hb⟩
  · exact congrArg _ (served_done h (served_plain h (by decide) rfl) (by decide) rfl)
  · exact congrArg _ (served_pending h (served_plain h (by decide) rfl) (by decide) rfl)
  · exact congrArg _ (served_pending h (served_plain h (by decide) rfl) (by decide) (opFwActivate_activates _ _ _))
  · exact congrArg _ (served_read h (served_plain h (by decide) rfl) (by decide) rfl)

end Sys2Proof.Machine
end

section
/-! SUPPORT. Fences, responses, invalidations of pulled copies and span states as they arrive (spec 02: R117, R118; spec 04: R176, R185, R189,
R190; spec 14: R569, R577–R579). -/

namespace Sys2Proof.Machine

/-! ### Fences at their ingress shore (R185) -/

theorem exec_fence (m : SxfMsg) (s : State) :
    ∀ x ∈ [(Sxf.fenceRw, Instr.fenceRw m), (Sxf.fenceWw, .fenceWw m), (Sxf.fenceRr, .fenceRr m)],
      exec x.2 s = s.arrival (m.op == x.1) fun s => s.fenceRequest m := by
  simp only [List.forall_mem_cons, List.not_mem_nil, false_implies, implies_true, and_true]
  exact ⟨rfl, rfl, rfl⟩

section
variable {s : State} {m : SxfMsg}

section
variable {b : Bundle} (hb : s.bundle m.via = some b)
include hb

theorem fenceRequest_causeway (hk : b.kind = .causeway) : s.fenceRequest m = s.refuse m Status.refusedFormat Cause.format := by
  unfold State.fenceRequest
  rw [hb]
  exact if_neg (by rw [hk]; decide)

theorem fenceRequest_jetty (hk : b.kind = .jetty) : s.fenceRequest m = s.plainRequest m := by
  unfold State.fenceRequest
  rw [hb]
  exact if_pos hk

theorem plainRequest_jetty (hk : b.kind = .jetty) (hp : s.portRefusal m = none) :
    s.plainRequest m = s.fromJetty (m.retag s.self m.tag) := by
  unfold State.plainRequest
  rw [hp]
  dsimp only
  rw [hb]
  dsimp only
  rw [hk]

end

theorem plainRequest_refused {st ca : Nat} (hp : s.portRefusal m = some (st, ca)) : s.plainRequest m = s.refuse m st ca := by
  unfold State.plainRequest
  rw [hp]

theorem fromJetty_free (hh : s.heldBy m.via m.agent = []) (hb : s.blocked m = false) : s.fromJetty m = s.takeRequest m := by
  unfold State.fromJetty
  exact if_pos (by rw [hh, hb]; rfl)

theorem fromJetty_blocked (hb : s.blocked m = true) :
    s.fromJetty m = s.setHeld m.via m.agent (s.heldBy m.via m.agent ++ [m]) := by
  unfold State.fromJetty
  exact if_neg (by simp [hb])

theorem takeRequest_fence (hf : m.isFence = true) (ho : m.op ≠ Sxf.homeFence) : s.takeRequest m = s.takeFence m := by
  unfold State.takeRequest
  rw [if_neg ho, if_pos hf]

/-! ### Fences at a home (R190) -/

section
variable (hm : m.op = Sxf.homeFence) (hp : s.portRefusal m = none) (hd : m.dest = s.self)
include hm hp hd

theorem execHomeFence_free (hh : s.heldBy m.via m.agent = []) (hb : s.blocked m = false) : execHomeFence m s = .next s := by
  unfold execHomeFence
  rw [State.arrival_eq (beq_iff_eq.2 hm), State.forSelf_eq hp hd, if_pos (by rw [hh, hb]; exact ⟨rfl, rfl⟩)]

theorem execHomeFence_blocked (hb : s.blocked m = true) :
    execHomeFence m s = .next (s.setHeld m.via m.agent (s.heldBy m.via m.agent ++ [m])) := by
  unfold execHomeFence
  rw [State.arrival_eq (beq_iff_eq.2 hm), State.forSelf_eq hp hd, if_neg (by simp [hb])]

end

/-! ### Responses (R176, R569, R577, R579) -/

theorem exec_response (m : SxfMsg) (s : State) :
    ∀ x ∈ [(Sxf.data, Instr.data m), (Sxf.done, .done m), (Sxf.performed, .performed m), (Sxf.atomicOld, .atomicOld m),
        (Sxf.ctlAck, .ctlAck m), (Sxf.rowData, .rowData m), (Sxf.searchResult, .searchResult m)],
      exec x.2 s = s.response m x.1 := by
  simp only [List.forall_mem_cons, List.not_mem_nil, false_implies, implies_true, and_true]
  exact ⟨rfl, rfl, rfl, rfl, rfl, rfl, rfl⟩

theorem response_malformed {op : Nat} (hm : m.op = op) (hw : wellFramed m = false) :
    s.response m op = .next { s with fabric := { s.fabric with discarded := s.fabric.discarded + 1 } } := by
  unfold State.response
  rw [State.arrival_eq (beq_iff_eq.2 hm), if_pos (by rw [hw]; rfl)]

theorem response_wellFramed {op : Nat} (hm : m.op = op) (hw : wellFramed m = true) : s.response m op = .next (s.takeResponse m) := by
  unfold State.response
  rw [State.arrival_eq (beq_iff_eq.2 hm), if_neg (by rw [hw]; decide)]

theorem takeResponse_onward (hd : m.dest ≠ s.self) : s.takeResponse m = s.send m := by
  unfold State.takeResponse
  exact if_pos hd

section
variable (hd : m.dest = s.self)
include hd

theorem takeResponse_unmatched (ht : s.transaction m.tag = none) :
    s.takeResponse m = { s with fabric := { s.fabric with discarded := s.fabric.discarded + 1 } } := by
  unfold State.takeResponse
  rw [if_neg (not_not_intro hd), ht]

variable {o : Outstanding} (ht : s.transaction m.tag = some o)
include ht

/-- The transaction is an endpoint's: the answer goes back to it. -/
theorem takeResponse_agent (ho : o.bundle ≠ noBundle) : s.takeResponse m = (s.dropTransaction m.tag).agentResponse o m := by
  unfold State.takeResponse
  rw [if_neg (not_not_intro hd), ht]
  exact if_pos ho

theorem takeResponse_desc (ho : o.bundle = noBundle) {i : Nat} (hi : o.desc = some i) :
    s.takeResponse m = (s.dropTransaction m.tag).descResponse o i m := by
  unfold State.takeResponse
  rw [if_neg (not_not_intro hd), ht]
  dsimp only
  rw [if_neg (not_not_intro ho), hi]

theorem takeResponse_own (ho : o.bundle = noBundle) (hi : o.desc = none) :
    s.takeResponse m = (s.dropTransaction m.tag).ownResponse o m := by
  unfold State.takeResponse
  rw [if_neg (not_not_intro hd), ht]
  dsimp only
  rw [if_neg (not_not_intro ho), hi]

end

/-! ### Invalidations and span states (R117, R118, R578) -/

section
variable (hp : s.portRefusal m = none)
include hp

theorem execInvalidate_acknowledges (hm : m.op = Sxf.invalidate) (hd : m.dest = s.self) : execInvalidate m s = .next
    ((s.invalidatePulls (m.f 0 8 % 2 ^ 57) (m.f 8 4 * mib2)).reply m Sxf.invalidateAck Status.ok 0 (m.f 0 8 % 2 ^ 57) false false []) := by
  unfold execInvalidate
  rw [State.arrival_eq (beq_iff_eq.2 hm), State.forSelf_eq hp hd]

theorem execInvalidateAck_eq (hm : m.op = Sxf.invalidateAck) (hd : m.dest = s.self) : execInvalidateAck m s = .next (s.invalAcked m) := by
  unfold execInvalidateAck
  rw [State.arrival_eq (beq_iff_eq.2 hm), State.forSelf_eq hp hd]

theorem execSpanState_eq (hm : m.op = Sxf.spanState) : execSpanState m s = .next (s.takeSpan m) := by
  unfold execSpanState
  rw [State.arrival_eq (beq_iff_eq.2 hm), State.ported_eq hp]

end

end

/-- Settles O27: a fence goes by the kind of its bundle and by what blocks it, a response by its form, its destination and its
transaction; the other messages do what their lemmas say. -/
theorem fencesAndResponses : Obligations.FencesAndResponses := by
  intro m s
  refine ⟨fun x hx hm b hb => ?_, fun hf ho hh hb => ?_, fromJetty_blocked, fun hm hp hd => ?_, fun x hx hm => ?_, fun hp hd => ?_,
    fun hm hp => execSpanState_eq hp hm⟩
  · have arrives : exec x.2 s = .next (s.fenceRequest m) := (exec_fence m s x hx).trans (State.arrival_eq (beq_iff_eq.2 hm))
    refine ⟨fun hk => ?_, fun hk hp => ?_, fun hk st ca hp => ?_⟩
    · rw [arrives, fenceRequest_causeway hb hk]
    · rw [arrives, fenceRequest_jetty hb hk, plainRequest_jetty hb hk hp]
    · rw [arrives, fenceRequest_jetty hb hk, plainRequest_refused hp]
  · rw [fromJetty_free hh hb, takeRequest_fence hf ho]
  · exact ⟨execHomeFence_free hm hp hd, execHomeFence_blocked hm hp hd⟩
  · have arrives := exec_response m s x hx
    refine ⟨fun hw => arrives.trans (response_malformed hm hw), fun hw hd => ?_, fun hw hd ht => ?_, fun hw hd o ht => ?_⟩
    · rw [arrives, response_wellFramed hm hw, takeResponse_onward hd]
    · rw [arrives, response_wellFramed hm hw, takeResponse_unmatched hd ht]
    · rw [arrives, response_wellFramed hm hw]
      exact ⟨fun ho => congrArg _ (takeResponse_agent hd ht ho), fun ho i hi => congrArg _ (takeResponse_desc hd ht ho hi),
        fun ho hi => congrArg _ (takeResponse_own hd ht ho hi)⟩
  · exact ⟨fun hm => execInvalidate_acknowledges hp hm hd, fun hm => execInvalidateAck_eq hp hm hd⟩

end Sys2Proof.Machine
end

section
/-! SUPPORT. TAKEOVER messages, dead shores, self-fencing, protection changes and rebuilds (spec 05: R216; spec 17: R658–R666). -/

namespace Sys2Proof.Machine

/-! ### TAKEOVER messages (Table 17-5) -/

/-- This shore has learnt what a CAPACITY message tells of its sender (R658). -/
def State.capacityTold (s : State) (m : SxfMsg) : State :=
  { s with faults := { s.faults with
    capacities := (s.faults.capacities.filter fun x => x.1 ≠ m.src) ++ [(m.src, SxfMsg.toPayload m)] } }

/-- The message is acknowledged with CTL_ACK. -/
def State.ctlAcked (s : State) (m : SxfMsg) : State := s.reply m Sxf.ctlAck Status.ok 0 0 false false []

theorem exec_learnDead (m : SxfMsg) (s : State) :
    ∀ x ∈ [(0, Instr.takeoverDeclare m), (1, .takeoverSelf m)], exec x.2 s = s.takeoverKind m x.1 fun s => s.learnDead m := by
  simp only [List.forall_mem_cons, List.not_mem_nil, false_implies, implies_true, and_true]
  exact ⟨rfl, rfl⟩

section
variable {s : State} {m : SxfMsg}

theorem learnDead_self (h : SxfMsg.toSubject m = s.self) : s.learnDead m = s.selfFence := by
  unfold State.learnDead
  exact if_pos h

section
variable (h : SxfMsg.toSubject m ≠ s.self)
include h

theorem learnDead_known (hd : s.faults.dead.contains (SxfMsg.toSubject m) = true) : s.learnDead m = s := by
  unfold State.learnDead
  exact (if_neg h).trans (if_pos hd)

theorem learnDead_new (hd : s.faults.dead.contains (SxfMsg.toSubject m) = false) :
    s.learnDead m = (s.markDead (SxfMsg.toSubject m)).flood (SxfMsg.toSubject m) (SxfMsg.toPayload m) := by
  unfold State.learnDead
  exact (if_neg h).trans (if_neg (ne_true_of_eq_false hd))

end

variable (hm : m.op = Sxf.takeover) (hp : s.portRefusal m = none) (hd : m.dest = s.self)
include hm hp hd

/-- A TAKEOVER message for this shore has the effect of its kind and is acknowledged. -/
theorem takeoverKind_acknowledges {kind : Nat} (hk : SxfMsg.toKind m = kind) (f : State → State) :
    s.takeoverKind m kind f = .next ((f s).ctlAcked m) := by
  unfold State.takeoverKind
  rw [State.arrival_eq (by rw [hm, hk, beq_self_eq_true, beq_self_eq_true]; rfl), State.forSelf_eq hp hd]
  rfl

/-- CAPACITY of the set's lowest ordinal: it is reported if this shore now takes no part and took part before, or has another capacity (R658);
the unit number of the report is the model's free value (log entry 68). -/
theorem execTakeoverCapacity_eq (hk : SxfMsg.toKind m = 3) : execTakeoverCapacity m s = .next
    ((if (s.fabric.members s.self).head? = some m.src ∧ (!(s.capacityTold m).takesPart) = true ∧
        (s.takesPart = true ∨ s.store.capacity ≠ SxfMsg.toPayload m) then
      (s.capacityTold m).drew.report ⟨evFault, sevUncorrected, 0x2, (s.capacityTold m).nextFree % 65536, 0, 0, 0, 0, 0⟩
    else s.capacityTold m).ctlAcked m) :=
  takeoverKind_acknowledges hm hp hd hk _

/-- MARK: the protected bit of the data position that the message names is set or cleared (R661). -/
theorem execTakeoverMark_eq (hk : SxfMsg.toKind m = 4) : execTakeoverMark m s = .next
    (({ s with faults := { s.faults with
      parityBits :=
        let st := s.fabric.stripe m.src (SxfMsg.toPayload m % 2 ^ 40)
        let key := ((s.ownParity st).1, st.pos)
        if bit (SxfMsg.toPayload m) 64 = true then setAdd key s.faults.parityBits
        else s.faults.parityBits.filter (· ≠ key) } } : State).ctlAcked m) :=
  takeoverKind_acknowledges hm hp hd hk _

/-- STATE: the replica of the cove is gone at field 7, and changed, from nothing if there was none, at any other (R662). -/
theorem execTakeoverState_eq (hk : SxfMsg.toKind m = 5) : execTakeoverState m s = .next
    (({ s with faults := { s.faults with
      replicas :=
        let rest := s.faults.replicas.filter fun r => !(r.shore == SxfMsg.toSubject m && r.cove == SxfMsg.toWord m)
        if SxfMsg.toField m = 7 then rest
        else rest ++ [((s.faults.replicas.find? fun r => r.shore = SxfMsg.toSubject m ∧ r.cove = SxfMsg.toWord m).getD
          ⟨SxfMsg.toSubject m, SxfMsg.toWord m, 0, 0, 0, [], 0, 0, []⟩).change (SxfMsg.toField m) (SxfMsg.toPayload m)] } } : State).ctlAcked m) :=
  takeoverKind_acknowledges hm hp hd hk _

end

/-! ### Shores that are silent, and this shore cut off (R663, R664) -/

section
variable {s : State}

theorem execSpanDeadDetect_due {n : Nat} (h : ∃ x ∈ s.faults.neighbourDown, x.1 = n ∧ x.2 + 64000 ≤ s.now) :
    execSpanDeadDetect n s = .next ((s.markDead n).flood n s.now) := by
  unfold execSpanDeadDetect
  rw [if_pos (any_iff_exists.2 h)]

theorem execSpanDeadDetect_early {n : Nat} (h : ∀ x ∈ s.faults.neighbourDown, x.1 = n → s.now < x.2 + 64000) :
    execSpanDeadDetect n s = .next s := by
  unfold execSpanDeadDetect
  rw [if_neg (not_any_of_forall_not fun x hx ⟨hn, hdue⟩ => Nat.not_le.2 (h x hx hn) hdue)]

theorem execSelfFence_connected (h : s.faults.causewaysDown = none) : execSelfFence s = .next s := by
  unfold execSelfFence
  rw [h]

section
variable {t : Nat} (h : s.faults.causewaysDown = some t)
include h

theorem execSelfFence_early (ht : s.now < t + 32000) : execSelfFence s = .next s := by
  unfold execSelfFence
  rw [h]
  exact congrArg _ (if_neg (Nat.not_le.2 ht))

theorem execSelfFence_due (ht : t + 32000 ≤ s.now) : execSelfFence s = .next s.selfFence := by
  unfold execSelfFence
  rw [h]
  exact congrArg _ (if_pos ht)

end

/-! ### Protection changes and rebuilds (R661, R666) -/

theorem execProtectionUpdate_settled {g : Nat} (h : s.covered g = s.faults.guarded.contains g) : execProtectionUpdate g s = .next s := by
  unfold execProtectionUpdate
  exact congrArg _ (if_pos h)

/-- A granule that changes sends its content and its MARK, and joins or leaves the guarded ones. -/
theorem execProtectionUpdate_changed {g : Nat} {is : Bool} (hg : s.faults.guarded.contains g = is) (h : s.covered g ≠ is) :
    execProtectionUpdate g s = .next
      (let sent := (s.contentDelta g).sendMark g (!is)
      { sent with faults := { sent.faults with
        guarded := if is = true then sent.faults.guarded.filter (· ≠ g) else sent.faults.guarded ++ [g] } }) := by
  unfold execProtectionUpdate
  rw [hg]
  exact congrArg _ (if_neg h)

section
variable {a : Nat}

theorem execProtectionRebuild_alive (h : s.faults.dead.contains (gpaShore a) = false) : execProtectionRebuild a s = .next s := by
  unfold execProtectionRebuild
  exact congrArg _ (if_pos (by rw [h]; rfl))

variable (h : s.faults.dead.contains (gpaShore a) = true)
include h

theorem execProtectionRebuild_begins (hu : (s.unbuilt (gpaShore a)).contains (a / granuleSize * granuleSize) = true)
    (hr : (s.faults.rebuilds.any fun r => r.gpa = a / granuleSize * granuleSize) = false) :
    execProtectionRebuild a s = .next (s.beginRebuild (a / granuleSize * granuleSize) []) := by
  unfold execProtectionRebuild
  dsimp only
  rw [if_neg (by rw [h]; decide), if_pos hu, if_neg (ne_true_of_eq_false hr)]

/-- Nothing of the dead shore is left to rebuild: every other live shore is told. -/
theorem execProtectionRebuild_announces (hu : s.unbuilt (gpaShore a) = [])
    (hr : s.faults.rebuilt.contains (gpaShore a, s.self) = false) : execProtectionRebuild a s = .next
      (((List.range 512).filter fun x => s.fabric.hasShore x && decide (x ≠ s.self) && !s.faults.dead.contains x).foldl
        (fun s x => (s.takeover x 2 (gpaShore a) 0 0 0).1)
        { s with faults := { s.faults with rebuilt := s.faults.rebuilt ++ [(gpaShore a, s.self)] } }) := by
  unfold execProtectionRebuild
  dsimp only
  rw [if_neg (by rw [h]; decide), if_neg (by rw [hu]; exact Bool.false_ne_true), if_pos (by rw [hu, hr]; exact ⟨rfl, rfl⟩)]

end

end

/-- Settles O29: a message has the effect of its kind and its acknowledgement (`takeoverKind_acknowledges`); each event does what its lemma
says by its time or by what the shore knows. -/
theorem deathAndTakeover : Obligations.DeathAndTakeover := by
  intro s
  refine ⟨fun m hm hp hd => ?_, fun n => ⟨execSpanDeadDetect_due, execSpanDeadDetect_early⟩,
    fun t ht => ⟨execSelfFence_early ht, execSelfFence_due ht⟩, execSelfFence_connected, fun _ _ => rfl, fun g => ?_,
    fun a => ⟨execProtectionRebuild_alive, execProtectionRebuild_begins, execProtectionRebuild_announces⟩⟩
  · have acknowledged {kind : Nat} (hk : SxfMsg.toKind m = kind) (f : State → State) := takeoverKind_acknowledges hm hp hd hk f
    refine ⟨fun x hx hk => ?_, fun hk => acknowledged hk _, fun hk => ?_,
      fun hk => ?_, fun hk => ?_, fun hk => acknowledged hk _⟩
    · have learns := (exec_learnDead m s x hx).trans (acknowledged hk _)
      refine ⟨fun h => ?_, fun h hk => ?_, fun h hn => ?_⟩
      · exact learns.trans (by rw [learnDead_self h]; rfl)
      · exact learns.trans (by rw [learnDead_known h hk]; rfl)
      · exact learns.trans (by rw [learnDead_new h hn]; rfl)
    · have told := execTakeoverCapacity_eq hm hp hd hk
      refine ⟨fun hs => ?_, fun ht hc => ?_, fun hs ht hc => ?_⟩
      · exact told.trans (by rw [if_neg fun h => hs h.1]; rfl)
      · exact told.trans (by rw [if_neg (by simp [ht, hc])]; rfl)
      · exact told.trans (by rw [if_pos ⟨hs, congrArg not ht, .inr hc⟩]; rfl)
    · have marked := execTakeoverMark_eq hm hp hd hk
      exact ⟨fun hb => marked.trans (by rw [if_pos hb]; rfl), fun hb => marked.trans (by rw [if_neg (ne_true_of_eq_false hb)]; rfl)⟩
    · have changed := execTakeoverState_eq hm hp hd hk
      refine ⟨fun hf => changed.trans ?_, fun hf => ⟨fun r hr => changed.trans ?_, fun hr => changed.trans ?_⟩⟩
      · rw [if_pos hf]
        rfl
      · rw [if_neg hf, hr]
        rfl
      · rw [if_neg hf, hr]
        rfl
  · refine ⟨execProtectionUpdate_settled, fun hc hg => ?_, fun hc hg => ?_⟩
    · rw [hg]
      exact execProtectionUpdate_changed hg (by rw [hc]; decide)
    · rw [hg]
      exact execProtectionUpdate_changed hg (by rw [hc]; decide)

end Sys2Proof.Machine
end

section
/-! SUPPORT. Link events, fences, FLR, extents, decoders, address translation, margining and MSI-X rows of a host port (spec 04: R202; spec 15:
R589–R603, R610–R613; spec 17: R648). -/

namespace Sys2Proof.Machine

/-! ### A port that is absent, or whose link is down -/

section
variable {p : Nat} {s : State} (h : s.port p = none)
include h

theorem execHostPortFence_absent (ide : Bool) : execHostPortFence p ide s = .next s := by
  unfold execHostPortFence
  exact congrArg _ (if_pos (by rw [h]; rfl))

theorem execHostLinkUp_absent (w : Nat) (bi ats pri d3 : Bool) : execHostLinkUp p w bi ats pri d3 s = .next s := by
  unfold execHostLinkUp
  exact if_neg (by simp [h])

theorem execFlr_absent : execFlr p s = .next s := by
  unfold execFlr
  exact if_neg (by simp [h])

theorem execHdmDecoderCommit_absent (i b n a : Nat) (bi : Bool) : execHdmDecoderCommit p i b n a bi s = .next s := by
  unfold execHdmDecoderCommit
  exact congrArg _ (if_pos (by rw [h]; rfl))

theorem execAtsInvalidation_absent (t g v n : Nat) : execAtsInvalidation p t g v n s = .next s := by
  unfold execAtsInvalidation
  rw [h]

theorem execMsixUnmask_absent (v : Nat) : execMsixUnmask p v s = .next s := by
  unfold execMsixUnmask
  rw [h]

end

section
variable {p : Nat} {s : State} (h : (s.port p).any (·.up) = false)
include h

theorem linkLost_down : s.linkLost p = s := by
  unfold State.linkLost
  exact if_neg (ne_true_of_eq_false h)

theorem execMarginingCommand_down (i : Nat) : execMarginingCommand p i s = .next s := by
  unfold execMarginingCommand
  exact congrArg _ (if_neg (ne_true_of_eq_false h))

theorem execHostLinkWidthDrop_down (w : Nat) : execHostLinkWidthDrop p w s = .next s := by
  unfold execHostLinkWidthDrop
  refine if_neg ?_
  cases hp : s.port p with
  | none => simp
  | some x =>
    rw [hp] at h
    have hup : x.up = false := h
    simp [hup]

end

/-! ### Fences and link events (R589, R593, R610, R648) -/

section
variable {p : Nat} {s : State} {x : HostPort} (h : s.port p = some x)
include h

theorem execHostPortFence_ide : execHostPortFence p true s = .next ((s.count 7 p 2 1).fencePort p 2) := by
  unfold execHostPortFence
  rw [if_neg (by simp [h]), if_pos rfl]

/-- A link error is reported, and fences the port when fifteen of the last second stand before it (R648). -/
theorem execHostPortFence_linkError : execHostPortFence p false s = .next
    (let recent := x.fenceErrors.filter fun t => decide (s.now < t + 8000000000)
    let u := (s.setPort p fun x => { x with fenceErrors := recent ++ [s.now] }).report (portReport evFault sevUncorrected p 1 3)
    if recent.length ≥ 15 then u.fencePort p 3 else u) := by
  unfold execHostPortFence
  rw [if_neg (by simp [h]), if_neg Bool.false_ne_true, h, Option.map_some, Option.getD_some]

/-- What the host's configuration selects comes with the link (log entry 21). -/
theorem execHostLinkUp_trained {w : Nat} (hr : x.perst = false) (hw : w = 16 ∨ w = 8 ∨ w = 4) (bi ats pri d3 : Bool) :
    execHostLinkUp p w bi ats pri d3 s = .next
      (((if bi then s else s.loseHolder p).setPort p fun y => { y with
        up := true, width := w, active := w, fenced := false, biEnabled := bi, atsEnabled := ats, priEnabled := pri, d3hot := d3 }).offerHeld p) := by
  unfold execHostLinkUp
  exact if_pos ⟨hw, by simp [h, hr]⟩

theorem execHostLinkUp_inReset (hr : x.perst = true) (w : Nat) (bi ats pri d3 : Bool) : execHostLinkUp p w bi ats pri d3 s = .next s := by
  unfold execHostLinkUp
  exact if_neg (by simp [h, hr])

/-- The requests and lines of the port are lost with its link (R202, R593). -/
theorem linkOff_up (hu : x.up = true) :
    s.linkOff p = ((s.setPort p fun y => { y with up := false, active := 0 }).dropHost p).loseHolder p := by
  unfold State.linkOff
  exact if_pos (by rw [h]; exact hu)

theorem linkLost_up (hu : x.up = true) : s.linkLost p =
    ((((s.setPort p fun y => { y with up := false, active := 0 }).dropHost p).loseHolder p).singleFault 0x6).report
      (portReport evCapacityReduced sevFailed p 9 0) := by
  unfold State.linkLost
  rw [if_pos (by rw [h]; exact hu), linkOff_up h hu]

theorem execHostLinkWidthDrop_narrower {w : Nat} (hu : x.up = true) (hw : 0 < w) (ha : w < x.active) : execHostLinkWidthDrop p w s = .next
    (((s.setPort p fun y => { y with active := w }).singleFault 0x6).report (portReport evCapacityReduced sevRecovered p 9 w)) := by
  unfold execHostLinkWidthDrop
  exact if_pos (by simp [h, hu, hw, ha])

theorem execFlr_present : execFlr p s = .next (s.flr p) := by
  unfold execFlr
  exact if_pos (by rw [h]; rfl)

theorem execMarginingCommand_up (hu : x.up = true) (i : Nat) : execMarginingCommand p i s = .next (s.emit (.margin p (s.marginValue p i))) := by
  unfold execMarginingCommand
  exact congrArg _ (if_pos (by rw [h]; exact hu))

/-! ### Decoders, invalidations and MSI-X rows (R603, R605, R612, R613) -/

theorem execHdmDecoderCommit_bad {i b n a : Nat} {bi : Bool} (hd : decoderBad ⟨i, b, n, a, bi⟩ = true) :
    execHdmDecoderCommit p i b n a bi s = .next (s.setPort p fun y => { y with
      badDecoders := setAdd i y.badDecoders, decoders := y.decoders.filter fun z => z.index ≠ i }) := by
  unfold execHdmDecoderCommit
  exact congrArg _ ((if_neg (by simp [h])).trans (if_pos hd))

theorem execHdmDecoderCommit_good {i b n a : Nat} {bi : Bool} (hd : decoderBad ⟨i, b, n, a, bi⟩ = false) :
    execHdmDecoderCommit p i b n a bi s = .next ((s.setPort p fun y => { y with
      badDecoders := y.badDecoders.filter (· ≠ i),
      decoders := (y.decoders.filter fun z => z.index ≠ i) ++ [⟨i, b, n, a, bi⟩] }).offerHeld p) := by
  unfold execHdmDecoderCommit
  exact congrArg _ ((if_neg (by simp [h])).trans (if_neg (ne_true_of_eq_false hd)))

theorem execAtsInvalidation_full (hl : 32 ≤ x.invalidations.length) (t g v n : Nat) : execAtsInvalidation p t g v n s = .next s := by
  unfold execAtsInvalidation
  rw [h]
  exact congrArg _ (if_pos hl)

/-- An invalidation waits for the descriptors and held walks of its guest that use a translation in its range. -/
theorem execAtsInvalidation_held (hl : x.invalidations.length < 32) (t g v n : Nat) : execAtsInvalidation p t g v n s = .next
    ((s.setPort p fun y => { y with invalidations := y.invalidations ++
      [⟨t, (s.queues.descs.filter fun d => decide (d.guest = g ∧ d.ats.any (fun e => overlaps e.gva e.len v n) = true)).map (·.id),
        (s.queues.pageReqs.filter fun r => decide (r.guest = g ∧ r.ats.any (fun e => overlaps e.gva e.len v n) = true)).map (·.queue)⟩]
      }).mapInvalidations id) := by
  unfold execAtsInvalidation
  rw [h]
  exact congrArg _ (if_neg (Nat.not_le.2 hl))

theorem execMsixUnmask_beyond {v : Nat} (hv : 2048 ≤ v) : execMsixUnmask p v s = .next s := by
  unfold execMsixUnmask
  rw [h]
  exact congrArg _ (if_pos hv)

/-- The row is unmasked, and the message that waited for it goes out (R613). -/
theorem execMsixUnmask_row {v : Nat} (hv : v < 2048) : execMsixUnmask p v s = .next
    (let u := s.setPort p fun y => { y with unmasked := setAdd v y.unmasked, msixPending := y.msixPending.filter (· ≠ v) }
    if x.msixPending.contains v = true then u.msix p v else u) := by
  unfold execMsixUnmask
  rw [h]
  exact congrArg _ (if_neg (Nat.not_le.2 hv))

end

/-! ### Extents (R596, R597, R600) -/

section
variable {p : Nat} {s : State}

theorem execExtentOffer_absent {k : Nat} (hk : s.cove k = none) (g : Nat) : execExtentOffer p k g s = .next s := by
  unfold execExtentOffer
  rw [hk]

theorem execExtentOffer_due {k g : Nat} {c : Cove} (hk : s.cove k = some c) (hw : (s.extentsWanted p).contains (k, g) = true)
    (hn : s.dataExtents p < 4096) : execExtentOffer p k g s = .next
      (s.offerExtent p (regionOf c.coherence) c.size k g none 0 (c.grant g).code) := by
  unfold execExtentOffer
  rw [hk]
  exact if_pos ⟨hw, hn⟩

theorem execExtentOffer_undue {k g : Nat} {c : Cove} (hk : s.cove k = some c)
    (hw : (s.extentsWanted p).contains (k, g) = false ∨ 4096 ≤ s.dataExtents p) : execExtentOffer p k g s = .next s := by
  unfold execExtentOffer
  rw [hk]
  exact if_neg fun ⟨hwant, hroom⟩ => hw.elim (fun hf => ne_true_of_eq_false hf hwant) (Nat.not_le.2 hroom)

theorem execExtentForcedRelease_absent {e : Nat} (h : ∀ x ∈ s.host.extents, ¬ (x.port = p ∧ x.id = e)) :
    execExtentForcedRelease p e s = .next s := by
  unfold execExtentForcedRelease
  rw [List.find?_eq_none.2 fun x hx hd => h x hx (of_decide_eq_true hd)]

section
variable {e since : Nat} {f : Bool} {x : HostExtent} (h : (s.host.extents.find? fun x => x.port = p ∧ x.id = e) = some x)
  (hx : x.st = .releasing since f)
include h hx

theorem execExtentForcedRelease_due (ht : since + 8000000000 ≤ s.now) :
    execExtentForcedRelease p e s = .next (((s.removeExtent x).count 7 p 4 1).extentEvent x 2) := by
  unfold execExtentForcedRelease
  rw [h]
  dsimp only
  rw [hx]
  exact congrArg _ (if_pos ht)

theorem execExtentForcedRelease_early (ht : s.now < since + 8000000000) : execExtentForcedRelease p e s = .next s := by
  unfold execExtentForcedRelease
  rw [h]
  dsimp only
  rw [hx]
  exact congrArg _ (if_neg (Nat.not_le.2 ht))

end

/-! ### Answers to translation and page requests (R611) -/

section
variable {t : Nat} (h : s.pageReq t .ats = none)
include h

theorem execAtsCompletion_unasked (a n : Nat) (r w : Bool) : execAtsCompletion p t a n r w s = .next s := by
  unfold execAtsCompletion
  rw [h]

theorem execAtsCompletionTimeout_unasked : execAtsCompletionTimeout t s = .next s := by
  unfold execAtsCompletionTimeout
  rw [h]

end

section
variable {t : Nat} {q : PageRequest} (h : s.pageReq t .ats = some q)
include h

theorem execAtsCompletion_resumes (hq : q.port = p) {n : Nat} (hn : n ≠ 0) (a : Nat) (r w : Bool) : execAtsCompletion p t a n r w s =
    .next (State.resume descTable s q q.asked (q.ats ++ [⟨q.gva / n * n, a, n, r, w⟩])) := by
  unfold execAtsCompletion
  rw [h]
  exact congrArg _ (if_neg fun hc => hc.elim (· hq) hn)

theorem execAtsCompletion_foreign (hq : q.port ≠ p) (a n : Nat) (r w : Bool) : execAtsCompletion p t a n r w s = .next s := by
  unfold execAtsCompletion
  rw [h]
  exact congrArg _ (if_pos (.inl hq))

variable {x : HostPort} (hx : s.port q.port = some x)
include hx

theorem execAtsCompletionTimeout_early (ht : s.now < q.sent + x.completionTimeout) : execAtsCompletionTimeout t s = .next s := by
  unfold execAtsCompletionTimeout
  rw [h]
  dsimp only
  rw [hx]
  exact congrArg _ (if_pos ht)

/-- The request has waited for the completion timeout of its port (the figure of the default range: log entry 53). -/
theorem execAtsCompletionTimeout_due (ht : q.sent + x.completionTimeout ≤ s.now) :
    execAtsCompletionTimeout t s = .next (s.failWalk q Cause.timeout) := by
  unfold execAtsCompletionTimeout
  rw [h]
  dsimp only
  rw [hx]
  exact congrArg _ (if_neg (Nat.not_lt.2 ht))

end

/-- A response of the request's own port: success repeats the walk, a refusal ends it, and a failure also ends PRI on the port. -/
theorem execPriResponse_own {t : Nat} {q : PageRequest} (h : s.pageReq t .pri = some q) (hq : q.port = p) (c : Nat) :
    execPriResponse p t c s = .next
      (if c = 0 then State.resume descTable s q (setAdd (q.gva / 4096) (q.asked.filter (· < 2 ^ 57)))
        (q.ats.filter fun e => !decide (e.gva ≤ q.gva ∧ q.gva < e.gva + e.len))
      else if c = 1 then s.failWalk q Cause.invalid
      else (s.failWalk q Cause.invalid).setPort p fun x => { x with priEnabled := false }) := by
  unfold execPriResponse
  rw [h]
  exact congrArg _ (if_neg (not_not_intro hq))

end

/-- Settles O33: every clause is a case of its command, named by the lemma that states it. -/
theorem hostPortEvents : Obligations.HostPortEvents := by
  intro p s
  refine ⟨fun h => ?_, fun x h => ?_,
    fun k g => ⟨fun c hk => ⟨execExtentOffer_due hk, execExtentOffer_undue hk⟩, fun hk => execExtentOffer_absent hk g⟩,
    fun e => ⟨execExtentForcedRelease_absent, fun x since f h hx => ⟨execExtentForcedRelease_due h hx, execExtentForcedRelease_early h hx⟩⟩,
    fun t q h => ?_, fun t h => ⟨execAtsCompletion_unasked h, execAtsCompletionTimeout_unasked h⟩, fun t q h hq => ?_⟩
  · have down : (s.port p).any (·.up) = false := by rw [h]; rfl
    exact ⟨execHostPortFence_absent h, execHostLinkUp_absent h, congrArg _ (linkLost_down down), execHostLinkWidthDrop_down down,
      execFlr_absent h, execHdmDecoderCommit_absent h, execAtsInvalidation_absent h, execMarginingCommand_down down, execMsixUnmask_absent h⟩
  · refine ⟨execHostPortFence_ide h, execHostPortFence_linkError h, fun w bi ats pri d3 hr hw => execHostLinkUp_trained h hr hw bi ats pri d3,
      fun w bi ats pri d3 hr => execHostLinkUp_inReset h hr w bi ats pri d3, fun hu => congrArg _ (linkLost_up h hu), fun hu => ?_,
      fun w => execHostLinkWidthDrop_narrower h, execFlr_present h,
      fun i b n a bi => ⟨execHdmDecoderCommit_bad h, execHdmDecoderCommit_good h⟩,
      fun t g v n => ⟨fun hl => execAtsInvalidation_full h hl t g v n, fun hl => execAtsInvalidation_held h hl t g v n⟩,
      execMarginingCommand_up h, fun v hv => ?_, fun v => execMsixUnmask_beyond h⟩
    · have down : (s.port p).any (·.up) = false := by rw [h]; exact hu
      exact ⟨congrArg _ (linkLost_down down), fun w => ⟨execHostLinkWidthDrop_down down w, execMarginingCommand_down down⟩⟩
    · have unmasked := execMsixUnmask_row h hv
      exact ⟨fun hw => unmasked.trans (congrArg _ (if_pos hw)), fun hw => unmasked.trans (congrArg _ (if_neg (ne_true_of_eq_false hw)))⟩
  · exact ⟨fun hq a n r w hn => execAtsCompletion_resumes h hq hn a r w, execAtsCompletion_foreign h,
      fun x hx => ⟨execAtsCompletionTimeout_early h hx, execAtsCompletionTimeout_due h hx⟩⟩
  · have answered := execPriResponse_own h hq
    refine ⟨answered 0, answered 1, fun c hc => (answered c).trans ?_⟩
    rw [if_neg (by omega), if_neg (by omega)]

end Sys2Proof.Machine
end

section
/-! SUPPORT. Snapshots, publish points, remote holds and the freeing of images (spec 05: R219, R224, R242–R250): what each step does once
its condition holds. -/

namespace Sys2Proof.Machine

/-! ### SNAP_OPEN and SNAP_CLOSE (R242, R243, R246, R249) -/

section
variable {s : State} {i : Nat} {d : Desc}

theorem execSnapOpen_bound {c t : Nat} (h : atWork 0x68 i s d = true) (hb : d.binding = some (c, t)) :
    execSnapOpen i s = .next (noted i d (s.snapOpened d c t)) := by
  unfold execSnapOpen
  rw [State.work_go h, hb]

/-- A range of another shore has no binding here: its home is asked for a hold, once, and the descriptor waits for the answer. -/
theorem execSnapOpen_asksHome {t : Nat} {u : State} (h : atWork 0x68 i s d = true) (hb : d.binding = none) (hr : s.isHere d.gpa0 = false)
    (hp : d.progress = 0)
    (hu : s.sendWork d Sxf.remoteHold false (((s.pullOf d.gpa0 1).map (·.gpa)).getD d.gpa0)
      (holdUnit (if d.byTime then d.f 32 8 else d.f 24 6) (((s.pullOf d.gpa0 1).map (·.gpa)).getD d.gpa0) 0 d.byTime false) = (u, some t)) :
    execSnapOpen i s = .next (noted i d (u.setDesc d.id fun d => { d with awaiting := d.awaiting ++ [t], progress := 1 })) := by
  have unasked : ¬ ((!d.awaiting.isEmpty) = true ∨ d.progress ≠ 0) := by simp [atWork_awaiting h, hp]
  unfold execSnapOpen
  rw [State.work_go h, hb]
  dsimp only
  rw [if_neg (ne_true_of_eq_false hr), if_neg unasked, hu]

theorem execSnapClose_closes {x : Snapshot} (h : atWork 0x69 i s d = true) (hx : s.snapOf (d.f 16 2) d.guest = some x) :
    execSnapClose i s = .next (noted i d
      ((s.closeSnap x).ok d.id x.tidemark ((s.closeSnap x).handlesOn x.cove % 65536 + b2n (x.state = .broken) * 2 ^ 31))) := by
  unfold execSnapClose
  rw [State.work_go h, hx]

end

/-! ### PUBLISH and its publish point (R247, R248) -/

section
variable {s : State} {i : Nat} {d : Desc} {c : Cove} {v : Versions} (hc : s.coveAt (gpaOffset d.gpa0) = some c) (hv : c.versions = some v)
include hc hv

/-- An untimed PUBLISH tests its distance from every point of the cove, performed or scheduled. -/
theorem execPublish_untimed (h : atWork 0x6A i s d = true) (ht : d.f 24 8 = 0) : execPublish i s = .next (noted i d
    (if v.allPoints.all fun p => decide (p + publishGap ≤ s.now) then s.publishNow d c.id else s)) := by
  unfold execPublish
  rw [State.work_go h, hc]
  dsimp only
  rw [hv]
  dsimp only
  rw [if_neg (not_not_intro ht)]

theorem execPublish_due (h : atWork 0x6A i s d = true) (ht : d.f 24 8 = 0) (hp : ∀ p ∈ v.allPoints, p + 8000 ≤ s.now) :
    execPublish i s = .next (noted i d (s.publishNow d c.id)) := by
  rw [execPublish_untimed hc hv h ht, if_pos (by simpa using hp)]

theorem execPublish_early (h : atWork 0x6A i s d = true) (ht : d.f 24 8 = 0) (hp : ∃ p ∈ v.allPoints, s.now < p + 8000) :
    execPublish i s = .next (noted i d s) := by
  rw [execPublish_untimed hc hv h ht, if_neg (by simpa using hp)]

theorem execPublishPoint_due (hd : s.desc i = some d) (ho : d.opcode = 0x6A) (hn : d.done = none) (h0 : d.f 24 8 ≠ 0)
    (ht : d.f 24 8 ≤ s.now) : execPublishPoint i s = .next (s.publishNow d c.id) := by
  have due : ¬ (d.opcode ≠ 0x6A ∨ d.done.isSome = true ∨ d.f 24 8 = 0 ∨ s.now < d.f 24 8) := by simp [ho, hn, h0, ht]
  unfold execPublishPoint
  rw [hd]
  dsimp only
  rw [if_neg due, hc]
  dsimp only
  rw [hv]
  rfl

end

/-! ### Remote holds (R249; the layout of the message and of VALUE is the model's, log entry 14) -/

section
variable {s : State} {m : SxfMsg}

@[simp] theorem parityCovers_addSnap (x : Snapshot) (c : Cove) : (s.addSnap x).parityCovers c = s.parityCovers c := rfl

/-- A hold is closed by its handle, for the shore that it was opened for. -/
theorem remoteHold_closes {x : Snapshot} (hm : bit (m.f 0 16) 117 = true)
    (hx : (s.store.snaps.find? fun x => x.handle = bits (m.f 0 16) 115 100 ∧ x.holder = some m.src) = some x) :
    s.remoteHold m = ({ s with store := { s.store with snaps := s.store.snaps.filter fun y => y.handle ≠ x.handle } } : State).reply m
      Sxf.done Status.ok 0 x.tidemark false false [] := by
  unfold State.remoteHold
  dsimp only
  rw [if_pos hm, hx]

theorem remoteHold_opens {c : Cove} {v : Versions} {t : Nat} (hm : bit (m.f 0 16) 117 = false)
    (hc : s.versionedAt (gpaOffset (bits (m.f 0 16) 99 64 * mib2)) = some (c, v))
    (ht : s.selectMark c v (bits (m.f 0 16) 47 0) (bits (m.f 0 16) 63 0) (bit (m.f 0 16) 116) = some t) (hr : (c.grant m.guest).r = true)
    (hl : s.snapLimit c.id m.guest = false) (hp : s.parityCovers c = false) : s.remoteHold m =
      (s.addSnap ⟨s.freeHandle, c.id, m.guest, t, .opened, false, none, some m.src, gpaOf s.self c.base, c.size⟩).reply m Sxf.done Status.ok 0
        (t + s.freeHandle * 2 ^ 48) false false [] := by
  unfold State.remoteHold
  dsimp only
  rw [if_neg (ne_true_of_eq_false hm), hc]
  dsimp only
  rw [ht]
  dsimp only
  rw [if_neg (by simp [hr]), if_neg (ne_true_of_eq_false hl), if_neg (by simp [hp])]

end

/-- Settles O25: every clause is a case of its command, named by the lemma that states it; a message is first taken in by its port
(`State.forSelf_eq`), and HOLD_BROKEN and IMAGE_FREE have one case each, that of their definitions. -/
theorem snapshotWork : Obligations.SnapshotWork := by
  intro s
  refine ⟨fun i d c t => execSnapOpen_bound, fun i d t u => execSnapOpen_asksHome, fun i d x => execSnapClose_closes,
    fun i d c v h hc hv ht => ⟨execPublish_due hc hv h ht, execPublish_early hc hv h ht⟩,
    fun i d c v hd ho hn h0 ht hc hv => execPublishPoint_due hc hv hd ho hn h0 ht, fun m hp hd => ?_, fun n g lo c v _ _ => rfl⟩
  have held : execRemoteHold m s = .next (s.remoteHold m) := congrArg _ (State.forSelf_eq hp hd)
  exact ⟨fun hm x hx => held.trans (congrArg _ (remoteHold_closes hm hx)),
    fun hm c v t hc ht hr hl hq => held.trans (congrArg _ (remoteHold_opens hm hc ht hr hl hq)), congrArg _ (State.forSelf_eq hp hd)⟩

end Sys2Proof.Machine
end

section
/-! SUPPORT. The queue commands (spec 06: R262, R274–R276, R302): what each does once every check lets it through. -/

namespace Sys2Proof.Machine

/-! ### QUEUE_CREATE (R262) -/

/-- The SQ that a QUEUE_CREATE describes: empty, running, its error ring's phase at 1, its MARK latch at its guest's counts. -/
def newSq (c : RelasCmd) (s : State) : Sq where
  id := c.f 16 2
  guest := c.f 20 2
  ring := c.f 24 8
  depth := c.f 32 4
  cq := c.f 36 2
  maxClass := c.f 38 1
  errGpa := c.f 40 8
  errDepth := c.f 48 2
  maxInflight := c.f 50 2
  headGpa := c.f 56 8
  ordered := bit (c.f 19 1) 0
  stopOnRefusal := bit (c.f 19 1) 1
  head := 0
  tail := 0
  refusals := 0
  stopped := false
  errWrite := 0
  errPhase := true
  errHead := 0
  badDoorbells := 0
  bollard := none
  closing := false
  nextSeq := 0
  fetched := 0
  markLatch := s.guestUse (c.f 20 2)

/-- The CQ that a QUEUE_CREATE describes: empty, its phase at 1, nothing reserved. -/
def newCq (c : RelasCmd) : Cq where
  id := c.f 16 2
  guest := c.f 20 2
  ring := c.f 24 8
  depth := c.f 32 4
  notifyKind := c.f 38 1
  notifyPort := c.f 48 2
  vector := c.f 50 2
  agent := c.f 52 4
  write := 0
  phase := true
  head := 0
  reserved := 0
  merged := 0
  badDoorbells := 0

section
variable {c : RelasCmd} {s : State}

theorem opQueueCreate_addsSq (hk : c.f 18 1 = 0) (n : Nat) : opQueueCreate.effect c n s =
    ({ s with queues := { s.queues with sqs := s.queues.sqs ++ [newSq c s] } }, .done) := by
  unfold opQueueCreate
  exact if_pos hk

theorem opQueueCreate_addsCq (hk : c.f 18 1 ≠ 0) (n : Nat) : opQueueCreate.effect c n s =
    ({ s with queues := { s.queues with cqs := s.queues.cqs ++ [newCq c] } }, .done) := by
  unfold opQueueCreate
  exact if_neg hk

/-! ### QUEUE_DESTROY (R274) -/

/-- The SQ takes no more descriptors. -/
def State.closeSq (s : State) (id : Nat) : State := s.setSq id fun q => { q with closing := true }

theorem opQueueDestroy_closesSq (hk : c.f 18 1 = 0) (n : Nat) : opQueueDestroy.effect c n s =
    (if c.f 19 1 = 1 then (s.closeSq (c.f 16 2)).abortQueue (c.f 16 2) else s.closeSq (c.f 16 2),
      .pending (.queueDestroy false (c.f 16 2))) := by
  unfold opQueueDestroy
  exact if_pos hk

theorem opQueueDestroy_waitsForCq (hk : c.f 18 1 ≠ 0) (n : Nat) :
    opQueueDestroy.effect c n s = (s, .pending (.queueDestroy true (c.f 16 2))) := by
  unfold opQueueDestroy
  exact if_neg hk

/-! ### QUEUE_SET (R275) -/

/-- The settings of an SQ that SET_MASK selects. -/
def setSqFields (c : RelasCmd) (q : Sq) : Sq :=
  { q with
    ordered := if qMask c 0 then bit (c.f 19 1) 0 else q.ordered
    stopOnRefusal := if qMask c 0 then bit (c.f 19 1) 1 else q.stopOnRefusal
    maxClass := if qMask c 1 then c.f 38 1 else q.maxClass
    maxInflight := if qMask c 2 then c.f 50 2 else q.maxInflight }

/-- The settings of a CQ, where SET_MASK selects them. -/
def setCqFields (c : RelasCmd) (q : Cq) : Cq :=
  if qMask c 3 then { q with notifyKind := c.f 38 1, notifyPort := c.f 48 2, vector := c.f 50 2, agent := c.f 52 4 } else q

theorem opQueueSet_admission (ha : c.f 16 2 = 0xFFFF) (n : Nat) : opQueueSet.effect c n s = (s.setAdmission c, .done) := by
  unfold opQueueSet
  exact if_pos ha

/-- The model sets the selected groups one after the other; they share no field. -/
theorem opQueueSet_setsSq (ha : c.f 16 2 ≠ 0xFFFF) (hk : c.f 18 1 = 0) (n : Nat) :
    opQueueSet.effect c n s = (s.setSq (c.f 16 2) (setSqFields c), .done) := by
  unfold opQueueSet
  dsimp only
  rw [if_neg ha, if_pos hk]
  refine congrArg (fun f => (s.setSq (c.f 16 2) f, Reply.done)) (funext fun q => ?_)
  unfold setSqFields
  cases qMask c 0 <;> cases qMask c 1 <;> cases qMask c 2 <;> rfl

theorem opQueueSet_setsCq (ha : c.f 16 2 ≠ 0xFFFF) (hk : c.f 18 1 ≠ 0) (n : Nat) :
    opQueueSet.effect c n s = (s.setCq (c.f 16 2) (setCqFields c), .done) := by
  unfold opQueueSet
  exact (if_neg ha).trans (if_neg hk)

/-! ### QUEUE_QUERY (R276) -/

theorem opQueueQuery_answersSq {q : Sq} (hk : c.f 18 1 = 0) (hq : s.sq (c.f 16 2) = some q) (n : Nat) : opQueueQuery.effect c n s =
    (s, .read (sqLayout q ++ leBytes 4 q.head ++ leBytes 4 q.tail ++ leBytes 4 (s.inflight q.id) ++ leBytes 4 q.refusals)) := by
  unfold opQueueQuery
  dsimp only
  rw [if_pos hk, hq]

theorem opQueueQuery_answersCq {q : Cq} (hk : c.f 18 1 ≠ 0) (hq : s.cq (c.f 16 2) = some q) (n : Nat) : opQueueQuery.effect c n s =
    (s, .read (cqLayout q ++ leBytes 4 q.head ++ leBytes 4 q.write ++ leBytes 4 q.reserved ++ leBytes 4 0)) := by
  unfold opQueueQuery
  dsimp only
  rw [if_neg hk, hq]

end

/-- Settles O4: each command has the effect of its operation on the kind of queue that byte 18 names, and DONE, the body or the ticket that
the engine adds (`served_done`, `served_read`, `served_pending`); a staged one joins its set (`staged_stages`). -/
theorem queueCommands : Obligations.QueueCommands := by
  intro c s u
  refine ⟨fun h hk => ?_, fun h hk => ?_, fun h hk => ?_, fun h hk => ?_, fun h x hx ht => ?_, fun ha n t => ?_, fun h ha hk => ?_,
    fun h ha hk => ?_, fun h hk q hq => ?_, fun h hk q hq => ?_⟩
  · exact congrArg _ (served_done h (served_plain h (by decide) rfl) (by decide) (opQueueCreate_addsSq hk _))
  · exact congrArg _ (served_done h (served_plain h (by decide) rfl) (by decide) (opQueueCreate_addsCq hk _))
  · exact congrArg _ (served_pending h (served_plain h (by decide) rfl) (by decide) (opQueueDestroy_closesSq hk _))
  · exact congrArg _ (served_pending h (served_plain h (by decide) rfl) (by decide) (opQueueDestroy_waitsForCq hk _))
  · exact congrArg _ (staged_stages h (by decide) hx ht)
  · exact congrArg some (opQueueSet_admission ha n)
  · exact congrArg _ (served_done h (served_plain h (by decide) rfl) (by decide) (opQueueSet_setsSq ha hk _))
  · exact congrArg _ (served_done h (served_plain h (by decide) rfl) (by decide) (opQueueSet_setsCq ha hk _))
  · exact congrArg _ (served_read h (served_plain h (by decide) rfl) (by decide) (opQueueQuery_answersSq hk hq _))
  · exact congrArg _ (served_read h (served_plain h (by decide) rfl) (by decide) (opQueueQuery_answersCq hk hq _))

end Sys2Proof.Machine
end

section
/-! SUPPORT. Doorbells of the queues and of the mailboxes (spec 23: R804–R807; spec 06: R264, R272; spec 03: R122, R123), and register messages
of a jetty (spec 14: R572). -/

namespace Sys2Proof.Machine

/-! ### A queue's doorbell, by who writes it and what it names -/

section
variable {a : RegAccess} {q : Nat} {s : State}

theorem doorbell_tail {x : Sq} (hx : s.sq q = some x) (hu : s.mayUse a.view a.agent x.guest = true) :
    s.doorbell a q 0 = if 2 ^ 16 ≤ regPlaced a ∨ x.depth ≤ regPlaced a then s.doorbellError x.id
      else s.setSq x.id fun y => { y with tail := regPlaced a } := by
  unfold State.doorbell
  dsimp only
  rw [if_neg (by decide), hx]
  dsimp only
  rw [if_neg (by simp [hu]), if_pos rfl]
  rfl

theorem doorbell_denied {x : Sq} {kind : Nat} (hk : kind ≠ 1) (hx : s.sq q = some x) (hu : s.mayUse a.view a.agent x.guest = false) :
    s.doorbell a q kind = s.countDenied a q kind false := by
  unfold State.doorbell
  dsimp only
  rw [if_neg hk, hx]
  exact if_pos (by simp [hu])

theorem doorbell_cqHead {x : Cq} (hx : s.cq q = some x) (hu : s.mayUse a.view a.agent x.guest = true)
    (hv : headFits x.depth x.head x.write (regPlaced a) = true) :
    s.doorbell a q 1 = s.setCq x.id fun y => { y with head := regPlaced a } := by
  unfold State.doorbell
  dsimp only
  rw [if_pos rfl, hx]
  exact (if_pos hu).trans (if_pos hv)

/-- ERR_HEAD with RESUME also starts the queue again; without it STOPPED stays as it was (R272, R805). -/
theorem doorbell_errHead {x : Sq} (hx : s.sq q = some x) (hu : s.mayUse a.view a.agent x.guest = true) (hv : regPlaced a < 2 ^ 17)
    (hf : headFits x.errDepth x.errHead x.errWrite (regPlaced a % 2 ^ 16) = true) :
    s.doorbell a q 2 = s.setSq x.id fun y =>
      { y with errHead := regPlaced a % 2 ^ 16, stopped := y.stopped && !bit (regPlaced a) 16 } := by
  unfold State.doorbell
  dsimp only
  rw [if_neg (by decide), hx]
  dsimp only
  rw [if_neg (by simp [hu]), if_neg (by decide)]
  exact if_neg (not_or.2 ⟨Nat.not_le.2 hv, by rw [hf]; decide⟩)

end

/-! ### The rows of a host port -/

section
variable {a : RegAccess} {p : Nat} {s : State} (h : hostReaches a p s = true) (ha : regAllowed a = true) (hw : a.write = true)
include h ha hw

/-- A doorbell write takes the row of its kind; of the two rows of ERR_HEAD, RESUME chooses. -/
theorem hostDoorbell_rings {q kind : Nat} {resume : Bool} (hp : placeOf a.bar a.off = .doorbell q kind)
    (hr : kind = 2 → bit (regPlaced a) 16 = resume) : s.hostDoorbell a kind resume = .next (s.doorbell a q kind) := by
  unfold State.hostDoorbell
  rw [State.hostAccess_eq h, if_neg (by simp [ha, hw]), hp]
  refine congrArg _ (if_pos ?_)
  by_cases hk : kind = 2
  · simp [hr hk]
  · simp [hk]

theorem execMbxDoorbell_overruns {m : Nat} (hp : placeOf a.bar a.off = .mbxRegister m 0) (hb : (s.box p m).busy = true) :
    execMbxDoorbell a s = .next ((s.setBox { s.box p m with overrun := true }).count 0x0C 0 4 1) := by
  unfold execMbxDoorbell
  rw [State.hostAccess_eq h, if_neg (by simp [ha, hw]), hp]
  exact congrArg _ (if_pos hb)

theorem execMbxDoorbell_takesUp {m : Nat} (hp : placeOf a.bar a.off = .mbxRegister m 0) (hb : (s.box p m).busy = false) :
    let v := s.setBox { s.box p m with busy := true, done := false }
    execMbxDoorbell a s = .next (v.setChan { v.chanRec (.mailbox p m) with outstanding := [bufferedCommand (s.box p m).cmd] }) := by
  unfold execMbxDoorbell
  rw [State.hostAccess_eq h, if_neg (by simp [ha, hw]), hp]
  exact congrArg _ (if_neg (ne_true_of_eq_false hb))

end

/-! ### Register messages of a jetty (R572) -/

section
variable {m : SxfMsg} {s : State} (hp : s.portRefusal m = none)
include hp

theorem execRegRead_answers (ho : m.op = Sxf.regRead) (hj : s.jettyReads (regAccessOf m false) = true)
    (ha : regAllowed (regAccessOf m false) = true) : execRegRead m s =
      .next ((s.regRead (regAccessOf m false)).1.reply m Sxf.done Status.ok 0 (s.regRead (regAccessOf m false)).2 false false []) := by
  unfold execRegRead
  rw [if_neg (by simp [ho]), hp]
  dsimp only
  rw [if_neg (by simp [hj]), if_pos ha]

theorem execRegWrite_rings {q k : Nat} (ho : m.op = Sxf.regWrite) (hj : s.jettyWrites (regAccessOf m true) = true)
    (ha : regAllowed (regAccessOf m true) = true) (hd : placeOf (regAccessOf m true).bar (regAccessOf m true).off = .doorbell q k) :
    execRegWrite m s = .next ((s.doorbell (regAccessOf m true) q k).reply m Sxf.done Status.ok 0 0 false false []) := by
  unfold execRegWrite
  rw [if_neg (by simp [ho]), hp]
  dsimp only
  rw [if_neg (by simp [hj]), if_neg (by simp [ha]), hd]

end

/-- Settles O17: a host's write reaches the doorbell (`hostDoorbell_rings`), which goes by the queue and the value written; a mailbox's goes by
BUSY, and a jetty's message by what it names. -/
theorem doorbells : Obligations.Doorbells := by
  intro a p s
  refine ⟨fun h ha hw => ⟨fun q x hp hx hu => ?_, fun q x hp hx hu => ?_, fun q x hp hx hu hv => ?_, fun q x hp hx hu hv hf => ?_,
    fun m hp => ⟨execMbxDoorbell_overruns h ha hw hp, execMbxDoorbell_takesUp h ha hw hp⟩⟩,
    fun m hp => ⟨execRegRead_answers hp, fun q k => execRegWrite_rings hp⟩⟩
  · exact (hostDoorbell_rings h ha hw hp nofun).trans (congrArg _ (doorbell_tail hx hu))
  · exact (hostDoorbell_rings h ha hw hp nofun).trans (congrArg _ (doorbell_denied (by decide) hx hu))
  · exact (hostDoorbell_rings h ha hw hp nofun).trans (congrArg _ (doorbell_cqHead hx hu hv))
  · have moved := doorbell_errHead hx hu hv hf
    exact ⟨fun hb => (hostDoorbell_rings h ha hw hp fun _ => hb).trans (congrArg _ (moved.trans (by simp [hb]))),
      fun hb => (hostDoorbell_rings h ha hw hp fun _ => hb).trans (congrArg _ (moved.trans (by simp [hb])))⟩

end Sys2Proof.Machine
end

section
/-! SUPPORT. A descriptor's life beside its own work (spec 06: R267, R268, R273, R279, R280, R282, R285, R298; spec 02: R83; spec 07: R328;
spec 20: R751): what each step does once its condition holds. -/

namespace Sys2Proof.Machine

/-! ### Fetching (R267, R268, R279) -/

/-- The state in which a fetched descriptor's header is checked: its slots are freed, the head word is written, and the fetch is counted. -/
def State.fetched (s : State) (n : Nat) (q : Sq) : State :=
  let head := (q.head + slotsOf (s.nextSize q)) % q.depth
  let u := s.setSq n fun x => { x with head := head, fetched := x.fetched + 1 }
  ((u.writeAt (gpaOffset q.headGpa) (leBytes 4 head ++ zeros 4)).count 2 n 0 1).offer q.guest ⟨0, 1⟩

section
variable {s : State} {n : Nat} {q : Sq} (hq : s.sq n = some q) (hf : s.fetchable q = true)
include hq hf

theorem fetch_refuses {table : Nat → Option DescOp} {st ca r : Nat}
    (hc : headerCheck table (s.fetched n q) q (s.slotBytes q (slotsOf (s.nextSize q))) = some (st, ca, r)) :
    State.fetch table s n = (s.fetched n q).refusal n (fld (s.slotBytes q (slotsOf (s.nextSize q))) 4 4) q.head st ca r := by
  unfold State.fetched at hc
  unfold State.fetch
  rw [hq]
  dsimp only
  rw [if_neg (by simp [hf]), hc]
  rfl

theorem fetch_considers {table : Nat → Option DescOp}
    (hc : headerCheck table (s.fetched n q) q (s.slotBytes q (slotsOf (s.nextSize q))) = none) :
    State.fetch table s n = (s.fetched n q).consider table q q.head (s.slotBytes q (slotsOf (s.nextSize q))) [] [] := by
  unfold State.fetched at hc
  unfold State.fetch
  rw [hq]
  dsimp only
  rw [if_neg (by simp [hf]), hc]
  rfl

end

/-! ### Page requests (R83, R573) -/

section
variable {s : State} {m : SxfMsg} {p : PageRequest}

theorem pageResponse_inTime {table : Nat → Option DescOp} (hp : s.pageReq m.tag .sxf = some p) (hv : p.port = m.via)
    (ht : s.now ≤ p.sent + s.pageTimeout p.guest) :
    State.pageResponse table s m = s.resume table p (setAdd (p.gva / 4096) p.asked) p.ats := by
  unfold State.pageResponse
  rw [hp]
  exact if_pos ⟨hv, ht⟩

theorem pageResponse_late {table : Nat → Option DescOp} (hp : s.pageReq m.tag .sxf = some p)
    (ht : p.sent + s.pageTimeout p.guest < s.now) : State.pageResponse table s m = s.count 0x0C 0 2 1 := by
  unfold State.pageResponse
  rw [hp]
  exact if_neg fun h => absurd h.2 (Nat.not_le.2 ht)

theorem pageTimeoutEnd_fails {t : Nat} (hp : (s.queues.pageReqs.find? fun p => p.tag = t ∧ (p.kind = .sxf ∨ p.kind = .pri)) = some p)
    (ht : p.sent + s.pageTimeout p.guest ≤ s.now) : s.pageTimeoutEnd t = s.failWalk p Cause.timeout := by
  unfold State.pageTimeoutEnd
  rw [hp]
  exact if_pos ht

end

/-! ### Start, slots, shares and the end of a booking (R273, R282, R285, R298, R328) -/

section
variable {s : State} {i : Nat} {d : Desc}

theorem execDescriptorStart_starts (hd : s.desc i = some d) (hp : d.phase = .admitted) (hf : s.fencesAllow d = true) :
    execDescriptorStart i s = .next (s.setDesc i fun x => { x with phase := .running, stamp := s.now }) := by
  unfold execDescriptorStart
  rw [hd]
  exact if_pos ⟨hp, hf⟩

theorem execDescriptorStart_fenced (hd : s.desc i = some d) (hf : s.fencesAllow d = false) : execDescriptorStart i s = .next s := by
  unfold execDescriptorStart
  rw [hd]
  exact if_neg fun h => ne_true_of_eq_false hf h.2

theorem execCalendarSlot_turns (h : s.brk.slot < slotOf s.now) : execCalendarSlot s = .next
    (s.queues.cqs.foldl State.sendCqNotify { s with brk := { s.brk with
      slot := slotOf s.now, bookings := s.brk.bookings.filter fun b => decide (slotOf s.now < b.first + b.slots) } }).flushDeltas.1 := by
  unfold execCalendarSlot
  exact if_neg (Nat.not_le.2 h)

theorem execShareRecompute_due (h : s.brk.recomputed + 800000 ≤ s.now) : execShareRecompute s = .next s.recompute := by
  unfold execShareRecompute
  exact if_pos h

/-- A paced copy that is paused when its booking ends completes with what it has copied (R328). -/
theorem execDescriptorBookingEnd_paused (hd : s.desc i = some d) (ht : s.bookedEnd d ≤ s.now) (hn : d.done = none) (hf : d.fail = none)
    (ho : d.opcode = 0x14) (hp : d.phase = .waiting) : execDescriptorBookingEnd i s = .next
      (s.finish i Status.okPartial reasonPaceStall 0 (d.transfer.start + d.progress) (min d.count 0xFFFFFFFF)) := by
  unfold execDescriptorBookingEnd
  rw [hd]
  dsimp only
  rw [if_neg (by simp [ht, hn, hf]), ho]
  exact congrArg _ (if_pos hp)

/-! ### NOP and MARK (R280, R751) -/

theorem execNop_completes (h : atWork 0x7F i s d = true) : execNop i s = .next (noted i d (s.ok d.id 0 0)) :=
  congrArg _ (State.work_go h)

theorem execMark_completes (h : atWork 0x70 i s d = true) (hl : d.latched = false) :
    execMark i s = .next (noted i d ((s.count 0x0D 0 4 1).ok d.id (d.f 24 8) (d.f 16 4))) := by
  unfold execMark
  rw [State.work_go h]
  dsimp only
  rw [if_neg (ne_true_of_eq_false hl)]

end

/-- Settles O18: each step has the effect that its lemma names once its condition holds; a PAGE_RESPONSE is first taken in as the message it
is (`State.arrival_eq`). -/
theorem descriptorLife : Obligations.DescriptorLife := by
  intro s
  refine ⟨fun n q hq hf => ⟨fun st ca r hc => ?_, fun hc => ?_⟩, fun m hm p hp hv => ?_,
    fun t p hp ht => congrArg _ (pageTimeoutEnd_fails hp ht),
    fun i d hd hp => ⟨execDescriptorStart_starts hd hp, execDescriptorStart_fenced hd⟩, execCalendarSlot_turns, execShareRecompute_due,
    fun i d => execDescriptorBookingEnd_paused, fun i d => execNop_completes, fun i d => execMark_completes⟩
  · exact congrArg _ (fetch_refuses hq hf hc)
  · exact congrArg _ (fetch_considers hq hf hc)
  · have arrived : execPageResponse m s = .next (State.pageResponse descTable s m) := State.arrival_eq (beq_iff_eq.2 hm)
    exact ⟨fun ht => arrived.trans (congrArg _ (pageResponse_inTime hp hv ht)),
      fun ht => arrived.trans (congrArg _ (pageResponse_late hp ht))⟩

end Sys2Proof.Machine
end

section
/-! SUPPORT. Porter's transfers, paced copies, ADVISE, PREFETCH and CONVERT, and its channels' retries, timeouts and retirement (spec 07:
R310–R335; spec 02: R104, R106; spec 08: R369; spec 17: R650): what each step does once its condition holds. -/

namespace Sys2Proof.Machine

/-! ### COPY, FILL, STAGE_IN and STAGE_OUT, chunk by chunk (R310, R312, R320, R321, R335) -/

/-- A transfer with the channels it runs on (R309). -/
def State.withChannels (s : State) (d : Desc) : State := s.takeChannels d (s.channelCount d)

/-- Offset and length of the next chunk of a transfer. -/
def Desc.chunkOff (d : Desc) : Nat := d.transfer.start + d.progress
def Desc.chunkLen (d : Desc) : Nat := min 65536 (d.transfer.len - d.chunkOff)

/-- The movement of a transfer's next chunk: the state and whether the chunk has moved. -/
def State.nextChunk (s : State) (d : Desc) : State × Bool := (s.withChannels d).moveChunk d.id d.transfer d.chunkOff d.chunkLen

/-- The state in which a chunk that has moved is counted. -/
def State.chunkMoved (s : State) (d : Desc) : State := (s.nextChunk d).1.setDesc d.id fun x => { x with progress := x.progress + d.chunkLen }

/-- The four transfers differ in their opcode alone. -/
theorem exec_transfer {i : Nat} {s : State} {x : Nat × Instr}
    (hx : x ∈ [(0x10, Instr.copy i), (0x11, Instr.fill i), (0x12, Instr.stageIn i), (0x13, Instr.stageOut i)]) :
    exec x.2 s = .next (s.work i x.1 s.porterStop s.porterStep) := by
  simp only [List.mem_cons, List.not_mem_nil, or_false] at hx
  obtain rfl | rfl | rfl | rfl := hx <;> rfl

section
variable {s : State} {d : Desc} (ha : d.awaiting.isEmpty = true)
include ha

/-- A step of a transfer ends it, moves its next chunk or waits for that chunk. -/
theorem porterStep_eq : s.porterStep d =
    if d.transfer.len ≤ d.chunkOff then (s.withChannels d).porterDone d
    else if !(s.nextChunk d).2 then (s.nextChunk d).1
    else match (s.chunkMoved d).desc d.id with
      | some e => if e.awaiting.isEmpty ∧ e.fail.isNone ∧ d.transfer.len ≤ d.chunkOff + d.chunkLen then (s.chunkMoved d).porterDone e
        else s.chunkMoved d
      | none => s.chunkMoved d := by
  unfold State.porterStep
  dsimp only
  rw [if_neg (by simp [ha])]
  rfl

theorem porterStep_ends (hl : d.transfer.len ≤ d.chunkOff) : s.porterStep d = (s.withChannels d).porterDone d := by
  rw [porterStep_eq ha, if_pos hl]

theorem porterStep_waits (hl : d.chunkOff < d.transfer.len) (hm : (s.nextChunk d).2 = false) : s.porterStep d = (s.nextChunk d).1 := by
  rw [porterStep_eq ha, if_neg (Nat.not_le.2 hl), hm]
  rfl

theorem porterStep_moves {e : Desc} (hl : d.chunkOff < d.transfer.len) (hm : (s.nextChunk d).2 = true)
    (he : (s.chunkMoved d).desc d.id = some e) : s.porterStep d =
      if e.awaiting.isEmpty ∧ e.fail.isNone ∧ d.transfer.len ≤ d.chunkOff + d.chunkLen then (s.chunkMoved d).porterDone e
      else s.chunkMoved d := by
  rw [porterStep_eq ha, if_neg (Nat.not_le.2 hl), hm, he]
  rfl

end

/-! ### PACED_COPY (R326) -/

section
variable {s : State} {i : Nat} {d : Desc} (h : atWork 0x14 i s d = true)
include h

theorem execPacedCopy_steps (hp : d.phase ≠ .waiting) :
    execPacedCopy i s = .next (noted i d (State.paceStep 6 d.id (s.takeChannels d 1))) := by
  unfold execPacedCopy
  rw [State.work_go h, if_neg hp]

theorem execPacedCopy_paused (hp : d.phase = .waiting) : execPacedCopy i s = .next (noted i d s) := by
  unfold execPacedCopy
  rw [State.work_go h, if_pos hp]

theorem execPacedCopyPoll_due (hp : d.phase = .waiting) (hw : d.wake ≤ s.now) : execPacedCopyPoll i s = .next
    (noted i d (State.paceStep 6 d.id (s.setDesc d.id fun d => { d with phase := .running }))) := by
  unfold execPacedCopyPoll
  rw [State.work_go h, if_neg (by simp [hp, hw])]

end

/-! ### ADVISE and PREFETCH (R104, R106) -/

section
variable {s : State} {i : Nat} {d : Desc}

/-- Without MOVE an ADVISE sets the overrides alone. -/
theorem execAdvise_overrides (h : atWork 0x15 i s d = true) (hm : bit (d.f 33 1) 0 = false) : execAdvise i s = .next
    (let u := s.advised (s.hereExtents d 0) (adviseCls (d.f 32 1))
    noted i d (u.ok d.id (sumNat ((s.covePieces (s.hereExtents d 0)).map fun p => p.1.changedBytes p.2.1 p.2.2 (adviseCls (d.f 32 1))))
      (u.overridesHeld (s.hereExtents d 0)))) := by
  unfold execAdvise
  rw [State.work_go h]
  dsimp only
  rw [if_neg (ne_true_of_eq_false hm)]

/-- A PREFETCH that has begun completes when no local granule is absent and no remote one unpulled. -/
theorem execPrefetch_completes (h : atWork 0x16 i s d = true) (hp : d.progress ≠ 0)
    (hl : ((s.localGranules d 0).all fun g => s.store.harbour.resident g) = true)
    (hr : ((s.remoteGranules d 0).all fun g => (s.pulledAt g 0).isSome) = true) : execPrefetch i s = .next
      (noted i d (s.ok d.id d.count ((s.localGranules d 0).length + (s.remoteGranules d 0).length - d.count))) := by
  have noneGone : ((s.localGranules d 0).filter fun g => !s.store.harbour.resident g) = [] := by
    simpa [List.filter_eq_nil_iff] using hl
  have noneMissing : ((s.remoteGranules d 0).filter fun g => (s.pulledAt g 0).isNone) = [] := by
    simpa [List.filter_eq_nil_iff, Option.isSome_iff_ne_none] using hr
  unfold execPrefetch
  rw [State.work_go h]
  dsimp only
  rw [if_neg hp, noneGone, noneMissing]
  rfl

end

/-! ### Porter's channels (R329, R330, R650) -/

section
variable {s : State} {n : Nat} {c : PorterChannel} (hc : (s.porter.channels.find? fun c => c.id = n) = some c)
include hc

theorem execPorterRetry_repeats {i : Nat} (hr : c.st = .running i) : execPorterRetry n s = .next
    ((c.retries.filter fun r => r.waiting && decide (r.failedAt + 2000 ≤ s.now)).foldl (fun s r => s.retryAccess n i r) s) := by
  unfold execPorterRetry
  rw [hc]
  dsimp only
  rw [hr]

theorem execPorterChannelRetire_retires {t : Nat} (ha : c.announced = some t) (ht : t ≤ s.now) (hi : c.st = .idle) :
    execPorterChannelRetire n s = .next
      (({ s with faults := { s.faults with retired := setAdd (0x9, n) s.faults.retired } }.setChannel n
        fun x => { x with st := .retired, announced := none }).report ⟨evRetired, sevFailed, 0x9, n, 4, 0, 0, 0, 0⟩) := by
  unfold execPorterChannelRetire
  rw [hc]
  dsimp only
  rw [ha]
  exact congrArg _ (if_pos ⟨ht, hi⟩)

end

theorem execPorterBusTimeout_due {s : State} {t i : Nat} {o : Outstanding} (ho : s.transaction t = some o) (hd : o.desc = some i)
    (ht : o.sent + 40000 ≤ s.now) (hp : (s.desc i).any Desc.porter = true) :
    execPorterBusTimeout t s = .next ((s.dropTransaction t).busError o i Cause.busTimeout) := by
  unfold execPorterBusTimeout
  rw [ho]
  dsimp only
  rw [hd]
  exact congrArg _ (if_pos ⟨ht, hp⟩)

/-- Settles O19: a transfer's step ends it, waits or moves one chunk, and the other clauses are the cases that their lemmas name; an access
that failed stops a transfer or a CONVERT as every descriptor's work is stopped (`State.work_stopped`). -/
theorem porterCommands : Obligations.PorterCommands := by
  intro s i d
  refine ⟨fun x hx => ⟨fun h => ?_, fun st ca h => ?_⟩,
    fun h => ⟨execPacedCopy_steps h, fun hp => ⟨execPacedCopy_paused h hp, execPacedCopyPoll_due h hp⟩⟩,
    execAdvise_overrides, execPrefetch_completes, fun h => congrArg _ (State.work_go h), fun st ca h => congrArg _ (State.work_stopped h),
    fun n c hc => execPorterRetry_repeats hc, fun t o => execPorterBusTimeout_due,
    fun n c t hc => execPorterChannelRetire_retires hc⟩
  · have works : exec x.2 s = .next (noted i d (s.porterStep d)) := (exec_transfer hx).trans (congrArg _ (State.work_go h))
    have ha := atWork_awaiting h
    exact ⟨fun hl => works.trans (congrArg _ (congrArg _ (porterStep_ends ha hl))),
      fun hl hm => works.trans (congrArg _ (congrArg _ (porterStep_waits ha hl hm))),
      fun hl hm e he => works.trans (congrArg _ (congrArg _ (porterStep_moves ha hl hm he)))⟩
  · exact (exec_transfer hx).trans (congrArg _ (State.work_stopped h))

end Sys2Proof.Machine
end

section
/-! SUPPORT. Reduction groups: OPEN, CLOSE and CONTRIBUTE, the consumers, the expiry of an instance and RED messages at their home (spec 09:
R377–R403): what each step does once its condition holds. -/

namespace Sys2Proof.Machine

/-! ### The shape that a CONTRIBUTE's step and a consumer's step share (R389, R397) -/

/-- A step over the elements that are left: `t` is the state after the next piece, where there is one, and what has no element left and no
failed access ends as `fin` says. -/
def State.pieceThenEnd (s t : State) (d : Desc) (fin : State → Desc → State) : State :=
  let u := if d.elemEnd ≤ d.elemNow then s else t
  match u.desc d.id with
  | some e => if e.elemEnd ≤ e.elemNow ∧ e.fail.isNone then fin u e else u
  | none => u

section
variable {s t : State} {d : Desc} {fin : State → Desc → State}

theorem pieceThenEnd_ends {op i : Nat} (h : atWork op i s d = true) (hl : d.elemEnd ≤ d.elemNow) :
    s.pieceThenEnd t d fin = fin s d := by
  unfold State.pieceThenEnd
  dsimp only
  rw [if_pos hl, atWork_desc h]
  exact if_pos ⟨hl, Option.isNone_iff_eq_none.2 (atWork_fail h)⟩

theorem pieceThenEnd_moves {e : Desc} (hl : d.elemNow < d.elemEnd) (he : t.desc d.id = some e) :
    s.pieceThenEnd t d fin = if e.elemEnd ≤ e.elemNow ∧ e.fail = none then fin t e else t := by
  unfold State.pieceThenEnd
  dsimp only
  rw [if_neg (Nat.not_le.2 hl), he]
  simp only [Option.isNone_iff_eq_none]

end

/-! ### OPEN, CLOSE and CONTRIBUTE (R386, R387, R389, R390) -/

section
variable {s : State} {i : Nat} {d : Desc} (h : atWork 0x20 i s d = true)
include h

section
variable {g : Group} (hg : s.group (d.f 16 2) = some g)
include hg

theorem execReduceOpen_opens (hm : d.f 18 1 = 1) : execReduceOpen i s = .next
    (noted i d ((s.setGroup g.id fun g => { g with opened := true }).ok d.id g.blocks g.tiles)) := by
  unfold execReduceOpen
  rw [State.workMode_go h hm, hg]

theorem execReduceClose_discards (hm : d.f 18 1 = 2) : execReduceClose i s = .next (noted i d
    ((s.closeGroup g.id d.id Status.abortedBySoftware Cause.groupClosed).ok d.id (g.slots * min 32 g.tiles) 0)) := by
  unfold execReduceClose
  rw [State.workMode_go h hm, hg]

theorem execReduceContribute_steps {f : Format} (hm : d.f 18 1 = 0) (hf : contribFmt (d.f 19 1) = some f) : execReduceContribute i s =
    .next (noted i d (s.pieceThenEnd (s.contributePiece d g f) d fun u e => u.contributeEnd e false)) := by
  unfold execReduceContribute
  rw [State.workMode_go h hm, hg, hf]
  rfl

end

theorem execReduceContribute_groupGone (hg : s.group (d.f 16 2) = none) (hm : d.f 18 1 = 0) : execReduceContribute i s =
    .next (noted i d (s.contributeStop d Status.abortedBySoftware Cause.groupClosed)) := by
  unfold execReduceContribute
  rw [State.workMode_go h hm, hg]

end

/-! ### Consumers (R397, R400, R403) -/

/-- The three consumers differ in their opcode alone. -/
theorem exec_consumer {i : Nat} {s : State} {x : Nat × Instr}
    (hx : x ∈ [(0x21, Instr.reduceRead i), (0x22, .updateSgdm i), (0x23, .updateAdamw i)]) :
    exec x.2 s = .next (s.work i x.1 s.consumerStop s.consumerStep) := by
  simp only [List.mem_cons, List.not_mem_nil, or_false] at hx
  obtain rfl | rfl | rfl := hx <;> rfl

theorem consumerStep_groupGone {s : State} {d : Desc} (hg : s.group (d.f 16 2) = none) :
    s.consumerStep d = s.consumerStop d Status.abortedBySoftware Cause.groupClosed := by
  unfold State.consumerStep
  rw [hg]

theorem consumerStep_eq {s : State} {d : Desc} {g : Group} (hg : s.group (d.f 16 2) = some g) :
    s.consumerStep d = s.pieceThenEnd (s.consumerInst d g) d fun u e => u.consumerEnd e false := by
  unfold State.consumerStep
  rw [hg]
  rfl

/-! ### The expiry of an instance (R378) -/

theorem execInstanceExpiry_fails {s : State} {n r t : Nat} {g : Group} {k : Inst} (hg : s.group n = some g) (hk : g.inst r t = some k)
    (hs : k.state = .filling) (ha : s.instAt g r t = .failed) : execInstanceExpiry n r t s = .next
      ((s.setGroup n fun g => g.setInst r t fun i => { i with state := .failed, accs := [] }).groupChanged n) := by
  unfold execInstanceExpiry
  rw [hg]
  dsimp only
  rw [hk]
  exact congrArg _ (if_pos ⟨hs, ha⟩)

/-! ### RED messages at their home (R391, R392, Table 09-5) -/

section
variable {s : State} {m : SxfMsg}

theorem execRed_atHome (hm : m.op = Sxf.red) (hp : s.portRefusal m = none) (hb : redFrameBad m = false)
    (hs : s.fabric.hasShore m.dest = true) (hd : m.dest = s.self) : execRed m s = .next (s.redHome m) := by
  unfold execRed
  rw [if_neg (not_not_intro hm), hp]
  dsimp only
  rw [if_neg (ne_true_of_eq_false hb), if_neg (by simp [hs]), if_pos hd]

theorem redHome_refuses {st ca v : Nat} (hr : s.redRefusal m = some (st, ca, v)) (hc : ca ≠ Cause.excess) :
    s.redHome m = s.reply m Sxf.done st ca v false false [] := by
  unfold State.redHome
  rw [hr]
  dsimp only
  rw [if_neg fun h => hc h.1]

theorem redHome_countsExcess {v : Nat} (hr : s.redRefusal m = some (Status.refusedFormat, Cause.excess, v)) :
    s.redHome m = ({ s with red := { s.red with excess := s.red.excess + redCount m } } : State).reply m Sxf.done Status.refusedFormat
      Cause.excess v false false [] := by
  unfold State.redHome
  rw [hr]
  rfl

/-- The record that a RED message adds to its group, and its values with the message's poison. -/
def redRecord (m : SxfMsg) (g : Group) (f : Format) : KeepRec :=
  ⟨redRound m, g.tileOf (redElem m), 256, redFmt m, redElem m, redCount m, slice m.units 16 (redCount m * (f.elem.width / 8)), m.poison, []⟩
def redValues (m : SxfMsg) (f : Format) : List (Num × Bool) :=
  (decodeVec f (redCount m) (slice m.units 16 (redCount m * (f.elem.width / 8))) []).map fun x => (x, m.poison)

/-- Where the instance lacked every value of the message, none is in excess. -/
theorem redHome_adds {g : Group} {f : Format} (hr : s.redRefusal m = none) (hg : s.group (redGroup m) = some g)
    (hf : contribFmt (redFmt m) = some f) (hn : (s.addRecord g.id (redRecord m g f) (redValues m f)).2 = redCount m) :
    s.redHome m =
      let w := (s.addRecord g.id (redRecord m g f) (redValues m f)).1.flushDeltas
      w.1.replyAfter w.2 m.via (w.1.responseTo m Sxf.done Status.ok 0 0 false false []) := by
  unfold redRecord redValues at hn ⊢
  unfold State.redHome
  rw [hr]
  dsimp only
  rw [hg, hf]
  dsimp only
  rw [if_neg (Nat.not_lt.2 (Nat.le_of_eq hn.symm))]

end

/-- Settles O20: a CONTRIBUTE and a consumer deal with one piece or end (`State.pieceThenEnd`), a RED message that has come home is refused
or added, and the other clauses are the cases that their lemmas name. -/
theorem reduceCommands : Obligations.ReduceCommands := by
  intro s
  refine ⟨fun i d h => ⟨fun g hg => ⟨execReduceOpen_opens h hg, execReduceClose_discards h hg, fun hm f hf => ?_⟩,
      execReduceContribute_groupGone h⟩,
    fun i d x hx => ⟨fun h => ?_, fun st ca h => (exec_consumer hx).trans (congrArg _ (State.work_stopped h))⟩,
    fun n r t g k => execInstanceExpiry_fails, fun m hm hp hb hs hd => ?_⟩
  · have steps := execReduceContribute_steps h hg hm hf
    exact ⟨fun hl => steps.trans (congrArg _ (congrArg _ (pieceThenEnd_ends h hl))),
      fun hl e he => steps.trans (congrArg _ (congrArg _ (pieceThenEnd_moves hl he)))⟩
  · have works : exec x.2 s = .next (noted i d (s.consumerStep d)) := (exec_consumer hx).trans (congrArg _ (State.work_go h))
    refine ⟨fun hg => works.trans (congrArg _ (congrArg _ (consumerStep_groupGone hg))), fun g hg => ?_⟩
    have steps := works.trans (congrArg _ (congrArg _ (consumerStep_eq hg)))
    exact ⟨fun hl => steps.trans (congrArg _ (congrArg _ (pieceThenEnd_ends h hl))),
      fun hl e he => steps.trans (congrArg _ (congrArg _ (pieceThenEnd_moves hl he)))⟩
  · have home : exec (.red m) s = .next (s.redHome m) := execRed_atHome hm hp hb hs hd
    exact ⟨fun st ca v hr hc => home.trans (congrArg _ (redHome_refuses hr hc)),
      fun v hr => home.trans (congrArg _ (redHome_countsExcess hr)),
      fun hr g f hg hf hn => home.trans (congrArg _ (redHome_adds hr hg hf hn))⟩

end Sys2Proof.Machine
end

section
/-! SUPPORT. The commands on embedding tables, vector indices and KV sets (spec 10: R421–R423; spec 11: R451, R453, R454; spec 12:
R495–R497; spec 03: R155): what each does once every check lets it through. -/

namespace Sys2Proof.Machine

/-! ### Queries of another shore -/

/-- A query of a table or an index that another shore sends asks only whether the object is there (R155). -/
theorem relasOpOf_shoreQuery {c : RelasCmd} {n : Nat} (h : c.opcode = 0x0503 ∨ c.opcode = 0x0603) (hc : c.chan = .shore n) :
    ∃ create runs, relasOpOf c = some (opShoreQuery create runs) := by
  unfold relasOpOf
  rw [hc]
  rcases h with h | h
  · rw [h]; exact ⟨_, _, rfl⟩
  · rw [h]; exact ⟨_, _, rfl⟩

/-- Such a query, once every check lets it through, is answered with an empty body. -/
theorem served_shoreQuery {c : RelasCmd} {s : State} {n k : Nat} (h : served k c s = true) (hk : k = 0x0503 ∨ k = 0x0603)
    (hc : c.chan = .shore n) : s.serveAs k c = readWith c (s.taken c) [] := by
  obtain ⟨create, runs, ho⟩ := relasOpOf_shoreQuery ((served_opcode h).symm ▸ hk) hc
  exact served_read h ho (by omega) rfl

/-! ### The effects that go by the object named -/

section
variable {c : RelasCmd} {s : State}

/-- A destroyed table is dying, and its rows leave the row cache at once (R422). -/
theorem opTableDestroy_drops {t : Table} (ht : s.table (c.f 16 2) = some t) (n : Nat) : opTableDestroy.effect c n s =
    ({ s.setTable (c.f 16 2) (fun t => { t with dying := true }) with
      tables := { (s.setTable (c.f 16 2) fun t => { t with dying := true }).tables with
        cache := s.tables.cache.filter fun e => decide (e.tag ≠ t.tag) } }, .pending (.tableDestroy (c.f 16 2))) := by
  unfold opTableDestroy
  dsimp only
  rw [ht]
  rfl

theorem opTableQuery_answers {t : Table} (ht : s.table (c.f 16 2) = some t) (n : Nat) : opTableQuery.effect c n s =
    (s, .read (tableBody t ++
      ((List.range 4).map fun k => leBytes 8 (if t.shardIndex = 0xFFFF then 0 else s.usedSlots t k)).flatten ++
      leBytes 8 (sumNat ((s.tables.cache.filter fun e => e.tag = t.tag).map (·.len))))) := by
  unfold opTableQuery
  dsimp only
  rw [ht]

theorem opIndexQuery_answers {x : Index} (hx : s.index (c.f 16 2) = some x) (n : Nat) : opIndexQuery.effect c n s =
    (s, .read (x.layout ++ leBytes 8 (sumNat (x.content.map fun v => ((x.current v.number).filter fun i => i.main).length)) ++
      leBytes 8 x.driftAll ++ leBytes 8 (maxNat (x.content.map fun v => x.drift v.number)) ++ leBytes 8 (32 * x.blocks))) := by
  unfold opIndexQuery
  dsimp only
  rw [hx]

theorem opKvsetQuery_answers {k : KvSet} (hk : s.kvSet (c.f 16 2) = some k) (n : Nat) : opKvsetQuery.effect c n s =
    (s, .read (k.layout ++ leBytes 8 (s.kvFree k).1 ++ leBytes 8 (s.kvFree k).2 ++ leBytes 8 (s.kvSeqs k))) := by
  unfold opKvsetQuery
  dsimp only
  rw [hk]

end

/-- Settles O5: each command has the effect of its operation, and DONE, the body or the ticket that the engine adds (`served_done`,
`served_read`, `served_pending`); a query goes by the channel that it came on (`relasOpOf_local`, `served_shoreQuery`). -/
theorem objectCommands : Obligations.ObjectCommands := by
  intro c s u
  refine ⟨fun h => ?_, fun h t ht => ?_, fun h hc t ht => ?_, fun h n hc => ?_, fun h => ?_, fun h => ?_, fun h hc x hx => ?_,
    fun h n hc => ?_, fun h => ?_, fun h => ?_, fun h k hk => ?_⟩
  · exact congrArg _ (served_done h (served_plain h (by decide) rfl) (by decide) rfl)
  · exact congrArg _ (served_pending h (served_plain h (by decide) rfl) (by decide) (opTableDestroy_drops ht _))
  · exact congrArg _ (served_read h (relasOpOf_local (served_opcode h) hc) (by decide) (opTableQuery_answers ht _))
  · exact congrArg _ (served_shoreQuery h (.inl rfl) hc)
  · exact congrArg _ (served_done h (served_plain h (by decide) rfl) (by decide) rfl)
  · exact congrArg _ (served_pending h (served_plain h (by decide) rfl) (by decide) rfl)
  · exact congrArg _ (served_read h (relasOpOf_local (served_opcode h) hc) (by decide) (opIndexQuery_answers hx _))
  · exact congrArg _ (served_shoreQuery h (.inr rfl) hc)
  · exact congrArg _ (served_done h (served_plain h (by decide) rfl) (by decide) rfl)
  · exact congrArg _ (served_pending h (served_plain h (by decide) rfl) (by decide) rfl)
  · exact congrArg _ (served_read h (served_plain h (by decide) rfl) (by decide) (opKvsetQuery_answers hk _))

end Sys2Proof.Machine
end

section
/-! SUPPORT. The work on KV sets: KV_APPEND, KV_FORK in both modes and KV_GATHER (spec 12: R496–R511): what each step does once its
condition holds. -/

namespace Sys2Proof.Machine

/-! ### KV_APPEND (R498, R501–R503) -/

/-- The source of an append. -/
def Desc.appendSource (d : Desc) (k : KvSet) : List (Nat × Nat) := d.pieces 0 0 (d.f 24 4 * k.tb)

/-- LENGTH of the sequence that byte 20 of a descriptor names. -/
def State.seqLen (s : State) (d : Desc) (k : KvSet) : Nat := (s.seqEntry k none (d.f 20 4)).1

/-- The reads of an append, its source and its tables: the state, and whether all is at hand. -/
def State.appendReads (s : State) (d : Desc) (k : KvSet) : State × Bool :=
  s.readyRead d.id (d.appendSource k ++
    s.tablePieces k none (d.f 20 4) (s.seqLen d k / k.p) (ceilDiv (s.seqLen d k % k.p + d.f 24 4) k.p))

/-- RESULT1 of an append: the pages that it allocated, and those that it copied. -/
def Growth.result1 (g : Growth) : Nat := sat 2 g.pages + 2 ^ 16 * sat 2 g.copied

/-- The state of an append that took effect, its results kept until its writes are performed. -/
def Growth.recorded (g : Growth) (id len : Nat) : State :=
  g.s.setDesc id fun d => ((d.setAux 0 1).setAux 1 len).setAux 2 g.result1

/-- What an append `e` with its reads at hand comes to: the whole of it, or nothing; `len` and `t` are the tokens there and to add. -/
def State.appendOutcome (s : State) (e : Desc) (k : KvSet) (len t : Nat) (src : List (Nat × Nat)) : State :=
  if 16777216 < len + t then s.kvNothing e Cause.seqFull len
  else match (s.touchPieces src).appendTokens e k with
  | none => s.kvNothing e Cause.noPage len
  | some g => match (g.recorded e.id (len + t)).desc e.id with
    | some e' => if e'.awaiting.isEmpty then (g.recorded e.id (len + t)).ok e'.id (len + t) g.result1 else g.recorded e.id (len + t)
    | none => g.recorded e.id (len + t)

section
variable {s : State} {e : Desc} {k : KvSet} {len t : Nat} {src : List (Nat × Nat)}

theorem appendOutcome_seqFull (hl : 16777216 < len + t) : s.appendOutcome e k len t src = s.kvNothing e Cause.seqFull len :=
  if_pos hl

theorem appendOutcome_noPage (hl : len + t ≤ 16777216) (hg : (s.touchPieces src).appendTokens e k = none) :
    s.appendOutcome e k len t src = s.kvNothing e Cause.noPage len := by
  unfold State.appendOutcome
  rw [if_neg (Nat.not_lt.2 hl), hg]

theorem appendOutcome_whole {g : Growth} {e' : Desc} (hl : len + t ≤ 16777216) (hg : (s.touchPieces src).appendTokens e k = some g)
    (he : (g.recorded e.id (len + t)).desc e.id = some e') (ha : e'.awaiting = []) :
    s.appendOutcome e k len t src = (g.recorded e.id (len + t)).ok e'.id (len + t) g.result1 := by
  unfold State.appendOutcome
  rw [if_neg (Nat.not_lt.2 hl), hg]
  dsimp only
  rw [he]
  exact if_pos (List.isEmpty_iff.2 ha)

end

section
variable {s : State} {i : Nat} {d : Desc} (h : atWork 0x50 i s d = true)
include h

theorem execKvAppend_setGone (hk : s.kvSet (d.f 16 2) = none) :
    execKvAppend i s = .next (noted i d (s.stop d Status.abortedBySoftware Cause.badKvset)) := by
  unfold execKvAppend
  rw [State.work_go h, hk]

section
variable {k : KvSet} {e : Desc} (hk : s.kvSet (d.f 16 2) = some k) (h0 : d.auxAt 0 = 0) (he : (s.appendReads d k).1.desc d.id = some e)
include hk h0 he

/-- An append that has had no effect yet asks for its reads, and goes on where they are at hand and none has failed. -/
theorem execKvAppend_steps : execKvAppend i s = .next (noted i d
    (if !(s.appendReads d k).2 ∨ e.fail.isSome then (s.appendReads d k).1
      else (s.appendReads d k).1.appendOutcome e k (s.seqLen d k) (d.f 24 4) (d.appendSource k))) := by
  unfold execKvAppend
  rw [State.work_go h, hk]
  dsimp only
  rw [if_neg (not_not_intro h0)]
  unfold State.appendReads State.seqLen Desc.appendSource at he ⊢
  rw [he]
  rfl

theorem execKvAppend_waits (hr : (s.appendReads d k).2 = false) : execKvAppend i s = .next (noted i d (s.appendReads d k).1) := by
  rw [execKvAppend_steps h hk h0 he, if_pos (.inl (by simp [hr]))]

theorem execKvAppend_goes (hr : (s.appendReads d k).2 = true) (hf : e.fail = none) : execKvAppend i s = .next (noted i d
    ((s.appendReads d k).1.appendOutcome e k (s.seqLen d k) (d.f 24 4) (d.appendSource k))) := by
  rw [execKvAppend_steps h hk h0 he, if_neg (by simp [hr, hf])]

end

end

/-! ### KV_FORK in both modes (R504–R506) -/

/-- The reads of a fork or a truncation, the tables that it changes: the state, and whether all is at hand. -/
def State.forkReads (s : State) (d : Desc) (k : KvSet) : State × Bool :=
  s.readyRead d.id (s.tablePieces k none (d.f 20 4) 0 (ceilDiv (s.seqLen d k) k.p) ++
    if d.f 18 1 = 0 then s.tablePieces k none (d.f 24 4) 0 0 else [])

section
variable {s : State} {d : Desc} {go : State → Desc → KvSet → State × Completion}

theorem forkStep_setGone (hk : s.kvSet (d.f 16 2) = none) : s.forkStep d go = s.stop d Status.abortedBySoftware Cause.badKvset := by
  unfold State.forkStep
  rw [hk]

/-- With its tables at hand, a fork or a truncation has its effect and completes. -/
theorem forkStep_goes {k : KvSet} {e : Desc} (hk : s.kvSet (d.f 16 2) = some k) (h0 : d.auxAt 0 = 0) (hr : (s.forkReads d k).2 = true)
    (he : (s.forkReads d k).1.desc d.id = some e) (hf : e.fail = none) : s.forkStep d go =
      ((go (s.forkReads d k).1 e k).1.setDesc e.id fun x => x.setAux 0 1).complete e.id (go (s.forkReads d k).1 e k).2 := by
  unfold State.forkReads State.seqLen at hr he ⊢
  unfold State.forkStep
  rw [hk]
  dsimp only
  rw [if_neg (not_not_intro h0), he]
  dsimp only
  rw [if_neg (by simp [hr, hf])]

end

section
variable {s : State} {i : Nat} {d : Desc} (h : atWork 0x52 i s d = true)
include h

theorem execKvFork_setGone (hm : d.f 18 1 = 0) (hk : s.kvSet (d.f 16 2) = none) :
    execKvFork i s = .next (noted i d (s.stop d Status.abortedBySoftware Cause.badKvset)) := by
  unfold execKvFork
  rw [State.workMode_go h hm, forkStep_setGone hk]

theorem execKvTruncate_setGone (hm : d.f 18 1 = 1) (hk : s.kvSet (d.f 16 2) = none) :
    execKvTruncate i s = .next (noted i d (s.stop d Status.abortedBySoftware Cause.badKvset)) := by
  unfold execKvTruncate
  rw [State.workMode_go h hm, forkStep_setGone hk]

section
variable {k : KvSet} {e : Desc} (hk : s.kvSet (d.f 16 2) = some k) (h0 : d.auxAt 0 = 0) (hr : (s.forkReads d k).2 = true)
  (he : (s.forkReads d k).1.desc d.id = some e) (hf : e.fail = none)
include hk h0 hr he hf

theorem execKvFork_forks {u : State} (hm : d.f 18 1 = 0) (hu : (s.forkReads d k).1.forkSeq e k = .ok u) : execKvFork i s =
    .next (noted i d ((u.setDesc e.id fun x => x.setAux 0 1).complete e.id ⟨Status.ok, 0, e.f 28 4, ceilDiv (e.f 28 4) k.p, 0⟩)) := by
  unfold execKvFork
  rw [State.workMode_go h hm, forkStep_goes hk h0 hr he hf, hu]

theorem execKvFork_hasNoEffect {ca : Nat} (hm : d.f 18 1 = 0) (hu : (s.forkReads d k).1.forkSeq e k = .error ca) : execKvFork i s =
    .next (noted i d (((s.forkReads d k).1.setDesc e.id fun x => x.setAux 0 1).complete e.id
      ⟨Status.okPartial, reasonKvState, ((s.forkReads d k).1.seqEntry k none (e.f 24 4)).1, 0, ca⟩)) := by
  unfold execKvFork
  rw [State.workMode_go h hm, forkStep_goes hk h0 hr he hf, hu]

theorem execKvTruncate_truncates (hm : d.f 18 1 = 1) : execKvTruncate i s = .next (noted i d
    ((((s.forkReads d k).1.truncateSeq e k).1.setDesc e.id fun x => x.setAux 0 1).complete e.id
      ⟨Status.ok, 0, ((s.forkReads d k).1.truncateSeq e k).1.seqLen e k, ((s.forkReads d k).1.truncateSeq e k).2, 0⟩)) := by
  unfold execKvTruncate
  rw [State.workMode_go h hm, forkStep_goes hk h0 hr he hf]
  rfl

end

end

/-! ### KV_GATHER (R499, R507–R511) -/

section
variable {s : State} {i : Nat} {d : Desc} (h : atWork 0x51 i s d = true)
include h

theorem execKvGather_setGone (hk : s.kvSet (d.f 16 2) = none) :
    execKvGather i s = .next (noted i d (s.kvStop d Status.abortedBySoftware Cause.badKvset)) := by
  unfold execKvGather
  rw [State.work_go h, hk]

section
variable {k : KvSet} (hk : s.kvSet (d.f 16 2) = some k)
include hk

theorem execKvGather_begins (h0 : d.auxAt 0 = stageIndex) : execKvGather i s = .next (noted i d (s.kvBegin d k)) := by
  have answered : ¬ (!d.awaiting.isEmpty) = true := by simp [atWork_awaiting h]
  unfold execKvGather
  rw [State.work_go h, hk]
  dsimp only
  rw [if_neg answered, if_pos h0]

/-- `t` is the state after the next page, where one is left; `e` is the descriptor there, which ends when no page is left. -/
theorem execKvGather_steps {t : State} {e : Desc} (h0 : d.auxAt 0 ≠ stageIndex)
    (ht : (if d.kSkip k + d.progress < d.kPages k then s.kvNext d k else s) = t) (he : t.desc d.id = some e) :
    execKvGather i s = .next (noted i d
      (if e.kSkip k + e.progress ≥ e.kPages k ∧ e.awaiting.isEmpty ∧ e.fail.isNone ∧ e.done.isNone then t.kvEnd e else t)) := by
  have answered : ¬ (!d.awaiting.isEmpty) = true := by simp [atWork_awaiting h]
  unfold execKvGather
  rw [State.work_go h, hk]
  dsimp only
  rw [if_neg answered, if_neg h0, ht, he]

theorem execKvGather_finishes (h0 : d.auxAt 0 ≠ stageIndex) (hp : d.kPages k ≤ d.kSkip k + d.progress) :
    execKvGather i s = .next (noted i d (s.kvEnd d)) := by
  rw [execKvGather_steps h hk h0 (if_neg (Nat.not_lt.2 hp)) (atWork_desc h),
    if_pos ⟨hp, atWork_awaiting h, by simp [atWork_fail h], by simp [atWork_done h]⟩]

theorem execKvGather_page {e : Desc} (h0 : d.auxAt 0 ≠ stageIndex) (hp : d.kSkip k + d.progress < d.kPages k)
    (he : (s.kvNext d k).desc d.id = some e) (hq : e.kSkip k + e.progress < e.kPages k) :
    execKvGather i s = .next (noted i d (s.kvNext d k)) := by
  rw [execKvGather_steps h hk h0 (if_pos hp) he, if_neg fun last => Nat.not_le.2 hq last.1]

end

end

/-- Settles O23: each step is the case that its lemma names; an append whose reads are at hand comes to its outcome (`execKvAppend_goes`,
`State.appendOutcome`), and a failed access stops it or a gather as every descriptor's work is stopped (`State.work_stopped`). -/
theorem kvWork : Obligations.KvWork := by
  intro s i d
  refine ⟨fun h k hk h0 => ⟨fun hr e he => execKvAppend_waits h hk h0 he hr, fun hr e he hf => ?_⟩,
    fun h k hk h0 hr e he hf => ⟨fun hm u => execKvFork_forks h hk h0 hr he hf hm, fun hm ca => execKvFork_hasNoEffect h hk h0 hr he hf hm,
      execKvTruncate_truncates h hk h0 hr he hf⟩,
    fun h k hk => ⟨execKvGather_begins h hk, fun h0 => ⟨execKvGather_finishes h hk h0, fun hp e => execKvGather_page h hk h0 hp⟩⟩,
    fun hk => ⟨fun h => execKvAppend_setGone h hk, fun h => execKvGather_setGone h hk, fun h hm => execKvFork_setGone h hm hk,
      fun h hm => execKvTruncate_setGone h hm hk⟩,
    fun st ca h => congrArg _ (State.work_stopped h), fun st ca h => congrArg _ (State.work_stopped h)⟩
  have outcome := execKvAppend_goes h hk h0 he hr hf
  exact ⟨fun hl => outcome.trans (congrArg _ (congrArg _ (appendOutcome_seqFull hl))),
    fun hl hg => outcome.trans (congrArg _ (congrArg _ (appendOutcome_noPage hl hg))),
    fun hl g hg e' he' ha => outcome.trans (congrArg _ (congrArg _ (appendOutcome_whole hl hg he' ha)))⟩

end Sys2Proof.Machine
end

section
/-! SUPPORT. Steps and runs of the whole block (spec 01: R51; spec 18: R708; spec 19: R721, R724, R728): what one step gives, and what holds of a run
when each step passes it on. -/

namespace Sys2Proof.Machine

/-- Settles O39: it is how `step` is made. -/
theorem stepTakesTheFront : Obligations.StepTakesTheFront := fun _ _ _ => rfl

/-- Settles O42: the table that the decoder reads has no bits for any row. -/
theorem noWordSpellsACommand : Obligations.NoWordSpellsACommand := fun _ _ _ => ⟨rfl, rfl⟩

/-- What a step that answers next leaves in force. -/
theorem step_keeps {s t : State} (h : step s = .next t) : KeepsAll { s with pending := s.pending.tail } t := by
  obtain ⟨u, hu, k⟩ := step_keepsAll s
  rw [h] at hu
  cases hu
  exact k

theorem step_pending {s t : State} (h : step s = .next t) : t.pending = s.pending.tail := (step_keeps h).pending

/-- A run goes on to its end, and a relation that holds over no step and that each step passes on holds over it. -/
theorem steps_relate {R : Nat → State → State → Prop} (none : ∀ s, R 0 s s)
    (more : ∀ n s t u, step s = .next t → R n t u → R (n + 1) s u) : ∀ n s, ∃ t, steps n s = .next t ∧ R n s t
  | 0, s => ⟨s, rfl, none s⟩
  | n + 1, s => by
    obtain ⟨t, ht, -⟩ := step_keepsAll s
    obtain ⟨u, hu, r⟩ := steps_relate none more n t
    refine ⟨u, ?_, more n s t u ht r⟩
    unfold steps
    rw [ht]
    exact hu

/-- Settles O44: no command stops the block or touches the queue (`step_keepsAll`), and a run repeats the step. -/
theorem stepAnswersAlways : Obligations.StepAnswersAlways := by
  refine ⟨fun s => ?_, steps_relate (R := fun n s t => t.pending = s.pending.drop n) (fun _ => rfl) fun n s t u h r => ?_⟩
  · obtain ⟨t, ht, k⟩ := step_keepsAll s
    exact ⟨t, ht, k.pending⟩
  · rw [r, step_pending h, ← List.drop_one, List.drop_drop, Nat.add_comm]

/-- A step over a queue without a command of the Tollhouse leaves the Tollhouse as it was. -/
theorem step_toll {s t : State} (hs : ∀ c ∈ s.pending, tollRow c = false) (h : step s = .next t) : t.toll = s.toll := by
  unfold step at h
  split at h
  next => cases h; rfl
  next c rest hp =>
    obtain ⟨u, hu, k⟩ := exec_keeps c (hs c (by simp [hp])) { s with pending := rest }
    rw [hu] at h
    cases h
    exact k.toll

/-- Settles O46: each command keeps the Tollhouse (`exec_keeps`), and the commands behind the first are no more the Tollhouse's than it. -/
theorem tollhouseApart : Obligations.TollhouseApart := by
  refine ⟨fun i s hi => ?_, fun s hs n => ?_⟩
  · obtain ⟨t, ht, k⟩ := exec_keeps i hi s
    exact ⟨t, ht, k.toll⟩
  · obtain ⟨t, ht, r⟩ := steps_relate (R := fun _ s t => (∀ c ∈ s.pending, tollRow c = false) → t.toll = s.toll) (fun _ _ => rfl)
      (fun n s t u h r hs => (r fun c hc => hs c (List.mem_of_mem_tail (step_pending h ▸ hc))).trans (step_toll hs h)) n s
    exact ⟨t, ht, r hs⟩

/-- Settles O47: each step keeps what the numbering, the seal and the store stand on (`step_keeps`). -/
theorem tollRecordsOnlyGrow : Obligations.TollRecordsOnlyGrow :=
  steps_relate (R := fun _ s t => s.toll.nextSeq ≤ t.toll.nextSeq ∧ (s.toll.broken = true → t.toll.broken = true) ∧ (s.toll.Ok → t.toll.Ok))
    (fun _ => ⟨Nat.le_refl _, id, id⟩) fun _ _ _ _ h r =>
      have k := step_keeps h
      ⟨Nat.le_trans k.seq r.1, fun b => r.2.1 (k.broken b), fun w => r.2.2 (k.ok w)⟩

/-! ### An idle cycle (R733, R734) -/

/-- With the rate correction within its limit, a cycle of 8 ticks moves on by 7 to 9 whole ones. -/
theorem cycle_ticks {fraction : Nat} {rate : Int} (h1 : -(rateLimit : Int) ≤ rate) (h2 : rate ≤ rateLimit) (hf : fraction < 2 ^ 32) :
    7 ≤ (((fraction : Int) + rate + 8 * 2 ^ 32) / 2 ^ 32).toNat ∧ (((fraction : Int) + rate + 8 * 2 ^ 32) / 2 ^ 32).toNat ≤ 9 := by
  unfold rateLimit at h1 h2
  omega

/-- Settles O40: on an empty queue a step is `State.idle`, which moves the clock by `Clock.cycle`. -/
theorem idleCycle : Obligations.IdleCycle := by
  intro s hp
  have idles : step s = .next s.idle := by
    unfold step
    rw [hp]
  refine ⟨⟨_, _, idles⟩, fun h1 h2 hf t ht => ?_⟩
  rw [idles] at ht
  cases ht
  refine ⟨?_, _, (cycle_ticks h1 h2 hf).1, (cycle_ticks h1 h2 hf).2, rfl⟩
  show (((s.clock.fraction : Int) + s.clock.rate + 8 * 2 ^ 32) % 2 ^ 32).toNat < 2 ^ 32
  omega

/-! ### Reset -/

/-- Settles O41: each value is read off `State.reset`. -/
theorem resetState : Obligations.ResetState := by
  refine ⟨rfl, rfl, rfl, rfl, ?_, ?_, fun _ => rfl, rfl, ⟨?_, ?_, ?_, ?_⟩, rfl, rfl, rfl⟩
  · decide
  · decide
  · decide
  · decide
  · decide
  · decide

end Sys2Proof.Machine
end

section
/-! SUPPORT. What an interval's energy comes to (spec 19: R716–R719): the split of R718 gives away exactly what it is given, so the credits of
a frame add up to the energy measured, and each goes to its own account. -/

namespace Sys2Proof.Machine

/-! ### Counting by rank -/

theorem countP_range_lt {k n : Nat} (h : k ≤ n) : (List.range n).countP (fun i => decide (i < k)) = k := by
  obtain ⟨m, rfl⟩ := Nat.exists_eq_add_of_le h
  have below : (List.range k).countP (fun i => decide (i < k)) = k := by
    rw [List.countP_eq_length.2 fun i hi => decide_eq_true (List.mem_range.1 hi), List.length_range]
  rw [List.range_add, List.countP_append, below, List.countP_eq_zero.2 fun i hi => by
    obtain ⟨j, -, rfl⟩ := List.mem_map.1 hi
    simp]
  rfl

section
variable {α : Type} {lt : α → α → Bool} {l : List α}

/-- How many elements come before one. -/
def rankIn (lt : α → α → Bool) (l : List α) (a : α) : Nat := l.countP fun b => lt b a

theorem rankIn_lt_length (irrefl : ∀ a, lt a a = false) {a : α} (ha : a ∈ l) : rankIn lt l a < l.length := by
  refine Nat.lt_of_le_of_ne List.countP_le_length fun h => ?_
  have := List.countP_eq_length.1 h a ha
  simp [irrefl] at this

theorem rankIn_lt_rankIn (irrefl : ∀ a, lt a a = false) (trans : ∀ a b c, lt a b → lt b c → lt a c) {a b : α} (ha : a ∈ l) (hab : lt a b) :
    rankIn lt l a < rankIn lt l b := by
  induction l with
  | nil => cases ha
  | cons c l ih => 
    unfold rankIn at *
    have le : l.countP (fun c => lt c a) ≤ l.countP (fun c => lt c b) := List.countP_mono_left fun c _ h => trans c a b h hab
    rw [List.countP_cons, List.countP_cons]
    rcases List.mem_cons.1 ha with rfl | ha
    · simp only [irrefl, hab, Bool.false_eq_true, if_false, if_true]
      omega
    · have more := ih ha
      have first : lt c a = true → lt c b = true := fun h => trans c a b h hab
      by_cases hc : lt c a = true
      · rw [if_pos hc, if_pos (first hc)]
        omega
      · rw [if_neg hc]
        omega

/-- A list without repeats whose elements are among those of a list that is no longer is a permutation of it. -/
theorem perm_of_nodup_of_subset {l m : List Nat} (hl : l.Nodup) (hm : m.Nodup) (sub : l ⊆ m) (len : m.length ≤ l.length) : l.Perm m := by
  refine (List.perm_ext_iff_of_nodup hl hm).2 fun a => ⟨fun h => sub h, fun ha => Decidable.byContradiction fun hc => ?_⟩
  have more := (List.nodup_cons.2 ⟨hc, hl⟩).length_le_of_subset (List.cons_subset.2 ⟨ha, sub⟩)
  rw [List.length_cons] at more
  omega

/-- Of a list without repeats in a total order, as many elements have a rank below `k` as there are ranks below it. -/
theorem countP_rankIn_lt (irrefl : ∀ a, lt a a = false) (trans : ∀ a b c, lt a b → lt b c → lt a c)
    (total : ∀ a b, a ≠ b → lt a b ∨ lt b a) (hl : l.Nodup) {k : Nat} (hk : k ≤ l.length) :
    l.countP (fun a => decide (rankIn lt l a < k)) = k := by
  have inj : (l.map (rankIn lt l)).Nodup := List.pairwise_map.2 (hl.imp_of_mem fun {a b} ha hb hne h => by
    rcases total a b hne with h' | h'
    · exact absurd h (Nat.ne_of_lt (rankIn_lt_rankIn irrefl trans ha h'))
    · exact absurd h.symm (Nat.ne_of_lt (rankIn_lt_rankIn irrefl trans hb h')))
  have sub : l.map (rankIn lt l) ⊆ List.range l.length := fun n hn => by
    obtain ⟨a, ha, rfl⟩ := List.mem_map.1 hn
    exact List.mem_range.2 (rankIn_lt_length irrefl ha)
  have perm : (l.map (rankIn lt l)).Perm (List.range l.length) :=
    perm_of_nodup_of_subset inj List.nodup_range sub (Nat.le_of_eq (List.length_range.trans (List.length_map _).symm))
  calc l.countP (fun a => decide (rankIn lt l a < k)) = (l.map (rankIn lt l)).countP (fun n => decide (n < k)) := by
        rw [List.countP_map]; rfl
    _ = (List.range l.length).countP (fun n => decide (n < k)) := perm.countP_eq _
    _ = k := countP_range_lt hk

end

/-! ### The split (R718) -/

theorem sumNat_eq_sum (l : List Nat) : sumNat l = l.sum := List.sum_eq_foldl.symm

/-- All to the first, nothing to the others. -/
theorem firstTakes_sum {α : Type} (t : Nat) {l : List α} (h : l ≠ []) : (l.zipIdx.map fun x => if x.2 = 0 then t else 0).sum = t := by
  cases l with
  | nil => exact absurd rfl h
  | cons a l =>
    rw [List.zipIdx_cons, List.map_cons, List.sum_cons, List.sum_eq_zero_iff_forall_eq_nat.2 fun n hn => ?_]
    · rfl
    · obtain ⟨x, hx, rfl⟩ := List.mem_map.1 hn
      exact if_neg (Nat.ne_of_gt (List.le_snd_of_mem_zipIdx hx))

/-- A remainder with its place; the larger remainder comes first, and of equal ones the earlier. -/
def before (p a : Nat × Nat) : Bool := a.1 < p.1 || (p.1 == a.1 && p.2 < a.2)

theorem before_irrefl (a : Nat × Nat) : before a a = false := by simp [before]

theorem before_trans (a b c : Nat × Nat) (h : before a b) (k : before b c) : before a c := by
  simp only [before, Bool.or_eq_true, Bool.and_eq_true, decide_eq_true_eq, beq_iff_eq] at *
  omega

theorem before_total (a b : Nat × Nat) (h : a ≠ b) : before a b ∨ before b a := by
  have : a.1 ≠ b.1 ∨ a.2 ≠ b.2 := by
    refine Decidable.byContradiction fun hc => h (Prod.ext ?_ ?_) <;> omega
  simp only [before, Bool.or_eq_true, Bool.and_eq_true, decide_eq_true_eq, beq_iff_eq]
  omega

theorem nodup_zipIdx {α : Type} (l : List α) : l.zipIdx.Nodup := by
  have places : (l.zipIdx.map Prod.snd).Nodup := by
    rw [List.zipIdx_map_snd]
    exact List.nodup_range' 1
  exact (List.pairwise_map.1 places).imp fun h e => h (congrArg Prod.snd e)

/-- Quotients and remainders of the shares of `t` by weights that add up to `m`. -/
theorem shares_sum (t m : Nat) (w : List Nat) : m * (w.map fun x => t * x / m).sum + (w.map fun x => t * x % m).sum = t * w.sum := by
  induction w with
  | nil => simp
  | cons x w ih =>
    simp only [List.map_cons, List.sum_cons]
    have := Nat.div_add_mod (t * x) m
    rw [Nat.mul_add, Nat.mul_add]
    omega

theorem remainders_le {t m : Nat} (hm : 0 < m) (w : List Nat) : (w.map fun x => t * x % m).sum ≤ w.length * m := by
  induction w with
  | nil => simp
  | cons x w ih =>
    simp only [List.map_cons, List.sum_cons, List.length_cons]
    have := Nat.mod_lt (t * x) hm
    rw [Nat.add_mul]
    omega

/-- Shares of which some are raised by one. -/
theorem raised_sum {α : Type} (f : α → Nat) (p : α → Bool) (l : List α) :
    (l.map fun x => if p x then f x + 1 else f x).sum = (l.map f).sum + l.countP p := by
  induction l with
  | nil => rfl
  | cons x l ih =>
    simp only [List.map_cons, List.sum_cons, List.countP_cons, ih]
    split <;> omega

/-- Shares `b` of which the `left` with the largest of the remainders `q` are raised by one. -/
theorem raisedByRank_sum {b q : List Nat} {left : Nat} (hl : b.length = q.length) (h : left ≤ q.length) :
    ((b.zip q).zipIdx.map fun x => if rankIn before q.zipIdx (x.1.2, x.2) < left then x.1.1 + 1 else x.1.1).sum = b.sum + left := by
  have shares : (b.zip q).zipIdx.map (fun x => x.1.1) = b := by
    show (b.zip q).zipIdx.map (Prod.fst ∘ Prod.fst) = b
    rw [← List.map_map, List.zipIdx_map_fst, List.map_fst_zip (Nat.le_of_eq hl)]
  have places : (b.zip q).zipIdx.map (fun x => (x.1.2, x.2)) = q.zipIdx := by
    rw [show q.zipIdx = ((b.zip q).map Prod.snd).zipIdx by rw [List.map_snd_zip (Nat.le_of_eq hl.symm)], List.zipIdx_map]
    rfl
  have raised := raised_sum (fun x : (Nat × Nat) × Nat => x.1.1) (fun x => decide (rankIn before q.zipIdx (x.1.2, x.2) < left)) (b.zip q).zipIdx
  simp only [decide_eq_true_eq, shares] at raised
  rw [raised, Nat.add_left_cancel_iff]
  have count := countP_rankIn_lt before_irrefl before_trans before_total (nodup_zipIdx q) (k := left) (by simpa using h)
  rw [← places, List.countP_map, places] at count
  exact count

/-- What a split gives away is what there was. -/
theorem tollSplit_sum (t : Nat) {w : List Nat} (h : w ≠ []) : (tollSplit t w).sum = t := by
  unfold tollSplit
  simp only [sumNat_eq_sum, ← List.countP_eq_length_filter]
  split
  · exact firstTakes_sum t h
  · rename_i hm
    have pos : 0 < w.sum := Nat.pos_of_ne_zero hm
    have whole := shares_sum t w.sum w
    have rest := remainders_le (t := t) pos w
    have given : (w.map fun x => t * x / w.sum).sum ≤ t := by
      refine Nat.le_of_mul_le_mul_left (c := w.sum) ?_ pos
      rw [Nat.mul_comm w.sum t]
      omega
    obtain ⟨left, hleft⟩ := Nat.exists_eq_add_of_le given
    have few : left ≤ w.length := by
      refine Nat.le_of_mul_le_mul_right (c := w.sum) ?_ pos
      have parts : t * w.sum = w.sum * (w.map fun x => t * x / w.sum).sum + left * w.sum := by
        conv => lhs; rw [hleft]
        rw [Nat.add_mul, Nat.mul_comm w.sum]
      omega
    have raised := raisedByRank_sum (b := w.map fun x => t * x / w.sum) (q := w.map fun x => t * x % w.sum) (by simp)
      (left := t - (w.map fun x => t * x / w.sum).sum) (by rw [List.length_map]; omega)
    refine raised.trans (by omega)

/-! ### A rail's credits (R718) -/

theorem tollSplit_length (t : Nat) (w : List Nat) : (tollSplit t w).length = w.length := by
  unfold tollSplit
  dsimp only
  split <;> simp

theorem sum_zip_add : ∀ (a b : List Nat), a.length = b.length → ((a.zip b).map fun x => x.1 + x.2).sum = a.sum + b.sum
  | [], [], _ => rfl
  | x :: a, y :: b, h => by
    have ih := sum_zip_add a b (Nat.succ.inj h)
    simp only [List.zip_cons_cons, List.map_cons, List.sum_cons, ih]
    omega

/-- The dynamic energy of a rail, by the counts' weights, or to guest 0. -/
def dynamicShares (d : Nat) (gs : List FrameGuest) (a : List Nat) : List Nat :=
  if 0 < sumNat a then tollSplit d a else gs.zipIdx.map fun x => if x.2 = 0 then d else 0

section
variable {gs : List FrameGuest} {a : List Nat} (hl : a.length = gs.length)
include hl

theorem dynamicShares_length (d : Nat) : (dynamicShares d gs a).length = gs.length := by
  unfold dynamicShares
  split
  · rw [tollSplit_length, hl]
  · simp

theorem dynamicShares_sum (d : Nat) (h : gs ≠ []) : (dynamicShares d gs a).sum = d := by
  unfold dynamicShares
  split
  · exact tollSplit_sum d (List.ne_nil_of_length_pos (hl ▸ List.length_pos_iff.2 h))
  · exact firstTakes_sum d h

end

/-- The guests' activity on a rail. -/
def railActivity (gs : List FrameGuest) (r : Nat) : List Nat :=
  gs.map fun g => sumNat (((tollWeights.getD r []).zip g.counts).map fun (w, n) => w * n)

theorem railActivity_length (gs : List FrameGuest) (r : Nat) : (railActivity gs r).length = gs.length := List.length_map _

/-- The part of a rail's energy that is idle. -/
def railStill (us r e : Nat) : Nat := min e (idleMw r * us / 3600)

theorem closeRail_eq (gs : List FrameGuest) (us r e : Nat) : closeRail gs us r e =
    ((tollSplit (railStill us r e) (gs.map fun g => g.cove + 4 * g.pin)).zip
      (dynamicShares (e - railStill us r e) gs (railActivity gs r))).map fun x => (x.1 + x.2, x.2) := rfl

theorem closeRail_length (gs : List FrameGuest) (us r e : Nat) : (closeRail gs us r e).length = gs.length := by
  rw [closeRail_eq, List.length_map, List.length_zip, tollSplit_length, dynamicShares_length (railActivity_length gs r), List.length_map,
    Nat.min_self]

/-- A rail's credits add up to its energy. -/
theorem closeRail_sum {gs : List FrameGuest} (h : gs ≠ []) (us r e : Nat) : ((closeRail gs us r e).map Prod.fst).sum = e := by
  have hl := dynamicShares_length (railActivity_length gs r) (e - railStill us r e)
  have still : railStill us r e ≤ e := Nat.min_le_left _ _
  rw [closeRail_eq, List.map_map]
  refine (sum_zip_add _ _ (by rw [tollSplit_length, hl, List.length_map])).trans ?_
  rw [tollSplit_sum _ (by simpa using h), dynamicShares_sum (railActivity_length gs r) _ h]
  omega

/-- One entry of a list for each element of another as long. -/
theorem map_zipIdx_getD {α β : Type} {l : List α} {m : List β} (h : m.length = l.length) (d : β) :
    (l.zipIdx.map fun x => m.getD x.2 d) = m := by
  refine List.ext_getElem (by simp [h]) fun i h1 h2 => ?_
  simp [List.getD_eq_getElem?_getD, h2]

/-! ### The guests of a frame (R714) -/

theorem mem_insertNat {x y : Nat} {l : List Nat} : y ∈ insertNat x l ↔ y = x ∨ y ∈ l := by
  induction l with
  | nil => simp [insertNat]
  | cons z l ih =>
    unfold insertNat
    split
    · exact List.mem_cons
    · rw [List.mem_cons, List.mem_cons, ih, or_left_comm]

theorem mem_sortNat {y : Nat} {l : List Nat} : y ∈ sortNat l ↔ y ∈ l := by
  induction l with
  | nil => rfl
  | cons x l ih => rw [sortNat, mem_insertNat, List.mem_cons, ih]

theorem mem_setAdd_self {α : Type} [DecidableEq α] (x : α) (l : List α) : x ∈ setAdd x l := by
  unfold setAdd
  split
  · assumption
  · simp

/-- Guest 0 is always among a frame's guests. -/
theorem frameGuests_ne_nil (s : State) (counts : List (Nat × List Nat)) : s.frameGuests counts ≠ [] := by
  have zero : 0 ∈ sortNat (setAdd 0 (s.inn.guests.map (·.id))) := mem_sortNat.2 (mem_setAdd_self 0 _)
  unfold State.frameGuests
  dsimp only
  rw [ne_eq, List.map_eq_nil_iff]
  exact List.ne_nil_of_mem zero

/-! ### Accounts (R719) -/

theorem find_upsert {α κ : Type} [DecidableEq κ] (key : α → κ) (x : α) (k : κ) (l : List α) :
    (upsert key x l).find? (fun y => decide (key y = k)) = if key x = k then some x else l.find? fun y => decide (key y = k) := by
  have replaced : ∀ m : List α, (mapIf (fun y => decide (key y = key x)) (fun _ => x) m).find? (fun y => decide (key y = k)) =
      if key x = k then (m.find? fun y => decide (key y = k)).map fun _ => x else m.find? fun y => decide (key y = k) := by
    intro m
    induction m with
    | nil => simp [mapIf]
    | cons y m ih =>
      unfold mapIf at ih ⊢
      rw [List.map_cons, List.find?_cons, List.find?_cons, ih]
      by_cases hy : key y = key x <;> by_cases hx : key x = k <;> by_cases hk : key y = k <;> simp_all
  unfold upsert
  split
  · rename_i h
    rw [replaced]
    split
    · rename_i hx
      subst hx
      obtain ⟨y, hy⟩ := Option.isSome_iff_exists.1 (List.find?_isSome.2 (List.any_eq_true.1 h))
      rw [hy]
      rfl
    · rfl
  · rename_i h
    rw [List.find?_append, List.find?_singleton]
    by_cases hx : key x = k
    · subst hx
      rw [List.find?_eq_none.2 fun y hy hk => h (List.any_eq_true.2 ⟨y, hy, hk⟩)]
      simp
    · simp [hx]

/-- The whole credit of the account of a guest and epoch; an account that there is not has none. -/
def totalOf (accounts : List Account) (k : Nat × Nat) : Nat :=
  ((accounts.find? fun a => decide ((a.guest, a.epoch) = k)).map (·.total)).getD 0

theorem account_total (t : Toll) (g e : Nat) : (t.account g e).total = totalOf t.accounts (g, e) := by
  unfold Toll.account totalOf
  simp only [Prod.mk.injEq]
  cases t.accounts.find? fun a => decide (a.guest = g ∧ a.epoch = e) <;> rfl

theorem account_key (t : Toll) (g e : Nat) : ((t.account g e).guest, (t.account g e).epoch) = (g, e) := by
  unfold Toll.account
  cases h : t.accounts.find? fun a => decide (a.guest = g ∧ a.epoch = e) with
  | none => rfl
  | some a => exact Prod.ext_iff.2 (of_decide_eq_true (List.find?_some h :))

/-- One guest's share of an interval, rail by rail, goes to its account. -/
def creditInto (t : Toll) (us : Nat) (accounts : List Account) (x : FrameGuest × List (Nat × Nat)) : List Account :=
  let a := ({ t with accounts := accounts } : Toll).account x.1.guest x.1.epoch
  upsert (fun (y : Account) => (y.guest, y.epoch)) { a with
    total := a.total + sumNat (x.2.map (·.1))
    dynamic := a.dynamic + sumNat (x.2.map (·.2))
    rails := (a.rails.zip x.2).map fun (n, p) => n + p.1
    capacity := a.capacity + x.1.cove * us
    pin := a.pin + x.1.pin * us
    present := true } accounts

/-- The shares of a frame's guests, rail by rail. -/
def frameShares (gs : List FrameGuest) (us : Nat) (energy : List Nat) : List (FrameGuest × List (Nat × Nat)) :=
  gs.zipIdx.map fun (g, i) => (g, ((List.range 11).map fun r => closeRail gs us r (energy.getD r 0)).map fun col => col.getD i (0, 0))

theorem credit_eq (t : Toll) (gs : List FrameGuest) (us : Nat) (energy : List Nat) : t.credit gs us energy =
    { t with accounts := (frameShares gs us energy).foldl (creditInto t us) (t.accounts.map fun a => { a with present := false }) } := rfl

theorem totalOf_creditInto (t : Toll) (us : Nat) (accounts : List Account) (x : FrameGuest × List (Nat × Nat)) (k : Nat × Nat) :
    totalOf (creditInto t us accounts x) k =
      totalOf accounts k + if (x.1.guest, x.1.epoch) = k then sumNat (x.2.map (·.1)) else 0 := by
  have key := account_key { t with accounts := accounts } x.1.guest x.1.epoch
  have total := account_total { t with accounts := accounts } x.1.guest x.1.epoch
  unfold creditInto
  conv => lhs; unfold totalOf
  rw [find_upsert (fun a : Account => (a.guest, a.epoch)), key]
  split
  · rename_i h
    rw [← h]
    exact congrArg (· + _) total
  · rfl

theorem totalOf_credits (t : Toll) (us : Nat) (k : Nat × Nat) : ∀ (shares : List (FrameGuest × List (Nat × Nat))) (accounts : List Account),
    totalOf (shares.foldl (creditInto t us) accounts) k =
      totalOf accounts k + ((shares.filter fun x => decide ((x.1.guest, x.1.epoch) = k)).map fun x => sumNat (x.2.map (·.1))).sum
  | [], _ => rfl
  | x :: l, accounts => by
    rw [List.foldl_cons, totalOf_credits t us k l, totalOf_creditInto, List.filter_cons, Nat.add_assoc]
    by_cases h : (x.1.guest, x.1.epoch) = k <;> simp [h]

/-- Whether a guest is still present is no matter of its credit. -/
theorem totalOf_absent (accounts : List Account) (k : Nat × Nat) :
    totalOf (accounts.map fun a => { a with present := false }) k = totalOf accounts k := by
  unfold totalOf
  rw [List.find?_map, Option.map_map]
  rfl

/-! ### The interval (R717, R719, R720) -/

/-- The shore with which a frame's interval begins: a period that is over is written, and frames that return are recorded. -/
def State.framed (s : State) : State := if s.settlePeriod.toll.lost then s.settlePeriod.tollEvent 4 0 else s.settlePeriod

/-- The shore with which an interval without frames begins: a period that is over is written, and frames that fail are recorded. -/
def State.unframed (s : State) : State := if s.settlePeriod.toll.lost then s.settlePeriod else s.settlePeriod.tollEvent 3 0

theorem execActivityFrame_closes {n us : Nat} {energy : List Nat} {counts : List (Nat × List Nat)} {below : Bool} {s : State}
    (hp : s.toll.powered = true) (hs : s.sendsFrames = true) (hu : us ≤ 15000) (hn : ∀ k, s.toll.frame = some k → k < n) :
    let stamp := s.framed.now / 80000000 * 80000000
    let t := (s.framed.toll.measure us energy below).credit (s.framed.frameGuests counts) us energy
    execActivityFrame true n us energy counts below s = .next { s.framed with toll := { t with
      frame := some n, frameTime := stamp, shore := s.framed.self, lost := false
      began := if t.frame.isNone then stamp - 8000 * t.periodTime else t.began
      estimated := t.estimated || t.frame.isNone
      ended := if stamp % 480000000000 = 0 ∨ (t.frame.isNone = false ∧ stamp ≠ t.frameTime + 80000000) then some stamp else none } } := by
  intro stamp t
  have valid : ¬ ((!s.toll.powered) = true ∨ (!s.sendsFrames) = true ∨ (!true) = true ∨ us > 15000 ∨ s.toll.frame.any (fun k => n ≤ k) = true) := by
    have newer : s.toll.frame.any (fun k => decide (n ≤ k)) = false := by
      cases hf : s.toll.frame with
      | none => rfl
      | some k => exact decide_eq_false (Nat.not_le.2 (hn k hf))
    simp [hp, hs, newer, hu]
  unfold execActivityFrame
  rw [if_neg valid]
  simp only [decide_eq_true_eq, Bool.not_eq_true']
  rfl

theorem execIntervalTimeout_closes {energy : List Nat} {below : Bool} {s : State} (hp : s.toll.powered = true) :
    let t := s.unframed.toll.measure 15000 energy below
    execIntervalTimeout energy below s = .next { s.unframed with toll := { t with
      unattributed := t.unattributed + sumNat (energy.take 11), gap := true, lost := true } } := by
  unfold execIntervalTimeout
  rw [if_neg (by simp [hp])]
  rfl

/-! ### The credits of a frame (R718, R719) -/

/-- What each guest of a frame is credited, rail by rail. -/
def frameCredits (gs : List FrameGuest) (us : Nat) (energy : List Nat) : List ((Nat × Nat) × List Nat) :=
  gs.zipIdx.map fun x => ((x.1.guest, x.1.epoch), (List.range 11).map fun r => ((closeRail gs us r (energy.getD r 0)).getD x.2 (0, 0)).1)

theorem frameCredits_eq_shares (gs : List FrameGuest) (us : Nat) (energy : List Nat) :
    frameCredits gs us energy = (frameShares gs us energy).map fun x => ((x.1.guest, x.1.epoch), x.2.map (·.1)) := by
  unfold frameCredits frameShares
  simp only [List.map_map]
  rfl

theorem getD_map_range {α : Type} {n r : Nat} (h : r < n) (f : Nat → α) (d : α) : ((List.range n).map f).getD r d = f r := by
  simp [List.getD_eq_getElem?_getD, h]

theorem frameCredits_sum {gs : List FrameGuest} (h : gs ≠ []) {us r : Nat} (energy : List Nat) (hr : r < 11) :
    ((frameCredits gs us energy).map fun c => c.2.getD r 0).sum = energy.getD r 0 := by
  have column := map_zipIdx_getD (closeRail_length gs us r (energy.getD r 0)) (0, 0)
  calc _ = ((gs.zipIdx.map fun x => (closeRail gs us r (energy.getD r 0)).getD x.2 (0, 0)).map Prod.fst).sum := by
        unfold frameCredits
        rw [List.map_map, List.map_map]
        exact congrArg List.sum (List.map_congr_left fun x _ =>
          getD_map_range hr (fun r => ((closeRail gs us r (energy.getD r 0)).getD x.2 (0, 0)).1) 0)
    _ = energy.getD r 0 := by rw [column, closeRail_sum h]

/-- What a frame adds to the total of a guest's account. -/
theorem credit_total (t : Toll) (gs : List FrameGuest) (us : Nat) (energy : List Nat) (k : Nat × Nat) :
    totalOf (t.credit gs us energy).accounts k = totalOf t.accounts k +
      sumNat (((frameCredits gs us energy).filter fun c => decide (c.1 = k)).map fun c => sumNat c.2) := by
  rw [credit_eq, totalOf_credits, totalOf_absent, frameCredits_eq_shares, List.filter_map, List.map_map, sumNat_eq_sum]
  rfl

/-- Settles O53: each rail's credits add up to its energy (`frameCredits_sum`), and the accounts take the shares one by one
(`credit_total`); an interval without a frame leaves them alone (`execIntervalTimeout_closes`). -/
theorem energyConserved : Obligations.EnergyConserved := by
  intro n us energy counts below s hp
  refine ⟨fun hs hu hn => ⟨fun r hr => ?_, _, execActivityFrame_closes hp hs hu fun k hk => ?_, rfl, fun g e => ?_⟩,
    _, execIntervalTimeout_closes hp, rfl, rfl⟩
  · rw [sumNat_eq_sum]
    exact frameCredits_sum (frameGuests_ne_nil _ counts) energy hr
  · rw [hk] at hn
    exact of_decide_eq_true hn
  · rw [account_total, account_total]
    exact credit_total _ _ us energy (g, e)

end Sys2Proof.Machine
end

section
/-! SUPPORT. Bollards (spec 13: R514–R530): what the Relas commands, the descriptors and the messages on them do once nothing stops them. -/

namespace Sys2Proof.Machine

/-! ### The Relas commands (R525–R527) -/

section
variable {c : RelasCmd} {s : State} {b : Bollard} (hb : s.bollardAt (c.f 16 8) = some b)
include hb

theorem opBollardSignalCmd_signals (n : Nat) : opBollardSignalCmd.effect c n s =
    (s.signalRun b.id (c.f 24 1) (c.f 32 8), { Reply.done with body := leBytes 8 b.value.toNat }) := by
  unfold opBollardSignalCmd
  dsimp only
  rw [hb]

theorem opBollardWaitCmd_holds (h : condHolds (c.f 24 1) b.value.toNat (c.f 32 8) = true) (n : Nat) :
    opBollardWaitCmd.effect c n s = (s, .pending (.bollardWait b.value.toNat)) := by
  unfold opBollardWaitCmd
  dsimp only
  rw [hb]
  exact if_pos h

theorem opBollardWaitCmd_waits (h : condHolds (c.f 24 1) b.value.toNat (c.f 32 8) = false) (hr : s.waitRoom c.guest = true) (n : Nat) :
    opBollardWaitCmd.effect c n s =
      (s.addWait ⟨0, b.id, c.guest, c.f 24 1, c.f 32 8, none, s.now + c.f 28 4 * 8000000, .ticket n⟩, .pending (.bollardWait b.value.toNat)) := by
  unfold opBollardWaitCmd
  dsimp only
  rw [hb]
  exact (if_neg (by simp [h])).trans (if_neg (by simp [hr]))

theorem opBollardTryWait_answers (n : Nat) : opBollardTryWait.effect c n s =
    (s, .read (leBytes 8 b.value.toNat ++ leBytes 1 (b2n (condHolds (c.f 24 1) b.value.toNat (c.f 32 8))) ++ zeros 7)) := by
  unfold opBollardTryWait
  dsimp only
  rw [hb]

end

/-- Settles O6: each command has the effect of its operation on the bollards that it names, and DONE, the value or the ticket that the engine
adds (`served_done`, `served_read`, `served_pending`). -/
theorem bollardCommands : Obligations.BollardCommands := by
  intro c s u first more
  refine ⟨fun h => ?_, fun h => ?_, fun h b hb => ?_, fun h b hb hc => ?_, fun h b hb hc hr => ?_, fun h b hb => ?_⟩
  · exact congrArg _ (served_done h (served_plain h (by decide) rfl) (by decide) rfl)
  · exact congrArg _ (served_done h (served_plain h (by decide) rfl) (by decide) rfl)
  · exact congrArg _ (served_done h (served_plain h (by decide) rfl) (by decide) (opBollardSignalCmd_signals hb _))
  · exact congrArg _ (served_pending h (served_plain h (by decide) rfl) (by decide) (opBollardWaitCmd_holds hb hc _))
  · exact congrArg _ (served_pending h (served_plain h (by decide) rfl) (by decide) (opBollardWaitCmd_waits hb hc hr _))
  · exact congrArg _ (served_read h (served_plain h (by decide) rfl) (by decide) (opBollardTryWait_answers hb _))

/-! ### Operations at the home (Table 13-5) -/

section
variable {s : State} {b : Bollard} {op x expires g : Nat} {w : WaitBy}

theorem bollardOp_signals (h : op ≤ 2) :
    s.bollardOp b op x expires g w = ((s.signal b.id op x).1, some (b.value.toNat, true), (s.signal b.id op x).2) := by
  unfold State.bollardOp
  exact if_pos h

theorem bollardOp_arrives : s.bollardOp b 3 x expires g w = ((s.arrive b.id g expires w).1, none, (s.arrive b.id g expires w).2) := rfl

theorem bollardOp_waits {cond : Nat} (h : cond ≤ 2) : s.bollardOp b (cond + 4) x expires g w =
    if condHolds cond b.value.toNat x then (s, some (b.value.toNat, true), [])
    else (s.addWait ⟨0, b.id, g, cond, x, none, expires, w⟩, none, []) := by
  unfold State.bollardOp
  dsimp only
  rw [if_neg (by omega), if_neg (by omega), if_pos (by omega), Nat.add_sub_cancel]

theorem bollardOp_tries (cond : Nat) :
    s.bollardOp b (cond + 7) x expires g w = (s, some (b.value.toNat, condHolds cond b.value.toNat x), []) := by
  unfold State.bollardOp
  dsimp only
  rw [if_neg (by omega), if_neg (by omega), if_neg (by omega), Nat.add_sub_cancel]

end

theorem signal_eq {s : State} {n : Nat} {b : Bollard} (hb : s.bollard n = some b) (op x : Nat) :
    s.signal n op x = (s.setBollard n (signalValue op b.value.toNat x)).testWaits n (signalValue op b.value.toNat x) := by
  unfold State.signal
  rw [hb]

theorem arrive_eq {s : State} {n : Nat} {b : Bollard} (hb : s.bollard n = some b) (g expires : Nat) (w : WaitBy) :
    s.arrive n g expires w = ((s.setBollard n (u64 (b.value.toNat + 1))).addWait ⟨0, n, g, 0, u64 ((b.value.toNat / b.parties + 1) * b.parties),
      some (b.value.toNat, b.value.toNat % b.parties), expires, w⟩).testWaits n (u64 (b.value.toNat + 1)) := by
  unfold State.arrive
  rw [hb]

/-! ### Descriptors at this shore's bollards (R523) -/

theorem bollardAt_eq {s : State} {a n : Nat} {b : Bollard} (ha : bollardAddr a = some (s.self, n)) (hb : s.bollard n = some b) :
    s.bollardAt a = some b := by
  unfold State.bollardAt
  rw [ha]
  exact (if_pos rfl).trans hb

theorem atWork_opcode {op id : Nat} {s : State} {d : Desc} (h : atWork op id s d = true) : d.opcode = op := by
  unfold atWork Desc.runs at h
  simp only [Bool.and_eq_true, beq_iff_eq] at h
  exact h.1.1.1.1.2.1.1

/-- The bollard descriptor has begun: it waits for what its operation brings about. -/
def State.began (s : State) (d : Desc) : State := s.setDesc d.id fun d => { d with phase := .waiting }

section
variable {s : State} {d : Desc} {n : Nat} {b : Bollard} (ha : bollardAddr d.bollard = some (s.self, n)) (hb : s.bollard n = some b)
  (hp : d.phase = .running)
include ha hb hp

theorem bollardWork_ends {u : State} {v : Nat} {met : Bool} {ts : List Task}
    (ho : (s.began d).bollardOp b d.bollardCode (d.f 32 8) d.deadline d.guest (.desc d.id) = (u, some (v, met), ts)) :
    s.bollardWork d = if met then (u.run ts).ok d.id v 0 else (u.run ts).finish d.id Status.okPartial reasonWaitTimeout 0 v 0 := by
  unfold State.began at ho
  unfold State.bollardWork
  rw [if_neg (not_not_intro hp), ha]
  dsimp only
  rw [if_neg (not_not_intro rfl), bollardAt_eq ha hb]
  dsimp only
  rw [ho]

theorem bollardWork_stays {u : State} {ts : List Task}
    (ho : (s.began d).bollardOp b d.bollardCode (d.f 32 8) d.deadline d.guest (.desc d.id) = (u, none, ts)) :
    s.bollardWork d = u.run ts := by
  unfold State.began at ho
  unfold State.bollardWork
  rw [if_neg (not_not_intro hp), ha]
  dsimp only
  rw [if_neg (not_not_intro rfl), bollardAt_eq ha hb]
  dsimp only
  rw [ho]

theorem bollardWork_tries (ho : d.opcode = 0x61) (ht : bit (d.f 25 1) 0 = true) : s.bollardWork d =
    if condHolds (d.f 24 1) b.value.toNat (d.f 32 8) then ((s.began d).run []).ok d.id b.value.toNat 0
    else ((s.began d).run []).finish d.id Status.okPartial reasonWaitTimeout 0 b.value.toNat 0 := by
  have code : d.bollardCode = d.f 24 1 + 7 := by simp [Desc.bollardCode, Desc.tryFlag, ho, ht]
  exact bollardWork_ends ha hb hp (code ▸ bollardOp_tries (d.f 24 1))

variable (hn : b.id = n)
include hn

theorem bollardWork_signals (ho : d.opcode = 0x60) (hc : d.f 24 1 ≤ 2) : s.bollardWork d =
    let r := (s.began d).signal n (d.f 24 1) (d.f 32 8)
    (r.1.run r.2).ok d.id b.value.toNat 0 := by
  have code : d.bollardCode = d.f 24 1 := by simp [Desc.bollardCode, ho]
  subst hn
  exact (bollardWork_ends ha hb hp (by rw [code]; exact bollardOp_signals hc)).trans (if_pos rfl)

theorem bollardWork_waits (ho : d.opcode = 0x61) (hc : d.f 24 1 ≤ 2) (ht : bit (d.f 25 1) 0 = false) : s.bollardWork d =
    if condHolds (d.f 24 1) b.value.toNat (d.f 32 8) then ((s.began d).run []).ok d.id b.value.toNat 0
    else ((s.began d).addWait ⟨0, n, d.guest, d.f 24 1, d.f 32 8, none, d.deadline, .desc d.id⟩).run [] := by
  have code : d.bollardCode = d.f 24 1 + 4 := by simp [Desc.bollardCode, Desc.tryFlag, ho, ht]
  have waits := bollardOp_waits (s := s.began d) (b := b) (x := d.f 32 8) (expires := d.deadline) (g := d.guest) (w := .desc d.id) hc
  subst hn
  split
  · rename_i h
    rw [if_pos h] at waits
    exact (bollardWork_ends ha hb hp (code ▸ waits)).trans (if_pos rfl)
  · rename_i h
    rw [if_neg h] at waits
    exact bollardWork_stays ha hb hp (code ▸ waits)

theorem bollardWork_arrives (ho : d.opcode = 0x62) : s.bollardWork d =
    let r := (s.began d).arrive n d.guest d.deadline (.desc d.id)
    r.1.run r.2 := by
  have code : d.bollardCode = 3 := by simp [Desc.bollardCode, ho]
  subst hn
  exact bollardWork_stays ha hb hp (code ▸ bollardOp_arrives)

end

/-! ### Timeouts and messages (R519, R528) -/

theorem execBollardWaitTimeout_answers {s : State} {w : Nat} {x : Wait} (hw : (s.boll.waits.find? fun k => k.id = w) = some x)
    (ht : x.expires ≤ s.now) : execBollardWaitTimeout w s = .next
      (let r := s.answerWait x (((s.bollard x.bollard).map (·.value.toNat)).getD 0) true
      r.1.run r.2) := by
  unfold execBollardWaitTimeout
  rw [hw]
  exact congrArg _ (if_neg (Nat.not_lt.2 ht))

section
variable {s : State} {m : SxfMsg}

theorem bollardHome_refuses {st ca : Nat} (h : s.bollardRefusal m (m.f 0 1 % 16) (bits (m.f 0 4) 27 4) = some (st, ca)) :
    s.bollardHome m = s.reply m Sxf.bollardValue st ca 0 false false [] := by
  unfold State.bollardHome
  dsimp only
  rw [h]

section
variable {b : Bollard} (h : s.bollardRefusal m (m.f 0 1 % 16) (bits (m.f 0 4) 27 4) = none) (hb : s.bollardAt m.gpa = some b)
include h hb

theorem bollardHome_answers {u : State} {v : Nat} {met : Bool} {ts : List Task}
    (ho : s.bollardOp b (m.f 0 1 % 16) (m.f 8 8) (s.now + bits (m.f 0 4) 27 4 * slotTicks) m.guest (.sxf m) = (u, some (v, met), ts)) :
    s.bollardHome m = (u.reply m Sxf.bollardValue Status.ok 0 v (!met) false []).run ts := by
  unfold State.bollardHome
  dsimp only
  rw [h]
  dsimp only
  rw [hb]
  dsimp only
  rw [ho]

theorem bollardHome_registers {u : State} {ts : List Task}
    (ho : s.bollardOp b (m.f 0 1 % 16) (m.f 8 8) (s.now + bits (m.f 0 4) 27 4 * slotTicks) m.guest (.sxf m) = (u, none, ts)) :
    s.bollardHome m = u.run ts := by
  unfold State.bollardHome
  dsimp only
  rw [h]
  dsimp only
  rw [hb]
  dsimp only
  rw [ho]

end

section
variable (hm : m.op = Sxf.bollard) (hp : s.portRefusal m = none)
include hm hp

theorem execBollard_atHome (hd : m.dest = s.self) : execBollard m s = .next (s.bollardHome m) := by
  unfold execBollard
  rw [if_neg (not_not_intro hm), hp]
  exact congrArg _ (if_pos hd)

theorem execBollard_unreachable (hd : m.dest ≠ s.self) (hs : s.fabric.hasShore m.dest = false) : execBollard m s = .next
    (s.reply m Sxf.bollardValue Status.faultDeadTarget Cause.unreachable 0 false false []) := by
  unfold execBollard
  rw [if_neg (not_not_intro hm), hp]
  exact congrArg _ ((if_neg hd).trans (if_pos (by simp [hs])))

end

end

/-- Settles O24: a descriptor at this shore's bollard comes to its operation there (`bollardWork_signals` and the like), a message to its home's
(`bollardHome_answers`), and a BOLLARD_VALUE is a response like others. -/
theorem bollardWork : Obligations.BollardWork := by
  intro s
  refine ⟨fun i d b n ha hb hn hp => ?_, fun w x hw ht => execBollardWaitTimeout_answers hw ht, fun m hm hp => ?_,
    fun m hm hw => response_wellFramed hm hw, fun m hm hw => response_malformed hm hw⟩
  · have begun : (s.began d).bollard n = some b := hb
    refine ⟨fun h hc => ?_, fun h hc ht hh => ?_, fun h hc ht hh => ?_, fun h _ ht => ?_, fun h => ?_⟩ <;>
      refine congrArg _ ((State.work_go h).trans (congrArg _ ?_))
    · rw [bollardWork_signals ha hb hp hn (atWork_opcode h) hc, signal_eq begun]
      rfl
    · rw [bollardWork_waits ha hb hp hn (atWork_opcode h) hc ht, if_pos hh]
      rfl
    · rw [bollardWork_waits ha hb hp hn (atWork_opcode h) hc ht, if_neg (by simp [hh])]
      rfl
    · exact bollardWork_tries ha hb hp (atWork_opcode h) ht
    · rw [bollardWork_arrives ha hb hp hn (atWork_opcode h), arrive_eq begun]
      rfl
  · refine ⟨fun hd st ca hr => (execBollard_atHome hm hp hd).trans (congrArg _ (bollardHome_refuses hr)), fun hd hr b hb => ?_,
      execBollard_unreachable hm hp⟩
    refine ⟨fun v met ha => (execBollard_atHome hm hp hd).trans (congrArg _ (bollardHome_answers hr hb (Prod.ext rfl (Prod.ext ha rfl)))),
      fun ha => (execBollard_atHome hm hp hd).trans (congrArg _ (bollardHome_registers hr hb (Prod.ext rfl (Prod.ext ha rfl))))⟩

end Sys2Proof.Machine
end

section
/-! SUPPORT. The commands on bundles, links and the fabric (spec 14: R562–R566): what each does once every check lets it through. -/

namespace Sys2Proof.Machine

/-! ### Bundles (R562, R563) -/

section
variable {c : RelasCmd} {s : State}

/-- The fabric with the bundle that BUNDLE_SET names replaced by its definition. -/
def State.defineBundle (s : State) (c : RelasCmd) : State :=
  { s with fabric := { s.fabric with bundles := (s.fabric.bundles.filter fun x => decide (x.id ≠ c.f 16 1)) ++ [bundleOf c] } }

theorem opBundleSet_changes {b : Bundle} (hb : s.bundle (c.f 16 1) = some b) (n : Nat) : opBundleSet.effect c n s =
    (if c.f 17 1 = 0 then
      if b.opened then s.setBundle b.id fun b => { b with closing := true }
      else { s with fabric := { s.fabric with bundles := s.fabric.bundles.filter fun x => decide (x.id ≠ c.f 16 1) } }
    else if b.opened then s.setBundle b.id fun b => { b with agents := (bundleOf c).agents, fwdPct := (bundleOf c).fwdPct }
    else s.defineBundle c, .done) := by
  unfold opBundleSet
  dsimp only
  rw [hb]
  dsimp only
  split
  · rfl
  · split <;> rfl

theorem opBundleSet_defines (hb : s.bundle (c.f 16 1) = none) (n : Nat) :
    opBundleSet.effect c n s = (if c.f 17 1 = 0 then s else s.defineBundle c, .done) := by
  unfold opBundleSet
  dsimp only
  rw [hb]
  rfl

/-- The state with the bundle that BUNDLE_OPEN names open. -/
def State.withOpened (s : State) (c : RelasCmd) : State := s.setBundle (c.f 16 1) fun b => { b with opened := true }

theorem opBundleOpen_opens {b : Bundle} (hb : (s.withOpened c).bundle (c.f 16 1) = some b) (n : Nat) : opBundleOpen.effect c n s =
    (if b.kind = .causeway then (s.withOpened c).spanChanged.announceCapacity else s.withOpened c,
      { Reply.done with body := leBytes 8 (sumNat (((s.withOpened c).upLinks b).map (2 ^ ·))) }) := by
  unfold State.withOpened at hb ⊢
  unfold opBundleOpen
  dsimp only
  rw [hb]
  simp only [Option.any_some, decide_eq_true_eq]

end

/-- A closing bundle goes once no link of it, and no transaction that goes its way, is in use (R562). -/
theorem execBundleClose_closes {s : State} {n : Nat} {b : Bundle} (hb : s.bundle n = some b) (hc : b.closing = true)
    (hu : s.inUse n (fun _ => true) = false)
    (ho : b.kind = .jetty ∨ s.ord.outstanding.any (fun o => s.fabric.route s.self (s.target o.msg) = .direction b.direction) = false) :
    execBundleClose n s = .next
      ({ s with fabric := { s.fabric with bundles := s.fabric.bundles.filter fun x => decide (x.id ≠ n) } } : State).spanChanged := by
  unfold execBundleClose
  rw [hb]
  exact congrArg _ (if_pos ⟨hc, by simp [hu], by simpa using ho⟩)

/-! ### Links (R565, R566) -/

section
variable {c : RelasCmd} {s : State}

theorem opLinkQuery_answers {l : Link} (hl : s.link (c.f 16 1) = some l) (n : Nat) : opLinkQuery.effect c n s = (s.drewN 18,
    .read (leBytes 1 l.state.code ++ leBytes 1 l.step ++ leBytes 1 l.laneMap.length ++
      leBytes 1 (if l.spare.isSome then 1 else if s.fabric.profile.spareLane then 2 else 0) ++
      leBytes 2 (sumNat (l.failedWaves.map (2 ^ ·))) ++ zeros 2 ++ (l.figures.map (leBytes 8)).flatten ++
      ((List.range 9).map fun i => leBytes 2 (s.freeAt (2 * i)) ++ leBytes 2 (s.freeAt (2 * i + 1))).flatten)) := by
  unfold opLinkQuery
  dsimp only
  rw [hl]

theorem opLinkRecal_recalibrates (hk : c.f 17 1 = 0) (n : Nat) :
    opLinkRecal.effect c n s = (s.recalRings (c.f 16 1), .pending (.linkRecal (c.f 16 1))) := by
  unfold opLinkRecal
  exact if_pos hk

theorem opLinkRecal_trains (hk : c.f 17 1 ≠ 0) (n : Nat) : opLinkRecal.effect c n s =
    ((s.linkDown (c.f 16 1) true).setLink (c.f 16 1) fun l => { l with
      state := .training, step := 1, stepBegan := (s.linkDown (c.f 16 1) true).now, retrain := true, heldIdent := false, recalTicket := n },
      .pending (.linkRecal (c.f 16 1))) := by
  unfold opLinkRecal
  exact if_neg hk

end

/-! ### The fabric (R564) -/

/-- Only the Harbour's mirror area, at its default outside profile S (Table 02-7), changes beside the fabric. -/
theorem opFabricSet_sets (c : RelasCmd) (n : Nat) (s : State) : ∃ v, opFabricSet.effect c n s = (v, .done) ∧ v.fabric = { s.fabric with
    set := true, shoreId := c.f 16 2, dimX := c.f 18 1, dimY := c.f 19 1, dimZ := c.f 20 1, profile := profileOf (c.f 21 1)
    links := s.fabric.links.map fun l => if profileOf (c.f 21 1) = s.fabric.profile ∨ l.state ≠ .up then l else
      { l with laneMap := (startLanes (profileOf (c.f 21 1)) l.failedWaves).1, spare := (startLanes (profileOf (c.f 21 1)) l.failedWaves).2 } } := by
  refine ⟨_, rfl, ?_⟩
  dsimp only
  split <;> rfl

/-- Settles O7: each command has the effect of its operation, and DONE, the body or the ticket that the engine adds (`served_done`,
`served_read`, `served_pending`); a staged one joins its set (`staged_stages`). -/
theorem fabricCommands : Obligations.FabricCommands := by
  intro c s u opened
  refine ⟨fun h x hx ht => ?_, fun n t b hb => ?_, fun n t hb => ?_, fun h b hb => ?_, fun n b hb hc hu ho => ?_, fun h l hl => ?_,
    fun h hk => ?_, fun h hk => ?_, fun h x hx ht => ?_, fun n t => ?_⟩
  · exact congrArg _ (staged_stages h (by decide) hx ht)
  · exact congrArg some (opBundleSet_changes hb n)
  · exact congrArg some (opBundleSet_defines hb n)
  · exact congrArg _ (served_done h (served_plain h (by decide) rfl) (by decide) (opBundleOpen_opens hb _))
  · exact execBundleClose_closes hb hc hu ho
  · exact congrArg _ (served_read h (served_plain h (by decide) rfl) (by decide) (opLinkQuery_answers hl _))
  · exact congrArg _ (served_pending h (served_plain h (by decide) rfl) (by decide) (opLinkRecal_recalibrates hk _))
  · exact congrArg _ (served_pending h (served_plain h (by decide) rfl) (by decide) (opLinkRecal_trains hk _))
  · exact congrArg _ (staged_stages h (by decide) hx ht)
  · obtain ⟨v, hv, hf⟩ := opFabricSet_sets c n t
    exact ⟨v, congrArg some hv, hf⟩

end Sys2Proof.Machine
end

section
/-! SUPPORT. The commands on faults, weathering and the Logbook (spec 17: R671, R675–R678): what each does once every check lets it through. -/

namespace Sys2Proof.Machine

section
variable {c : RelasCmd} {s : State} {n : Nat}

theorem opUnitRetire_announces (hk : c.f 20 1 = 0) :
    opUnitRetire.effect c n s = (s.announceUnit (c.f 16 1) (c.f 18 2) n, .pending (.retire (c.f 16 1) (c.f 18 2))) := by
  unfold opUnitRetire
  dsimp only
  rw [if_pos hk]

/-- The unit is retired and a fault of its class is noted at every descriptor in flight. -/
def State.retiredNow (s : State) (c : RelasCmd) : State := (s.retireUnit (c.f 16 1) (c.f 18 2) false).singleFault (c.f 16 1)

/-- A Porter channel also takes its part of Porter's capacity from the next slot on (R303). -/
theorem opUnitRetire_retires (hk : c.f 20 1 ≠ 0) : opUnitRetire.effect c n s =
    (if c.f 16 1 = 9 then { s.retiredNow c with brk := { (s.retiredNow c).brk with reductions := (s.retiredNow c).brk.reductions ++
      [⟨resPorter, slotOf ((slotOf s.now + 1) * slotTicks), s.capAt resPorter (slotOf ((slotOf s.now + 1) * slotTicks)) - 100⟩] } }
    else s.retiredNow c, .pending (.retire (c.f 16 1) (c.f 18 2))) := by
  unfold opUnitRetire
  dsimp only
  rw [if_neg hk]
  rfl

end

/-- Settles O8: each command has the effect of its operation, and DONE, the body or the ticket that the engine adds (`served_done`,
`served_read`, `served_pending`). -/
theorem faultCommands : Obligations.FaultCommands := by
  intro c s u first found retired
  refine ⟨fun h => ?_, fun h hk => ?_, fun h hk => ?_, fun h => ?_, fun h => ?_, fun h => ?_⟩
  · exact congrArg _ (served_read h (served_plain h (by decide) rfl) (by decide) rfl)
  · exact congrArg _ (served_pending h (served_plain h (by decide) rfl) (by decide) (opUnitRetire_announces hk))
  · exact congrArg _ (served_pending h (served_plain h (by decide) rfl) (by decide) (opUnitRetire_retires hk))
  · exact congrArg _ (served_read h (served_plain h (by decide) rfl) (by decide) rfl)
  · exact congrArg _ (served_read h (served_plain h (by decide) rfl) (by decide) rfl)
  · exact congrArg _ (served_done h (served_plain h (by decide) rfl) (by decide) rfl)

end Sys2Proof.Machine
end

section
/-! SUPPORT. The commands on bindings, key slots and debug unlock, and the end of a debug grant (spec 18: R690, R691, R695, R705, R706): what each
does once every check lets it through. -/

namespace Sys2Proof.Machine

section
variable {c : RelasCmd} {s : State} {n : Nat}

theorem opDebugUnlock_givesNonce (hk : c.f 16 1 = 0) : opDebugUnlock.effect c n s =
    (({ s with trust := { s.trust with nonce := some ⟨s.nextFree % 2 ^ 384, s.now, c.f 17 1⟩ } } : State).drew,
      { Reply.done with body := leBytes 48 (s.nextFree % 2 ^ 384) }) := by
  unfold opDebugUnlock
  exact if_pos hk

/-- The grant of a DEBUG_UNLOCK stands, and its nonce is used up. -/
def State.granted (s : State) (c : RelasCmd) : State :=
  { s with trust := { s.trust with nonce := none, grants := s.trust.grants ++ [(c.f 17 1, c.f 24 8)] } }

/-- The keys go, and the coves that had one have none. -/
def State.keysTaken (s : State) : State :=
  { s with trust := { s.trust with
    slots := []
    keyless := uniq (s.trust.keyless ++ (s.store.coves.filter fun (k : Cove) => decide (k.keySlot ≠ 0)).map fun (k : Cove) => k.id) } }

theorem opDebugUnlock_grants (hk : c.f 16 1 ≠ 0) (hb : bit (c.f 17 1) 1 = false) :
    opDebugUnlock.effect c n s = ((s.granted c).debugChanged, .done) := by
  unfold opDebugUnlock
  dsimp only
  rw [if_neg hk, if_neg (by simp [hb])]
  rfl

theorem opDebugUnlock_takesKeys (hk : c.f 16 1 ≠ 0) (hb : bit (c.f 17 1) 1 = true) :
    opDebugUnlock.effect c n s = ((s.granted c).keysTaken.debugChanged, .done) := by
  unfold opDebugUnlock
  dsimp only
  rw [if_neg hk, if_pos hb]
  rfl

end

theorem execDebugExpiry_ends_grants {s : State} (h : (s.trust.grants.filter fun g => decide (s.now < g.2)) ≠ s.trust.grants) :
    execDebugExpiry s = .next ({ s with trust := { s.trust with grants := s.trust.grants.filter fun g => decide (s.now < g.2) } } : State).debugChanged := by
  unfold execDebugExpiry
  exact congrArg _ (if_neg h)

/-- Settles O9: each command has the effect of its operation, and DONE or the body that the engine adds (`served_done`); byte 16 tells the two
phases of DEBUG_UNLOCK apart (`servePart_eq`). -/
theorem trustCommands : Obligations.TrustCommands := by
  intro c s u granted
  refine ⟨fun h => ?_, fun h => ?_, fun h => ?_, fun h hk => ?_, fun h hk hb => ?_, fun h hk hb => ?_, execDebugExpiry_ends_grants⟩
  · exact congrArg _ (served_done h (served_plain h (by decide) rfl) (by decide) rfl)
  · exact congrArg _ (served_done h (served_plain h (by decide) rfl) (by decide) rfl)
  · exact congrArg _ (served_done h (served_plain h (by decide) rfl) (by decide) rfl)
  · exact congrArg _ ((servePart_eq (by rw [hk]; rfl)).trans
      (served_done h (served_plain h (by decide) rfl) (by decide) (opDebugUnlock_givesNonce hk)))
  · exact congrArg _ ((servePart_eq (by rw [hk]; rfl)).trans
      (served_done h (served_plain h (by decide) rfl) (by decide) (opDebugUnlock_grants (by omega) hb)))
  · exact congrArg _ ((servePart_eq (by rw [hk]; rfl)).trans
      (served_done h (served_plain h (by decide) rfl) (by decide) (opDebugUnlock_takesKeys (by omega) hb)))

end Sys2Proof.Machine
end

section
/-! SUPPORT. The CXL mailbox of a host port (spec 15: R595–R600, R606, R609, R614; payload layouts are log entry 22's): what each command answers
on a port that exists. -/

namespace Sys2Proof.Machine

section
variable {s : State} {p : Nat}

theorem cxlOk_answers (h : (s.port p).isSome = true) (payload : List Byte) : s.cxlOk p payload = s.emit (.cxl p (leBytes 2 0 ++ payload)) := by
  unfold State.cxlOk
  exact if_pos h

/-- A command that changes its port answers with its code alone. -/
theorem cxlOk_setPort (h : (s.port p).isSome = true) {f : HostPort → HostPort} (hf : ∀ x, (f x).id = x.id) :
    (s.setPort p f).cxlOk p [] = (s.setPort p f).emit (.cxl p (leBytes 2 0)) := by
  rw [cxlOk_answers (by rw [State.setPort_port s p p f hf, if_pos rfl, Option.isSome_map, h]), List.append_nil]

variable {x : HostPort} (hx : s.port p = some x)
include hx

theorem execGetEventRecords_answers : execGetEventRecords p s =
    .next (s.emit (.cxl p (leBytes 2 0 ++ (leBytes 2 x.events.length ++ (x.events.map CxlEvent.bytes).flatten)))) := by
  unfold execGetEventRecords
  rw [hx]
  exact congrArg _ (cxlOk_answers (Option.isSome_of_eq_some hx) _)

theorem execGetTimestamp_answers : execGetTimestamp p s = .next (s.emit (.cxl p (leBytes 2 0 ++
    leBytes 8 (if x.timestamp = 0 then 0 else u64 (x.timestamp + (s.now - x.timestampAt) / 8))))) := by
  unfold execGetTimestamp
  rw [hx]
  exact congrArg _ (cxlOk_answers (Option.isSome_of_eq_some hx) _)

end

/-! ### Extents (R599, R600) -/

/-- No extent of the port has the number. -/
def State.noExtent (s : State) (p e : Nat) : Prop := ∀ y ∈ s.host.extents, ¬ (y.port = p ∧ y.id = e)

section
variable {s : State} {p e : Nat}

/-- However the search is narrowed, it finds nothing. -/
theorem noExtent_find (h : s.noExtent p e) (q : HostExtent → Prop) [DecidablePred q] :
    (s.host.extents.find? fun y => decide (y.port = p ∧ y.id = e ∧ q y)) = none :=
  List.find?_eq_none.2 fun y hy hd => h y hy ⟨(of_decide_eq_true hd).1, (of_decide_eq_true hd).2.1⟩

theorem execAddDynamicCapacityResponse_unknown (h : s.noExtent p e) (a : Bool) :
    execAddDynamicCapacityResponse p e a s = .next (s.emit (.cxl p (leBytes 2 2))) := by
  unfold execAddDynamicCapacityResponse
  rw [noExtent_find h fun y => y.st = .offered]

theorem execReleaseDynamicCapacity_unknown (h : s.noExtent p e) :
    execReleaseDynamicCapacity p e s = .next (s.emit (.cxl p (leBytes 2 2))) := by
  unfold execReleaseDynamicCapacity
  rw [noExtent_find h fun y => y.st ≠ .held]

section
variable {y : HostExtent} (hy : (s.host.extents.find? fun y => y.port = p ∧ y.id = e ∧ y.st = .offered) = some y)
include hy

theorem execAddDynamicCapacityResponse_accepts : execAddDynamicCapacityResponse p e true s =
    .next ((s.emit (.cxl p (leBytes 2 0))).mapExtents (fun z => z.id = e) fun z => { z with st := .accepted }) := by
  unfold execAddDynamicCapacityResponse
  rw [hy]
  rfl

/-- A rejected pair is not offered again on the port; what aliases a snapshot is not remembered so. -/
theorem execAddDynamicCapacityResponse_rejects : execAddDynamicCapacityResponse p e false s =
    .next (if y.snap.isSome then (s.emit (.cxl p (leBytes 2 0))).removeExtent y
      else ((s.emit (.cxl p (leBytes 2 0))).removeExtent y).setPort p fun q => { q with rejected := q.rejected ++ [(y.cove, y.guest)] }) := by
  unfold execAddDynamicCapacityResponse
  rw [hy]
  rfl

end

theorem execReleaseDynamicCapacity_gives {y : HostExtent}
    (hy : (s.host.extents.find? fun y => y.port = p ∧ y.id = e ∧ y.st ≠ .held) = some y) (hr : y.region ≠ 1) :
    execReleaseDynamicCapacity p e s = .next ((s.removeExtent y).emit (.cxl p (leBytes 2 0))) := by
  unfold execReleaseDynamicCapacity
  rw [hy]
  dsimp only
  rw [if_neg (by simp [hr])]

end

/-- Settles O34: on a port that exists each command answers with its payload (`cxlOk_answers`), and the commands on extents go by the extent
that they find. -/
theorem cxlMailbox : Obligations.CxlMailbox := by
  intro p x s hx
  have here : (s.port p).isSome = true := Option.isSome_of_eq_some hx
  refine ⟨congrArg _ (cxlOk_answers here _), congrArg _ (cxlOk_answers here _), fun off len => congrArg _ (cxlOk_answers here _),
    execGetEventRecords_answers hx, fun n => congrArg _ (cxlOk_setPort here (by intro; rfl)), congrArg _ (cxlOk_answers here _),
    congrArg _ (cxlOk_answers (s := s.drew) here _), congrArg _ (cxlOk_answers here _), congrArg _ (cxlOk_answers here _),
    fun ns => congrArg _ (cxlOk_setPort here (by intro; rfl)), fun h0 => ?_, fun h0 => ?_, fun e => ⟨fun h => ?_, fun y hy => ⟨?_, fun hs => ?_, fun h hs => ?_⟩, fun y hy => ?_⟩⟩
  · exact (execGetTimestamp_answers hx).trans (by rw [if_pos h0])
  · exact (execGetTimestamp_answers hx).trans (by rw [if_neg h0])
  · exact ⟨execAddDynamicCapacityResponse_unknown h, execReleaseDynamicCapacity_unknown h⟩
  · exact execAddDynamicCapacityResponse_accepts hy
  · exact (execAddDynamicCapacityResponse_rejects hy).trans (by rw [hs]; rfl)
  · exact (execAddDynamicCapacityResponse_rejects hy).trans (by rw [hs]; rfl)
  · exact execReleaseDynamicCapacity_gives hy

end Sys2Proof.Machine
end

section
/-! SUPPORT. SPDM responders, the management ports and JTAG (spec 15: R606, R610; spec 18: R694, R700, R701, R704; codes and shifted values are log
entries 41 to 43): what each message, request and instruction does. -/

namespace Sys2Proof.Machine

/-! ### SPDM (R606, R610, R700, R701) -/

/-- The sessions of a responder. -/
def State.sessionsOf (s : State) (r : Nat) : List (Nat × Nat) := s.trust.spdm.filter fun x => x.1 = r

/-- An SPDM error response. -/
def State.spdmError (s : State) (n : Nat) : State := s.emit (.spdm (leBytes 1 0x13 ++ leBytes 1 0x7F ++ leBytes 1 n ++ zeros 1))

/-- A signed SPDM response. -/
def State.spdmReply (s : State) (k : Nat) (body : List Byte) : State :=
  s.emit (.spdm (leBytes 1 0x13 ++ leBytes 1 k ++ zeros 2 ++ body ++ leBytes 96 (Config.crypto (body ++ s.measurements))))

/-- The codes that a responder answers beside those that open and end a session or manage keys. -/
abbrev spdmCodes : List Nat := [0x81, 0x82, 0x83, 0x84, 0xE0, 0xE1, 0xE3, 0xE5, 0xE8]

/-- Sessions that a responder holds at most (R700). -/
def sessionLimit (r : Nat) : Nat := if r < 4 then 4 else 2

/-- The port whose streams a key-management message secures. -/
def State.secured (s : State) (r arg : Nat) : State :=
  if arg = 1 then s.setPort r fun p => { p with memSecure := true }
  else if arg = 2 then s.setPort r fun p => { p with ioSecure := true } else s

section
variable {s : State} {r : Nat}

theorem execSpdmMessage_silent (h : s.responds r = false) (o c n a : Nat) : execSpdmMessage r o c n a s = .next s := by
  unfold execSpdmMessage
  exact congrArg _ (if_pos (by simp [h]))

variable (h : s.responds r = true)
include h

theorem execSpdmMessage_busy (hb : s.inn.booted = false) (o c n a : Nat) : execSpdmMessage r o c n a s = .next (s.spdmError 0x03) := by
  unfold execSpdmMessage
  exact congrArg _ ((if_neg (by simp [h])).trans (if_pos (by simp [hb])))

variable (hb : s.inn.booted = true)
include hb

theorem execSpdmMessage_cdat (hr : r < 4) (c n a : Nat) : execSpdmMessage r 0 c n a s = .next (s.emit (.spdm (s.cdat r))) := by
  unfold execSpdmMessage
  exact congrArg _ ((if_neg (by simp [h])).trans ((if_neg (by simp [hb])).trans ((if_pos rfl).trans (if_pos hr))))

theorem execSpdmMessage_noSession (c a : Nat) {n : Nat} (hn : (s.sessionsOf r).contains (r, n) = false) :
    execSpdmMessage r 2 c n a s = .next (s.spdmError 0x02) := by
  unfold State.sessionsOf at hn
  unfold execSpdmMessage
  exact congrArg _ ((if_neg (by simp [h])).trans ((if_neg (by simp [hb])).trans ((if_neg (by decide)).trans (if_pos ⟨rfl, by rw [hn]; rfl⟩))))

/-- A message of object 1, or of object 2 in a session of the responder, goes by its code. -/
theorem execSpdmMessage_byCode {o n : Nat} (ho : o = 1 ∨ o = 2 ∧ (s.sessionsOf r).contains (r, n) = true) (c a : Nat) :
    execSpdmMessage r o c n a s = .next
      (if c = 0xE4 then
        if (s.sessionsOf r).length ≥ sessionLimit r then s.spdmError 0x0A
        else match (List.range 6).find? fun i => !(s.sessionsOf r).contains (r, i) with
          | none => s.spdmError 0x0A
          | some i => (s.setSpdm (s.trust.spdm ++ [(r, i)])).spdmReply 0x64 (leBytes 2 i)
      else if c = 0xEC then (s.setSpdm (s.trust.spdm.filter fun x => x != (r, n))).spdmReply 0x6C []
      else if c = 0xFE ∧ o = 2 ∧ r < 4 then (s.secured r a).spdmReply 0x7E []
      else if spdmCodes.contains c then s.spdmReply (c - 0x80) (if c = 0xE0 then s.measurements else [])
      else s.spdmError 0x07) := by
  have plain : ¬ o = 0 := by omega
  have inSession : ¬ (o = 2 ∧ (!(s.trust.spdm.filter fun x => decide (x.1 = r)).contains (r, n)) = true) := by
    rintro ⟨rfl, hc⟩
    obtain ho | ⟨-, ho⟩ := ho
    · cases ho
    · unfold State.sessionsOf at ho
      rw [ho] at hc
      cases hc
  unfold execSpdmMessage
  exact congrArg _ ((if_neg (by simp [h])).trans ((if_neg (by simp [hb])).trans ((if_neg plain).trans (if_neg inSession))))

theorem execSpdmMessage_full (n a : Nat) (hl : sessionLimit r ≤ (s.sessionsOf r).length) :
    execSpdmMessage r 1 0xE4 n a s = .next (s.spdmError 0x0A) := by
  rw [execSpdmMessage_byCode h hb (.inl rfl), if_pos rfl, if_pos hl]

theorem execSpdmMessage_opens (n a : Nat) {i : Nat} (hl : (s.sessionsOf r).length < sessionLimit r)
    (hi : ((List.range 6).find? fun i => !(s.sessionsOf r).contains (r, i)) = some i) :
    execSpdmMessage r 1 0xE4 n a s = .next ((s.setSpdm (s.trust.spdm ++ [(r, i)])).spdmReply 0x64 (leBytes 2 i)) := by
  rw [execSpdmMessage_byCode h hb (.inl rfl), if_pos rfl, if_neg (Nat.not_le.2 hl), hi]

theorem execSpdmMessage_closes (n a : Nat) :
    execSpdmMessage r 1 0xEC n a s = .next ((s.setSpdm (s.trust.spdm.filter fun x => x != (r, n))).spdmReply 0x6C []) := by
  rw [execSpdmMessage_byCode h hb (.inl rfl), if_neg (by decide), if_pos rfl]

theorem execSpdmMessage_secures {n : Nat} (a : Nat) (hr : r < 4) (hn : (s.sessionsOf r).contains (r, n) = true) :
    execSpdmMessage r 2 0xFE n a s = .next ((s.secured r a).spdmReply 0x7E []) := by
  rw [execSpdmMessage_byCode h hb (.inr ⟨rfl, hn⟩), if_neg (by decide), if_neg (by decide), if_pos ⟨rfl, rfl, hr⟩]

theorem execSpdmMessage_answers {c : Nat} (n a : Nat) (hc : c ∈ spdmCodes) :
    execSpdmMessage r 1 c n a s = .next (s.spdmReply (c - 0x80) (if c = 0xE0 then s.measurements else [])) := by
  have others : ∀ c ∈ spdmCodes, c ≠ 0xE4 ∧ c ≠ 0xEC ∧ c ≠ 0xFE := by decide
  obtain ⟨h1, h2, h3⟩ := others c hc
  rw [execSpdmMessage_byCode h hb (.inl rfl), if_neg h1, if_neg h2, if_neg fun k => h3 k.1, if_pos (List.contains_iff_mem.2 hc)]

end

/-! ### The management ports and JTAG (R694, R704) -/

section
variable {s : State} {k : List Byte} (h : s.managementUp = true)
include h

theorem execRedfishRequest_forbids : execRedfishRequest false k s = .next (s.emit (.https 403)) := by
  unfold execRedfishRequest
  exact congrArg _ ((if_neg (by simp [h])).trans (if_pos rfl))

theorem execRedfishRequest_manager : execRedfishRequest true k s = .next
    (if k.isEmpty then s.emit (.https 200)
      else if s.trust.anchors.contains k then s.emit (.https 200)
      else if s.trust.anchors.length ≥ 8 then s.emit (.https 507)
      else ({ s with trust := { s.trust with anchors := s.trust.anchors ++ [k] } } : State).emit (.https 201)) := by
  unfold execRedfishRequest
  exact congrArg _ ((if_neg (by simp [h])).trans (if_neg (by decide)))

theorem execRedfishRequest_known (hk : s.trust.anchors.contains k = true) : execRedfishRequest true k s = .next (s.emit (.https 200)) := by
  rw [execRedfishRequest_manager h, if_pos hk, ite_self]

section
variable (hk : k ≠ []) (hc : s.trust.anchors.contains k = false)
include hk hc

theorem execRedfishRequest_full (hl : 8 ≤ s.trust.anchors.length) : execRedfishRequest true k s = .next (s.emit (.https 507)) := by
  rw [execRedfishRequest_manager h, if_neg (by simpa using hk), if_neg (by rw [hc]; decide), if_pos hl]

theorem execRedfishRequest_installs (hl : s.trust.anchors.length < 8) : execRedfishRequest true k s = .next
    (({ s with trust := { s.trust with anchors := s.trust.anchors ++ [k] } } : State).emit (.https 201)) := by
  rw [execRedfishRequest_manager h, if_neg (by simpa using hk), if_neg (by rw [hc]; decide), if_neg (Nat.not_le.2 hl)]

end

end

section
variable {s : State} (h : s.power.rails.contains 9 = true)
include h

/-- An instruction that answers, but BYPASS, shifts a value out. -/
theorem execJtagInstruction_shifts {c : Nat} (hc : c ≤ 2 ∨ (c = 3 ∧ s.power.resetHeld = true) ∨ bit s.debug 1 = true) (h1 : c ≠ 1) :
    execJtagInstruction c s = .next (s.emit (.jtag (if c = 0 then Config.unit 5 else s.nextFree))).drew := by
  unfold execJtagInstruction
  exact congrArg _ ((if_neg (by rw [h]; decide)).trans ((if_pos hc).trans (if_neg h1)))

theorem execJtagInstruction_bypasses : execJtagInstruction 1 s = .next (s.emit (.jtag 0)) := by
  unfold execJtagInstruction
  exact congrArg _ ((if_neg (by rw [h]; decide)).trans ((if_pos (.inl (by decide))).trans (if_pos rfl)))

theorem execJtagInstruction_locked {c : Nat} (hc : 3 < c) (hd : bit s.debug 1 = false) : execJtagInstruction c s = .next (s.emit (.jtag 0)) := by
  unfold execJtagInstruction
  refine congrArg _ ((if_neg (by rw [h]; decide)).trans (if_neg ?_))
  rintro (low | ⟨extest, -⟩ | unlocked)
  · omega
  · omega
  · rw [hd] at unlocked
    cases unlocked

end

/-- Settles O38: a message goes by its responder's state, its object and its code (`execSpdmMessage_byCode`), a request by the role and the
anchor (`execRedfishRequest_manager`), an instruction by its code and the JTAG bit. -/
theorem trustServices : Obligations.TrustServices := by
  intro s answer error
  refine ⟨fun r => ⟨execSpdmMessage_silent, execSpdmMessage_busy, fun h hb => ⟨execSpdmMessage_cdat h hb, fun c n a hn => ?_, fun n a hl => ?_,
      fun n a i hl hi => ?_, execSpdmMessage_closes h hb, fun n hr hn => ⟨?_, ?_⟩, fun n a => ?_, fun n a c hc => ?_⟩⟩,
    fun h m k => ?_, fun h => ⟨fun k => execRedfishRequest_forbids h, execRedfishRequest_manager h,
      fun k hk hc => ⟨execRedfishRequest_full h hk hc, execRedfishRequest_installs h hk hc⟩, fun k => execRedfishRequest_known h⟩,
    fun h c => ?_, fun h => ⟨execJtagInstruction_shifts h (.inl (by decide)) (by decide), execJtagInstruction_bypasses h,
      execJtagInstruction_shifts h (.inl (by decide)) (by decide), fun c hc hd => ?_, fun hr => ?_, fun c => execJtagInstruction_locked h⟩⟩
  · exact execSpdmMessage_noSession h hb c a hn
  · exact execSpdmMessage_full h hb n a hl
  · exact execSpdmMessage_opens h hb n a hl hi
  · exact execSpdmMessage_secures h hb 1 hr hn
  · exact execSpdmMessage_secures h hb 2 hr hn
  · exact execSpdmMessage_answers h hb n a (by decide)
  · have code : ∀ c ∈ [0x81, 0x82, 0x83, 0x84, 0xE1, 0xE3, 0xE5, 0xE8], c ∈ spdmCodes ∧ c ≠ 0xE0 := by decide
    exact (execSpdmMessage_answers h hb n a (code c hc).1).trans (by rw [if_neg (code c hc).2]; rfl)
  · exact congrArg _ (if_pos (by simp [h]))
  · exact congrArg _ (if_pos (by rw [h]; rfl))
  · exact (execJtagInstruction_shifts h (.inr (.inr hd)) (by omega)).trans (by rw [if_neg (by omega)])
  · exact execJtagInstruction_shifts h (.inr (.inl ⟨rfl, hr⟩)) (by decide)

end Sys2Proof.Machine
end

section
/-! SUPPORT. The Wayfarer monitor (spec 20: R758, R759; the layout of its lines is log entry 52's): how a line is served, what each command answers,
and what it leaves as it was. -/

namespace Sys2Proof.Machine

/-! ### How a line is served -/

section
variable {s : State} {l name : List Byte} {mask : Nat} {inn : Bool} {f : List Nat → State → Option (State × List (List Byte))}

theorem wayfarer_off (h : s.wayfarerRuns = false) : s.wayfarer l name mask inn f = s := by
  unfold State.wayfarer
  exact if_pos (by simp [h])

variable (h : s.wayfarerRuns = true)
include h

theorem wayfarer_empty (hw : lineWords l = []) : s.wayfarer l name mask inn f = s.emit (.uart (wayfarerText [] 1)) := by
  unfold State.wayfarer
  rw [if_neg (by simp [h]), hw]

section
variable {w : List Byte} {args : List (List Byte)} (hw : lineWords l = w :: args)
include hw

theorem wayfarer_unknown (hc : 128 < l.length ∨ wayfarerNames.contains w = false) :
    s.wayfarer l name mask inn f = s.emit (.uart (wayfarerText [] 1)) := by
  unfold State.wayfarer
  rw [if_neg (by simp [h]), hw]
  exact if_pos (hc.imp id fun k => by rw [k]; rfl)

end

section
variable {args : List (List Byte)} (hw : lineWords l = name :: args) (hl : l.length ≤ 128) (hk : wayfarerNames.contains name = true)
include hw hl hk

/-- A line of the row's own command goes by its gates, and then by its arguments. -/
theorem wayfarer_named : s.wayfarer l name mask inn f =
    if s.debug &&& mask ≠ mask then s.emit (.uart (wayfarerText [] 3))
    else if inn ∧ !s.innRuns then s.emit (.uart (wayfarerText [] 4))
    else match numbersOf args with
      | none => s.emit (.uart (wayfarerText [] 2))
      | some ns => match f ns s with
        | none => s.emit (.uart (wayfarerText [] 2))
        | some (s, lines) => s.emit (.uart (wayfarerText lines 0)) := by
  unfold State.wayfarer
  rw [if_neg (by simp [h]), hw]
  refine (if_neg ?_).trans ((if_neg (not_not_intro rfl)).trans rfl)
  rw [hk]
  rintro (long | ⟨⟨⟩⟩)
  omega

theorem wayfarer_locked (hm : s.debug &&& mask ≠ mask) : s.wayfarer l name mask inn f = s.emit (.uart (wayfarerText [] 3)) := by
  rw [wayfarer_named h hw hl hk, if_pos hm]

variable (hm : s.debug &&& mask = mask)
include hm

theorem wayfarer_noInnkeeper (hn : inn = true) (hi : s.innRuns = false) :
    s.wayfarer l name mask inn f = s.emit (.uart (wayfarerText [] 4)) := by
  rw [wayfarer_named h hw hl hk, if_neg (not_not_intro hm), if_pos ⟨hn, by simp [hi]⟩]

variable (hi : inn = true → s.innRuns = true)
include hi

theorem wayfarer_noNumbers (hn : numbersOf args = none) : s.wayfarer l name mask inn f = s.emit (.uart (wayfarerText [] 2)) := by
  have gate : ¬ (inn = true ∧ (!s.innRuns) = true) := fun k => by simp [hi k.1] at k
  rw [wayfarer_named h hw hl hk, if_neg (not_not_intro hm), if_neg gate, hn]

section
variable {ns : List Nat} (hn : numbersOf args = some ns)
include hn

theorem wayfarer_refuses (hf : f ns s = none) : s.wayfarer l name mask inn f = s.emit (.uart (wayfarerText [] 2)) := by
  have gate : ¬ (inn = true ∧ (!s.innRuns) = true) := fun k => by simp [hi k.1] at k
  rw [wayfarer_named h hw hl hk, if_neg (not_not_intro hm), if_neg gate, hn]
  dsimp only
  rw [hf]

theorem wayfarer_answers {t : State} {lines : List (List Byte)} (hf : f ns s = some (t, lines)) :
    s.wayfarer l name mask inn f = t.emit (.uart (wayfarerText lines 0)) := by
  have gate : ¬ (inn = true ∧ (!s.innRuns) = true) := fun k => by simp [hi k.1] at k
  rw [wayfarer_named h hw hl hk, if_neg (not_not_intro hm), if_neg gate, hn]
  dsimp only
  rw [hf]

end

end

end

/-! ### The rows -/

/-- Each row serves the line under its own name and gates (Table 20-9), whatever its command does. -/
theorem wayfarerRows_serve {l : List Byte} {x : Instr × List Byte × Nat × Bool}
    (hx : x ∈ [(Instr.wayfarerHelp l, nameHelp, 0, false), (.wayfarerVersion l, nameVersion, 0, false), (.wayfarerState l, nameState, 0, false),
      (.wayfarerTime l, nameTime, 0, false), (.wayfarerBoot l, nameBoot, 0, false), (.wayfarerBaud l, nameBaud, 0, false),
      (.wayfarerCount l, nameCount, 1, true), (.wayfarerEvents l, nameEvents, 1, true), (.wayfarerWeather l, nameWeather, 1, true),
      (.wayfarerLinks l, nameLinks, 1, false), (.wayfarerReg l, nameReg, 1, false), (.wayfarerTrace l, nameTrace, 5, true)]) (s : State) :
    wayfarerNames.contains x.2.1 = true ∧ ∃ f, exec x.1 s = .next (s.wayfarer l x.2.1 x.2.2.1 x.2.2.2 f) := by
  have named : ∀ name ∈ wayfarerNames, wayfarerNames.contains name = true := fun _ => List.contains_iff_mem.2
  simp only [List.mem_cons, List.not_mem_nil, or_false] at hx
  obtain rfl | rfl | rfl | rfl | rfl | rfl | rfl | rfl | rfl | rfl | rfl | rfl := hx <;>
    exact ⟨named _ (by simp [wayfarerNames]), _, rfl⟩

/-- Settles O37: every row serves its line alike (`wayfarerRows_serve`), so refusals are the engine's, and each command answers what its own
function of the numbers gives (`wayfarer_answers`, `wayfarer_refuses`). -/
theorem wayfarer : Obligations.Wayfarer := by
  intro l s all err said
  have serve : ∀ x ∈ all, wayfarerNames.contains x.2.1 = true ∧ ∃ f, exec x.1 s = .next (s.wayfarer l x.2.1 x.2.2.1 x.2.2.2 f) :=
    fun x hx => wayfarerRows_serve hx s
  refine ⟨fun h x hx => ?_, fun h => ⟨fun hw x hx => ?_, fun w args hw => ⟨fun hc x hx => ?_, fun hl x hx hn => ?_, fun hl ns hn => ?_⟩⟩⟩
  · obtain ⟨-, f, hf⟩ := serve x hx
    rw [hf, wayfarer_off h]
  · obtain ⟨-, f, hf⟩ := serve x hx
    rw [hf, wayfarer_empty h hw]
  · obtain ⟨-, f, hf⟩ := serve x hx
    rw [hf, wayfarer_unknown h hw hc]
  · obtain ⟨hk, f, hf⟩ := serve x hx
    subst hn
    exact ⟨fun hm => by rw [hf, wayfarer_locked h hw hl hk hm], fun hm hn hi => by rw [hf, wayfarer_noInnkeeper h hw hl hk hm hn hi],
      fun hm hi hn => by rw [hf, wayfarer_noNumbers h hw hl hk hm (fun _ => hi) hn]⟩
  · have any := Nat.and_zero s.debug
    refine ⟨?_, ?_, ?_, ?_, ?_, ?_, ?_, ?_⟩
    · rintro rfl
      refine ⟨?_, ?_, ?_, ?_, ?_, ?_, ?_⟩
      · rintro rfl
        exact congrArg Host.Outcome.next (wayfarer_answers h hw hl (by decide) any (by nofun) hn rfl)
      · rintro rfl
        exact congrArg Host.Outcome.next (wayfarer_answers h hw hl (by decide) any (by nofun) hn rfl)
      · rintro rfl hp
        exact congrArg Host.Outcome.next (wayfarer_answers h hw hl (by decide) any (by nofun) hn (by simp [hp]))
      · rintro rfl hp
        exact congrArg Host.Outcome.next (wayfarer_answers h hw hl (by decide) any (by nofun) hn (by simp [hp]))
      · rintro rfl
        exact congrArg Host.Outcome.next (wayfarer_answers h hw hl (by decide) any (by nofun) hn rfl)
      · rintro rfl
        exact congrArg Host.Outcome.next (wayfarer_answers h hw hl (by decide) any (by nofun) hn rfl)
      · rintro rfl hm
        exact congrArg Host.Outcome.next (wayfarer_answers h hw hl (by decide) hm (by nofun) hn rfl)
    · rintro hne rfl
      exact congrArg Host.Outcome.next (wayfarer_refuses h hw hl (by decide) any (by nofun) hn (if_neg hne))
    · rintro rfl n rfl
      exact ⟨fun hb => congrArg Host.Outcome.next (wayfarer_answers h hw hl (by decide) any (by nofun) hn (if_pos hb)),
        fun hb => congrArg Host.Outcome.next (wayfarer_refuses h hw hl (by decide) any (by nofun) hn (if_neg (ne_true_of_eq_false hb)))⟩
    · rintro rfl hm hi g i n rfl hb hg
      refine congrArg Host.Outcome.next (wayfarer_answers h hw hl (by decide) hm (fun _ => hi) hn ((if_neg (Nat.not_lt.2 hb)).trans ?_))
      rw [hg]
      rfl
    · rintro rfl hm hi n rfl h1 h2
      exact congrArg Host.Outcome.next (wayfarer_answers h hw hl (by decide) hm (fun _ => hi) hn (if_neg (by omega)))
    · rintro rfl hm hi c u rfl h1 h2 hu
      exact congrArg Host.Outcome.next (wayfarer_answers h hw hl (by decide) hm (fun _ => hi) hn (if_neg (by rw [hu]; simp; omega)))
    · rintro rfl hm o ho
      refine ⟨?_, ?_⟩
      · rintro rfl hb
        exact congrArg Host.Outcome.next (wayfarer_answers h hw hl (by decide) hm (by nofun) hn (if_neg (by simp; omega)))
      · rintro rfl hb
        exact congrArg Host.Outcome.next (wayfarer_answers h hw hl (by decide) hm (by nofun) hn (if_neg (by simp; omega)))
    · rintro rfl hm hi o n rfl h1 h2
      exact congrArg Host.Outcome.next (wayfarer_answers h hw hl (by decide) hm (fun _ => hi) hn (if_neg (by omega)))

/-! ### What a line leaves as it was (R759) -/

/-- The second state differs from the first in what has left the block and in the count of free values, at most. -/
def Spoken (s t : State) : Prop := t = { s with out := t.out, free := t.free }

theorem Spoken.refl (s : State) : Spoken s s := rfl

/-- As `Spoken`, and in the UART's rate. -/
def Rated (s t : State) : Prop := t = { s with out := t.out, free := t.free, obs := { s.obs with baud := t.obs.baud } }

section
variable {s : State} {l name : List Byte} {mask : Nat} {inn : Bool} {f : List Nat → State → Option (State × List (List Byte))}

/-- A line says something, or nothing at all: a relation that covers what its command does covers its outcome. -/
theorem wayfarer_endsIn {R : State → State → Prop} (h0 : R s s) (he : ∀ o, R s (s.emit o))
    (hf : ∀ ns t lines, f ns s = some (t, lines) → ∀ o, R s (t.emit o)) : EndsIn R s (.next (s.wayfarer l name mask inn f)) := by
  refine ⟨_, rfl, ?_⟩
  unfold State.wayfarer
  split
  · exact h0
  split
  · exact he _
  split
  · exact he _
  split
  · exact h0
  split
  · exact he _
  split
  · exact he _
  split
  · exact he _
  split
  · exact he _
  · exact hf _ _ _ ‹_› _

theorem wayfarer_spoken (hf : ∀ ns t lines, f ns s = some (t, lines) → Spoken s t) :
    EndsIn Spoken s (.next (s.wayfarer l name mask inn f)) := by
  refine wayfarer_endsIn rfl (fun _ => rfl) fun ns t lines h o => ?_
  have k := hf ns t lines h
  unfold Spoken at k ⊢
  rw [k]
  rfl

end

section
variable {s t u : State} {p : Prop} [Decidable p] {a lines : List (List Byte)} (hu : Spoken s u)
include hu

theorem spoken_of_some (h : (if p then some (u, a) else none) = some (t, lines)) : Spoken s t := by
  split at h
  · cases h
    exact hu
  · cases h

theorem spoken_of_else (h : (if p then none else some (u, a)) = some (t, lines)) : Spoken s t := by
  split at h
  · cases h
  · cases h
    exact hu

end

/-! ### The commands that take one number or two -/

theorem execWayfarerCount_spoken (l : List Byte) (s : State) : EndsIn Spoken s (execWayfarerCount l s) := by
  refine wayfarer_spoken fun ns t lines h => ?_
  split at h
  · split at h
    · cases h
    · obtain ⟨n, -, h⟩ := Option.map_eq_some_iff.1 h
      cases h
      rfl
  · cases h

theorem execWayfarerEvents_spoken (l : List Byte) (s : State) : EndsIn Spoken s (execWayfarerEvents l s) := by
  refine wayfarer_spoken fun ns t lines h => ?_
  split at h
  · exact spoken_of_else (Spoken.refl s) h
  · cases h

theorem execWayfarerWeather_spoken (l : List Byte) (s : State) : EndsIn Spoken s (execWayfarerWeather l s) := by
  refine wayfarer_spoken fun ns t lines h => ?_
  split at h
  · exact spoken_of_else (Spoken.refl s) h
  · cases h

theorem execWayfarerReg_spoken (l : List Byte) (s : State) : EndsIn Spoken s (execWayfarerReg l s) := by
  refine wayfarer_spoken fun ns t lines h => ?_
  split at h
  · exact spoken_of_else (Spoken.refl s) h
  · cases h

theorem execWayfarerTrace_spoken (l : List Byte) (s : State) : EndsIn Spoken s (execWayfarerTrace l s) := by
  refine wayfarer_spoken fun ns t lines h => ?_
  split at h
  · exact spoken_of_else (u := s.drewN _) rfl h
  · cases h

theorem execWayfarerBaud_rated (l : List Byte) (s : State) : EndsIn Rated s (execWayfarerBaud l s) := by
  refine wayfarer_endsIn rfl (fun _ => rfl) fun ns t lines h o => ?_
  split at h
  · split at h
    · cases h
      rfl
    · cases h
  · cases h

/-! ### The gates by bits (R704, R759) -/

theorem and_ne_of_bit {v mask i : Nat} (hv : bit v i = false) (hm : bit mask i = true) : v &&& mask ≠ mask := by
  intro h
  unfold bit at *
  rw [← h, Nat.testBit_and, hv] at hm
  cases hm

theorem and_two_pow_of_bit {v i : Nat} (h : bit v i = true) : v &&& 2 ^ i = 2 ^ i := by
  unfold bit at h
  refine Nat.eq_of_testBit_eq fun j => ?_
  rw [Nat.testBit_and, Nat.testBit_two_pow]
  by_cases hj : i = j
  · rw [← hj, h, decide_eq_true rfl, Bool.and_true]
  · rw [decide_eq_false hj, Bool.and_false]

theorem and_five_of_bits {v : Nat} (h0 : bit v 0 = true) (h2 : bit v 2 = true) : v &&& 5 = 5 := by
  show v &&& (2 ^ 0 ||| 2 ^ 2) = 2 ^ 0 ||| 2 ^ 2
  rw [Nat.and_or_distrib_left, and_two_pow_of_bit h0, and_two_pow_of_bit h2]

/-- Settles O50: each command speaks only (`wayfarer_spoken`), BAUD also sets the rate; the gates are the engine's (`wayfarer_locked`,
`wayfarer_noInnkeeper`). -/
theorem wayfarerWritesNothing : Obligations.WayfarerWritesNothing := by
  intro l s
  refine ⟨?_, execWayfarerBaud_rated l s, fun w args h hl hw => ⟨fun hb x hx hn => ?_, fun h0 h2 hi x hx hn => ?_⟩⟩
  · simp only [List.forall_mem_cons, List.not_mem_nil, false_implies, implies_true, and_true]
    exact ⟨wayfarer_spoken fun _ _ _ => spoken_of_some (Spoken.refl s), wayfarer_spoken fun _ _ _ => spoken_of_some (Spoken.refl s),
      wayfarer_spoken fun _ _ _ => spoken_of_some (Spoken.refl s), wayfarer_spoken fun _ _ _ => spoken_of_some (Spoken.refl s),
      wayfarer_spoken fun _ _ _ => spoken_of_some (Spoken.refl s), execWayfarerCount_spoken l s, execWayfarerEvents_spoken l s,
      execWayfarerWeather_spoken l s, wayfarer_spoken fun _ _ _ => spoken_of_some (u := s.drewN _) rfl, execWayfarerReg_spoken l s,
      execWayfarerTrace_spoken l s⟩
  · have one := and_ne_of_bit hb (by decide : bit 1 0 = true)
    have five := and_ne_of_bit hb (by decide : bit 5 0 = true)
    simp only [List.mem_cons, List.not_mem_nil, or_false] at hx
    subst hn
    obtain rfl | rfl | rfl | rfl | rfl | rfl := hx <;>
      exact congrArg Host.Outcome.next (wayfarer_locked h hw hl (by decide) (by assumption))
  · have one : s.debug &&& 1 = 1 := and_two_pow_of_bit h0
    have five := and_five_of_bits h0 h2
    simp only [List.mem_cons, List.not_mem_nil, or_false] at hx
    subst hn
    obtain rfl | rfl | rfl | rfl := hx <;>
      exact congrArg Host.Outcome.next (wayfarer_noInnkeeper h hw hl (by decide) (by assumption) rfl hi)

end Sys2Proof.Machine
end

section
/-! SUPPORT. Ring heads and bad doorbells (spec 23: R805, R807; spec 06: R264): what a doorbell write leaves of each queue. -/

namespace Sys2Proof.Machine

/-! ### Doorbell errors -/

theorem sq_id {s : State} {q : Nat} {x : Sq} (h : s.sq q = some x) : x.id = q := by simpa using List.find?_some h
theorem cq_id {s : State} {q : Nat} {x : Cq} (h : s.cq q = some x) : x.id = q := by simpa using List.find?_some h

/-- The SQ with so many doorbell errors more. -/
def Sq.erred (n : Nat) (y : Sq) : Sq := { y with badDoorbells := y.badDoorbells + n }

theorem erred_zero : Sq.erred 0 = id := rfl
theorem erred_erred (m n : Nat) : Sq.erred m ∘ Sq.erred n = Sq.erred (m + n) :=
  funext fun y => congrArg (fun k => { y with badDoorbells := k }) (by show y.badDoorbells + n + m = _; omega)

theorem doorbellError_sq (s : State) (q i : Nat) : (s.doorbellError q).sq i = (s.sq i).map (Sq.erred (if i = q then 1 else 0)) := by
  show (s.setSq q (Sq.erred 1)).sq i = _
  rw [State.setSq_sq s q i (Sq.erred 1) fun _ => rfl]
  split
  · rfl
  · rw [erred_zero, Option.map_id_apply]

theorem doorbellErrors_sq : ∀ (l : List Nat) (s : State) (i : Nat), (l.foldl State.doorbellError s).sq i = (s.sq i).map (Sq.erred (l.count i))
  | [], s, i => by rw [List.count_nil, erred_zero, Option.map_id_apply]; rfl
  | q :: l, s, i => by
    rw [List.foldl_cons, doorbellErrors_sq l, doorbellError_sq, Option.map_map, erred_erred, List.count_cons]
    simp only [beq_iff_eq, eq_comm (a := q)]

theorem doorbellErrors_cq : ∀ (l : List Nat) (s : State) (i : Nat), (l.foldl State.doorbellError s).cq i = s.cq i
  | [], _, _ => rfl
  | _ :: l, _, i => doorbellErrors_cq l _ i

theorem doorbellErrors_store : ∀ (l : List Nat) (s : State), (l.foldl State.doorbellError s).store = s.store
  | [], _ => rfl
  | _ :: l, _ => doorbellErrors_store l _

/-- The doorbell errors of a CQ count at each SQ that it serves. -/
def State.served (s : State) (q : Nat) : List Nat := (s.queues.sqs.filter fun z => z.cq = q).map (·.id)

/-- An error at a CQ: one more of its own, and one at each SQ that it serves. -/
def State.cqError (s : State) (q : Nat) : State :=
  (s.served q).foldl State.doorbellError (s.setCq q fun x => { x with badDoorbells := x.badDoorbells + 1 })

theorem cqError_cq {s : State} {q : Nat} {x : Cq} (hx : s.cq q = some x) :
    (s.cqError q).cq q = some { x with badDoorbells := x.badDoorbells + 1 } := by
  unfold State.cqError
  rw [doorbellErrors_cq, State.setCq_cq s q q _ (by intro; rfl), if_pos rfl, hx]
  rfl

theorem cqError_sq (s : State) (q i : Nat) : (s.cqError q).sq i = (s.sq i).map (Sq.erred ((s.served q).count i)) :=
  doorbellErrors_sq _ _ i

theorem cqError_store (s : State) (q : Nat) : (s.cqError q).store = s.store := doorbellErrors_store _ _

/-! ### Writes that are not accepted -/

section
variable {a : RegAccess} {q : Nat} {s : State}

theorem doorbell_cqHead_bad {x : Cq} (hx : s.cq q = some x) (hu : s.mayUse a.view a.agent x.guest = true)
    (hv : headFits x.depth x.head x.write (regPlaced a) = false) : s.doorbell a q 1 = s.cqError q := by
  obtain rfl := cq_id hx
  unfold State.doorbell
  dsimp only
  rw [if_pos rfl, hx]
  exact (if_pos hu).trans (if_neg (ne_true_of_eq_false hv))

theorem doorbell_errHead_bad {x : Sq} (hx : s.sq q = some x) (hu : s.mayUse a.view a.agent x.guest = true)
    (hv : 2 ^ 17 ≤ regPlaced a ∨ headFits x.errDepth x.errHead x.errWrite (regPlaced a % 2 ^ 16) = false) :
    s.doorbell a q 2 = s.doorbellError q := by
  obtain rfl := sq_id hx
  unfold State.doorbell
  dsimp only
  rw [if_neg (by decide), hx]
  dsimp only
  rw [if_neg (by simp [hu]), if_neg (by decide)]
  exact if_pos (hv.imp id fun k => by rw [k]; rfl)

end

/-! ### Ring heads (R805) -/

theorem headFits_iff {depth last write v : Nat} : headFits depth last write v = true ↔
    v < 2 ^ 16 ∧ v < depth ∧ (v + depth - last) % depth ≤ (write + depth - last) % depth := decide_eq_true_iff

theorem bits_low (v : Nat) : bits v 15 0 = v % 2 ^ 16 := by
  unfold bits
  rw [Nat.pow_zero, Nat.div_one]

/-- A part of a register is below its width, so only the depth and the positions are in question. -/
theorem headFits_low {depth last write v : Nat} : headFits depth last write (v % 2 ^ 16) = true ↔
    bits v 15 0 < depth ∧ (bits v 15 0 + depth - last) % depth ≤ (write + depth - last) % depth := by
  rw [headFits_iff, bits_low]
  exact and_iff_right (Nat.mod_lt _ (by decide))

section
variable {a : RegAccess} {p q : Nat} {s : State} (h : hostReaches a p s = true) (ha : regAllowed a = true) (hw : a.write = true)
include h ha hw

section
variable {x : Cq} (hp : placeOf a.bar a.off = .doorbell q 1) (hx : s.cq q = some x) (hu : s.mayUse a.view a.agent x.guest = true)
include hp hx hu

theorem execCqHead_accepts (hv : headFits x.depth x.head x.write (regPlaced a) = true) :
    ∃ t, execCqHead a s = .next t ∧ t.cq q = some { x with head := regPlaced a } ∧ t.queues.sqs = s.queues.sqs := by
  obtain rfl := cq_id hx
  refine ⟨_, (hostDoorbell_rings h ha hw hp nofun).trans (congrArg _ (doorbell_cqHead hx hu hv)), ?_, rfl⟩
  rw [State.setCq_cq s _ _ _ (by intro; rfl), if_pos rfl, hx]
  rfl

theorem execCqHead_errs (hv : headFits x.depth x.head x.write (regPlaced a) = false) : execCqHead a s = .next (s.cqError q) :=
  (hostDoorbell_rings h ha hw hp nofun).trans (congrArg _ (doorbell_cqHead_bad hx hu hv))

end

section
variable {x : Sq} {resume : Bool} (hp : placeOf a.bar a.off = .doorbell q 2) (hx : s.sq q = some x)
  (hu : s.mayUse a.view a.agent x.guest = true) (hb : bit (regPlaced a) 16 = resume)
include hp hx hu hb

/-- HEAD is taken, and RESUME starts the queue again. -/
theorem errHead_accepts (hr : regPlaced a < 2 ^ 17) (hv : headFits x.errDepth x.errHead x.errWrite (regPlaced a % 2 ^ 16) = true) :
    ∃ t, s.hostDoorbell a 2 resume = .next t ∧
      t.sq q = some { x with errHead := bits (regPlaced a) 15 0, stopped := x.stopped && !resume } := by
  obtain rfl := sq_id hx
  refine ⟨_, (hostDoorbell_rings h ha hw hp fun _ => hb).trans (congrArg _ (doorbell_errHead hx hu hr hv)), ?_⟩
  rw [State.setSq_sq s _ _ _ (by intro; rfl), if_pos rfl, hx, hb, bits_low]
  rfl

theorem errHead_errs (hv : 2 ^ 17 ≤ regPlaced a ∨ headFits x.errDepth x.errHead x.errWrite (regPlaced a % 2 ^ 16) = false) :
    s.hostDoorbell a 2 resume = .next (s.doorbellError q) :=
  (hostDoorbell_rings h ha hw hp fun _ => hb).trans (congrArg _ (doorbell_errHead_bad hx hu hv))

end

theorem execSqTail_errs {x : Sq} (hp : placeOf a.bar a.off = .doorbell q 0) (hx : s.sq q = some x)
    (hu : s.mayUse a.view a.agent x.guest = true) (hv : 2 ^ 16 ≤ regPlaced a ∨ x.depth ≤ regPlaced a) :
    execSqTail a s = .next (s.doorbellError q) := by
  refine (hostDoorbell_rings h ha hw hp nofun).trans (congrArg _ ((doorbell_tail hx hu).trans ?_))
  rw [if_pos hv, sq_id hx]

end

/-- The named SQ has one error more. -/
theorem doorbellError_named {s : State} {q : Nat} {x : Sq} (hx : s.sq q = some x) :
    (s.doorbellError q).sq q = some { x with badDoorbells := x.badDoorbells + 1 } := by
  rw [doorbellError_sq, if_pos rfl, hx]
  rfl

/-- Settles O48: a head between the last one and the write position is taken (`execCqHead_accepts`, `errHead_accepts`), any other is counted
(`execCqHead_errs`, `errHead_errs`). -/
theorem ringHeads : Obligations.RingHeads := by
  intro a p q s h ha hw
  refine ⟨fun x hp hx hu => ⟨fun hv => ?_, fun hv => ?_⟩, fun x hp hx hu hr => ⟨fun hv hb => ?_, fun hv hb => ?_, fun hv hb => ?_, fun hv hb => ?_⟩⟩
  · exact execCqHead_accepts h ha hw hp hx hu (headFits_iff.2 hv)
  · exact ⟨_, execCqHead_errs h ha hw hp hx hu (Bool.eq_false_iff.2 fun k => hv (headFits_iff.1 k)), cqError_cq hx, cqError_sq s q⟩
  · obtain ⟨t, ht, hq⟩ := errHead_accepts h ha hw hp hx hu hb hr (headFits_low.2 hv)
    exact ⟨t, ht, by simpa using hq⟩
  · obtain ⟨t, ht, hq⟩ := errHead_accepts h ha hw hp hx hu hb hr (headFits_low.2 hv)
    exact ⟨t, ht, by simpa using hq, fun hs => by simpa [← hs] using hq⟩
  · exact ⟨_, errHead_errs h ha hw hp hx hu hb (.inr (Bool.eq_false_iff.2 fun k => hv (headFits_low.1 k))), doorbellError_named hx⟩
  · exact ⟨_, errHead_errs h ha hw hp hx hu hb (.inr (Bool.eq_false_iff.2 fun k => hv (headFits_low.1 k))), doorbellError_named hx⟩

/-- Settles O49: every such write comes to a doorbell error at its queue, or at those that the CQ serves (`cqError_sq`), and no more. -/
theorem badDoorbells : Obligations.BadDoorbells := by
  intro a p q s h ha hw counted
  have one : counted (s.doorbellError q) := ⟨rfl, doorbellError_sq s q⟩
  refine ⟨fun x hx hu => ⟨fun hp hv => ⟨_, execSqTail_errs h ha hw hp hx hu hv, one⟩, fun hp hv =>
    ⟨fun hb => ⟨_, errHead_errs h ha hw hp hx hu hb (.inl hv), one⟩, fun hb => ⟨_, errHead_errs h ha hw hp hx hu hb (.inl hv), one⟩⟩⟩,
    fun x hx hu hp hv => ⟨_, execCqHead_errs h ha hw hp hx hu ?_, cqError_store s q, cqError_cq hx, cqError_sq s q⟩⟩
  exact Bool.eq_false_iff.2 fun k => Nat.not_lt.2 hv (headFits_iff.1 k).1

end Sys2Proof.Machine
end

section
/-! SUPPORT. Tidetime (spec 20: R737–R746; spec 25: R816): each TIME message and each timer in its case. -/

namespace Sys2Proof.Machine

/-! ### TIME messages -/

section
variable {s : State} {m : SxfMsg} {b : Bundle} (hm : m.op = Sxf.time) (hp : s.portRefusal m = none) (hb : s.bundle m.via = some b)
  (hk : b.kind = .causeway) (ho : b.opened = true)
include hm hp hb hk ho

/-- A TIME message of the row's kind that comes in on an open causeway is served. -/
theorem timeMsg_serves {kind : Nat} {f : Bundle → State → State} (h : timeKind m = kind) : s.timeMsg m kind f = .next (f b s) := by
  unfold State.timeMsg
  rw [State.arrival_eq (by simp [hm, h]), State.ported_eq hp, hb]
  exact congrArg Host.Outcome.next (if_pos (by simp [hk, ho]))

section
variable (h : timeKind m = 2) {x : SyncOut} {up : Heard}
  (hx : (s.clock.syncs.find? fun x => x.seq = timeSeq m ∧ x.bundle = b.id) = some x) (hu : s.upstream = some up)
include h hx hu

/-- A REPLY takes its sync out of those outstanding; from another causeway than the upstream's, or after 10 ms, it does no more. -/
theorem execTimeReply_found : execTimeReply m s = .next
    (let u : State := { s with clock := { s.clock with syncs := s.clock.syncs.filter fun y => y.seq ≠ x.seq } }
    let shift : Int := if u.clock.everLocked then 0 else u.clock.step * 65536
    if up.bundle ≠ b.id ∨ x.t1 + 80000 * 65536 < u.stamp then u
    else u.takeOffset up (offset2 ((x.t1 : Int) + shift) ((u.stamp : Int) + shift) m)) := by
  unfold execTimeReply
  rw [timeMsg_serves hm hp hb hk ho h, hx, hu]

end

end

/-! ### Timers -/

theorem execAnnounceTimer_due {s : State} (h : s.clock.announced + 8000000 ≤ s.now ∨ s.clock.said ≠ s.saying) :
    execAnnounceTimer s = .next
      (let say := s.saying
      let body := say.getD 0 0 + say.getD 1 0 * 2 ^ 9 + say.getD 2 0 % 16 * 2 ^ 11 + say.getD 3 0 * 2 ^ 15 + say.getD 4 0 % 2 ^ 48 * 2 ^ 16
      s.openCauseways.foldl (fun s b => s.sendTime b 0 0 body 0) { s with clock := { s.clock with announced := s.now, said := say } }) :=
  congrArg Host.Outcome.next (if_pos h)

theorem execAnnounceTimer_early {s : State} (h : s.now < s.clock.announced + 8000000) (hs : s.clock.said = s.saying) :
    execAnnounceTimer s = .next s :=
  congrArg Host.Outcome.next (if_neg (not_or.2 ⟨Nat.not_le.2 h, not_not_intro hs⟩))

theorem execSyncTimer_due {s : State} {up : Heard} {b : Bundle} (hu : s.upstream = some up) (hb : s.bundle up.bundle = some b)
    (h : s.clock.synced + 1000000 ≤ s.now) : execSyncTimer s = .next
      (({ s with clock := { s.clock with
        synced := s.now, nextSync := (s.clock.nextSync + 1) % 256,
        syncs := s.clock.syncs ++ [SyncOut.mk s.clock.nextSync s.stamp b.id] } } : State).sendTime b 1 s.clock.nextSync 0 0) := by
  unfold execSyncTimer
  rw [hu]
  dsimp only
  rw [hb]
  exact congrArg Host.Outcome.next (if_neg (Nat.not_lt.2 h))

theorem execSyncLost_overdue {s : State} {q : Nat} (h : ∃ x ∈ s.clock.syncs, x.seq = q ∧ x.t1 + 80000 * 65536 ≤ s.stamp) :
    execSyncLost q s = .next
      (({ s with clock := { s.clock with syncs := s.clock.syncs.filter fun x => x.seq ≠ q } } : State).count 0x0B 0 7 1) :=
  congrArg Host.Outcome.next (if_pos (by simpa using h))

theorem execAnnounceAgeOut_fresh {s : State} {n : Nat} (h : ∀ x ∈ s.clock.heard, x.bundle = n → s.now < x.time + 24000000) :
    execAnnounceAgeOut n s = .next s :=
  congrArg Host.Outcome.next (if_neg (by simpa using h))

theorem execAnnounceAgeOut_old {s : State} {n : Nat} (h : ∃ x ∈ s.clock.heard, x.bundle = n ∧ x.time + 24000000 ≤ s.now) :
    execAnnounceAgeOut n s = .next
      (State.reclock { s with clock := { s.clock with heard := s.clock.heard.map fun h => if h.bundle = n then { h with time := s.now } else h } }
        { s with clock := { s.clock with heard := s.clock.heard.filter fun h => h.bundle ≠ n } }) :=
  congrArg Host.Outcome.next (if_pos (by simpa using h))

theorem execHeadlandLock_due {s : State} {t : Nat} (ht : s.clock.headSince = some t) (hs : s.headland.2 = s.self)
    (h : t + 16000000000 ≤ s.now) :
    execHeadlandLock s = .next (if s.clock.everLocked then s else { s with clock := { s.clock with step := 0 } }).lock := by
  unfold execHeadlandLock
  rw [ht]
  exact congrArg Host.Outcome.next (if_pos ⟨hs, .inr h⟩)

theorem execHoldoverExpiry_held {s : State} {t : Nat} (ht : s.clock.holdover = some t) : execHoldoverExpiry s = .next
    (if t + 800000000 ≤ s.now then { s.loseLock with clock := { s.loseLock.clock with holdover := none } } else s) := by
  unfold execHoldoverExpiry
  rw [ht]

/-! ### References -/

theorem execPtpMessage_classOne {s : State} (hs : s.headland.2 = s.self) (hc : s.clock.cls = 1) (tai : Nat) (late : Bool) :
    execPtpMessage tai late s = .next
      (({ s with clock := { s.clock with epochTai := tai - s.now / 8000, rate := steer (if late then 1 else -1) s.nextFree } } : State).drew) :=
  congrArg Host.Outcome.next (if_pos ⟨hs, hc⟩)

theorem execTide1ppsEdge_classZero {s : State} (hs : s.headland.2 = s.self) (hc : s.clock.cls = 0) :
    let off : Int := if s.now % 8000000000 < 4000000000 then -(s.now % 8000000000 : Nat) else 8000000000 - (s.now % 8000000000 : Nat)
    execTide1ppsEdge s = .next (({ s with clock := { s.clock with offset := off * 256, rate := steer off s.nextFree } } : State).drew) :=
  congrArg Host.Outcome.next (if_pos ⟨hs, hc⟩)

/-- Settles O28: a TIME message comes to its row's effect (`timeMsg_serves`), and each timer acts in its case. -/
theorem timeMessages : Obligations.TimeMessages := by
  intro s
  refine ⟨fun m b hm hp hb hk ho => ⟨timeMsg_serves hm hp hb hk ho, timeMsg_serves hm hp hb hk ho, fun h x up hx hu => ⟨fun e hl => ?_, fun hl => ?_⟩⟩,
    execAnnounceTimer_due, execAnnounceTimer_early, fun up b => execSyncTimer_due, fun q => execSyncLost_overdue, fun n => execAnnounceAgeOut_fresh,
    fun n => execAnnounceAgeOut_old, fun t => execHeadlandLock_due, fun t ht => ⟨fun h => ?_, fun h => ?_⟩, fun a p => rfl,
    fun hs tai late hc => execPtpMessage_classOne hs hc tai late, execTide1ppsEdge_classZero⟩
  · exact (execTimeReply_found hm hp hb hk ho h hx hu).trans (congrArg Host.Outcome.next (if_neg (not_or.2 ⟨not_not_intro e, Nat.not_lt.2 hl⟩)))
  · exact (execTimeReply_found hm hp hb hk ho h hx hu).trans (congrArg Host.Outcome.next (if_pos (.inr hl)))
  · exact (execHoldoverExpiry_held ht).trans (congrArg Host.Outcome.next (if_pos h))
  · exact (execHoldoverExpiry_held ht).trans (congrArg Host.Outcome.next (if_neg (Nat.not_le.2 h)))

end Sys2Proof.Machine
end

section
/-! SUPPORT. The Tollhouse (spec 19: R708–R732): measurement, seal, supply, mirror and port, each in its case. -/

namespace Sys2Proof.Machine

/-! ### Measurement -/

theorem execActivityFrame_ignored {s : State} {ok : Bool} {n us : Nat} {energy : List Nat} {counts : List (Nat × List Nat)} {below : Bool}
    (h : s.toll.powered = false ∨ s.sendsFrames = false ∨ ok = false ∨ 15000 < us ∨ ∃ k, s.toll.frame = some k ∧ n ≤ k) :
    execActivityFrame ok n us energy counts below s = .next s :=
  congrArg Host.Outcome.next (if_pos (by simpa [Option.any_eq_true] using h))

section
variable {s : State} (hp : s.toll.powered = true)
include hp

theorem execPeriodEnd_ended {k : Nat} (h : s.toll.ended = some k) : execPeriodEnd s = .next (s.closePeriod k) := by
  unfold execPeriodEnd
  rw [if_neg (by simp [hp]), h]

/-- While no period has ended, one that ran 60 s of crystal time without frames is written with its times estimated. -/
theorem execPeriodEnd_running (h : s.toll.ended = none) : execPeriodEnd s = .next
    (if s.toll.lost = true ∧ 60000000 ≤ s.toll.periodTime then
      ({ s with toll := { s.toll with estimated := true } } : State).closePeriod (s.toll.began + 8000 * s.toll.periodTime)
    else s) := by
  unfold execPeriodEnd
  rw [if_neg (by simp [hp]), h]

end

/-! ### Seal and supply -/

theorem breakSeal_ignored {s : State} {c : Nat} (h : s.toll.broken = true ∨ c = 0 ∨ 6 < c) : s.breakSeal c = s := if_pos h

theorem breakSeal_breaks {s : State} {c : Nat} (hb : s.toll.broken = false) (h1 : 1 ≤ c) (h6 : c ≤ 6) : s.breakSeal c =
    let u := (s.tollEvent 7 c).tollSign
    { u with toll := { u.toll with broken := true } } :=
  if_neg (by simp [hb]; omega)

theorem execSealBreak_powered {s : State} {c : Nat} (hp : s.toll.powered = true) : execSealBreak c s = .next (s.breakSeal c) :=
  congrArg Host.Outcome.next (if_pos hp)

theorem execVtollLoss_powered {s : State} (hp : s.toll.powered = true) : execVtollLoss s = .next
    (let u := s.tollEvent 2 0
    { u with toll := { u.toll with powered := false }, power := { u.power with rails := u.power.rails.filter (· ≠ 10) } }) :=
  congrArg Host.Outcome.next (if_neg (by simp [hp]))

/-- The Tollhouse with its supply back, before it writes. -/
def State.tollPowered (s : State) : State :=
  { s with toll := { s.toll with powered := true, baud := 0 }, power := { s.power with rails := setAdd 10 s.power.rails } }

theorem execTollhousePowerUp_unpowered {s : State} {c : Nat} (hp : s.toll.powered = false) :
    execTollhousePowerUp c s = .next ((s.tollPowered.breakSeal c).tollEvent 1 (s.tollPowered.breakSeal c).toll.frameTime) :=
  congrArg Host.Outcome.next (if_neg (by simp [hp]))

/-! ### The mirror -/

theorem execTollStatusMirror_sends {s : State} (hp : s.toll.powered = true) (hb : s.inn.booted = true) : execTollStatusMirror s = .next
    (({ s with mirror := { s.mirror with status := s.tollStatus, statusAt := s.now, late := false } } : State).drew) :=
  congrArg Host.Outcome.next (if_neg (by simp [hp, hb]))

theorem execTollMirrorTimeout_late {s : State} (hb : s.inn.booted = true) (hl : s.mirror.late = false)
    (ht : s.mirror.statusAt + 24000000000 ≤ s.now) : execTollMirrorTimeout s = .next
      (({ s with mirror := { s.mirror with late := true } } : State).report ⟨evFault, sevRecovered, 0xC, 0, 1, 0, 0, 0, 0⟩) :=
  congrArg Host.Outcome.next (if_neg (by simp [hb, hl, ht]))

theorem execTollMirrorTimeout_waits {s : State} (h : s.mirror.late = true ∨ s.now < s.mirror.statusAt + 24000000000) :
    execTollMirrorTimeout s = .next s :=
  congrArg Host.Outcome.next (if_pos (h.imp_right .inr))

/-! ### The port -/

section
variable {s : State} {frame : List Byte} {cmd len : Nat} {f : List Byte → State → State × Nat × List Byte}

theorem port_unpowered (hp : s.toll.powered = false) : s.port' frame cmd len f = s := if_pos (.inl (by simp [hp]))

section
variable (hp : s.toll.powered = true) (ha : fld frame 0 1 = 0xA5)
include hp ha

theorem port_refuses {e : Nat} (h : portBad frame = some e) :
    s.port' frame cmd len f = s.emit (.toll (portResponse (fld frame 1 1) e [])) := by
  unfold State.port'
  rw [if_neg (by simp [hp, ha]), h]

/-- A good frame of the command is answered as the command's effect says. -/
theorem port_answers (h : portBad frame = none) (hc : fld frame 1 1 = cmd) (hn : fld frame 2 2 = len) {t : State} {status : Nat}
    {payload : List Byte} (hf : f (slice frame 4 len) s = (t, status, payload)) :
    s.port' frame cmd len f = t.emit (.toll (portResponse cmd status payload)) := by
  unfold State.port'
  rw [if_neg (by simp [hp, ha]), h]
  dsimp only
  rw [if_neg (not_not_intro hc), if_neg (not_not_intro hn), hf]

end

end

section
variable {s : State} {f : List Byte} (hp : s.toll.powered = true) (ha : fld f 0 1 = 0xA5) (hb : portBad f = none)
include hp ha hb

theorem execTollPortRead_noRecord (hc : fld f 1 1 = 2) (hn : fld f 2 2 = 9)
    (h : fld (slice f 4 9) 0 8 < s.toll.nextSeq - s.toll.store.length ∨ fld (slice f 4 9) 8 1 = 0 ∨ 16 < fld (slice f 4 9) 8 1) :
    execTollPortRead f s = .next (s.emit (.toll (portResponse 2 3 []))) :=
  congrArg Host.Outcome.next (port_answers hp ha hb hc hn (if_pos h))

theorem execTollPortRead_records (hc : fld f 1 1 = 2) (hn : fld f 2 2 = 9)
    (hs : s.toll.nextSeq - s.toll.store.length ≤ fld (slice f 4 9) 0 8) (h1 : 1 ≤ fld (slice f 4 9) 8 1) (h16 : fld (slice f 4 9) 8 1 ≤ 16) :
    execTollPortRead f s = .next (s.emit (.toll (portResponse 2 0
      ((s.toll.store.drop (fld (slice f 4 9) 0 8 - (s.toll.nextSeq - s.toll.store.length))).take (fld (slice f 4 9) 8 1)).flatten))) :=
  congrArg Host.Outcome.next (port_answers hp ha hb hc hn (if_neg (by omega)))

section
variable (hc : fld f 1 1 = 3) (hn : fld f 2 2 = 104)
include hc hn

theorem execTollAck_uncommissioned (h : s.toll.collector = none) : execTollAck f s = .next (s.emit (.toll (portResponse 3 4 []))) := by
  refine congrArg Host.Outcome.next (port_answers hp ha hb hc hn ?_)
  rw [h]
  rfl

section
variable {key : List Byte} (hk : s.toll.collector = some key)
  (hr : ∃ r ∈ s.toll.store, fld r 8 8 = fld (slice f 4 104) 0 8 ∧ fld r 0 1 = 3)
  (hv : Config.verifies (key ++ [0x41, 0x43, 0x4B] ++ serial ++ slice (slice f 4 104) 0 8 ++ slice (slice f 4 104) 8 96) = true)
include hk hr hv

/-- A verified ACK moves ACKED on, lets a Tollhouse that stopped run again if it has room now, and writes ACK_RECEIVED. -/
theorem execTollAck_verified : execTollAck f s = .next
    (let u : State := { s with toll := { s.toll with acked := max s.toll.acked (fld (slice f 4 104) 0 8 + 1) } }
    let v : State := if u.toll.stopped = true ∧ u.toll.room = true then
        { u.tollEvent 6 0 with toll := { (u.tollEvent 6 0).toll with stopped := false } } else u
    (v.tollEvent 9 (fld (slice f 4 104) 0 8)).emit (.toll (portResponse 3 0 []))) := by
  have hs : (s.toll.store.any fun r => decide (fld r 8 8 = fld (slice f 4 104) 0 8 ∧ fld r 0 1 = 3)) = true := by simpa using hr
  refine congrArg Host.Outcome.next (port_answers hp ha hb hc hn ?_)
  rw [hk]
  dsimp only
  rw [hs, hv]
  rfl

theorem execTollAck_running (h : s.toll.stopped = false) : execTollAck f s = .next
    ((State.tollEvent { s with toll := { s.toll with acked := max s.toll.acked (fld (slice f 4 104) 0 8 + 1) } } 9
      (fld (slice f 4 104) 0 8)).emit (.toll (portResponse 3 0 []))) := by
  refine (execTollAck_verified hp ha hb hc hn hk hr hv).trans ?_
  dsimp only
  rw [if_neg fun k => ne_true_of_eq_false h k.1]

theorem execTollAck_stopped :
    let u : State := { s with toll := { s.toll with acked := max s.toll.acked (fld (slice f 4 104) 0 8 + 1) } }
    s.toll.stopped = true → u.toll.room = true → execTollAck f s = .next
      ((State.tollEvent { u.tollEvent 6 0 with toll := { (u.tollEvent 6 0).toll with stopped := false } } 9
        (fld (slice f 4 104) 0 8)).emit (.toll (portResponse 3 0 []))) := by
  intro u hs hroom
  refine (execTollAck_verified hp ha hb hc hn hk hr hv).trans ?_
  dsimp only
  rw [if_pos ⟨hs, hroom⟩]

end

end

theorem execCommission_again (hc : fld f 1 1 = 7) (hn : fld f 2 2 = 96) {k : List Byte} (h : s.toll.collector = some k) :
    execCommission f s = .next (s.emit (.toll (portResponse 7 4 []))) :=
  congrArg Host.Outcome.next (port_answers hp ha hb hc hn (if_pos (by rw [h]; rfl)))

theorem execCommission_first (hc : fld f 1 1 = 7) (hn : fld f 2 2 = 96) (h : s.toll.collector = none) :
    execCommission f s = .next
      ((State.tollEvent { s with toll := { s.toll with collector := some (leBytes 48 (Config.crypto (slice f 4 96))) } } 8 0).emit
        (.toll (portResponse 7 0 []))) :=
  congrArg Host.Outcome.next (port_answers hp ha hb hc hn (if_neg (by rw [h]; nofun)))

theorem execSetBaud_noRate (hc : fld f 1 1 = 8) (hn : fld f 2 2 = 1) (h : 2 < fld (slice f 4 1) 0 1) :
    execSetBaud f s = .next (s.emit (.toll (portResponse 8 3 []))) :=
  congrArg Host.Outcome.next (port_answers hp ha hb hc hn (if_pos h))

theorem execSetBaud_rate (hc : fld f 1 1 = 8) (hn : fld f 2 2 = 1) (h : fld (slice f 4 1) 0 1 ≤ 2) :
    execSetBaud f s = .next (State.emit { s with toll := { s.toll with baud := fld (slice f 4 1) 0 1 } } (.toll (portResponse 8 0 []))) :=
  congrArg Host.Outcome.next (port_answers hp ha hb hc hn (if_neg (Nat.not_lt.2 h)))

end

/-- The rows of the port's commands with a frame each. -/
theorem portCommand_unpowered {s : State} (hp : s.toll.powered = false) (f : List Byte) :
    ∀ x ∈ [Instr.tollStatus f, .tollPortRead f, .tollAck f, .tollCert f, .tollInstant f, .tollAttest f, .commission f, .setBaud f],
      exec x s = .next s := by
  intro x hx
  simp only [List.mem_cons, List.not_mem_nil, or_false] at hx
  obtain rfl | rfl | rfl | rfl | rfl | rfl | rfl | rfl := hx <;> exact congrArg Host.Outcome.next (port_unpowered hp)

theorem portCommand_refuses {s : State} {f : List Byte} {e : Nat} (hp : s.toll.powered = true) (ha : fld f 0 1 = 0xA5) (h : portBad f = some e) :
    ∀ x ∈ [Instr.tollStatus f, .tollPortRead f, .tollAck f, .tollCert f, .tollInstant f, .tollAttest f, .commission f, .setBaud f],
      exec x s = .next (s.emit (.toll (portResponse (fld f 1 1) e []))) := by
  intro x hx
  simp only [List.mem_cons, List.not_mem_nil, or_false] at hx
  obtain rfl | rfl | rfl | rfl | rfl | rfl | rfl | rfl := hx <;> exact congrArg Host.Outcome.next (port_refuses hp ha h)

/-- Settles O36: each row in its case, the measurement through `execActivityFrame_closes` and `execIntervalTimeout_closes`, the port
through `port_answers`. -/
theorem tollhouse : Obligations.Tollhouse := by
  intro s
  refine ⟨fun ok n us energy counts below => ⟨execActivityFrame_ignored, fun hp hs hu hf => execActivityFrame_closes hp hs hu hf⟩,
    fun hp energy below => execIntervalTimeout_closes hp,
    fun hp => ⟨fun k => execPeriodEnd_ended hp, fun he hl ht => ?expired, fun he ht => ?early⟩,
    fun hp c => ⟨fun h => ?kept, fun hb h1 h6 => ?breaks⟩,
    execVtollLoss_powered, fun hp => ?unpowered, fun hp c => congrArg Host.Outcome.next (if_pos hp),
    execTollStatusMirror_sends, execTollMirrorTimeout_late, execTollMirrorTimeout_waits,
    fun hp f ha => ⟨fun e he => portCommand_refuses hp ha he, fun hb => ?port⟩⟩
  case expired => exact (execPeriodEnd_running hp he).trans (congrArg _ (if_pos ⟨hl, ht⟩))
  case early => exact (execPeriodEnd_running hp he).trans (congrArg _ (if_neg fun h => Nat.not_le.2 ht h.2))
  case kept => exact (execSealBreak_powered hp).trans (congrArg _ (breakSeal_ignored h))
  case breaks => exact (execSealBreak_powered hp).trans (congrArg _ (breakSeal_breaks hb h1 h6))
  case unpowered =>
    have off : (!s.toll.powered) = true := by rw [hp]; rfl
    refine ⟨fun e b => congrArg Host.Outcome.next (if_pos off), congrArg Host.Outcome.next (if_pos off),
      fun c => congrArg Host.Outcome.next (if_neg (ne_true_of_eq_false hp)), congrArg Host.Outcome.next (if_pos off),
      congrArg Host.Outcome.next (if_pos (.inl off)), portCommand_unpowered hp,
      fun c => ⟨fun h => (execTollhousePowerUp_unpowered hp).trans ?_, execTollhousePowerUp_unpowered hp⟩⟩
    rw [breakSeal_ignored (s := s.tollPowered) h]
    rfl
  case port =>
    exact ⟨fun hc hn => congrArg Host.Outcome.next (port_answers hp ha hb hc hn rfl),
      fun hc hn => ⟨execTollPortRead_noRecord hp ha hb hc hn, execTollPortRead_records hp ha hb hc hn⟩,
      fun hc hn => ⟨execTollAck_uncommissioned hp ha hb hc hn, fun key hk hr hv =>
        ⟨execTollAck_running hp ha hb hc hn hk hr hv, execTollAck_stopped hp ha hb hc hn hk hr hv⟩⟩,
      fun hc hn => congrArg Host.Outcome.next (port_answers hp ha hb hc hn rfl),
      fun hc hn => congrArg Host.Outcome.next (port_answers hp ha hb hc hn rfl),
      fun hc hn => congrArg Host.Outcome.next (port_answers hp ha hb hc hn rfl),
      fun hc hn => ⟨fun k => execCommission_again hp ha hb hc hn, execCommission_first hp ha hb hc hn⟩,
      fun hc hn => ⟨execSetBaud_noRate hp ha hb hc hn, execSetBaud_rate hp ha hb hc hn⟩⟩

end Sys2Proof.Machine
end

section
/-! SUPPORT. The Tollhouse is an island (spec 19: R708, R710, R726, R729, R731): what its rows can change of the shore. -/

namespace Sys2Proof.Machine

/-- The second state differs from the first in the Tollhouse, its mirror, what the shore observes and tells the host, its output, the free
values drawn and the Tollhouse's own rail, at most. -/
def OnIsland (s t : State) : Prop :=
  t = { s with
    toll := t.toll, mirror := t.mirror, out := t.out, free := t.free, obs := t.obs, host := t.host, regs := t.regs
    power := { s.power with rails := t.power.rails } } ∧
  t.power.rails.filter (· ≠ 10) = s.power.rails.filter (· ≠ 10)

namespace OnIsland

theorem refl (s : State) : OnIsland s s := ⟨rfl, rfl⟩

theorem trans {r s t : State} (h : OnIsland r s) (k : OnIsland s t) : OnIsland r t := by
  obtain ⟨hs, hr⟩ := h
  obtain ⟨ks, kr⟩ := k
  refine ⟨?_, kr.trans hr⟩
  rw [hs] at ks
  exact ks

theorem ite {p : Prop} [Decidable p] {r s t : State} (h : OnIsland r s) (k : OnIsland r t) : OnIsland r (if p then s else t) := by
  split
  · exact h
  · exact k

theorem foldl {α : Type} {f : State → α → State} (hf : ∀ s x, OnIsland s (f s x)) : ∀ (l : List α) (s : State), OnIsland s (l.foldl f s)
  | [], s => refl s
  | x :: l, s => (hf s x).trans (foldl hf l (f s x))

/-- Whatever changes in the Tollhouse alone. -/
theorem toll {r s : State} (h : OnIsland r s) (x : Toll) : OnIsland r { s with toll := x } := h.trans ⟨rfl, rfl⟩

theorem emit {r s : State} (h : OnIsland r s) (o : Output) : OnIsland r (s.emit o) := h.trans ⟨rfl, rfl⟩

theorem of_raised {s t : State} (h : Raised s t) : OnIsland s t := by
  unfold Raised at h
  rw [h]
  exact ⟨rfl, rfl⟩

end OnIsland

/-! ### Reports -/

theorem interrupt_onIsland (s : State) (n : Nat) : OnIsland s (s.interrupt n) := .of_raised (interrupt_raised s n)

theorem ringEvent_onIsland (s : State) (e : Event) : OnIsland s (s.ringEvent e) := by
  unfold State.ringEvent
  extract_lets es st st' lost obs s1 s2
  have h : OnIsland s s2 := ⟨rfl, rfl⟩
  exact .ite h (h.trans ⟨rfl, rfl⟩)

theorem event_onIsland (s : State) (r : Report) (n : Nat) : OnIsland s (s.event r n) := by
  unfold State.event
  extract_lets e s1 s2 s3 obs s4
  have h1 : OnIsland s s1 := ((OnIsland.trans ⟨rfl, rfl⟩ (ringEvent_onIsland s.drew.drew e)).trans (interrupt_onIsland _ 0))
  have h2 : OnIsland s s2 := .ite (h1.trans (interrupt_onIsland _ 3)) h1
  have h3 : OnIsland s s3 := .ite (h2.trans (interrupt_onIsland _ 4)) h2
  have h4 : OnIsland s s4 := h3.trans ⟨rfl, rfl⟩
  exact .ite (h4.trans ⟨rfl, rfl⟩) h4

theorem report_onIsland (s : State) (r : Report) : OnIsland s (s.report r) := by
  unfold State.report
  extract_lets s1 old m
  have h1 : OnIsland s s1 := .ite (.refl s) ⟨rfl, rfl⟩
  exact .ite (h1.trans ⟨rfl, rfl⟩) (h1.trans (event_onIsland s1 r 1))

/-! ### Records -/

theorem mirrorRecord_onIsland (s : State) (r : List Byte) : OnIsland s (s.mirrorRecord r) := by
  unfold State.mirrorRecord
  extract_lets seq ring gap mirror s1
  have h1 : OnIsland s s1 := ⟨rfl, rfl⟩
  exact .ite (.refl s) (.ite (h1.trans (report_onIsland s1 _)) h1)

theorem tollWrite_onIsland (s : State) (kind : Nat) (head body : List Byte) : OnIsland s (s.tollWrite kind head body) := by
  unfold State.tollWrite
  extract_lets t chain r
  exact ((OnIsland.refl s).toll (t.put r)).trans (mirrorRecord_onIsland _ r)

theorem tollEvent_onIsland (s : State) (event detail : Nat) : OnIsland s (s.tollEvent event detail) :=
  .ite (OnIsland.trans ⟨rfl, rfl⟩ (tollWrite_onIsland s.drew _ _ _)) ((OnIsland.refl s).toll _)

theorem tollSign_onIsland (s : State) : OnIsland s s.tollSign :=
  .ite ((OnIsland.refl s).toll _) ((tollWrite_onIsland s _ _ _).toll _)

theorem guestRecord_onIsland (s : State) (a : Account) (stop : Nat) : OnIsland s (s.guestRecord a stop) :=
  .ite (.refl s) (.ite (((tollWrite_onIsland s _ _ _).toll _).toll _)
    (OnIsland.toll (.ite (.refl s) ((tollEvent_onIsland s 5 0).toll _)) _))

theorem shoreRecord_onIsland (s : State) (stop : Nat) : OnIsland s (s.shoreRecord stop) :=
  .ite ((OnIsland.refl s).toll _) ((tollWrite_onIsland s _ _ _).toll _)

theorem closePeriod_onIsland (s : State) (stop : Nat) : OnIsland s (s.closePeriod stop) := by
  unfold State.closePeriod
  extract_lets order s1 s2
  have h1 : OnIsland s s1 := .foldl (fun s _ => guestRecord_onIsland s _ _) order s
  exact ((h1.trans (shoreRecord_onIsland s1 stop)).trans (tollSign_onIsland _)).toll _

theorem settlePeriod_onIsland (s : State) : OnIsland s s.settlePeriod := by
  unfold State.settlePeriod
  split
  · exact closePeriod_onIsland s _
  · exact .refl s

theorem breakSeal_onIsland (s : State) (cause : Nat) : OnIsland s (s.breakSeal cause) :=
  .ite (.refl s) (((tollEvent_onIsland s 7 cause).trans (tollSign_onIsland _)).toll _)

/-! ### Measurement, seal and supply -/

section
variable (s : State)

theorem execActivityFrame_onIsland (crc : Bool) (n us : Nat) (energy : List Nat) (counts : List (Nat × List Nat)) (below : Bool) :
    EndsIn OnIsland s (execActivityFrame crc n us energy counts below s) :=
  EndsIn.next (.ite (.refl s) ((settlePeriod_onIsland s).trans (.toll (.ite (tollEvent_onIsland _ 4 0) (.refl _)) _)))

theorem execIntervalTimeout_onIsland (energy : List Nat) (below : Bool) : EndsIn OnIsland s (execIntervalTimeout energy below s) :=
  EndsIn.next (.ite (.refl s) ((settlePeriod_onIsland s).trans (.toll (.ite (.refl _) (tollEvent_onIsland _ 3 0)) _)))

theorem execPeriodEnd_onIsland : EndsIn OnIsland s (execPeriodEnd s) := by
  refine EndsIn.next (.ite (.refl s) ?_)
  split
  · exact closePeriod_onIsland s _
  · exact .ite (((OnIsland.refl s).toll _).trans (closePeriod_onIsland _ _)) (.refl s)

theorem execSealBreak_onIsland (cause : Nat) : EndsIn OnIsland s (execSealBreak cause s) :=
  EndsIn.next (.ite (breakSeal_onIsland s cause) (.refl s))

theorem execVtollLoss_onIsland : EndsIn OnIsland s (execVtollLoss s) :=
  EndsIn.next (.ite (.refl s) ((tollEvent_onIsland s 2 0).trans ⟨rfl, by simp [List.filter_filter]⟩))

theorem filter_setAdd_self (l : List Nat) (x : Nat) : (setAdd x l).filter (· ≠ x) = l.filter (· ≠ x) := by
  unfold setAdd
  split
  · rfl
  · simp [List.filter_append]

theorem execTollhousePowerUp_onIsland (cause : Nat) : EndsIn OnIsland s (execTollhousePowerUp cause s) :=
  EndsIn.next (.ite (.refl s) ((OnIsland.trans ⟨rfl, filter_setAdd_self _ 10⟩ (breakSeal_onIsland _ cause)).trans (tollEvent_onIsland _ 1 _)))

theorem execTollStatusMirror_onIsland : EndsIn OnIsland s (execTollStatusMirror s) := EndsIn.next (.ite (.refl s) ⟨rfl, rfl⟩)

theorem execTollMirrorTimeout_onIsland : EndsIn OnIsland s (execTollMirrorTimeout s) :=
  EndsIn.next (.ite (.refl s) (OnIsland.trans ⟨rfl, rfl⟩ (report_onIsland _ _)))

end

/-! ### The port -/

/-- What a command's effect leaves in force, and its answer too, holds of a request. -/
theorem port_leaves {R : State → State → Prop} {s : State} {frame : List Byte} {cmd len : Nat} {f : List Byte → State → State × Nat × List Byte}
    (refl : R s s) (emit : ∀ t o, R s t → R s (t.emit o)) (hf : ∀ p, R s (f p s).1) : R s (s.port' frame cmd len f) := by
  unfold State.port'
  split
  · exact refl
  · split
    · exact emit s _ refl
    · split
      · exact refl
      · split
        · exact emit s _ refl
        · exact emit _ _ (hf _)

theorem Spoken.emit {s t : State} (h : Spoken s t) (o : Output) : Spoken s (t.emit o) := by
  unfold Spoken at h
  rw [h]
  rfl

theorem Spoken.onIsland {s t : State} (h : Spoken s t) : OnIsland s t := by
  unfold Spoken at h
  rw [h]
  exact ⟨rfl, rfl⟩

section
variable (s : State) (frame : List Byte)

theorem port_spoken {cmd len : Nat} {f : List Byte → State → State × Nat × List Byte} (hf : ∀ p, Spoken s (f p s).1) :
    EndsIn Spoken s (.next (s.port' frame cmd len f)) :=
  EndsIn.next (port_leaves (Spoken.refl s) (fun _ o h => h.emit o) hf)

theorem port_onIsland {cmd len : Nat} {f : List Byte → State → State × Nat × List Byte} (hf : ∀ p, OnIsland s (f p s).1) :
    EndsIn OnIsland s (.next (s.port' frame cmd len f)) :=
  EndsIn.next (port_leaves (.refl s) (fun _ o h => h.emit o) hf)

theorem execTollStatus_spoken : EndsIn Spoken s (execTollStatus frame s) := port_spoken s frame fun _ => rfl

theorem execTollPortRead_spoken : EndsIn Spoken s (execTollPortRead frame s) := by
  refine port_spoken s frame fun p => ?_
  dsimp only
  split <;> exact Spoken.refl s

theorem execTollCert_spoken : EndsIn Spoken s (execTollCert frame s) := port_spoken s frame fun _ => rfl

theorem execTollInstant_spoken : EndsIn Spoken s (execTollInstant frame s) := port_spoken s frame fun _ => rfl

theorem execTollAttest_spoken : EndsIn Spoken s (execTollAttest frame s) := port_spoken s frame fun _ => rfl

theorem execTollAck_onIsland : EndsIn OnIsland s (execTollAck frame s) := by
  refine port_onIsland s frame fun p => ?_
  extract_lets upto signature ok toll s1 s2 toll' s3
  split
  · exact .refl s
  · have h1 : OnIsland s s1 := (OnIsland.refl s).toll _
    have h3 : OnIsland s s3 := .ite ((h1.trans (tollEvent_onIsland s1 6 0)).toll _) h1
    exact h3.trans (tollEvent_onIsland s3 9 upto)

theorem execCommission_onIsland : EndsIn OnIsland s (execCommission frame s) := by
  refine port_onIsland s frame fun p => ?_
  dsimp only
  split
  · exact .refl s
  · exact ((OnIsland.refl s).toll _).trans (tollEvent_onIsland _ 8 0)

/-- The second state differs from the first in the output and the rate of the port's UART, at most. -/
def Retuned (s t : State) : Prop := t = { s with out := t.out, toll := { s.toll with baud := t.toll.baud } }

theorem Retuned.emit {s t : State} (h : Retuned s t) (o : Output) : Retuned s (t.emit o) := by
  unfold Retuned at h
  rw [h]
  rfl

theorem Retuned.onIsland {s t : State} (h : Retuned s t) : OnIsland s t := by
  unfold Retuned at h
  rw [h]
  exact ⟨rfl, rfl⟩

theorem execSetBaud_retuned : EndsIn Retuned s (execSetBaud frame s) := by
  refine EndsIn.next (port_leaves (R := Retuned) rfl (fun _ o h => h.emit o) fun p => ?_)
  dsimp only
  split
  · exact (rfl : Retuned s s)
  · exact (rfl : Retuned s { s with toll := { s.toll with baud := fld p 0 1 } })

end

/-- Settles O55: row by row, from what each part of the Tollhouse's work leaves in force; the reading commands and SET_BAUD leave more. -/
theorem tollhouseFrame : Obligations.TollhouseFrame := by
  intro s n us cause crc below energy counts frame
  have quiet {o} (h : EndsIn Spoken s o) : EndsIn OnIsland s o := h.imp fun _ k => k.imp_right Spoken.onIsland
  refine ⟨fun c hc => ?_, fun c hc => ?_, execSetBaud_retuned s frame⟩
  · simp only [List.mem_cons, List.not_mem_nil, or_false] at hc
    obtain rfl | rfl | rfl | rfl | rfl | rfl | rfl | rfl | rfl | rfl | rfl | rfl | rfl | rfl | rfl | rfl := hc
    · exact execActivityFrame_onIsland s crc n us energy counts below
    · exact execIntervalTimeout_onIsland s energy below
    · exact execPeriodEnd_onIsland s
    · exact execSealBreak_onIsland s cause
    · exact execVtollLoss_onIsland s
    · exact execTollhousePowerUp_onIsland s cause
    · exact execTollStatusMirror_onIsland s
    · exact execTollMirrorTimeout_onIsland s
    · exact quiet (execTollStatus_spoken s frame)
    · exact quiet (execTollPortRead_spoken s frame)
    · exact execTollAck_onIsland s frame
    · exact quiet (execTollCert_spoken s frame)
    · exact quiet (execTollInstant_spoken s frame)
    · exact quiet (execTollAttest_spoken s frame)
    · exact execCommission_onIsland s frame
    · exact (execSetBaud_retuned s frame).imp fun _ k => k.imp_right Retuned.onIsland
  · simp only [List.mem_cons, List.not_mem_nil, or_false] at hc
    obtain rfl | rfl | rfl | rfl | rfl := hc
    · exact execTollStatus_spoken s frame
    · exact execTollPortRead_spoken s frame
    · exact execTollCert_spoken s frame
    · exact execTollInstant_spoken s frame
    · exact execTollAttest_spoken s frame

end Sys2Proof.Machine
end
